-- ==== Sys2Proof/Word.lean ====
section
/-!
DEFINITION. The word types of the model and the sparse map every keyed piece of state is held in.

The H9 names 8-bit, 32-bit and 64-bit quantities throughout; a register of the register map is 32 or 64 bits wide
(spec/17, R455).  A sparse map is a list of (key, value) pairs with keys strictly rising and no value equal to the
default the map is read with, so that equal contents are equal data.
-/
namespace Sys2Proof

/-- One byte. -/
abbrev Byte := BitVec 8
/-- A 32-bit word: a scalar register, a vector lane, a CSR (R56, R60). -/
abbrev Word := BitVec 32
/-- A 64-bit double word: an instruction word (R66), a timeline value (R83), a register of the map (R455). -/
abbrev DWord := BitVec 64
/-- A vector register, 64 lanes of 32 bits (R56). -/
abbrev VReg := BitVec 2048
/-- A sparse map from keys to values, in canonical form (keys strictly rising, no default listed). -/
abbrev SMap (α : Type) := List (Nat × α)
/-- Byte-addressed memory: `Host.Cell`s in canonical form; an unlisted address reads as zero. -/
abbrev Mem := List Host.Cell

end Sys2Proof
end

