-- ==== Sys2Proof/Syntax.lean ====
section
/-!
DEFINITION. The commands of the H9: the operand types and the one inductive `Instr`, one constructor per row of the
spec's command table.  A core instruction carries the global number `c` of the core that executes it (R13) and the
fields its encoding gives it; a unit's command carries what the unit, a neighbour or a pin supplies.
-/
namespace Sys2Proof

/-- OP 0x01 and 0x02 operations (R69, R70). -/
inductive AluOp where
  | add | sub | and | or | xor | sll | srl | sra | slt | sltu | min | max | minu | maxu | mul | mulh | mulhu | sel
  deriving DecidableEq, Repr

/-- Branch conditions of OP 0x03 (R69). -/
inductive Cond where | eq | ne | lt | ge | ltu | geu
  deriving DecidableEq, Repr

/-- Scalar loads (R69). -/
inductive LoadKind where | ldb | ldbu | ldh | ldhu | ldw
  deriving DecidableEq, Repr

/-- Scalar stores (R69). -/
inductive StoreKind where | stb | sth | stw
  deriving DecidableEq, Repr

/-- OP 0x10 (R114, R123). -/
inductive VfOp where
  | add | sub | mul | fma | min | max | abs | neg | rcp | rsq | exp2 | log2 | cvti | icvtf
  deriving DecidableEq, Repr

/-- OP 0x11 (R115, R123). -/
inductive ViOp where
  | add | sub | mul | and | or | xor | sll | srl | sra | min | max | minu | maxu | slli | srli | srai
  deriving DecidableEq, Repr

/-- OP 0x12 compares (R116, R123). -/
inductive VcOp where | fclt | fcle | fceq | fcun | clt | cltu | ceq
  deriving DecidableEq, Repr

/-- OP 0x12 mask logic (R116, R123). -/
inductive MaskOp where | and | or | xor | andn
  deriving DecidableEq, Repr

/-- OP 0x14 reductions (R118, R123). -/
inductive RedOp where | fsum | fmax | fmin | famax | sum | max | min
  deriving DecidableEq, Repr

/-- The fields of format X (R99). -/
structure XFields where
  a : Nat
  b : Nat
  c : Nat
  d : Nat
  f1 : Nat
  f2 : Nat
  mod : Nat
  deriving DecidableEq, Repr

/-- What an ECC check finds: the environment decides it (spec/05 R126, spec/06 R173, spec/07 R207). -/
inductive Ecc where | clean | corrected | uncorrectable
  deriving DecidableEq, Repr

/-- What a Seedbank request does to one line (R174): a read, or a write of the bytes enabled in `be`. -/
inductive SbOp where
  | read
  | write (data : BitVec 512) (be : DWord) (poison : Bool)
  deriving DecidableEq, Repr

/-- A Seedbank request (R158): its VD, whether it comes through a context whose exec names the bin's hot-set entry,
whether it carries the new routing epoch, what it does, and what the bank's ECC finds. -/
structure SbReq where
  vd : Nat
  hotOk : Bool
  newEpoch : Bool
  op : SbOp
  ecc : Ecc
  deriving DecidableEq, Repr

/-- How a host access reaches the register space (R456, R263): the function whose BAR it hits, numbered 0 PF A, 1 PF B,
2 + 128 × port + (n − 1) for VF n; whether it came on that VF's bound stream with T = 1; whether all byte enables of each
DWORD are set. -/
structure Access where
  fn : Nat
  tee : Bool
  full : Bool
  deriving DecidableEq, Repr

/-- What an end of a start-up stage finds (R16, R476, R491, R492): the units that failed self-test (0 north and 1 south toll
timekeeper, 2 north and 3 south clock monitor), the straps, the stacks whose PHYs did not train, and whether the
stage's deadline passed. -/
structure StartupIn where
  failed : List Nat
  hpmode : Bool
  hint : Nat
  untrained : List Nat
  late : Bool
  deriving DecidableEq, Repr

/-- A firmware image as the security controller finds it (R386, R494): whether its signature verifies, the versions of its
set (security controller, device, PHY: R464), and measurements 2, 3 and 4. -/
structure FwImage where
  ok : Bool
  version : Nat
  devfw : Nat
  phyfw : Nat
  m2 : BitVec 384
  m3 : BitVec 384
  m4 : BitVec 384
  deriving DecidableEq, Repr

/-- An SPDM request of the host TSM (R387): by its request code and its payload words. -/
structure SpdmReq where
  code : Nat
  body : List Word
  deriving DecidableEq, Repr

/-- A PCIe configuration write (R263, R249, R235, R236). -/
inductive CfgWrite where
  | bar0 (v : Nat) | bar2 (v : Nat) | mse (b : Bool) | d3 (b : Bool) | ats (b : Bool) | pri (b : Bool)
  | msix (b : Bool)
  deriving DecidableEq, Repr

/-- A request at the head of an arbiter's input in a store cycle (R168, R169): its input, its class label, its VD, the
resource it needs, the lines of its class its requester has outstanding where this is its first arbiter (R333; 0 at a
later one), the channel, or 1024 + 128 × port + VD, that a token regulator counts it at (65535: none), the lines it
moves, and the keys of its requester's and target's reset domains (255: none). -/
structure ArbHead where
  input : Nat
  cls : Nat
  vd : Nat
  res : Nat
  outst : Nat
  share : Nat
  lines : Nat
  reqDom : Nat
  tgtDom : Nat
  deriving DecidableEq, Repr

/-- The line of a TOLL frame (R363); `corr` is the residence time switches added, in ns (R351, R364). -/
structure TollLine where
  txcount : Nat
  rxcount : Nat
  echo : Nat
  epoch : Nat
  master : Nat
  hops : Nat
  mprio : Nat
  extref : Bool
  synced : Bool
  fstep : Nat
  fperiod : Nat
  cred0 : Nat
  cred1 : Nat
  hopack : Nat
  corr : Nat
  deriving DecidableEq, Repr

/-- The body of a notice, by CODE (R354). -/
inductive NoticeBody where
  | join (part npartm1 mask handle : Nat) (digest : BitVec 384)
  | prepare (alt : Nat)
  | prepared (part k : Nat)
  | commit (alt b : Nat)
  | abandon (reason part : Nat)
  | keyret (keyId b : Nat)
  | keydrain (keyId b : Nat)
  | peerlost (dev inc : Nat)
  | peerdown (dev inc : Nat)
  | lsreport (head : Nat) (lag : Bool) (k : Nat)
  | role (served dropped b : Nat)
  | reserved (code : Nat)
  deriving DecidableEq, Repr

/-- A notice with its common header (R354). -/
structure Notice where
  teardown : Bool
  nseq : Nat
  group : Nat
  body : NoticeBody
  deriving DecidableEq, Repr

/-- What a DATA frame's inner descriptor names (R355), with the transfer's lines in all. -/
structure DataDesc where
  xfer : Nat
  attempt : Nat
  dstLine : Nat
  off : Nat
  total : Nat
  sig : Bool
  tl : Nat
  sval : Nat
  fill : Bool
  deriving DecidableEq, Repr

/-- What a DISC frame says of its sender (R347): kind 1 an H9, 2 a switch. -/
structure Disc where
  kind : Nat
  domain : Nat
  devno : Nat
  inc : Nat
  toll : Nat
  epoch : Nat
  master : Nat
  deriving DecidableEq, Repr

/-- An SPDM frame: a KEY_UPDATE of a session, or a message of an authentication; its last message says what it has shown
of the partner: whether it verified, its chain, its measurements 2, 3 and 4, and DBG of its measurement 6 (R348, R349,
R387). -/
structure SpdmMsg where
  update : Bool
  last : Bool
  ok : Bool
  chainOk : Bool
  m2 : BitVec 384
  m3 : BitVec 384
  m4 : BitVec 384
  dbg : Nat
  deriving DecidableEq, Repr

/-- A pool request or response (R373): pages of 4,096 bytes of ciphertext with their tags. -/
inductive PoolMsg where
  | fetch (group record page : Nat)
  | page (group record page pages version stack : Nat) (ct : List Byte) (tag : BitVec 128)
  | none (group record : Nat)
  | write (group record page pages version : Nat) (ct : List Byte) (tag : BitVec 128)
  | written (group record page stack version : Nat) (refused : Bool)
  deriving DecidableEq, Repr

/-- The payload of a frame, by TYPE (R353). -/
inductive FrameBody where
  | data (d : DataDesc) (lines : List (BitVec 512))
  | ack (xfer attempt : Nat)
  | nobuf (xfer attempt : Nat) (refused : Bool)
  | ctrl (n : Notice)
  | toll (t : TollLine)
  | credit (cred0 cred1 hopack : Nat)
  | disc (d : Disc)
  | spdm (m : SpdmMsg)
  | pool (m : PoolMsg)
  | reserved (typ : Nat)
  deriving DecidableEq, Repr

/-- A Finwin frame: the header of R352 and its payload; `tagOk` tells whether its GCM tag verifies under the key its
header names. -/
structure Frame where
  dst : Nat
  src : Nat
  sepoch : Nat
  keyId : Nat
  dvd : Nat
  cls : Nat
  len : Nat
  sinc : Nat
  dinc : Nat
  seq : Nat
  tagOk : Bool
  body : FrameBody
  deriving DecidableEq, Repr

/-- The commands, one constructor per row of the command table, in its order. -/
inductive Instr where
  /-- NOP: Core instruction that occupies one slot and does nothing. [R69] -/
  | nop (c : Nat)
  /-- WAITB: Core instruction that occupies imm slots. [R69] -/
  | waitb (c : Nat) (imm : Word)
  /-- HALT: Ends this core's part of the context while its router keeps stepping. [R72] -/
  | halt (c : Nat)
  /-- BRK: Raises BREAK with the immediate recorded in the exception record. [R69] -/
  | brk (c : Nat) (imm : Word)
  /-- CSRR: Reads a CSR into a scalar register in the back end. [R60] -/
  | csrr (c : Nat) (rd : Nat) (imm : Word)
  /-- CSRW: Writes a scalar register to a CSR. [R60] -/
  | csrw (c : Nat) (rs1 : Nat) (imm : Word)
  /-- SCALAR_ALU: Register-register scalar arithmetic, logic, shift, compare, multiply or SEL. [R70] -/
  | scalarAlu (c : Nat) (op : AluOp) (rd : Nat) (rs1 : Nat) (rs2 : Nat) (rs3 : Nat)
  /-- SCALAR_ALU_IMMEDIATE: Register-immediate scalar arithmetic and logic. [R69] -/
  | scalarAluImmediate (c : Nat) (op : AluOp) (rd : Nat) (rs1 : Nat) (imm : Word)
  /-- BRANCH: Conditional branch BEQ to BGEU, with FETCH_RANGE and LOOP_DEPTH checks when taken. [R69] -/
  | branch (c : Nat) (cond : Cond) (rs1 : Nat) (rs2 : Nat) (off : Word)
  /-- JAL: Jump and link to pc plus an immediate. [R69] -/
  | jal (c : Nat) (rd : Nat) (imm : Word)
  /-- JALR: Jump and link to a register plus an immediate. [R69] -/
  | jalr (c : Nat) (rd : Nat) (rs1 : Nat) (imm : Word)
  /-- LOOP: Starts a hardware loop, pushing a loop-stack entry or skipping the body on a zero count. [R71] -/
  | loop (c : Nat) (rs1 : Nat) (off : Word)
  /-- SCALAR_LOAD: LDB, LDBU, LDH, LDHU or LDW from the pocket. [R61] -/
  | scalarLoad (c : Nat) (k : LoadKind) (rd : Nat) (rs1 : Nat) (imm : Word)
  /-- SCALAR_STORE: STB, STH or STW to the pocket. [R61] -/
  | scalarStore (c : Nat) (k : StoreKind) (sd : Nat) (rs1 : Nat) (imm : Word)
  /-- VLD: Loads 256 bytes of the pocket into a vector register under a lane mask. [R69] -/
  | vld (c : Nat) (vd : Nat) (rs1 : Nat) (mk : Nat) (imm : Word)
  /-- VST: Stores a vector register to the pocket under a lane mask. [R69] -/
  | vst (c : Nat) (vd : Nat) (rs1 : Nat) (mk : Nat) (imm : Word)
  /-- ACCLD: Loads an accumulator tile from the pocket and sets its type. [R69] -/
  | accld (c : Nat) (acc : Nat) (rs1 : Nat) (ty : Bool) (imm : Word)
  /-- ACCST: Stores an accumulator tile to the pocket. [R69] -/
  | accst (c : Nat) (acc : Nat) (rs1 : Nat) (imm : Word)
  /-- SBLD: Issues an asynchronous transfer from the Seedbank to the pocket. [R80] -/
  | sbld (c : Nat) (rp : Nat) (rl : Nat) (tag : Nat) (n : Nat)
  /-- SBST: Issues an asynchronous transfer from the pocket to the Seedbank. [R80] -/
  | sbst (c : Nat) (rp : Nat) (rl : Nat) (tag : Nat) (n : Nat)
  /-- SBWAIT: Waits for every earlier transfer of a tag. [R80] -/
  | sbwait (c : Nat) (tag : Nat)
  /-- ISLD: Copies Seedbank lines into the instruction store. [R65] -/
  | isld (c : Nat) (rp : Nat) (rl : Nat) (n : Nat)
  /-- TLSIG: Signals a timeline slot with a register pair value as a release. [R84] -/
  | tlsig (c : Nat) (sn : Nat) (slot : Nat)
  /-- TLWAIT: Waits until a timeline reaches a value. [R83] -/
  | tlwait (c : Nat) (sn : Nat) (slot : Nat)
  /-- TLRD: Requests a timeline's current value into a register pair. [R74] -/
  | tlrd (c : Nat) (sn : Nat) (slot : Nat)
  /-- VECTOR_FP_ARITHMETIC: FP32 vector add, multiply, FMA, min, max, abs, neg, reciprocal, root, exp, log and conversions. [R114] -/
  | vectorFpArithmetic (c : Nat) (op : VfOp) (d : Nat) (a : Nat) (b : Nat) (c3 : Nat) (mk : Nat)
  /-- VECTOR_INTEGER: INT32 vector arithmetic, logic and shifts. [R115] -/
  | vectorInteger (c : Nat) (op : ViOp) (d : Nat) (a : Nat) (b : Nat) (mk : Nat) (imm : Nat)
  /-- VECTOR_COMPARE: Vector compares that write a mask register. [R116] -/
  | vectorCompare (c : Nat) (op : VcOp) (d : Nat) (a : Nat) (b : Nat) (mk : Nat)
  /-- MASK_LOGIC: MAND, MOR, MXOR or MANDN on mask registers. [R116] -/
  | maskLogic (c : Nat) (op : MaskOp) (d : Nat) (a : Nat) (b : Nat)
  /-- VBCAST: Writes a scalar to every lane. [R117] -/
  | vbcast (c : Nat) (d : Nat) (a : Nat) (mk : Nat)
  /-- VMVS: Moves one lane to a scalar register. [R117] -/
  | vmvs (c : Nat) (d : Nat) (a : Nat) (lane : Nat)
  /-- VMVSL: Writes a scalar to one lane. [R117] -/
  | vmvsl (c : Nat) (d : Nat) (a : Nat) (lane : Nat)
  /-- VPERM: Permutes lanes by index. [R117] -/
  | vperm (c : Nat) (d : Nat) (a : Nat) (b : Nat) (mk : Nat)
  /-- VSEL: Selects lanes from two registers by a mask. [R117] -/
  | vsel (c : Nat) (d : Nat) (a : Nat) (b : Nat) (mk : Nat)
  /-- VIOTA: Writes the lane index to each lane. [R117] -/
  | viota (c : Nat) (d : Nat) (mk : Nat)
  /-- VACCR: Copies a tile row to a vector register. [R117] -/
  | vaccr (c : Nat) (d : Nat) (a : Nat) (b : Nat)
  /-- VACCW: Copies a vector register to a tile row. [R117] -/
  | vaccw (c : Nat) (d : Nat) (a : Nat) (b : Nat)
  /-- MPOP: Counts the set bits of a mask. [R117] -/
  | mpop (c : Nat) (d : Nat) (a : Nat)
  /-- MTOS: Copies a mask to a register pair. [R117] -/
  | mtos (c : Nat) (d : Nat) (a : Nat)
  /-- STOM: Copies a register pair to a mask. [R117] -/
  | stom (c : Nat) (d : Nat) (a : Nat)
  /-- VECTOR_REDUCTION: Reduces 64 lanes by a fixed pairwise tree. [R118] -/
  | vectorReduction (c : Nat) (op : RedOp) (d : Nat) (a : Nat) (mk : Nat)
  /-- MMA: Matrix multiply-accumulate into a tile or tile pair. [R103] -/
  | mma (c : Nat) (x : XFields)
  /-- MMAE: Escalated matrix multiply using shadows for marked blocks. [R106] -/
  | mmae (c : Nat) (x : XFields)
  /-- CVT: Converts rows of a chunk, with optional shadow and chime mask. [R108] -/
  | cvt (c : Nat) (x : XFields)
  /-- VQNT: Quantises a vector register into a packed image. [R112] -/
  | vqnt (c : Nat) (x : XFields)
  /-- VDQNT: Decodes a packed image into FP32 lanes. [R112] -/
  | vdqnt (c : Nat) (x : XFields)
  /-- FRONT_END_ACCEPT: Each beat the front end evaluates the next slot's wait condition and accepts it or finds it false. [R75] -/
  | frontEndAccept (c : Nat) (t : Nat)
  /-- HOLD_TAKES_EFFECT: Twelve beats after the earliest request, every back end and router of the VD stops and roll starts. [R76] -/
  | holdTakesEffect (vd : Nat)
  /-- HOLD_RESUME: Twelve beats after release every core resumes, roll ends and HOLDBEATS counts. [R76] -/
  | holdResume (vd : Nat)
  /-- ROLL_LEVEL_DECAY: Every D wall beats of a hold a core's roll level falls by one toward FLOOR. [R422] -/
  | rollLevelDecay (c : Nat)
  /-- ROUTER_BEAT: A router executes its beat-table entry: read, add, send, write, counting empty and unclaimed inputs. [R131] -/
  | routerBeat (c : Nat)
  /-- DRUMLINE_DATUM_ARRIVAL: A datum reaches a router, is ECC-checked, VD-checked and placed in the skid buffer. [R139] -/
  | drumlineDatumArrival (c : Nat) (port : Nat) (ecc : Ecc)
  /-- SEAM_UNLOCK: The seam loses lock, discarding Drumline data and resetting spanning VDs. [R137] -/
  | seamUnlock
  /-- TRANSFER_RESPONSE: A transfer line's response or refusal returns to the core, completing lines or raising a late exception. [R82] -/
  | transferResponse (c : Nat) (xid : Nat) (line : Nat) (ecc : Ecc)
  /-- ISLD_COPY_COMPLETE: The ISLD copy finishes, letting the next instruction be fetched or raising POISON_CONSUMED. [R65] -/
  | isldCopyComplete (c : Nat)
  /-- TLRD_REPLY: The timeline unit's reply reaches the core and the pair becomes valid. [R74] -/
  | tlrdReply (c : Nat)
  /-- EXCEPTION_TAKES_EFFECT: An exception takes effect at its slot and the context begins to stop. [R86] -/
  | exceptionTakesEffect (c : Nat)
  /-- L1_CONTEXT_TEARDOWN: Once issued transfers and signals complete, the context's core and router state is discarded and its exec ends. [R429] -/
  | l1ContextTeardown (ctx : Nat)
  /-- EXEC_START: A runnable exec is chosen and started, with set checks, exec list checks, hot-set reloads, pool fetch and preloads before slot 0. [R282] -/
  | execStart (vd : Nat)
  /-- EXEC_COMPLETE: Every core has halted with its transfers and signals done, and the exec completes with its status. [R72] -/
  | execComplete (vd : Nat)
  /-- SLICE_EXPIRY: A running context's slice expires at its fourth toll boundary. [R324] -/
  | sliceExpiry (vd : Nat)
  /-- MEASURE_BOUNDARY_STOP: A requested stop reaches its measure boundary and the context is saved or, with NOSAVE, ended PREEMPTED. [R89] -/
  | measureBoundaryStop (vd : Nat)
  /-- CONTEXT_SAVE_COMPLETE: Every core's save record has been written. [R90] -/
  | contextSaveComplete (vd : Nat)
  /-- CONTEXT_RESTORE: A saved context is restored, its tables reloaded and its skid data re-marked, and it resumes at slot M. [R93] -/
  | contextRestore (vd : Nat)
  /-- DOORBELL_WRITE: Software writes TAIL and the queue engine takes the filled slots. [R272] -/
  | doorbellWrite (a : Access) (page : Nat) (tail : Nat)
  /-- QUE_QCTL_WRITE: Enables, disables or reconfigures a queue, resetting pointers on EN 0 to 1. [R271] -/
  | queQctlWrite (a : Access) (lq : Nat) (v : Word)
  /-- CQHEAD_WRITE: Software advances CQHEAD and held completion records are written. [R273] -/
  | cqheadWrite (a : Access) (lq : Nat) (v : Nat)
  /-- NOP_COMMAND: The NOP command completes without action. [R276] -/
  | nopCommand (seq : Nat)
  /-- CTX_CREATE: Creates a context with seed, save area and scheduling parameters. [R283] -/
  | ctxCreate (seq : Nat)
  /-- CTX_DESTROY: Tears down a context and frees its number. [R283] -/
  | ctxDestroy (seq : Nat)
  /-- OBJ_CREATE: Creates a memory object and returns its handle. [R284] -/
  | objCreate (seq : Nat)
  /-- OBJ_REF: Adds a host reference to an object. [R285] -/
  | objRef (seq : Nat)
  /-- OBJ_FREE: Drops a host reference, optionally waiting until the object is FREE. [R285] -/
  | objFree (seq : Nat)
  /-- VD_LIST_OBJECTS: VD_LIST with SEL 0 writes object entries. [R293] -/
  | vdListObjects (seq : Nat)
  /-- VD_LIST_CONTEXTS: VD_LIST with SEL 1 writes context entries. [R293] -/
  | vdListContexts (seq : Nat)
  /-- VD_LIST_TIMELINES: VD_LIST with SEL 2 writes timeline entries. [R293] -/
  | vdListTimelines (seq : Nat)
  /-- VD_LIST_QUEUES: VD_LIST with SEL 3 writes queue entries. [R293] -/
  | vdListQueues (seq : Nat)
  /-- TL_CREATE: Creates a timeline with an initial value and optional mirror. [R286] -/
  | tlCreate (seq : Nat)
  /-- TL_DESTROY: Removes a timeline from every slot and aborts its waits. [R286] -/
  | tlDestroy (seq : Nat)
  /-- TL_BIND: Binds or clears a timeline in a context slot with rights. [R276] -/
  | tlBind (seq : Nat)
  /-- TL_SIGNAL: Signals a timeline by SET or ADD. [R287] -/
  | tlSignal (seq : Nat)
  /-- TL_WAIT: Holds later commands of the queue until a timeline reaches a value. [R288] -/
  | tlWait (seq : Nat)
  /-- TL_WAIT_SATISFIED: The waited timeline reaches its value, or is poisoned, and the wait completes. [R288] -/
  | tlWaitSatisfied (seq : Nat)
  /-- VD_CREATE: Creates a VD, attaches its VF and assigns queue pairs. [R296] -/
  | vdCreate (seq : Nat)
  /-- VD_DESTROY: Starts the teardown sequence of a VD. [R399] -/
  | vdDestroy (seq : Nat)
  /-- BIND: Admits and places a shape alternative or a shape change. [R302] -/
  | bind (seq : Nat)
  /-- TBL_WRITE: Writes page-table words at a VD memory address through the MPE. [R276] -/
  | tblWrite (seq : Nat)
  /-- INVALIDATE: Invalidates cached translations of a range or a whole space. [R238] -/
  | invalidate (seq : Nat)
  /-- LOAD: Moves object data into the VD's working bins. [R276] -/
  | load (seq : Nat)
  /-- STORE: Moves working-bin data into an object. [R276] -/
  | store (seq : Nat)
  /-- COPY: Copies between two objects. [R276] -/
  | copy (seq : Nat)
  /-- HOT_LOAD: Creates and fills a hot-set entry from an object. [R180] -/
  | hotLoad (seq : Nat)
  /-- HOT_SET: Changes an entry's priority and pin bit. [R180] -/
  | hotSet (seq : Nat)
  /-- HOT_RELEASE: Removes a hot-set entry. [R180] -/
  | hotRelease (seq : Nat)
  /-- EXEC: Queues a context run with code, beat-table set, preloads, fallback chain and deadline. [R282] -/
  | exec (seq : Nat)
  /-- XFER: Sends Seedbank data to target parts over Finwin. [R361] -/
  | xfer (seq : Nat)
  /-- JRN_READ: Writes the VD's decrypted journal records to an object. [R292] -/
  | jrnRead (seq : Nat)
  /-- COMMAND_COMPLETE: A command ends: record written, timeline signalled or poisoned, references released, journal rewritten. [R278] -/
  | commandComplete (seq : Nat)
  /-- OBJECT_SCRUB_COMPLETE: Zero-fill of a retired object ends and the entry becomes FREE. [R285] -/
  | objectScrubComplete (idx : Nat)
  /-- TS_CERTS: Returns a chunk of the certificate chain. [R384] -/
  | tsCerts (vd : Nat)
  /-- TS_OPEN: Opens a tenant session and returns evidence. [R388] -/
  | tsOpen (vd : Nat)
  /-- TS_CLOSE: Closes the tenant session. [R384] -/
  | tsClose (vd : Nat)
  /-- KEY_PROVISION: Provisions a carve-out, group or capsule secret. [R390] -/
  | keyProvision (vd : Nat)
  /-- SET_PROVISION: Stores a device set key and returns SETID. [R393] -/
  | setProvision (vd : Nat)
  /-- SET_DROP: Drops a device set. [R393] -/
  | setDrop (vd : Nat)
  /-- SUBTREE_RESET: Resets a poisoned counter subtree through the MPE. [R396] -/
  | subtreeReset (vd : Nat)
  /-- DEBUG_GRANT: Issues a tenant debug grant. [R398] -/
  | debugGrant (vd : Nat)
  /-- DEBUG_REVOKE: Ends a tenant debug grant. [R398] -/
  | debugRevoke (vd : Nat)
  /-- SELF_DESTROY: Starts teardown of the tenant's own VD. [R401] -/
  | selfDestroy (vd : Nat)
  /-- DEV_ATTEST: Returns device evidence to the operator. [R384] -/
  | devAttest
  /-- PEER_POLICY: Sets the allowed peer measurement triples. [R387] -/
  | peerPolicy
  /-- FW_STAGE: Stages a signed firmware image for the next L6. [R386] -/
  | fwStage (img : FwImage)
  /-- DEBUG_OPEN: Opens system debug or debug under a grant. [R397] -/
  | debugOpen
  /-- DEBUG_MAP: Maps the debug aperture onto one target. [R398] -/
  | debugMap
  /-- DEBUG_CLOSE: Closes debug levels 1 and 2. [R397] -/
  | debugClose
  /-- JTAG_UNLOCK: Opens level 1 through JTAG or level 3 with a token. [R397] -/
  | jtagUnlock (valid : Bool)
  /-- DEBUG_GRANT_EXPIRY: A grant's duration ends at a toll boundary. [R398] -/
  | debugGrantExpiry (vd : Nat) (g : Nat)
  /-- MOVE: Operator request that moves a VD off a half or to the preferred placement. [R318] -/
  | move
  /-- EVACUATE: Operator request that moves every VD off a resource and withholds it. [R318] -/
  | evacuate
  /-- RELIMIT: Operator request that replaces a VD's limits. [R318] -/
  | relimit
  /-- UNSEAM: Operator request that moves a VD to a non-spanning placement. [R318] -/
  | unseam
  /-- RELEASE: Operator request that makes an evacuated resource grantable again. [R318] -/
  | release
  /-- ROLE_CHANGE: GO of CMP_ROLECTL changes the device role or served stacks. [R319] -/
  | roleChange (v : Word)
  /-- RESET_REQUEST_L2: ERR_RSTCTL requests an L2 of a VD. [R432] -/
  | resetRequestL2 (vd : Nat)
  /-- RESET_REQUEST_L3: ERR_RSTCTL requests an L3 of a half. [R432] -/
  | resetRequestL3 (half : Nat)
  /-- RESET_REQUEST_L4: ERR_RSTCTL requests an L4. [R432] -/
  | resetRequestL4
  /-- RESET_REQUEST_L5: ERR_RSTCTL requests an L5, which pre-empts. [R432] -/
  | resetRequestL5
  /-- ROOT_WRITE: A write to XLT_SYSROOT or XLT_VDROOT changes the root and runs a whole-space invalidation. [R229] -/
  | rootWrite (space : Nat) (v : DWord)
  /-- FAULT_RESOLVE_RETRY: XLT_FRESOLVE RETRY makes every stalled requester walk again. [R245] -/
  | faultResolveRetry (space : Nat) (slot : Nat) (seq : Nat)
  /-- FAULT_RESOLVE_INVALID: XLT_FRESOLVE INVALID completes every stalled requester's command with a fault status. [R245] -/
  | faultResolveInvalid (space : Nat) (slot : Nat) (seq : Nat)
  /-- FAULT_TIMEOUT: An unresolved record reaches XLT_FTIMEOUT.MS and INVALID is applied at a toll boundary. [R245] -/
  | faultTimeout (space : Nat) (slot : Nat)
  /-- SBK_ARBSEL_WRITE: Latches and clears an arbiter's class statistics. [R184] -/
  | sbkArbselWrite (v : Word)
  /-- RC_REGISTER_READ: A read of an RC register returns and clears it without losing a concurrent count. [R460] -/
  | rcRegisterRead (a : Access) (addr : Nat)
  /-- LOW_DWORD_READ: A low-DWORD read of a 64-bit register latches its high half for the function. [R457] -/
  | lowDwordRead (a : Access) (addr : Nat)
  /-- LOW_DWORD_WRITE: A low-DWORD write of a 64-bit register is staged for the function. [R457] -/
  | lowDwordWrite (a : Access) (addr : Nat) (v : Word)
  /-- HIGH_DWORD_WRITE: A high-DWORD write commits both halves of a 64-bit register. [R457] -/
  | highDwordWrite (a : Access) (addr : Nat) (v : Word)
  /-- TOLL_CNTLO_READ: Reading TOLL_CNTLO latches TOLL_CNTHI. [R377] -/
  | tollCntloRead (f : Nat)
  /-- VFID_TOLLLO_READ: Reading VFID_TOLLLO latches VFID_TOLLHI for the VF. [R466] -/
  | vfidTollloRead (a : Access)
  /-- PCT_SNAPLO_READ: Reading PCT_SNAPLO latches one snapshot for the function. [R426] -/
  | pctSnaploRead (f : Nat)
  /-- NMECAUSE_CLEAR: A W1C write to GLB_NMECAUSE clears causes and may deassert ALERT_N. [R465] -/
  | nmecauseClear (v : Word)
  /-- JOURNAL_WINDOW_READ: A read of the journal window passes through the security controller. [R292] -/
  | journalWindowRead (off : Nat)
  /-- DEBUG_APERTURE_ACCESS: An access to the debug aperture reaches the mapped target. [R398] -/
  | debugApertureAccess (off : Nat) (wr : Bool) (v : DWord)
  /-- PORT_ENABLE: A write of FWL_PCTL.EN starts training or disables the port. [R346] -/
  | portEnable (p : Nat) (v : Word)
  /-- PORT_RELEASE: FWL_PCTL.RELEASE returns a quarantined port to UNAUTH. [R375] -/
  | portRelease (p : Nat)
  /-- REGISTER_WRITE: A write to any register without a row of its own, including reserved-field handling. [R458] -/
  | registerWrite (a : Access) (addr : Nat) (v : DWord)
  /-- FUNCTION_LEVEL_RESET: An FLR of a PF or VF resets its queues and DMA or returns the TDI to CONFIG_UNLOCKED. [R263] -/
  | functionLevelReset (f : Nat)
  /-- RETURN_TO_D0: A function's return from D3hot to D0 performs its FLR. [R249] -/
  | returnToD0 (f : Nat)
  /-- NUMVFS_WRITE: A configuration write to VF Enable or NumVFs, refused above TotalVFs or while a VF is attached. [R252] -/
  | numvfsWrite (port : Nat) (vfe : Bool) (n : Nat)
  /-- LOCK_INTERFACE: TDISP request that locks a VF's TDI. [R262] -/
  | lockInterface (port : Nat) (vf : Nat)
  /-- START_INTERFACE: TDISP request that moves a locked TDI to RUN. [R263] -/
  | startInterface (port : Nat) (vf : Nat)
  /-- STOP_INTERFACE: TDISP request that returns a TDI to CONFIG_UNLOCKED. [R263] -/
  | stopInterface (port : Nat) (vf : Nat)
  /-- GET_DEVICE_INTERFACE_REPORT: TDISP request that returns the VF's MMIO ranges. [R262] -/
  | getDeviceInterfaceReport (port : Nat) (vf : Nat)
  /-- KEY_PROG: IDE_KM request that programs a stream key set. [R261] -/
  | keyProg (port : Nat) (stream : Nat) (ks : Nat) (sub : Nat) (vf : Nat) (key : BitVec 256)
  /-- K_SET_GO: IDE_KM request that activates a key set. [R261] -/
  | kSetGo (port : Nat) (stream : Nat) (ks : Nat)
  /-- K_SET_STOP: IDE_KM request that stops a stream, putting its TDI in ERROR. [R263] -/
  | kSetStop (port : Nat) (stream : Nat) (ks : Nat)
  /-- IDE_CHECK_FAILURE: An IDE check fails, the stream becomes Insecure and its TDI enters ERROR. [R261] -/
  | ideCheckFailure (port : Nat) (stream : Nat)
  /-- LINK_DOWN: A host link goes down and every TDI on the port leaves RUN. [R269] -/
  | linkDown (port : Nat)
  /-- SPDM_REQUEST: The security controller answers an SPDM request from the host TSM. [R387] -/
  | spdmRequest (port : Nat) (req : SpdmReq)
  /-- ATS_INVALIDATE_REQUEST: The host invalidates ATC entries of a function. [R240] -/
  | atsInvalidateRequest (f : Nat) (va : DWord) (size : Nat) (tag : Nat)
  /-- INVALIDATE_COMPLETION: After the phase wait ends the H9 sends the Invalidate Completion. [R240] -/
  | invalidateCompletion (f : Nat) (tag : Nat)
  /-- TRANSLATION_COMPLETION: A host Translation Completion arrives and is cached or denied. [R235] -/
  | translationCompletion (f : Nat) (va : DWord) (pa : DWord) (r : Bool) (w : Bool) (ok : Bool)
  /-- PRG_RESPONSE: A Page Request response arrives and the translation is retried or denied. [R236] -/
  | prgResponse (f : Nat) (idx : Nat) (code : Nat)
  /-- TRANSLATION_WALK: A walk completes, filling caches or ending in a fault or TABLE_READ. [R232] -/
  | translationWalk (space : Nat) (va : DWord) (wr : Bool) (req : Nat) (seq : Nat)
  /-- FAULT_RECORD_DEFERRED: A ring slot frees and waiting faults are written. [R242] -/
  | faultRecordDeferred (space : Nat)
  /-- INVALIDATION_PHASE_DRAIN: No request of the previous phase remains and the invalidation completes. [R238] -/
  | invalidationPhaseDrain (space : Nat)
  /-- HBM_READ: The MPE admits, verifies and decrypts a data line read. [R198] -/
  | hbmRead (vd : Nat) (key : Nat) (addr : Nat) (ecc : Ecc)
  /-- HBM_WRITE: The MPE verifies metadata, increments a minor counter and writes an encrypted line and tag. [R199] -/
  | hbmWrite (vd : Nat) (key : Nat) (addr : Nat) (data : BitVec 512)
  /-- PARTIAL_WRITE: A write of less than a granule is performed as a read-modify-write. [R209] -/
  | partialWrite (vd : Nat) (key : Nat) (addr : Nat) (data : BitVec 512) (be : DWord)
  /-- KEY_ROLL_SWEEP_END: The sweep ends and the previous key pair is zeroised. [R201] -/
  | keyRollSweepEnd (k : Nat)
  /-- CHANNEL_FORMAT_COMPLETE: A format pass ends and the channel leaves FORMATTING. [R206] -/
  | channelFormatComplete (ch : Nat)
  /-- CHANNEL_ERASE_COMPLETE: An erase pass ends and the channel becomes FREE. [R219] -/
  | channelEraseComplete (ch : Nat)
  /-- HBM_SCRUB_PATROL: The controller patrols a line, correcting or poisoning it. [R214] -/
  | hbmScrubPatrol (ch : Nat) (line : Nat) (ecc : Ecc)
  /-- HBM_TEMPERATURE_POLL: The stack temperature is polled every 1 ms, setting HOT and deciding refresh rate. [R213] -/
  | hbmTemperaturePoll (stack : Nat) (temp : Nat)
  /-- REFRESH_RATE_SWITCH: A refresh rate change takes effect at the next toll boundary. [R213] -/
  | refreshRateSwitch (stack : Nat)
  /-- KEY_DRAIN_REPORT: Admitted requests of a RETIRING key ID finish and drain is reported. [R218] -/
  | keyDrainReport (k : Nat)
  /-- KEY_ZEROISATION: At its boundary a key slot is zeroised and its channels become ERASING. [R218] -/
  | keyZeroisation (k : Nat)
  /-- KEY_ID_RELEASE: A zeroised key ID returns to EMPTY after peer drain or 4 periods. [R218] -/
  | keyIdRelease (k : Nat)
  /-- SEEDBANK_REQUEST: The bank controller checks a request against bin state and owner and performs or refuses it. [R158] -/
  | seedbankRequest (bin : Nat) (line : Nat) (r : SbReq)
  /-- ARBITER_GRANT: In each store cycle an arbiter grants one eligible request per resource. [R169] -/
  | arbiterGrant (idx : Nat) (heads : List ArbHead)
  /-- SCRUB_LINE: The Seedbank scrub engine reads a line in a maintenance cycle. [R175] -/
  | scrubLine (pod : Nat) (ecc : Ecc) (racing : Bool)
  /-- BIN_CLEAR_COMPLETE: A bin finishes clearing and becomes FREE. [R177] -/
  | binClearComplete (b : Nat)
  /-- BIN_FLIP_COMPLETE: The old epoch drains with no dirty line, the destination is owned and the source clears. [R179] -/
  | binFlipComplete (vd : Nat) (b : Nat)
  /-- EPOCH_DRAINED: An old routing epoch's drain counter reaches zero and its maps and sources are released. [R309] -/
  | epochDrained (vd : Nat)
  /-- PREPARE_END: A change's prepare phase ends and the commit boundary is scheduled. [R311] -/
  | prepareEnd (vd : Nat)
  /-- COMPOSITION_COMMIT: At boundary B the new maps are installed and the epoch increments. [R311] -/
  | compositionCommit (vd : Nat)
  /-- REBIND_POINT: A context reaches its rebind point and passes to the new resources. [R310] -/
  | rebindPoint (vd : Nat)
  /-- REBIND_TIMEOUT: A shape change misses REBINDMS and fails with reason REBIND. [R310] -/
  | rebindTimeout (vd : Nat)
  /-- JOIN_TIMEOUT: The coordinator's JOINMS wait ends. [R312] -/
  | joinTimeout (vd : Nat)
  /-- MIGRATION_WRITE_HOLD: A dirty set not shrunk over 16 periods starts holding old-epoch writes. [R313] -/
  | migrationWriteHold (vd : Nat)
  /-- DEADLINE_CHECK: At a toll boundary the monitor advances an unstarted exec's fallback position. [R329] -/
  | deadlineCheck
  /-- TOLL_BOUNDARY: A toll period begins and per-boundary recomputations run. [R28] -/
  | tollBoundary
  /-- FREQUENCY_STEP: At its boundary both halves switch PLLs to the new code and store clocks follow. [R414] -/
  | frequencyStep
  /-- VOLTAGE_SETTLE_DEADLINE: 100 µs before a rise's boundary an unsettled voltage cancels the step. [R414] -/
  | voltageSettleDeadline (settled : Bool)
  /-- ROLL_PROFILE_CHANGE: The roll profile takes effect and D is recomputed. [R422] -/
  | rollProfileChange
  /-- COLLECTIVE_TIMEOUT: An XFER with failed targets completes PARTIAL at the boundary. [R361] -/
  | collectiveTimeout (seq : Nat)
  /-- TELEMETRY_SNAPSHOT: The period's power quantities are captured last at the boundary. [R426] -/
  | telemetrySnapshot
  /-- TOLL_FRAME_SEND: Every 1,024 ns a TOLL frame with credits, acknowledgements and decisions is sent on each active port. [R363] -/
  | tollFrameSend
  /-- TOLL_FRAME_RECEIVE: A TOLL frame updates delay, count, master choice, credits and pending decisions. [R364] -/
  | tollFrameReceive (p : Nat) (f : Frame)
  /-- UPSTREAM_SILENCE: No usable TOLL frame for 16 intervals switches upstream or enters holdover. [R367] -/
  | upstreamSilence
  /-- HOLDOVER_ELECTION: Holdover lasting a period runs master election. [R367] -/
  | holdoverElection
  /-- TOLL_IN_PULSE: A TOLL_IN pulse aligns or slews the master's count. [R366] -/
  | tollInPulse
  /-- TOLL_IN_LOSS: TOLL_IN absent for 2 s clears EXTREF. [R366] -/
  | tollInLoss
  /-- DISC_FRAME_RECEIVE: A DISC frame decides whether authentication begins. [R347] -/
  | discFrameReceive (p : Nat) (f : Frame)
  /-- SPDM_FRAME_RECEIVE: An SPDM frame advances partner authentication or key update. [R348] -/
  | spdmFrameReceive (p : Nat) (f : Frame)
  /-- AUTHENTICATION_RETRY: After 1,000 toll periods a failed or refused partner is tried again. [R348] -/
  | authenticationRetry (p : Nat)
  /-- KEY_UPDATE: A session's SEQ reaches 2^31 and SEPOCH advances. [R349] -/
  | keyUpdate (peer : Nat)
  /-- DATA_FRAME_RECEIVE: A DATA frame is checked and lands or is answered NOBUF, with ACK after the last line. [R360] -/
  | dataFrameReceive (p : Nat) (f : Frame)
  /-- ACK_RECEIVE: A target's acknowledgement completes it. [R361] -/
  | ackReceive (p : Nat) (f : Frame)
  /-- NOBUF_RECEIVE: A target refuses an attempt, failing it or scheduling a retry. [R361] -/
  | nobufReceive (p : Nat) (f : Frame)
  /-- XFER_RETRY: 64 µs after NOBUF or silence the whole transfer is resent to a target. [R361] -/
  | xferRetry (seq : Nat) (tgt : Nat)
  /-- CREDIT_FRAME_RECEIVE: A CREDIT frame returns credits. [R356] -/
  | creditFrameReceive (p : Nat) (f : Frame)
  /-- HOP_REPLAY: HOPACK stalled for 4 µs replays unacknowledged frames. [R356] -/
  | hopReplay (p : Nat)
  /-- POOL_FRAME_RECEIVE: A pool request or response is served or delivered. [R373] -/
  | poolFrameReceive (p : Nat) (f : Frame)
  /-- JOIN: The coordinator receives a part's JOIN notice. [R312] -/
  | join (p : Nat) (f : Frame)
  /-- PREPARE: A part receives PREPARE and starts its prepare phase. [R312] -/
  | prepare (p : Nat) (f : Frame)
  /-- PREPARED: The coordinator receives a part's prepare report and may broadcast B. [R312] -/
  | prepared (p : Nat) (f : Frame)
  /-- COMMIT: A part receives the commit boundary B. [R312] -/
  | commit (p : Nat) (f : Frame)
  /-- ABANDON: A part receives ABANDON and releases its prepared resources. [R312] -/
  | abandon (p : Nat) (f : Frame)
  /-- KEYRET: A peer receives a link-key retirement notice. [R400] -/
  | keyret (p : Nat) (f : Frame)
  /-- KEYDRAIN: The owner receives a peer's drain confirmation. [R350] -/
  | keydrain (p : Nat) (f : Frame)
  /-- PEERLOST: A device receives a notice that a peer was lost. [R370] -/
  | peerlost (p : Nat) (f : Frame)
  /-- PEERDOWN: A switch reports the loss of a device. [R351] -/
  | peerdown (p : Nat) (f : Frame)
  /-- LSREPORT: The master receives a member's headroom report. [R368] -/
  | lsreport (p : Nat) (f : Frame)
  /-- ROLE: A peer receives a memory-role change and its lost stacks. [R319] -/
  | role (p : Nat) (f : Frame)
  /-- PEER_TOLL_TIMEOUT: No TOLL frame from a peer for 16 intervals detects it as lost. [R370] -/
  | peerTollTimeout (dev : Nat)
  /-- PEER_LOST_HANDLING: At the next TOLL frame after detection, sessions end, XFERs fail, timelines poison and VDs go HELD. [R370] -/
  | peerLostHandling (dev : Nat)
  /-- LANE_DROP: A failing lane is dropped and the port retrains narrower. [R345] -/
  | laneDrop (p : Nat) (lane : Nat)
  /-- PORT_TRAINING_COMPLETE: Training ends and the port enters UNAUTH. [R345] -/
  | portTrainingComplete (p : Nat) (ok : Bool) (lanes : Nat)
  /-- TRAINING_RETRY: A failed training is retried after 1,000 toll periods. [R345] -/
  | trainingRetry (p : Nat)
  /-- TEARDOWN_QUIESCE_END: Quiesce ends and the forced L2 of the VD begins. [R399] -/
  | teardownQuiesceEnd (vd : Nat)
  /-- TEARDOWN_RETIRE: After L2, key IDs enter RETIRING and KEYRET is sent. [R399] -/
  | teardownRetire (vd : Nat)
  /-- POWER_GOOD_ASSERT: A power-good input asserts and its order is checked. [R405] -/
  | powerGoodAssert (rail : Nat)
  /-- POWER_GOOD_LOSS: A power-good input falls while running and the device halts. [R406] -/
  | powerGoodLoss (rail : Nat)
  /-- VDD_AON_RISE: VDD_AON rises and L6 begins. [R431] -/
  | vddAonRise
  /-- DEVRST_N_ASSERT: DEVRST_N holds the device in reset. [R431] -/
  | devrstNAssert
  /-- DEVRST_N_RELEASE: DEVRST_N release starts L6. [R431] -/
  | devrstNRelease
  /-- PERST_ASSERT: PERST of a port resets that port's link, PF and VFs. [R431] -/
  | perstAssert (port : Nat)
  /-- PERST_RELEASE: PERST release retrains the port, or starts L6 when its cold bit is set. [R431] -/
  | perstRelease (port : Nat)
  /-- STARTUP_STAGE: An L6 start-up stage ends and the next begins, ending with READY. [R491] -/
  | startupStage (x : StartupIn)
  /-- CLOCK_STABILITY_WINDOW: A 1 ms judgement window of a source ends. [R408] -/
  | clockStabilityWindow (src : Nat) (inBand : Bool)
  /-- CLOCK_STABILITY_TIMEOUT: A required source not stable in 100 ms records its NME cause. [R408] -/
  | clockStabilityTimeout (src : Nat)
  /-- CLOCK_MONITOR_WINDOW: A 10 µs monitor window ends and failed sources fail over. [R410] -/
  | clockMonitorWindow (failed : List Nat)
  /-- CAP_LOOP: Every 100 µs the cap loop adjusts the gating level. [R418] -/
  | capLoop (p : Nat)
  /-- AVSBUS_CURRENT_POLL: Every 10 µs core rail currents are read over AVSBus. [R416] -/
  | avsbusCurrentPoll (half : Nat) (cur : Option Nat)
  /-- PMBUS_POLL: Every 5 ms all twelve regulators are read over PMBus. [R416] -/
  | pmbusPoll (r : List Nat)
  /-- PMB_ALERT: PMB_ALERT_N starts an immediate PMBus poll. [R472] -/
  | pmbAlert (r : List Nat)
  /-- DROOP_DETECT: A rail droop stretches every core clock. [R420] -/
  | droopDetect (half : Nat)
  /-- SENSOR_SAMPLE: Every 100 µs junction sensors are sampled against TTHR, TCRIT and trips. [R423] -/
  | sensorSample (tjn : Nat) (tjs : Nat)
  /-- THROT_N_ASSERT: THROT_N starts the safety throttle and sets headroom to 32. [R424] -/
  | throtNAssert
  /-- THROT_N_HELD_MARK: While THROT_N stays asserted PCT_EVT.THROT is set each second. [R424] -/
  | throtNHeldMark
  /-- INPUT_STORM_WINDOW: A 1 ms window of an event input ends, entering or clearing storm. [R478] -/
  | inputStormWindow (i : Nat) (edges : Nat)
  /-- STUCK_INPUT_TIMEOUT: An input asserted for 100 ms is masked as stuck. [R478] -/
  | stuckInputTimeout (i : Nat)
  /-- L2_VD_COMPUTE_RESET: The pods of one VD are reset. [R429] -/
  | l2VdComputeReset (vd : Nat)
  /-- L3_HALF_COMPUTE_RESET: One half's pods and Drumline are reset. [R429] -/
  | l3HalfComputeReset (half : Nat)
  /-- L4_COMPUTE_PART_RESET: The pods and Drumline of both halves are reset. [R429] -/
  | l4ComputePartReset
  /-- L5_DEVICE_WARM_RESET: Every domain but always-on and host ports is reset in eight steps. [R430] -/
  | l5DeviceWarmReset
  /-- UNIT_RESET: A store domain, HBM controller or Finwin port is reset. [R434] -/
  | unitReset (unit : Nat) (idx : Nat)
  /-- RECOVERY_COMPLETE: A recovery ends and the next waiting one starts. [R444] -/
  | recoveryComplete
  /-- RECOVERY_LIMIT_OVERRUN: A recovery overruns its limit and escalates. [R445] -/
  | recoveryLimitOverrun
  /-- HOLD_WATCHDOG: A hold lasting HOLDMS performs L1 on the context. [R436] -/
  | holdWatchdog (vd : Nat)
  /-- POD_BEAT_WATCHDOG: A pod not advancing for BEATMS performs L2 on the VD. [R437] -/
  | podBeatWatchdog (pod : Nat)
  /-- UNIT_REQUEST_WATCHDOG: An unanswered request for 10 ms resets the unit. [R438] -/
  | unitRequestWatchdog (unit : Nat) (idx : Nat)
  /-- HEARTBEAT_MISSED: Three missed firmware heartbeats are DEVICE-FATAL. [R438] -/
  | heartbeatMissed (which : Nat)
  /-- SECURITY_CONTROLLER_SILENT: A silent security controller zeroises keys and halts the device. [R438] -/
  | securityControllerSilent
  /-- DBGACC_READ: A DBGACC read at Update-DR reads a PF BAR0 register. [R484] -/
  | dbgaccRead (off : Nat)
  /-- DBGACC_WRITE: A DBGACC write at Update-DR writes a PF BAR0 register. [R484] -/
  | dbgaccWrite (off : Nat) (v : Word)
  /-- TAP_RESET: TRST_N or five TMS-high cycles reset the TAP to IDCODE. [R484] -/
  | tapReset
  /-- BMC_ADDRESS_ASSIGN: SETDASA or ENTDAA moves the target to I3C. [R482] -/
  | bmcAddressAssign (a : Nat)
  /-- BMC_GLB_ID: BMC command 0x00 returns GLB_ID. [R482] -/
  | bmcGlbId
  /-- BMC_GLB_STATUS: BMC command 0x01 returns GLB_STATUS. [R482] -/
  | bmcGlbStatus
  /-- BMC_GLB_NMECAUSE: BMC command 0x02 returns GLB_NMECAUSE without clearing it. [R482] -/
  | bmcGlbNmecause
  /-- BMC_GLB_NMEFIRST: BMC command 0x03 returns GLB_NMEFIRST. [R482] -/
  | bmcGlbNmefirst
  /-- BMC_GLB_NMETIME: BMC command 0x04 returns GLB_NMETIME. [R482] -/
  | bmcGlbNmetime
  /-- BMC_PCT_PGSTAT: BMC command 0x05 returns PCT_PGSTAT without clearing it. [R482] -/
  | bmcPctPgstat
  /-- BMC_ERR_RSTLAST: BMC command 0x06 returns ERR_RSTLAST. [R482] -/
  | bmcErrRstlast
  /-- BMC_PCT_TEMP: BMC command 0x07 returns PCT_TEMP. [R482] -/
  | bmcPctTemp
  /-- BMC_PCT_POWER: BMC command 0x08 returns PCT_POWER. [R482] -/
  | bmcPctPower
  /-- BMC_SB_INSTAT: BMC command 0x09 returns SB_INSTAT and clears its RC bits. [R483] -/
  | bmcSbInstat
  /-- HBM_PHY_LANE_FAILURE: A channel's PHY reports a data lane it can no longer repair, setting RETREQ and starting the channel's retirement. [R215] -/
  | hbmPhyLaneFailure (ch : Nat)
  /-- LOSS_OF_SIGNAL: A Finwin port loses signal and returns to TRAINING. [R346] -/
  | lossOfSignal (p : Nat)
  /-- SIGNAL_DETECTION: Signal is detected on an enabled port and full training begins. [R345] -/
  | signalDetection (p : Nat)
  /-- LINK_UP: A PCIe host link finishes training and reaches L0, after which the port answers configuration requests. [R491] -/
  | linkUp (port : Nat)
  /-- CONFIG_SPACE_WRITE: A PCIe configuration write changes a BAR, Memory Space Enable, the power state or the ATS or Page Request capability of a function. [R263] -/
  | configSpaceWrite (f : Nat) (w : CfgWrite)
  /-- SUBTREE_RESET_COMPLETE: The MPE finishes a subtree reset, the nodes and parent version are rewritten and the mailbox reply becomes ready. [R396] -/
  | subtreeResetComplete (vd : Nat)
  /-- UNCORRECTABLE_CODEWORD: A received frame's FEC codeword is uncorrectable, and the receiver discards it and every later frame until the sender replays. [R356] -/
  | uncorrectableCodeword (p : Nat)
  /-- SEAM_RELOCK: The seam's clock aligner reports the halves in phase again and the seam reopens for Drumline data. [R136] -/
  | seamRelock
  /-- DROOP_RECOVERY: The core rail recovers above the droop level after at least 32 stretched cycles, and normal clock periods resume. [R420] -/
  | droopRecovery (half : Nat)
  /-- THROT_N_DEASSERT: THROT_N deasserts, PCT_STAT.THROT clears and the headroom is no longer held at 32. [R424] -/
  | throtNDeassert
  /-- STUCK_INPUT_DEASSERT: A stuck-masked input deasserts through its filter and its stuck mask clears. [R479] -/
  | stuckInputDeassert (i : Nat)
  /-- VDD_AON_FALL: VDD_AON is removed and the always-on domain and all state it holds are lost. [R405] -/
  | vddAonFall
  /-- DIRTY_LINE_COPY: The copy engine copies a dirty line or page, releasing any new-epoch read that waits on it. [R179] -/
  | dirtyLineCopy (vd : Nat) (line : Nat)
  /-- QUEUE_ENGINE_TICK: Every 256 ns the queue engine runs each quiet VD's tick and takes at most one slot from its queues. [R337] -/
  | queueEngineTick (vd : Nat)
  /-- SHAPED_FLOW_WINDOW: Each 64-store-cycle window of a shaped flow issues exactly n lines, filling empty slots with filler lines or frames. [R336] -/
  | shapedFlowWindow (flow : Nat)
  deriving DecidableEq, Repr

end Sys2Proof
end

