-- ==== Sys2Proof/Decode.lean ====
section
/-!
DEFINITION. Words of the command table.  The commands of the H9 are register accesses, frames, pin events and engine
events; spec/opcode_table.json gives no row an encoding, so no word spells a command.
-/
namespace Sys2Proof

/-- The command a word spells by the table's bits: none, since no row gives bits. -/
def decodeTableWord (_nbits _w : Nat) : Option Instr := none

end Sys2Proof
end

