-- ==== Sys2Proof/Config.lean ====
section
/-!
DEFINITION. What one implementation of the H9 fixes and the values the spec leaves open.

Every constant here is opaque: nothing in Lean can evaluate one, so no statement can rest on its value.
A free value is `Config.free n w` applied to the counter `State.freeCount`, which every
command that takes free values advances past them.
-/
namespace Sys2Proof.Config

/-- Free values, 512 bits wide: the n-th value the spec leaves open in a run (assumption 2). -/
opaque freeBits : Nat → BitVec 512

/-- The n-th free value cut to `w` bits. -/
def free (n w : Nat) : BitVec w := (freeBits n).setWidth w

/-- Fused device identity and fuse contents the spec names but gives no value for, by index (assumption 3). -/
opaque fuse : Nat → BitVec 512

end Sys2Proof.Config
end

