-- ==== Sys2Proof/Machine/RegMap.lean ====
section
/-!
DEFINITION. The read-write configuration fields of the register map (spec/17 R454–R458 and the register tables of the
other chapters): for each register its place in PF BAR0, its width and its fields with reset values and legal codes.
Status fields, counters and registers with effects of their own are computed in Machine/Regs.lean.
-/
namespace Sys2Proof.Machine

/-- A read-write field: bits [hi:lo], its reset value and the codes that are not reserved. -/
structure RegField where
  hi : Nat
  lo : Nat
  reset : Nat := 0
  ok : Nat → Bool := fun _ => true
  /-- Read-only: a write of it is ignored. -/
  ro : Bool := false

/-- A register, or an array of `count` registers `stride` bytes apart. -/
structure RegDesc where
  base : Nat
  wide : Bool := false
  count : Nat := 1
  stride : Nat := 4
  /-- A write takes effect at the next toll boundary. -/
  deferred : Bool := false
  fields : List RegField

/-- Bases of the blocks in PF BAR0 (R454). -/
def baseGlb : Nat := 0x000000
def basePct : Nat := 0x010000
def baseErr : Nat := 0x020000
def baseSec : Nat := 0x040000
def baseCmp : Nat := 0x080000
def baseSch : Nat := 0x0C0000
def baseQue : Nat := 0x100000
def baseXlt : Nat := 0x200000
def baseMpe : Nat := 0x300000
def baseHbm : Nat := 0x400000
def baseSbk : Nat := 0x500000
def baseDrl : Nat := 0x600000
def baseFwl : Nat := 0x700000
def baseFwlDev : Nat := 0x780000
def baseToll : Nat := 0x800000
def baseMsix : Nat := 0xC00000
def basePba : Nat := 0xC08000
def baseJrn : Nat := 0x1000000
def baseDbg : Nat := 0x2000000

/-- The modelled part is the AVH9-2700L (R24): top code and design power in W (assumption 11). -/
def topCode : Nat := 84
def designPower : Nat := 2700

/-- ERR (R452). -/
def regsErr : List RegDesc := [
  { base := baseErr + 0x20, fields := [{ hi := 31, lo := 16, reset := 2000 },
      { hi := 7, lo := 0, reset := 1, ok := fun v => 1 ≤ v }] },
  { base := baseErr + 0x28, wide := true, fields := [
      { hi := 41, lo := 21, reset := 0x0EFF, ok := fun v => v < 0x0F00 },
      { hi := 0, lo := 0, reset := 1 }] }]

/-- SBK (R184). -/
def regsSbk : List RegDesc := [
  { base := baseSbk + 0x2000, fields := [{ hi := 31, lo := 31, reset := 1 },
      { hi := 15, lo := 0, reset := 1000, ok := fun v => 2 ≤ v }] }]

/-- SCH (R341): every write takes effect at the next toll boundary. -/
def regsSch : List RegDesc := [
  -- SCH_CLASS 0 to 3
  { base := baseSch, count := 4, deferred := true, fields := [
      { hi := 31, lo := 30, ok := fun v => v ≤ 1 }, { hi := 23, lo := 16, reset := 1, ok := fun v => 1 ≤ v },
      { hi := 11, lo := 0 }] },
  -- 4 to 12
  { base := baseSch + 0x10, count := 9, deferred := true, fields := [
      { hi := 31, lo := 30, reset := 1, ok := fun v => v ≤ 1 }, { hi := 23, lo := 16, reset := 8, ok := fun v => 1 ≤ v },
      { hi := 11, lo := 0 }] },
  -- 13
  { base := baseSch + 0x34, deferred := true, fields := [
      { hi := 31, lo := 30, reset := 1, ok := fun v => v ≤ 1 }, { hi := 23, lo := 16, reset := 4, ok := fun v => 1 ≤ v },
      { hi := 11, lo := 0 }] },
  -- 14 and 15: KIND and WEIGHT are read-only
  { base := baseSch + 0x38, deferred := true, fields := [{ hi := 31, lo := 30, ro := true }, { hi := 23, lo := 16, ro := true },
      { hi := 11, lo := 0, reset := 1024 }] },
  { base := baseSch + 0x3C, deferred := true, fields := [{ hi := 31, lo := 30, ro := true }, { hi := 23, lo := 16, ro := true },
      { hi := 11, lo := 0, reset := 256 }] },
  -- SCH_CLASSOT
  { base := baseSch + 0x40, count := 4, deferred := true, fields := [{ hi := 9, lo := 0, reset := 64, ok := fun v => 1 ≤ v }] },
  { base := baseSch + 0x50, count := 9, deferred := true, fields := [{ hi := 9, lo := 0, reset := 256, ok := fun v => 1 ≤ v }] },
  { base := baseSch + 0x74, deferred := true, fields := [{ hi := 9, lo := 0, reset := 128, ok := fun v => 1 ≤ v }] },
  -- SCH_FBCFG
  { base := baseSch + 0x80, deferred := true, fields := [
      { hi := 31, lo := 24, reset := 8, ok := fun v => 1 ≤ v }, { hi := 23, lo := 16, reset := 1, ok := fun v => v ≤ 10 },
      { hi := 11, lo := 0, reset := 1024, ok := fun v => 1 ≤ v }] },
  { base := baseSch + 0x84, deferred := true, fields := [
      { hi := 31, lo := 24, reset := 16, ok := fun v => 1 ≤ v }, { hi := 23, lo := 16, reset := 2, ok := fun v => v ≤ 10 },
      { hi := 11, lo := 0, reset := 256, ok := fun v => 1 ≤ v }] },
  -- SCH_POLICY
  { base := baseSch + 0x100, deferred := true, fields := [
      { hi := 23, lo := 16, reset := 50, ok := fun v => v ≤ 100 }, { hi := 15, lo := 0, reset := 50 }] },
  -- SCH_VDCFG of VD 1 to 127 (DCLASS is checked against CMASK in Machine/Regs.lean)
  { base := baseSch + 0x1008, count := 127, stride := 8, deferred := true, fields := [
      { hi := 28, lo := 16, reset := 1 }, { hi := 15, lo := 8, reset := 1, ok := fun v => 1 ≤ v },
      { hi := 3, lo := 0, ok := fun v => v ≤ 12 }] }]

/-- GLB scratch registers (R464). -/
def regsGlb : List RegDesc := [{ base := baseGlb + 0x30, count := 2, fields := [{ hi := 31, lo := 0 }] }]

/-- QUE_JRNWIN (R292). -/
def regsQue : List RegDesc := [{ base := baseQue + 0x9008, fields := [{ hi := 18, lo := 0 }] }]

/-- PCT (R425): writes take effect at the next toll boundary, but for PCT_CAP.LIMIT.  Limits between fields are checked
in Machine/Regs.lean. -/
def regsPct : List RegDesc := [
  { base := basePct + 0x0C, deferred := true, fields := [
      { hi := 23, lo := 16, ok := fun v => v = 0 || (20 ≤ v && v ≤ 84) },
      { hi := 15, lo := 8, ok := fun v => v = 0 || (20 ≤ v && v ≤ 84) }, { hi := 1, lo := 0, ok := fun v => v ≤ 2 }] },
  { base := basePct + 0x10, deferred := true, fields := [
      { hi := 23, lo := 16, reset := topCode, ok := fun v => 32 ≤ v && v ≤ topCode }, { hi := 0, lo := 0 }] },
  { base := basePct + 0x14, fields := [
      { hi := 27, lo := 16, reset := designPower, ok := fun v => 500 ≤ v && v ≤ designPower }] },
  { base := basePct + 0x18, deferred := true, fields := [
      { hi := 31, lo := 16, reset := 1450, ok := fun v => 800 ≤ v && v ≤ 2000 },
      { hi := 15, lo := 0, reset := 1450, ok := fun v => 800 ≤ v && v ≤ 2000 }] },
  { base := basePct + 0x24, deferred := true, fields := [
      { hi := 23, lo := 16, reset := 100, ok := fun v => 90 ≤ v && v ≤ 105 },
      { hi := 15, lo := 8, reset := 95, ok := fun v => 80 ≤ v && v ≤ 100 }] },
  { base := basePct + 0x2C, deferred := true, fields := [
      { hi := 28, lo := 16, reset := 200, ok := fun v => 10 ≤ v && v ≤ 1000 },
      { hi := 13, lo := 7, reset := 90, ok := fun v => v ≤ 100 }, { hi := 6, lo := 0, ok := fun v => v ≤ 64 }] },
  { base := basePct + 0x38, deferred := true, fields := [
      { hi := 5, lo := 0, reset := 40, ok := fun v => 20 ≤ v && v ≤ 60 }] }]

/-- XLT_FTIMEOUT (R247). -/
def regsXlt : List RegDesc := [
  { base := baseXlt + 0x08, fields := [{ hi := 15, lo := 0, reset := 100, ok := fun v => 1 ≤ v }] }]

/-- HBM_SCRUBCTL of each stack (R222). -/
def regsHbm : List RegDesc := [
  { base := baseHbm + 0x10, count := 8, stride := 0x10000, fields := [
      { hi := 31, lo := 31, reset := 1 }, { hi := 9, lo := 0, reset := 24, ok := fun v => 1 ≤ v && v ≤ 1000 }] }]

/-- CMP (R320). -/
def regsCmp : List RegDesc := [
  { base := baseCmp + 0x04, fields := [{ hi := 22, lo := 16, reset := 90, ok := fun v => 50 ≤ v && v ≤ 100 },
      { hi := 14, lo := 8, reset := 80, ok := fun v => 50 ≤ v && v ≤ 100 }, { hi := 7, lo := 4, reset := 4 },
      { hi := 2, lo := 2 }, { hi := 1, lo := 0, ok := fun v => v ≤ 1 }] },
  { base := baseCmp + 0x08, fields := [{ hi := 31, lo := 16, reset := 256, ok := fun v => 16 ≤ v && v ≤ 2000 },
      { hi := 6, lo := 0, reset := 40, ok := fun v => 1 ≤ v && v ≤ 80 }] },
  { base := baseCmp + 0x18, wide := true, fields := [{ hi := 63, lo := 0 }] },
  { base := baseCmp + 0x30, fields := [{ hi := 8, lo := 8 }, { hi := 7, lo := 0 }] }]

/-- FWL (R375, R376): the reset value of FWL_DEVCFG.DEVNO is the strap's, see Machine/Fw.lean. -/
def regsFwl : List RegDesc := [
  { base := baseFwl, count := 32, stride := 0x4000, fields := [{ hi := 31, lo := 31 }, { hi := 29, lo := 29 },
      { hi := 3, lo := 0, reset := 0xF, ok := fun v => v = 0xF || v = 3 || v = 1 }] },
  { base := baseFwl + 0x20, count := 32, stride := 0x4000, fields := [{ hi := 31, lo := 24, reset := 16 },
      { hi := 23, lo := 16, reset := 4 }, { hi := 15, lo := 8, reset := 64 }, { hi := 7, lo := 0, reset := 8 }] },
  { base := baseFwlDev, fields := [{ hi := 25, lo := 16 }, { hi := 15, lo := 0 }] },
  { base := baseFwlDev + 0x10, fields := [{ hi := 9, lo := 0 }] }]

/-- TOLL_CFG (R377). -/
def regsToll : List RegDesc := [
  { base := baseToll + 0x10, fields := [{ hi := 31, lo := 24, reset := 128 }, { hi := 2, lo := 2 },
      { hi := 1, lo := 1, reset := 1 }, { hi := 0, lo := 0 }] }]


/-- Every read-write configuration register. -/
def regTable : List RegDesc := regsGlb ++ regsErr ++ regsSbk ++ regsSch ++ regsQue ++ regsPct ++ regsXlt ++ regsHbm ++
  regsCmp ++ regsFwl ++ regsToll

/-- Does a register, or one of an array, start at address a? -/
def RegDesc.has (r : RegDesc) (a : Nat) : Bool := r.base ≤ a && (a - r.base) % r.stride = 0 && (a - r.base) / r.stride < r.count

/-- The register that starts at address a. -/
def regAt (a : Nat) : Option RegDesc := regTable.find? fun r => r.has a

/-- The value at reset: every field at its reset value (R463). -/
def RegDesc.resetValue (r : RegDesc) : Nat := (r.fields.map fun f => f.reset * 2 ^ f.lo).sum

/-- The reset value of the register at address a, 0 where there is none. -/
def regReset (a : Nat) : Nat :=
  match regAt a with
  | some r => r.resetValue
  | none => 0

/-- The bits of a written value that lie in some field. -/
def RegDesc.covered (r : RegDesc) (v : Nat) : Nat :=
  (r.fields.map fun f => v / 2 ^ f.lo % 2 ^ (f.hi + 1 - f.lo) * 2 ^ f.lo).sum

/-- A write under R10 and R11: each field takes its new code unless the code is reserved or the field is read-only; the
second component tells whether a nonzero reserved bit or a reserved code was written. -/
def RegDesc.write (r : RegDesc) (old new : Nat) : Nat × Bool :=
  r.fields.foldl (fun (a : Nat × Bool) f =>
    let w := f.hi + 1 - f.lo
    let o := old / 2 ^ f.lo % 2 ^ w
    let n := new / 2 ^ f.lo % 2 ^ w
    if f.ro then (a.1 + o * 2 ^ f.lo, a.2)
    else if f.ok n then (a.1 + n * 2 ^ f.lo, a.2) else (a.1 + o * 2 ^ f.lo, true)) (0, r.covered new != new)

end Sys2Proof.Machine
end

