-- ==== Sys2Proof/Machine/Num.lean ====
section
/-!
DEFINITION. The numeric formats of spec/02: format codes, decoding, rounding, overflow, block scales, sum32, the
rounding generator, the chime, and the FP32 functions of spec/04 R114.

Values are exact: a finite value is a sign, a natural mantissa and an integer exponent, value = ±man·2^exp.
-/
namespace Sys2Proof.Machine

/-- The twelve formats of R31. -/
inductive Fmt where
  | fp32 | bf16 | fp16 | e4m3 | e5m2 | e3m2 | e2m3 | e2m1 | int8 | int4 | int2 | t3
  deriving DecidableEq, Repr

/-- The format a 4-bit code names; codes 0xC–0xF are reserved (R31). -/
def Fmt.ofCode : Nat → Option Fmt
  | 0 => some .fp32 | 1 => some .bf16 | 2 => some .fp16 | 3 => some .e4m3 | 4 => some .e5m2 | 5 => some .e3m2
  | 6 => some .e2m3 | 7 => some .e2m1 | 8 => some .int8 | 9 => some .int4 | 10 => some .int2 | 11 => some .t3
  | _ => none

/-- Element bits of R31 (T3 has no whole number of bits: 0). -/
def Fmt.bits : Fmt → Nat
  | .fp32 => 32 | .bf16 => 16 | .fp16 => 16 | .e4m3 => 8 | .e5m2 => 8 | .e3m2 => 6 | .e2m3 => 6 | .e2m1 => 4
  | .int8 => 8 | .int4 => 4 | .int2 => 2 | .t3 => 0

/-- The formats that always carry a block scale (R31). -/
def Fmt.alwaysScaled : Fmt → Bool
  | .e3m2 | .e2m3 | .e2m1 | .int4 | .int2 | .t3 => true
  | _ => false

/-- The formats that carry an optional block scale: the two FP8 formats (R31). -/
def Fmt.isFp8 : Fmt → Bool
  | .e4m3 | .e5m2 => true
  | _ => false

/-- The formats the chime and the shadow apply to (R51, R107). -/
def Fmt.isChime : Fmt → Bool
  | .e2m1 | .int4 | .int2 | .t3 => true
  | _ => false

/-- The two's-complement integer formats with their width (R34). -/
def Fmt.intBits : Fmt → Option Nat
  | .int8 => some 8 | .int4 => some 4 | .int2 => some 2
  | _ => none

/-- The scale-presence rule of R99: is the presence bit `sb` legal for the format? -/
def Fmt.scaleBitOk (f : Fmt) (sb : Bool) : Bool :=
  if f.alwaysScaled then sb else if f.isFp8 then true else !sb

/-- How a floating-point format marks infinities and NaNs (R32). -/
inductive Special where
  | ieee    -- top exponent: zero mantissa is infinity, the rest NaN
  | e4m3    -- only E = 15, m = 111 is NaN
  | none    -- neither
  deriving DecidableEq, Repr

/-- A floating-point format of R32. -/
structure FpSpec where
  ebits : Nat
  mbits : Nat
  bias : Nat
  special : Special
  emax : Nat
  nan : Nat          -- canonical NaN code (R33); 0 where there is none
  deriving DecidableEq, Repr

/-- The parameters of R32 and the canonical NaNs of R33. -/
def Fmt.fp : Fmt → Option FpSpec
  | .fp32 => some ⟨8, 23, 127, .ieee, 127, 0x7FC00000⟩
  | .bf16 => some ⟨8, 7, 127, .ieee, 127, 0x7FC0⟩
  | .fp16 => some ⟨5, 10, 15, .ieee, 15, 0x7E00⟩
  | .e4m3 => some ⟨4, 3, 7, .e4m3, 8, 0x7F⟩
  | .e5m2 => some ⟨5, 2, 15, .ieee, 15, 0x7E⟩
  | .e3m2 => some ⟨3, 2, 3, .none, 4, 0⟩
  | .e2m3 => some ⟨2, 3, 1, .none, 2, 0⟩
  | .e2m1 => some ⟨2, 1, 1, .none, 2, 0⟩
  | _ => none

/-- FP32 and FP16 as constants, for the accumulators and the T3 scale. -/
def fp32Spec : FpSpec := ⟨8, 23, 127, .ieee, 127, 0x7FC00000⟩
def fp16Spec : FpSpec := ⟨5, 10, 15, .ieee, 15, 0x7E00⟩
def e4m3Spec : FpSpec := ⟨4, 3, 7, .e4m3, 8, 0x7F⟩

/-- The exponent of the smallest normal, 1 − bias (R32). -/
def FpSpec.emin (f : FpSpec) : Int := 1 - (f.bias : Int)
/-- The mantissa, with its hidden bit, of the largest finite value (R32; 448 = 14·2^5 in FP8-E4M3). -/
def FpSpec.maxMan (f : FpSpec) : Nat := if f.special = .e4m3 then 2 ^ (f.mbits + 1) - 2 else 2 ^ (f.mbits + 1) - 1
/-- The exponent of its last place: u = 2^maxExp (R43). -/
def FpSpec.maxExp (f : FpSpec) : Int := (f.emax : Int) - f.mbits

/-- An exact value: NaN, a signed infinity, or ±man·2^exp with the sign of a zero kept (R33). -/
inductive FV where
  | nan
  | inf (neg : Bool)
  | fin (neg : Bool) (man : Nat) (exp : Int)
  deriving DecidableEq, Repr

/-- The numeric events of R50, as counts. -/
structure Events where
  elemSat : Nat := 0
  ovfInf : Nat := 0
  nanOut : Nat := 0
  specBlk : Nat := 0
  sclFloor : Nat := 0
  intSat : Nat := 0
  badTrit : Nat := 0
  chime : Nat := 0
  escal : Nat := 0
  deriving DecidableEq, Repr

/-- Pointwise sum of event counts. -/
def Events.add (a b : Events) : Events :=
  { elemSat := a.elemSat + b.elemSat, ovfInf := a.ovfInf + b.ovfInf, nanOut := a.nanOut + b.nanOut,
    specBlk := a.specBlk + b.specBlk, sclFloor := a.sclFloor + b.sclFloor, intSat := a.intSat + b.intSat,
    badTrit := a.badTrit + b.badTrit, chime := a.chime + b.chime, escal := a.escal + b.escal }

/-- The counts in CSR address order, 0x100 to 0x108 (R119). -/
def Events.toList (e : Events) : List Nat :=
  [e.elemSat, e.ovfInf, e.nanOut, e.specBlk, e.sclFloor, e.intSat, e.badTrit, e.chime, e.escal]

/-- Sum of a list of event counts. -/
def Events.sum (l : List Events) : Events := l.foldl Events.add {}

/-! ### Exact dyadic arithmetic -/

/-- Signed integer of a sign and a magnitude. -/
def signed (neg : Bool) (n : Nat) : Int := if neg then -(n : Int) else n

/-- Exact sum of two dyadics given as signed mantissa and exponent. -/
def dyAdd (a b : Int × Int) : Int × Int :=
  let e := min a.2 b.2
  (a.1 * 2 ^ (a.2 - e).toNat + b.1 * 2 ^ (b.2 - e).toNat, e)

/-- Is the magnitude m1·2^e1 at or above m2·2^e2? -/
def magGe (m1 : Nat) (e1 : Int) (m2 : Nat) (e2 : Int) : Bool :=
  let e := min e1 e2
  m1 * 2 ^ (e1 - e).toNat ≥ m2 * 2 ^ (e2 - e).toNat

/-- Is the magnitude m1·2^e1 above m2·2^e2? -/
def magGt (m1 : Nat) (e1 : Int) (m2 : Nat) (e2 : Int) : Bool := !magGe m2 e2 m1 e1

/-- n ÷ 2^k, nearest, ties to even (R39). -/
def rneShr (n k : Nat) : Nat :=
  let q := n / 2 ^ k
  let r2 := 2 * (n % 2 ^ k)
  if r2 > 2 ^ k ∨ (r2 = 2 ^ k ∧ q % 2 = 1) then q + 1 else q

/-- n ÷ 2^k under stochastic rounding with the 16-bit draw u (R40). -/
def srShr (n k u : Nat) : Nat :=
  let q := n / 2 ^ k
  let r := n % 2 ^ k
  if r * 65536 + u * 2 ^ k ≥ 65536 * 2 ^ k then q + 1 else q

/-- The magnitude man·2^exp as an integer multiple of 2^q, rounded by the mode: RNE, or SR with a draw. -/
def roundTo (u : Option Nat) (man : Nat) (exp q : Int) : Nat :=
  if exp ≥ q then man * 2 ^ (exp - q).toNat
  else match u with
    | .none => rneShr man (q - exp).toNat
    | .some d => srShr man (q - exp).toNat d

/-- The code of the magnitude man·2^exp in a format, before overflow is considered: the exponent and mantissa
fields of R32, subnormals included. -/
def FpSpec.magCode (f : FpSpec) (u : Option Nat) (man : Nat) (exp : Int) : Nat :=
  if man = 0 then 0 else
    let e := (Nat.log2 man : Int) + exp
    let q0 := f.emin - f.mbits
    let q := max (e - f.mbits) q0
    (q - q0).toNat * 2 ^ f.mbits + roundTo u man exp q

/-- The code of the largest finite magnitude. -/
def FpSpec.maxCode (f : FpSpec) : Nat := (f.maxExp - (f.emin - f.mbits)).toNat * 2 ^ f.mbits + f.maxMan

/-- The overflow threshold of R43: at or above maxf + u/2 under RNE, strictly above maxf under SR. -/
def FpSpec.overflows (f : FpSpec) (u : Option Nat) (man : Nat) (exp : Int) : Bool :=
  match u with
  | .none => magGe man exp (2 * f.maxMan + 1) (f.maxExp - 1)
  | .some _ => magGt man exp f.maxMan f.maxExp

/-- The sign bit of a format's code. -/
def FpSpec.signBit (f : FpSpec) (neg : Bool) : Nat := if neg then 2 ^ (f.ebits + f.mbits) else 0

/-- The infinity code. -/
def FpSpec.infCode (f : FpSpec) : Nat := (2 ^ f.ebits - 1) * 2 ^ f.mbits

/-- The exact value of an unscaled floating-point code (R32, R33). -/
def FpSpec.decode (f : FpSpec) (w : Nat) : FV :=
  let neg := w / 2 ^ (f.ebits + f.mbits) % 2 = 1
  let e := w / 2 ^ f.mbits % 2 ^ f.ebits
  let m := w % 2 ^ f.mbits
  let top := e = 2 ^ f.ebits - 1
  if f.special = .ieee ∧ top then (if m = 0 then .inf neg else .nan)
  else if f.special = .e4m3 ∧ top ∧ m = 2 ^ f.mbits - 1 then .nan
  else if e = 0 then .fin neg m (f.emin - f.mbits)
  else .fin neg (2 ^ f.mbits + m) ((e : Int) - f.bias - f.mbits)

/-- FP32 of a word. -/
def fv32 (w : Word) : FV := fp32Spec.decode w.toNat

/-! ### Rounding to FP32 (R48, R114) -/

/-- An exact signed value to FP32 under RNE: the word, and whether it overflowed to an infinity. -/
def toFp32 (neg : Bool) (man : Nat) (exp : Int) : Word × Bool :=
  if fp32Spec.overflows .none man exp then (BitVec.ofNat 32 (fp32Spec.infCode + fp32Spec.signBit neg), true)
  else (BitVec.ofNat 32 (fp32Spec.magCode .none man exp + fp32Spec.signBit neg), false)

/-- The canonical FP32 NaN (R33). -/
def nan32 : Word := 0x7FC00000#32

/-- An infinity of FP32. -/
def inf32 (neg : Bool) : Word := BitVec.ofNat 32 (fp32Spec.infCode + fp32Spec.signBit neg)

/-- A finite exact value to FP32 with its OVERFLOW_INF count (R50). -/
def finTo32 (neg : Bool) (man : Nat) (exp : Int) : Word × Events :=
  let r := toFp32 neg man exp
  (r.1, if r.2 then { ovfInf := 1 } else {})

/-- A signed exact value to FP32; `zneg` is the sign a zero takes. -/
def intTo32 (zneg : Bool) (d : Int × Int) : Word × Events :=
  if d.1 = 0 then finTo32 zneg 0 0 else finTo32 (d.1 < 0) d.1.natAbs d.2

/-- A NaN that arises from non-NaN inputs: canonical, counting NAN_OUT (R50). -/
def nanOut : Word × Events := (nan32, { nanOut := 1 })

/-- FP32 addition under RNE (R114). -/
def fpAdd (a b : FV) : Word × Events :=
  match a, b with
  | .nan, _ => (nan32, {})
  | _, .nan => (nan32, {})
  | .inf x, .inf y => if x = y then (inf32 x, {}) else nanOut
  | .inf x, _ => (inf32 x, {})
  | _, .inf y => (inf32 y, {})
  | .fin n m e, .fin n' m' e' => intTo32 (n && n') (dyAdd (signed n m, e) (signed n' m', e'))

/-- Negation of an exact value. -/
def FV.negate : FV → FV
  | .nan => .nan
  | .inf n => .inf !n
  | .fin n m e => .fin (!n) m e

/-- Magnitude of an exact value. -/
def FV.abs : FV → FV
  | .nan => .nan
  | .inf _ => .inf false
  | .fin _ m e => .fin false m e

/-- An exact product; `none` where it is Inf × 0 (a NaN from non-NaN inputs). -/
def fvMul (a b : FV) : Option FV :=
  match a, b with
  | .nan, _ => some .nan
  | _, .nan => some .nan
  | .inf x, .inf y => some (.inf (x != y))
  | .inf x, .fin n m _ => if m = 0 then none else some (.inf (x != n))
  | .fin n m _, .inf y => if m = 0 then none else some (.inf (n != y))
  | .fin n m e, .fin n' m' e' => some (.fin (n != n') (m * m') (e + e'))

/-- An exact value to FP32 under RNE. -/
def fvTo32 : FV → Word × Events
  | .nan => (nan32, {})
  | .inf n => (inf32 n, {})
  | .fin n m e => finTo32 n m e

/-- FP32 multiplication under RNE (R114). -/
def fpMul (a b : FV) : Word × Events :=
  match fvMul a b with
  | none => nanOut
  | some v => fvTo32 v

/-- Fused multiply-add with one rounding (R114): a × b + c. -/
def fpFma (a b c : FV) : Word × Events :=
  match fvMul a b with
  | none => if c = .nan then (nan32, {}) else nanOut
  | some v => fpAdd v c

/-- −0 below +0, then by value: is a below b? Neither is NaN. -/
def fvLtOrd (a b : FV) : Bool :=
  match a, b with
  | .nan, _ => false
  | _, .nan => false
  | .inf x, .inf y => x && !y
  | .inf x, .fin .. => x
  | .fin .., .inf y => !y
  | .fin n m e, .fin n' m' e' =>
    let d := dyAdd (signed n m, e) (-(signed n' m'), e')
    if d.1 = 0 then n && !n' && m = 0 else d.1 < 0

/-- Comparison by value, −0 equal to +0 (R116): is a below b? -/
def fvLt (a b : FV) : Bool :=
  match a, b with
  | .fin n m e, .fin n' m' e' => (dyAdd (signed n m, e) (-(signed n' m'), e')).1 < 0
  | _, _ => fvLtOrd a b

/-- Equality by value, −0 equal to +0 (R116). -/
def fvEq (a b : FV) : Bool :=
  match a, b with
  | .nan, _ => false
  | _, .nan => false
  | .inf x, .inf y => x = y
  | .fin n m e, .fin n' m' e' => (dyAdd (signed n m, e) (-(signed n' m'), e')).1 = 0
  | _, _ => false

/-- VFMIN and VFMAX of R114 on words: canonical NaN if either is NaN. -/
def fpMin (a b : Word) : Word :=
  if fv32 a = .nan ∨ fv32 b = .nan then nan32 else if fvLtOrd (fv32 b) (fv32 a) then b else a
def fpMax (a b : Word) : Word :=
  if fv32 a = .nan ∨ fv32 b = .nan then nan32 else if fvLtOrd (fv32 a) (fv32 b) then b else a

/-! ### Reciprocal, square root, exp2 and log2, correctly rounded (R114) -/

/-- Integer square root by bits from 2^(fuel-1) down. -/
def isqrtGo (n : Nat) : Nat → Nat → Nat
  | 0, r => r
  | k + 1, r => let c := r + 2 ^ k; isqrtGo n k (if c * c ≤ n then c else r)

/-- Integer square root, rounded down. -/
def isqrt (n : Nat) : Nat := isqrtGo n (Nat.log2 n / 2 + 1) 0

/-- 1/x: the quotient carries a sticky last bit, so the rounding is that of the exact value. -/
def fpRcp (a : FV) : Word × Events :=
  match a with
  | .nan => (nan32, {})
  | .inf n => finTo32 n 0 0
  | .fin n m e =>
    if m = 0 then (inf32 n, { ovfInf := 1 }) else
      let k := Nat.log2 m + 64
      let q := 2 ^ k / m
      let st := if 2 ^ k % m = 0 then 0 else 1
      finTo32 n (2 * q + st) (-(k : Int) - e - 1)

/-- 1/√x. -/
def fpRsq (a : FV) : Word × Events :=
  match a with
  | .nan => (nan32, {})
  | .inf true => nanOut
  | .inf false => finTo32 false 0 0
  | .fin n m e =>
    if m = 0 then (inf32 n, { ovfInf := 1 }) else if n then nanOut else
      let (m, e) := if e % 2 = 0 then (m, e) else (2 * m, e - 1)
      let k := Nat.log2 m + 64
      let r := isqrt (2 ^ (2 * k) / m)
      let st := if r * r * m = 2 ^ (2 * k) then 0 else 1
      finTo32 false (2 * r + st) (-(k : Int) - e / 2 - 1)

/-- Product of 2^(2^-i) over the set bits i of a binary fraction of `n` bits, in 256-bit fixed point:
`c` is 2^(2^-i), `p` the product so far. -/
def exp2Go (frac n : Nat) : Nat → Nat → Nat → Nat
  | 0, _, p => p
  | fuel + 1, c, p =>
    let c := isqrt (c * 2 ^ 256)
    let i := n - (fuel + 1)
    let p := if frac.testBit (n - 1 - i) then p * c / 2 ^ 256 else p
    exp2Go frac n fuel c p

/-- 2^x for a finite x. -/
def fpExp2 (a : FV) : Word × Events :=
  match a with
  | .nan => (nan32, {})
  | .inf true => (0#32, {})
  | .inf false => (inf32 false, {})
  | .fin n m e =>
    if m = 0 then finTo32 false 1 0
    else if magGe m e 1 8 then (if n then (0#32, {}) else (inf32 false, { ovfInf := 1 }))
    else if !magGe m e 1 (-26) then
      -- |x| < 2^-26: 2^x lies strictly between 1 − 2^-25 and 1 + 2^-25 and rounds to 1
      finTo32 false 1 0
    else
      let fb := (-e).toNat                    -- fraction bits of x
      let x : Int := signed n m * 2 ^ e.toNat
      let i := x / 2 ^ fb
      let f := (x % 2 ^ fb).toNat
      if f = 0 then finTo32 false 1 i
      else
        let p := exp2Go f fb fb (2 ^ 257) (2 ^ 256)
        finTo32 false (2 * p + 1) (i - 257)

/-- Binary digits of log2 of a mantissa in [1, 2), held in 256-bit fixed point, by repeated squaring. -/
def log2Go : Nat → Nat → Nat → Nat
  | 0, _, r => r
  | fuel + 1, x, r =>
    let y := x * x / 2 ^ 256
    if y ≥ 2 ^ 257 then log2Go fuel (y / 2) (2 * r + 1) else log2Go fuel y (2 * r)

/-- log₂ x. -/
def fpLog2 (a : FV) : Word × Events :=
  match a with
  | .nan => (nan32, {})
  | .inf true => nanOut
  | .inf false => (inf32 false, {})
  | .fin n m e =>
    if m = 0 then (inf32 true, { ovfInf := 1 }) else if n then nanOut else
      let l := Nat.log2 m
      let ip : Int := (l : Int) + e
      if m = 2 ^ l then intTo32 false (ip, 0)
      else
        let t : Int := ip * 2 ^ 120 + log2Go 120 (m * 2 ^ (256 - l)) 0
        if t ≥ 0 then finTo32 false (2 * t.toNat + 1) (-121)
        else finTo32 true (2 * (-t - 1).toNat + 1) (-121)

/-- FP32 to INT32 under RNE, saturating (R114). -/
def fpToInt (a : FV) : Word × Events :=
  match a with
  | .nan => (0#32, { nanOut := 1 })
  | .inf true => (0x80000000#32, { elemSat := 1 })
  | .inf false => (0x7FFFFFFF#32, { elemSat := 1 })
  | .fin n m e =>
    if magGe m e 1 40 then (if n then 0x80000000#32 else 0x7FFFFFFF#32, { elemSat := 1 })
    else
      let k : Int := signed n (roundTo .none m e 0)
      if k > 2147483647 then (0x7FFFFFFF#32, { elemSat := 1 })
      else if k < -2147483648 then (0x80000000#32, { elemSat := 1 })
      else (BitVec.ofInt 32 k, {})

/-- INT32 to FP32 under RNE (R114). -/
def intToFp (w : Word) : Word := (intTo32 false (w.toInt, 0)).1

/-! ### Element decoding (R34, R35, R38) -/

/-- The multiplier an E8M0 scale code stands for: `none` for the NaN code 255 (R37). -/
def e8m0 (x : Nat) : Option Int := if x = 255 then none else some ((x : Int) - 127)

/-- The element value of a code in a format other than T3, before scaling. -/
def Fmt.elem (f : Fmt) (code : Nat) : FV :=
  match f.fp with
  | some sp => sp.decode code
  | none => match f.intBits with
    | some b => let c := code % 2 ^ b
                if c ≥ 2 ^ (b - 1) then .fin true (2 ^ b - c) 0 else .fin false c 0
    | none => .nan

/-- A trit digit d = t + 1 as an exact value t (R35). -/
def tritValue (d : Nat) : Int := (d : Int) - 1

/-- Digit i of a T3 byte; a byte of 243–255 decodes as five zero trits (R35). -/
def tritDigit (byte i : Nat) : Nat := if byte ≥ 243 then 1 else byte / 3 ^ i % 3

/-- An element's exact value times 2^k. -/
def FV.scale (v : FV) (k : Int) : FV :=
  match v with
  | .fin n m e => .fin n m (e + k)
  | v => v

/-- A block scale as the machine holds it: none (unscaled), an E8M0 code or an FP16 code. -/
inductive Scale where
  | unit
  | e8m0 (code : Nat)
  | fp16 (code : Nat)
  deriving DecidableEq, Repr

/-- The exact scaled value of an element of a format other than T3 (R38). -/
def scaledElem (f : Fmt) (code : Nat) (sc : Scale) : FV :=
  match sc with
  | .unit => f.elem code
  | .e8m0 x => match Machine.e8m0 x with
    | none => .nan
    | some k => (f.elem code).scale k
  | .fp16 _ => .nan

/-- The exact scaled value of a trit: t × s, NaN under a NaN or infinite scale (R35, R38). -/
def scaledTrit (d : Nat) (sc : Nat) : FV :=
  match fp16Spec.decode sc with
  | .fin n m e =>
    let t := tritValue d
    if t = 0 then .fin n 0 0 else .fin (n != (t < 0)) m e
  | _ => .nan

/-- Decoding to FP32 (R38): exact, or an infinity counting OVERFLOW_INF. -/
def decode32 (v : FV) : Word × Events := fvTo32 v

/-! ### The rounding generator (R41, R42) -/

/-- One step of the Galois register of R41. -/
def lfsrStep (st : Word) : Word :=
  if st.getLsbD 0 then (st >>> 1) ^^^ 0x80200003#32 else st >>> 1

/-- The seed of R42. -/
def srSeed (roundingSeed shapeCore pc srcnt : Word) : Word :=
  let h := roundingSeed
  let h := h ^^^ (shapeCore * 0x85EBCA6B#32)
  let h := h ^^^ (pc * 0xC2B2AE35#32)
  let h := h ^^^ (srcnt * 0x27D4EB2F#32)
  let h := h ^^^ (h >>> 16)
  if h = 0 then 1#32 else h

/-- The draws of n elements: the low 16 bits of the state after each step (R41), and the final state. -/
def srDraws : Nat → Word → List Nat × Word
  | 0, st => ([], st)
  | n + 1, st =>
    let st := lfsrStep st
    let r := srDraws n st
    (st.toNat % 65536 :: r.1, r.2)

/-! ### Encoding (R39–R46) -/

/-- One element of a floating-point destination after scaling (R43). `block` is set for a block element, which
always saturates; `u` is the SR draw. -/
def encodeFp (f : FpSpec) (block sat : Bool) (u : Option Nat) (v : FV) : Nat × Events :=
  let satTo (neg : Bool) : Nat × Events := (f.maxCode + f.signBit neg, { elemSat := 1 })
  match v with
  | .nan => (f.nan, {})
  | .inf n =>
    if block ∨ sat then satTo n
    else if f.special = .ieee then (f.infCode + f.signBit n, {})
    else if f.special = .e4m3 then (f.nan, { nanOut := 1 })
    else satTo n
  | .fin n m e =>
    if f.overflows u m e then
      if block ∨ sat then satTo n
      else if f.special = .ieee then (f.infCode + f.signBit n, { ovfInf := 1 })
      else if f.special = .e4m3 then (f.nan, { nanOut := 1 })
      else satTo n
    else (f.magCode u m e + f.signBit n, {})

/-- One element of an integer destination of b bits (R34, R43): always saturates. -/
def encodeInt (b : Nat) (u : Option Nat) (v : FV) : Nat × Events :=
  let hi : Nat := 2 ^ (b - 1) - 1
  let lo : Nat := 2 ^ (b - 1)
  let code (n : Bool) (k : Nat) : Nat := if n then (2 ^ b - k) % 2 ^ b else k
  match v with
  | .nan => (0, { nanOut := 1 })
  | .inf n => (code n (if n then lo else hi), { elemSat := 1 })
  | .fin n m e =>
    let lim := if n then lo else hi
    let ovf := match u with
      | .none => magGe m e (2 * lim + 1) (-1)
      | .some _ => magGt m e lim 0
    if ovf then (code n lim, { elemSat := 1 }) else (code n (roundTo u m e 0), {})

/-- One element of any format but T3 (R43). -/
def encodeElem (f : Fmt) (block sat : Bool) (u : Option Nat) (v : FV) : Nat × Events :=
  match f.fp with
  | some sp => encodeFp sp block sat u v
  | none => match f.intBits with
    | some b => encodeInt b u v
    | none => (0, {})

/-- The FP32 words of a block as exact values. -/
def fvs (b : List Word) : List FV := b.map fv32

/-- Step 1 of R44: does the block contain a NaN or an infinity? -/
def blockSpecial (b : List Word) : Bool :=
  b.any fun w => match fv32 w with | .fin .. => false | _ => true

/-- Pairwise addition of one level of sum32, each sum FP32 under RNE (R46). -/
def pairSum : List Word → List Word
  | a :: b :: l => (fpAdd (fv32 a) (fv32 b)).1 :: pairSum l
  | l => l

/-- sum32: the pairwise tree of R46, five levels. -/
def sum32 (l : List Word) : Word := ((pairSum (pairSum (pairSum (pairSum (pairSum l)))))).headD 0#32

/-- The magnitude of an FP32 word. -/
def abs32 (w : Word) : Word := w &&& 0x7FFFFFFF#32

/-- The largest magnitude of a block of finite words, by word order of the magnitudes. -/
def amax32 (b : List Word) : Word := b.foldl (fun a w => if (abs32 w).toNat > a.toNat then abs32 w else a) 0#32

/-- floor(log₂) of a non-zero finite FP32 magnitude (R44 step 3). -/
def floorLog2 (w : Word) : Int :=
  match fv32 w with
  | .fin _ m e => (Nat.log2 m : Int) + e
  | _ => 0

/-- The offset k of R45. -/
def Fmt.scaleOffset : Fmt → Int
  | .e4m3 => 8 | .e5m2 => 15 | .e3m2 => 4 | .e2m3 => 2 | .e2m1 => 2 | .int4 => 2 | _ => 0

/-- An encoded block: the element codes (digits for T3), the scale, the events, and whether it was special or all
zero, which the chime needs (R51). -/
structure EncBlock where
  codes : List Nat
  scale : Scale
  ev : Events
  special : Bool
  allZero : Bool
  deriving DecidableEq, Repr

/-- The draw of element i, if rounding is stochastic. -/
def drawAt (us : Option (List Nat)) (i : Nat) : Option Nat := us.map fun l => l.getD i 0

/-- The encoding of zero of R44 step 1. -/
def zeroCode (f : Fmt) : Nat := if f = .t3 then 1 else 0

/-- A special block (R44 step 1). -/
def specialBlock (f : Fmt) (n : Nat) : EncBlock :=
  { codes := List.replicate n (zeroCode f), scale := if f = .t3 then .fp16 0x7E00 else .e8m0 255,
    ev := { specBlk := 1 }, special := true, allZero := false }

/-- Encode every element of a block under an E8M0 scale code (R45). -/
def encodeE8 (f : Fmt) (us : Option (List Nat)) (x : Nat) (b : List Word) : List (Nat × Events) :=
  b.mapIdx fun i w => encodeElem f true true (drawAt us i) ((fv32 w).scale (127 - (x : Int)))

/-- One trit under a scale s ≥ 0 with exact value sm·2^se (R46 steps 3 and 4), `flip` set where the supplied
scale was negative (R109): the digit. -/
def tritOf (u : Option Nat) (flip : Bool) (sm : Nat) (se : Int) (w : Word) : Nat :=
  if sm = 0 then 1 else
  match fv32 w with
  | .fin n m e =>
    let up := match u with
      | .none => magGt m e sm (se - 1)
      | .some d => magGe m e sm se ||
          (let q := dyAdd ((m * 65536 : Nat), e) (((d * sm : Nat) : Int), se)
           (dyAdd q (-((65536 * sm : Nat) : Int), se)).1 ≥ 0)
    if up then (if n != flip then 0 else 2) else 1
  | _ => 1

/-- Encode every trit of a block under an FP16 scale code. -/
def encodeT3 (us : Option (List Nat)) (sc : Nat) (b : List Word) : List Nat :=
  match fp16Spec.decode sc with
  | .fin n m e => b.mapIdx fun i w => tritOf (drawAt us i) n m e w
  | _ => b.map fun _ => 1

/-- RNE to FP16 of A ÷ 32, held at 65,504 with one ELEM_SAT (R46 step 2). -/
def t3Scale (b : List Word) : Nat × Events :=
  match (fv32 (sum32 (b.map abs32))).scale (-5) with
  | .fin _ m e =>
    if magGt m e 65504 0 ∧ fp16Spec.overflows .none m e then (0x7BFF, { elemSat := 1 })
    else if magGt m e 65504 0 then (0x7BFF, {})
    else (fp16Spec.magCode .none m e, {})
  | _ => (0x7BFF, { elemSat := 1 })

/-- A block into a block-scaled format with the scale hardware chooses (R44–R46). -/
def encodeBlock (f : Fmt) (us : Option (List Nat)) (b : List Word) : EncBlock :=
  if blockSpecial b then specialBlock f b.length
  else if f = .t3 then
    if (amax32 b).toNat = 0 then
      { codes := b.map fun _ => 1, scale := .fp16 0, ev := {}, special := false, allZero := true }
    else
      let s := t3Scale b
      { codes := encodeT3 us s.1 b, scale := .fp16 s.1, ev := s.2, special := false, allZero := false }
  else if (amax32 b).toNat = 0 then
    { codes := b.map fun w => (encodeElem f true true .none (fv32 w)).1, scale := .e8m0 0, ev := {},
      special := false, allZero := true }
  else
    let x0 := floorLog2 (amax32 b) - f.scaleOffset + 127
    let x := (min (max x0 0) 254).toNat
    let es := encodeE8 f us x b
    { codes := es.map (·.1), scale := .e8m0 x,
      ev := (Events.sum (es.map (·.2))).add (if x0 < 0 then { sclFloor := 1 } else {}),
      special := false, allZero := false }

/-- A block into a block-scaled format with a scale software supplies (R109). -/
def encodeSupplied (f : Fmt) (us : Option (List Nat)) (sc : Nat) (b : List Word) : EncBlock :=
  let z := (amax32 b).toNat = 0
  if blockSpecial b then specialBlock f b.length
  else if f = .t3 then
    match fp16Spec.decode sc with
    | .fin .. => { codes := encodeT3 us sc b, scale := .fp16 sc, ev := {}, special := false, allZero := z }
    | _ => specialBlock f b.length
  else if sc = 255 then specialBlock f b.length
  else
    let es := encodeE8 f us sc b
    { codes := es.map (·.1), scale := .e8m0 sc, ev := Events.sum (es.map (·.2)), special := false, allZero := z }

/-- A row segment into an unscaled format (R39–R43). -/
def encodeUnscaled (f : Fmt) (sat : Bool) (us : Option (List Nat)) (b : List Word) : EncBlock :=
  let es := b.mapIdx fun i w => encodeElem f false sat (drawAt us i) (fv32 w)
  { codes := es.map (·.1), scale := .unit, ev := Events.sum (es.map (·.2)), special := false, allZero := false }

/-- The dequantised value of an encoded element, exact (R51). -/
def dequant (f : Fmt) (code : Nat) (sc : Scale) : FV :=
  match f, sc with
  | .t3, .fp16 s => scaledTrit code s
  | _, _ => scaledElem f code sc

/-- The chime bit of an encoded block (R51, R52). -/
def chimeBit (f : Fmt) (t : Nat) (b : List Word) (e : EncBlock) : Bool :=
  if t = 0 ∨ e.special ∨ (amax32 b).toNat = 0 then false else
    let diffs := b.mapIdx fun i w => abs32 (fpAdd (fv32 w) (dequant f (e.codes.getD i 0) e.scale).negate).1
    let d := fv32 (sum32 diffs)
    let a := fv32 (sum32 (b.map abs32))
    match d, a with
    | .fin _ m e, .fin _ m' e' => magGt (m * 256) e (m' * t) e'
    | .inf _, .fin .. => true
    | _, _ => false

/-! ### Element packing (R36) -/

/-- Little-endian bytes of a number. -/
def leBytes : Nat → Nat → List Byte
  | 0, _ => []
  | n + 1, w => BitVec.ofNat 8 w :: leBytes n (w / 256)

/-- The number of little-endian bytes. -/
def leNat : List Byte → Nat
  | [] => 0
  | b :: l => b.toNat + 256 * leNat l

/-- Pack codes of b bits, element i at bits [b·i+b-1 : b·i], as one little-endian number. -/
def packBits (b : Nat) : List Nat → Nat
  | [] => 0
  | c :: l => c % 2 ^ b + 2 ^ b * packBits b l

/-- The bytes of a group of trit digits, five to a byte, padding as digit 1 (R35, R37): n bytes. -/
def packTrits : Nat → List Nat → List Byte
  | 0, _ => []
  | n + 1, l =>
    let d (i : Nat) := l.getD i 1
    BitVec.ofNat 8 (d 0 + 3 * d 1 + 9 * d 2 + 27 * d 3 + 81 * d 4) :: packTrits n (l.drop 5)

/-- The bytes a 64-element chunk of codes takes in a format (R36, R112). -/
def packChunk (f : Fmt) (codes : List Nat) : List Byte :=
  if f = .t3 then packTrits 13 codes else leBytes (codes.length * f.bits / 8) (packBits f.bits codes)

/-- Element bytes of a 64-element chunk (R112). -/
def Fmt.chunkBytes (f : Fmt) : Nat := if f = .t3 then 13 else 8 * f.bits

/-- Code i of packed element bytes. -/
def unpackAt (f : Fmt) (bytes : List Byte) (i : Nat) : Nat :=
  if f = .t3 then tritDigit (bytes.getD (i / 5) 0#8).toNat (i % 5)
  else leNat bytes / 2 ^ (f.bits * i) % 2 ^ f.bits

/-- BAD_TRIT events of the element-holding bytes of a T3 group (R35). -/
def badTrits (bytes : List Byte) : Nat := (bytes.filter fun b => b.toNat ≥ 243).length

end Sys2Proof.Machine
end

