-- ==== Sys2Proof/Machine/State.lean ====
section
/-!
DEFINITION. The machine state of the H9 as plain data, one structure per unit of the device, and the state after the
power-on reset L6 (R428, R431).  Every field's docstring ends with the rule that names it, its width, and its value
at reset.  `DC` marks a value the spec does not give, chosen in notes/assumptions/1.md.

Sparse maps (`SMap`) list only entries that differ from the default they are read with.
-/
namespace Sys2Proof.Machine

/-! ### Stops -/

/-- Why the machine stops.  No meaning of this model answers a fault today (see NOTES.md, ## Stops). -/
inductive Fault where
  /-- Kept for an access the spec says does not exist; no command of the H9 raises it, since every absent address
  reads as zero or is answered with a status. Safe. -/
  | absentAddress (a : Nat)
  deriving DecidableEq, Repr

/-- Why a command is refused. -/
inductive Refusal where
  /-- Raised by an arm of `exec` whose command has no meaning yet. Safe. -/
  | notModelled (mnemonic : String)
  deriving DecidableEq, Repr

/-! ### The core (spec/03, spec/04, spec/05) -/

/-- A loop-stack entry (R71, R91). -/
structure LoopEnt where
  /-- Byte address of the body's first word. -/
  first : Nat
  /-- Byte address of the body's last word. -/
  last : Nat
  /-- Iterations left. -/
  count : Nat
  deriving DecidableEq, Repr

/-- A rectangle of pocket bytes: `rows` runs of `len` bytes, `stride` apart from `base`. -/
structure Span where
  base : Nat
  stride : Nat
  rows : Nat
  len : Nat
  deriving DecidableEq, Repr

/-- A pocket-ordering window of R121: until slot `until`, a write to `reads` makes the results of the instruction
undefined, and until slot `resUntil` a read of `writes` gives an undefined value. -/
structure Hazard where
  untilSlot : Nat
  reads : List Span
  resUntil : Nat
  writes : List Span
  tiles : List Nat
  deriving DecidableEq, Repr

/-- The kinds of Seedbank transfer (R80, R65). -/
inductive XferKind where | sbld | sbst | isld
  deriving DecidableEq, Repr

/-- An outstanding transfer (R80). -/
structure CoreXfer where
  id : Nat
  kind : XferKind
  tag : Nat
  /-- Pocket or instruction-store byte address of line 0. -/
  rp : Nat
  /-- Store line address of line 0 (R79). -/
  rl : Nat
  n : Nat
  /-- Lines not yet answered. -/
  left : List Nat
  /-- Lowest line an ISLD got poisoned (R65). -/
  bad : Option Nat := none
  /-- pc and word of the issuing instruction, for a late exception (R82). -/
  pc : Nat
  instr : DWord
  deriving DecidableEq, Repr

/-- A timeline signal waiting for the earlier SBSTs of its core (R84). -/
structure SigReq where
  tl : Nat
  value : Nat
  after : List Nat
  deriving DecidableEq, Repr

/-- A TLRD whose reply has not arrived (R74). -/
structure TlrdReq where
  sn : Nat
  tl : Nat
  deriving DecidableEq, Repr

/-- The exception codes of R85. -/
inductive Cause where
  | illegalInstr | operandShape | pocketRange | fetchRange | loopDepth | storeRange | poisonConsumed
  | timelineSlot | timelinePoisoned | break_ | transferTargetReset
  deriving DecidableEq, Repr

/-- An exception waiting to take effect, or recorded (R85, R87). -/
structure Exc where
  cause : Cause
  pc : Nat
  info : Nat
  instr : DWord
  /-- Slot at which it takes effect. -/
  slot : Nat
  deriving DecidableEq, Repr

/-- A slot of the lead queue: an instruction word with its address, or the empty slot a taken branch adds (R71, R73). -/
inductive LeadSlot where
  | word (pc : Nat) (w : DWord)
  | beat      -- a further beat of a WAITB
  | empty
  deriving DecidableEq, Repr

/-- A Drumline datum (R124, R126). -/
structure Datum where
  data : BitVec 512
  poison : Bool
  /-- Schedule beat at which it is due (R125). -/
  due : Nat
  /-- VD of the sender. -/
  vd : Nat
  deriving DecidableEq, Repr

/-- One core with its router.  Registers and memories hold zero at L6 (DC): the spec zeroes them when an exec starts
(R57) and when a pod is bound. -/
structure Core where
  /-- A context runs on the core. [R57 spec/03; 1 bit; reset 0] -/
  running : Bool := false
  /-- HALT has executed. [R72 spec/03; 1 bit; reset 0] -/
  halted : Bool := false
  /-- Issue has stopped for an exception, a teardown or a measure boundary. [R86, R89 spec/03; 1 bit; reset 0] -/
  stopped : Bool := false
  /-- VD of the running context. [R56 spec/03; 7 bits; reset 0 DC] -/
  vd : Nat := 0
  /-- CTXID.CTX. [R60 spec/03; 12 bits; reset 0 DC] -/
  ctx : Nat := 0
  /-- SHAPECORE.NUM. [R60 spec/03; 32 bits; reset 0 DC] -/
  shapeCore : Nat := 0
  /-- SHAPEPODS.PODS. [R60 spec/03; 16 bits; reset 0 DC] -/
  shapePods : Nat := 0
  /-- RSEED.SEED. [R60 spec/03; 32 bits; reset 0 DC] -/
  rseed : Word := 0#32
  /-- Measure length L; BEATPOS.MLEN is L - 1. [R60, R127 spec/03; 13 bits; reset 1 DC] -/
  mlen : Nat := 1
  /-- Scalar registers s1 to s31; s0 is hard-wired to zero. [R56 spec/03; 31 x 32 bits; reset 0 DC] -/
  s : SMap Word := []
  /-- Vector registers v0 to v31. [R56 spec/03; 32 x 2048 bits; reset 0 DC] -/
  v : SMap VReg := []
  /-- Lane masks m1 to m7; m0 is hard-wired to all ones. [R56 spec/03; 7 x 64 bits; reset 0 DC] -/
  m : SMap DWord := []
  /-- Accumulator tiles: element (row, col) of tile t at key 2048·t + 64·row + col. [R56 spec/03; 4 x 2048 x 32 bits; reset 0 DC] -/
  acc : SMap Word := []
  /-- Tile types, bit t set for INT32. [R59 spec/03; 4 bits; reset 0 DC] -/
  accInt : BitVec 4 := 0#4
  /-- Program counter, a byte address of the instruction store. [R56 spec/03; 32 bits; reset 0 DC] -/
  pc : Nat := 0
  /-- Loop stack, innermost first. [R71 spec/03; 4 entries; reset empty] -/
  loops : List LoopEnt := []
  /-- SRCNT. [R60 spec/03; 32 bits; reset 0] -/
  srcnt : Word := 0#32
  /-- ROLLBASE.WIN. [R60 spec/03; 4 bits; reset 0xF] -/
  rollWin : Nat := 15
  /-- ROLLSTAT.LEVEL. [R60, R88 spec/03; 7 bits; reset 0] -/
  level : Nat := 0
  /-- HOLDREQ. [R60 spec/03; 32 bits; reset 0] -/
  holdReq : Nat := 0
  /-- HOLDBEATS. [R60 spec/03; 32 bits; reset 0] -/
  holdBeats : Nat := 0
  /-- TOLLHI sampled with the latest TOLLLO read, if any since exec or restore. [R60 spec/03; 32 bits; reset none] -/
  tollHi : Option Word := none
  /-- Pocket bytes. [R61 spec/03; 128 KiB; reset 0 DC] -/
  pocket : Mem := []
  /-- Pocket poison bit of each 64-byte line. [R63 spec/03; 2048 bits; reset 0 DC] -/
  poison : SMap Bool := []
  /-- Instruction store, word i at byte address 8i. [R64 spec/03; 4096 x 64 bits; reset 0 DC] -/
  istore : SMap DWord := []
  /-- Numeric event counters, CSRs 0x100 to 0x108. [R119 spec/04; 9 x 32 bits; reset 0] -/
  cnt : Events := {}
  /-- Event counts of instructions still in flight, with the wall beat they appear at. [R120, R122 spec/04; list; reset empty] -/
  cntPend : List (Nat × Events) := []
  /-- Rounding generator. [R41 spec/02; 32 bits; reset 0 DC: seeded before each use] -/
  lfsr : Word := 0#32
  /-- Lead queue, oldest first. [R73 spec/03; 12 slots; reset empty] -/
  lead : List LeadSlot := []
  /-- The front end has found its condition false. [R75 spec/03; 1 bit; reset 0] -/
  feWait : Bool := false
  /-- The front end accepts nothing more: an exception was accepted, or a boundary was reached. [R86, R89 spec/03; 1 bit; reset 0] -/
  feStop : Bool := false
  /-- Schedule beat: slots the back end has executed since exec. [R73 spec/03; 64 bits; reset 0] -/
  slot : Nat := 0
  /-- Schedule beat of the router's next entry. [R127 spec/05; 64 bits; reset 0] -/
  rbeat : Nat := 0
  /-- Wall beats spent held since exec; the wall beat is slot + this. [R96 spec/04; 64 bits; reset 0] -/
  heldTotal : Nat := 0
  /-- Wall beat from which each scalar register is valid; listed only for back-end writes. [R74 spec/03; reset empty] -/
  validS : SMap Nat := []
  /-- Wall beat from which each vector register is valid. [R121 spec/04; reset empty] -/
  validV : SMap Nat := []
  /-- Wall beat from which each mask register is valid. [R121 spec/04; reset empty] -/
  validM : SMap Nat := []
  /-- Wall beat until which each tile is in use. [R121 spec/04; reset empty] -/
  tileUse : SMap Nat := []
  /-- Tiles whose latest user is an MMA or MMAE, with 1 for FP32 and 2 for INT32 accumulation. [R104 spec/04; reset empty] -/
  tileChain : SMap Nat := []
  /-- Wall beat from which each execution unit is free (0 tensor, 1 convert, 2 vector, 3 pocket port, 4 CSR port). [R96 spec/04; reset 0] -/
  unitFree : SMap Nat := []
  /-- Wall beats in which the tensor unit was or will be occupied, as intervals, newest first. [R422 spec/15; reset empty] -/
  macs : List (Nat × Nat) := []
  /-- Wall beat at which the running MMAE's escalation count becomes known. [R106 spec/04; reset 0] -/
  mmaeKnown : Nat := 0
  /-- Wall beat by which every issued SR = 1 instruction has completed. [R111 spec/04; reset 0] -/
  srDone : Nat := 0
  /-- Pocket-ordering windows. [R121 spec/04; list; reset empty] -/
  hazards : List Hazard := []
  /-- Outstanding transfers. [R80 spec/03; at most 16; reset empty] -/
  xfers : List CoreXfer := []
  /-- Number the next transfer takes, to name it in a response; the model's own. [R80 spec/03; reset 0 DC] -/
  nextXid : Nat := 0
  /-- Timeline signals not yet performed. [R84 spec/03; list; reset empty] -/
  sigs : List SigReq := []
  /-- TLRDs not yet answered. [R74 spec/03; list; reset empty] -/
  tlrds : List TlrdReq := []
  /-- Transfer id of the ISLD whose copy the next fetch waits on. [R65 spec/03; reset none] -/
  isld : Option Nat := none
  /-- Router write of the beat just stepped, which lands after that beat's back-end store: line, data, poison. [R62, R131 spec/05; reset none] -/
  rwrite : Option (Nat × BitVec 512 × Bool) := none
  /-- The WAITB that holds the slots before `slot` whose router beats are still to come: pc and word. [R85 spec/03; reset none] -/
  waitWord : Option (Nat × DWord) := none
  /-- Exception found and not yet taken. [R85 spec/03; reset none] -/
  exc : Option Exc := none
  /-- The context completed a Seedbank write or a timeline signal on this core since exec (MAYWRITE). [R87 spec/03; 1 bit; reset 0] -/
  wrote : Bool := false
  /-- Beat store, entry i. [R127 spec/05; 4096 x 64 bits; reset 0 DC] -/
  table : SMap DWord := []
  /-- RSTEP of the table header, signed lines. [R145 spec/05; 12 bits; reset 0 DC] -/
  rstep : Int := 0
  /-- RPER, measures. [R145 spec/05; 13 bits; reset 1 DC] -/
  rper : Nat := 1
  /-- WSTEP, signed lines. [R145 spec/05; 12 bits; reset 0 DC] -/
  wstep : Int := 0
  /-- WPER, measures. [R145 spec/05; 13 bits; reset 1 DC] -/
  wper : Nat := 1
  /-- Skid buffers of the physical input ports 0 N, 1 E, 2 S, 3 W. [R139 spec/05; 4 x 12 entries; reset empty] -/
  skid : SMap (List Datum) := []
  /-- Data on the inbound link of each physical port, oldest first. [R124, R139 spec/05; reset empty] -/
  link : SMap (List Datum) := []
  deriving DecidableEq, Repr

/-- One pod: its binding and the DRL counters (R149, R152). A `Vf` counter is the copy the VF window shows. -/
structure Pod where
  /-- DRL_PODCFG.VD. [R152 spec/05; 7 bits; reset 0] -/
  vd : Nat := 0
  /-- DRL_PODCFG.OPEN: bit 3 north, 2 east, 1 south, 0 west. [R149, R152 spec/05; 4 bits; reset 0] -/
  openE : BitVec 4 := 0#4
  /-- DRL_PODCFG.ORIENT. [R146, R152 spec/05; 3 bits; reset 0] -/
  orient : Nat := 0
  /-- DRL_PODBND.COUNT, PF copy. [R150, R152 spec/05; 32 bits; reset 0] -/
  bnd : Nat := 0
  /-- DRL_PODBND.COUNT, VF copy. [R152 spec/05; 32 bits; reset 0] -/
  bndVf : Nat := 0
  /-- DRL_PODSKED.UNCLAIMED, PF copy. [R133, R152 spec/05; 16 bits; reset 0] -/
  unclaimed : Nat := 0
  /-- DRL_PODSKED.UNCLAIMED, VF copy. [R152 spec/05; 16 bits; reset 0] -/
  unclaimedVf : Nat := 0
  /-- DRL_PODSKED.EMPTY, PF copy. [R133, R152 spec/05; 16 bits; reset 0] -/
  empty : Nat := 0
  /-- DRL_PODSKED.EMPTY, VF copy. [R152 spec/05; 16 bits; reset 0] -/
  emptyVf : Nat := 0
  /-- DRL_PODECC.CORR, PF copy. [R126, R152 spec/05; 16 bits; reset 0] -/
  corr : Nat := 0
  /-- DRL_PODECC.CORR, VF copy. [R152 spec/05; 16 bits; reset 0] -/
  corrVf : Nat := 0
  /-- DRL_PODECC.UNCORR, PF copy. [R126, R152 spec/05; 16 bits; reset 0] -/
  uncorr : Nat := 0
  /-- DRL_PODECC.UNCORR, VF copy. [R152 spec/05; 16 bits; reset 0] -/
  uncorrVf : Nat := 0
  deriving DecidableEq, Repr

/-- The seam (R136, R137, R152). -/
structure Seam where
  /-- DRL_SEAM.LOCKED. [R136, R152 spec/05; 1 bit; reset 0] -/
  locked : Bool := false
  /-- DRL_SEAM.OPEN. [R137, R152 spec/05; 1 bit; reset 0] -/
  isOpen : Bool := false
  /-- DRL_SEAMDROP.COUNT. [R137, R152 spec/05; 32 bits; reset 0] -/
  drop : Nat := 0
  deriving DecidableEq, Repr

/-! ### The Seedbank (spec/06) -/

/-- Bin states of R157, in code order. -/
inductive BinState where | free | owned | incoming | hot | system | clearing | retired
  deriving DecidableEq, Repr

/-- One bin (SBK_BIN). -/
structure Bin where
  /-- STATE. [R157, R184 spec/06; 3 bits; reset FREE; SYSTEM for bins 254, 255, 510, 511 once L6 ends (R160)] -/
  st : BinState := .free
  /-- OWNER. [R184 spec/06; 7 bits; reset 0] -/
  owner : Nat := 0
  /-- HOTID. [R184 spec/06; 9 bits; reset 0] -/
  hotId : Nat := 0
  /-- RETREQ. [R175, R184 spec/06; 1 bit; reset 0] -/
  retReq : Bool := false
  /-- UNC. [R175, R184 spec/06; 5 bits; reset 0] -/
  unc : Nat := 0
  /-- Retire, not free, when clearing ends. [R175 spec/06; 1 bit; reset 0] -/
  retire : Bool := false
  deriving DecidableEq, Repr

/-- Counters and engines of one pod region. -/
structure Region where
  /-- SBK_PODECC.CORR. [R184 spec/06; 16 bits; reset 0] -/
  corr : Nat := 0
  /-- SBK_PODECC.UNCORR. [R184 spec/06; 16 bits; reset 0] -/
  uncorr : Nat := 0
  /-- SBK_PODECC.CORR, VF copy. [R184 spec/06; 16 bits; reset 0] -/
  corrVf : Nat := 0
  /-- SBK_PODECC.UNCORR, VF copy. [R184 spec/06; 16 bits; reset 0] -/
  uncorrVf : Nat := 0
  /-- SBK_PODOWN.FAIL. [R158, R184 spec/06; 32 bits; reset 0] -/
  fail : Nat := 0
  /-- Next line of the region's scrub pass. [R175 spec/06; 20 bits; reset 0] -/
  scrubPos : Nat := 0
  /-- Toll count at which the running pass began. [R175 spec/06; 64 bits; reset 0] -/
  passStart : Nat := 0
  /-- The running pass has counted LATE. [R175 spec/06; 1 bit; reset 0] -/
  lateCounted : Bool := false
  /-- Passes completed. [R184 spec/06; 16 bits; reset 0] -/
  passes : Nat := 0
  deriving DecidableEq, Repr

/-- A class's statistics at one arbiter (R171). -/
structure ArbStat where
  grants : Nat := 0
  waitSum : Nat := 0
  waitMax : Nat := 0
  deriving DecidableEq, Repr

/-- A hot-set entry (R180–R183). -/
structure HotEntry where
  /-- The entry exists. [R180 spec/06; 1 bit; reset 0] -/
  used : Bool := false
  /-- Owner. [R180 spec/06; 7 bits; reset 0 DC] -/
  vd : Nat := 0
  /-- Source object index. [R180 spec/06; 20 bits; reset 0 DC] -/
  obj : Nat := 0
  /-- Bins of the image. [R180 spec/06; 1 to 256; reset 0 DC] -/
  need : Nat := 0
  /-- Bins held, in bin order of the entry. [R181 spec/06; list; reset empty] -/
  bins : List Nat := []
  /-- Priority. [R180 spec/06; 2 bits; reset 0 DC] -/
  prio : Nat := 0
  /-- Pin bit. [R180 spec/06; 1 bit; reset 0] -/
  pin : Bool := false
  /-- Resident. [R181 spec/06; 1 bit; reset 0] -/
  resident : Bool := false
  /-- Loading or reloading. [R183 spec/06; 1 bit; reset 0] -/
  loading : Bool := false
  /-- Accepted execs that name it. [R182 spec/06; count; reset 0] -/
  refs : Nat := 0
  /-- Last use, a toll count. [R182 spec/06; 64 bits; reset 0 DC] -/
  lastUse : Nat := 0
  deriving DecidableEq, Repr

/-- A bin being moved by copy-then-flip (R179). -/
structure BinMove where
  src : Nat
  dst : Nat
  /-- VD whose bin moves. -/
  vd : Nat
  /-- Next line the copy engine has not copied once. -/
  next : Nat := 0
  /-- Dirty lines. -/
  dirty : SMap Bool := []
  /-- Fresh lines of the destination. -/
  fresh : SMap Bool := []
  /-- The commit boundary has installed the new map. -/
  flipped : Bool := false
  /-- Boundary from which old-epoch writes are held (R313). -/
  holdWrites : Bool := false
  deriving DecidableEq, Repr

/-- The Seedbank. -/
structure Sbk where
  /-- Bytes by physical byte address. [R155 spec/06; 8 GiB; reset 0 (R178)] -/
  mem : Mem := []
  /-- Poison bit by physical line address. [R172 spec/06; one per line; reset 0 (R178)] -/
  poison : SMap Bool := []
  /-- Bins by number. [R157 spec/06; 512; reset FREE] -/
  bins : SMap Bin := []
  /-- Pod regions by number. [R175, R184 spec/06; 128; reset 0] -/
  regions : SMap Region := []
  /-- Passes that ended late (SBK_SCRUBSTAT.LATE). [R184 spec/06; 16 bits; reset 0] -/
  late : Nat := 0
  /-- Hot-set entries by number. [R180 spec/06; 512; reset none] -/
  hot : SMap HotEntry := []
  /-- Bins being moved, by source bin. [R179 spec/06; reset none] -/
  moves : List BinMove := []
  /-- Arbiter statistics, class k of arbiter i at key 16·i + k. [R171 spec/06; 280 x 16; reset 0] -/
  stats : SMap ArbStat := []
  /-- Wait counter of the request at the head of input j of arbiter i, key 65536·i + j. [R168 spec/06; 12 bits; reset 0] -/
  waits : SMap Nat := []
  /-- Input granted last, for round robin, by key 16·(256·i + resource) + class. [R169 spec/06; reset 0 DC] -/
  lastIn : SMap Nat := []
  /-- Signed class credit of the weighted choice, key 32·(256·i + resource) + 16·tier + class. [R334 spec/12; reset 0] -/
  credit : SMap Int := []
  /-- SBK_ARBSEL. [R184 spec/06; 13 bits; reset 0] -/
  arbSel : Nat := 0
  /-- SBK_ARBGRANT, ARBWSUM, ARBWMAX as latched. [R184 spec/06; 32, 32, 12 bits; reset 0] -/
  latched : ArbStat := {}
  deriving DecidableEq, Repr

/-! ### HBM and the memory protection engine (spec/07) -/

/-- Channel states of R188, in code order. -/
inductive ChState where | free | formatting | bound | incoming | system | erasing | retired
  deriving DecidableEq, Repr

/-- A counter block as the MPE holds it (R196). -/
structure CtrBlk where
  /-- GEN. [R196 spec/07; 8 bits; reset 0 DC] -/
  gen : Nat := 0
  /-- MAJOR. [R196 spec/07; 24 bits; reset 0] -/
  major : Nat := 0
  /-- Minor counters, j at bits [7j+6:7j]. [R196 spec/07; 448 bits; reset 0] -/
  minors : BitVec 448 := 0#448
  /-- CHECK as stored in HBM, none while the block is as its pass formatted it. [R196 spec/07; 32 bits; reset none] -/
  check : Option Word := none
  deriving DecidableEq, Repr

/-- One HBM channel: its raw contents by region and its status. -/
structure Chan where
  /-- STATE. [R188, R222 spec/07; 4 bits; reset FREE] -/
  st : ChState := .free
  /-- OWNER. [R222 spec/07; 7 bits; reset 0] -/
  owner : Nat := 0
  /-- MODE: 0 none, 1 SEALED, 2 TREE, 3 SYSTEM. [R222 spec/07; 2 bits; reset 0] -/
  mode : Nat := 0
  /-- Carve-out number within the owner. [R189 spec/07; 2 bits; reset 0 DC] -/
  carve : Nat := 0
  /-- RETREQ. [R215, R222 spec/07; 1 bit; reset 0] -/
  retReq : Bool := false
  /-- UNCORR since L6. [R215 spec/07; 16 bits; reset 0] -/
  uncorrAll : Nat := 0
  /-- HBM_CHECC.UNCORR. [R222 spec/07; 16 bits; reset 0] -/
  uncorr : Nat := 0
  /-- HBM_CHECC.CORR. [R222 spec/07; 16 bits; reset 0] -/
  corr : Nat := 0
  /-- HBM_CHINTEG.TAGFAIL. [R222 spec/07; 16 bits; reset 0] -/
  tagFail : Nat := 0
  /-- HBM_CHINTEG.RMWFAIL. [R222 spec/07; 8 bits; reset 0] -/
  rmwFail : Nat := 0
  /-- HBM_CHINTEG.KEYREF. [R222 spec/07; 8 bits; reset 0] -/
  keyRef : Nat := 0
  /-- VF copy of UNCORR. [R222 spec/07; 16 bits; reset 0] -/
  uncorrVf : Nat := 0
  /-- VF copy of CORR. [R222 spec/07; 16 bits; reset 0] -/
  corrVf : Nat := 0
  /-- VF copy of TAGFAIL. [R222 spec/07; 16 bits; reset 0] -/
  tagFailVf : Nat := 0
  /-- VF copy of RMWFAIL. [R222 spec/07; 8 bits; reset 0] -/
  rmwFailVf : Nat := 0
  /-- VF copy of KEYREF. [R222 spec/07; 8 bits; reset 0] -/
  keyRefVf : Nat := 0
  /-- Key ID the channel is formatted under. [R189, R206 spec/07; 12 bits; reset 0] -/
  key : Nat := 0
  /-- Generation the channel was formatted under. [R206 spec/07; 8 bits; reset 0 DC] -/
  fmtGen : Nat := 0
  /-- Ciphertext of data lines, by line number, where not as formatted. [R192, R194 spec/07; 64 bytes each; reset none] -/
  lines : SMap (Option (BitVec 512)) := []
  /-- Tags by granule number, where not as formatted. [R192, R195 spec/07; 64 bits each; reset none] -/
  tags : SMap (Option DWord) := []
  /-- Lines written with the poison syndrome. [R207 spec/07; 1 bit each; reset 0] -/
  poison : SMap Bool := []
  /-- Errors latent in a line's cells, found by its next read: physical, set by nothing the H9 does. [R207 spec/07; by line; reset clean] -/
  flaw : SMap Ecc := []
  /-- Counter blocks by page. [R196 spec/07; 64 bytes each; reset as formatted] -/
  ctrs : SMap CtrBlk := []
  /-- Pages whose counter block is held verified in the metadata cache and newer than HBM. [R202 spec/07; reset none] -/
  dirtyMeta : SMap Bool := []
  /-- Version of child i of level k at key 1048576·k + i; level 0 children are counter blocks. [R197 spec/07; 56 bits each; reset 0] -/
  vers : SMap Nat := []
  /-- Stored tag of node j of level k at key 1048576·k + j, where not as formatted. [R197 spec/07; 64 bits; reset none] -/
  nodeTags : SMap (Option DWord) := []
  /-- First root copy fails its code. [R211 spec/07; 1 bit; reset 0] -/
  rootBadA : Bool := false
  /-- Second root copy fails its code. [R211 spec/07; 1 bit; reset 0] -/
  rootBadB : Bool := false
  /-- Poisoned subtrees, as page ranges [lo, hi). [R210 spec/07; list; reset empty] -/
  badSub : List (Nat × Nat) := []
  /-- Largest major used under the current generation. [R212, R220 spec/07; 24 bits; reset 0] -/
  maxMajor : Nat := 0
  /-- Next page of a key-roll sweep, none outside one. [R201 spec/07; 20 bits; reset none] -/
  sweep : Option Nat := none
  /-- Toll periods since data moved on the channel, up to 16. [R217 spec/07; 5 bits; reset 16] -/
  idlePeriods : Nat := 16
  /-- METAM. [R222 spec/07; 10 bits; reset 0] -/
  metam : Nat := 0
  /-- BUDGET. [R222 spec/07; 7 bits; reset 0] -/
  budget : Nat := 0
  /-- Next line of the scrub patrol. [R214 spec/07; 26 bits; reset 0 DC] -/
  scrubPos : Nat := 0
  /-- Data lanes the PHY has repaired. [R215 spec/07, R485 spec/18; count; reset 0 DC] -/
  lanesFixed : Nat := 0
  deriving DecidableEq, Repr

/-- One HBM stack (R186, R213, R222). -/
structure Stack where
  /-- TEMP. [R222 spec/07; 8 bits; reset 0] -/
  temp : Nat := 0
  /-- REFR: 2x refresh in force. [R213, R222 spec/07; 2 bits; reset 1x] -/
  refr2 : Bool := false
  /-- Refresh rate that takes effect at the next toll boundary. [R213 spec/07; 2 bits; reset 1x] -/
  refrNext : Bool := false
  /-- HOT. [R213, R222 spec/07; 1 bit; reset 0] -/
  hot : Bool := false
  /-- TRAINED. [R222 spec/07; 1 bit; reset 0] -/
  trained : Bool := false
  deriving DecidableEq, Repr

/-- Key slot states of R203. -/
inductive KeyState where | empty | active | rolling | retiring | zeroised
  deriving DecidableEq, Repr

/-- A key pair: data key, tag key (R194, R195). -/
structure KeyPair where
  dataKey : BitVec 256 := 0#256
  tagKey : BitVec 256 := 0#256
  deriving DecidableEq, Repr

/-- One key slot of the MPE (R203). -/
structure KeySlot where
  /-- STATE. [R203, R222 spec/07; 3 bits; reset EMPTY] -/
  st : KeyState := .empty
  /-- Owning VD. [R222 spec/07; 7 bits; reset 0] -/
  vd : Nat := 0
  /-- KIND: a weight key. [R203, R222 spec/07; 1 bit; reset 0] -/
  weight : Bool := false
  /-- GEN. [R222 spec/07; 8 bits; reset 0] -/
  gen : Nat := 0
  /-- Current key pair; a weight key is its data key. [R203 spec/07; 512 bits; reset 0] -/
  cur : KeyPair := {}
  /-- Previous pair while ROLLING. [R201 spec/07; 512 bits; reset 0] -/
  prev : KeyPair := {}
  /-- Salt of the carve-out's keys (CNONCE). [R391 spec/14; 256 bits; reset 0] -/
  cnonce : BitVec 256 := 0#256
  /-- Secret the keys are derived from, kept for rolls. [R201 spec/07, R391 spec/14; 256 bits; reset 0] -/
  secret : BitVec 256 := 0#256
  /-- Carve-out number the key serves. [R391 spec/14; 2 bits; reset 0 DC] -/
  carve : Nat := 0
  /-- Drain has been reported. [R218 spec/07; 1 bit; reset 0] -/
  drained : Bool := false
  /-- Toll count of the zeroisation boundary, none before one is scheduled. [R218 spec/07, R399 spec/14; 64 bits; reset none] -/
  zeroAt : Option Nat := none
  /-- Link label: the peer device number. [R350 spec/13, R392 spec/14; 10 bits; reset none] -/
  peer : Option Nat := none
  /-- Object whose sealed weights the key opens. [R395 spec/14; 20 bits; reset none] -/
  obj : Option Nat := none
  /-- NPAGES and SETID of that object's header. [R394 spec/14; 64 and 384 bits; reset 0] -/
  npages : Nat := 0
  setId : BitVec 384 := 0#384
  /-- A roll waits for the running sweep to end. [R201 spec/07; 1 bit; reset 0] -/
  rollWaits : Bool := false
  deriving DecidableEq, Repr

/-- A channel being moved by copy-then-flip (R314). -/
structure ChMove where
  src : Nat
  dst : Nat
  vd : Nat
  carve : Nat
  pos : Nat
  /-- Next page the engine has not copied once. -/
  next : Nat := 0
  /-- Pages written since they were copied. -/
  dirty : SMap Bool := []
  /-- Pages of the destination written under the new epoch. -/
  fresh : SMap Bool := []
  flipped : Bool := false
  holdWrites : Bool := false
  deriving DecidableEq, Repr

/-- HBM and MPE. -/
structure Hbm where
  /-- Channels by global number. [R186 spec/07; 256; reset FREE] -/
  chans : SMap Chan := []
  /-- Stacks by index. [R186 spec/07; 8; reset untrained] -/
  stk : SMap Stack := []
  /-- RATE: 0 for 10.0, 1 for 8.0, 2 for 6.4 Gb/s. [R186, R222 spec/07; 2 bits; reset 0] -/
  rate : Nat := 0
  /-- Key slots by key ID. [R203 spec/07; 4,096; reset EMPTY] -/
  keys : SMap KeySlot := []
  /-- Channels being moved. [R314 spec/11; list; reset none] -/
  moves : List ChMove := []
  deriving DecidableEq, Repr

/-! ### Address translation (spec/08) -/

/-- Fault causes of R243. -/
inductive WalkCause where | notPresent | readDenied | writeDenied | malformed | hostDenied | tableRead
  deriving DecidableEq, Repr

/-- A fault found by a walk (R241, R243). -/
structure WalkFault where
  cause : WalkCause
  wr : Bool
  host : Bool
  level : Nat
  /-- Page of the fault. -/
  va : Nat
  req : Nat
  /-- Command whose request stalls, 0 for none. -/
  seq : Nat
  ctx : Nat
  toll : Nat
  deriving DecidableEq, Repr

/-- A fault record with its stalled requesters (R242–R244). -/
structure FaultRec where
  first : WalkFault
  seqNo : Nat
  count : Nat
  wr : Bool
  /-- Requester bitmap. -/
  reqs : BitVec 256
  /-- Stalled commands by SEQ. -/
  stalled : List Nat
  /-- Toll count at which the record was written. -/
  written : Nat
  deriving DecidableEq, Repr

/-- A cached translation: page base, page size as a power of two, entry word (R231). -/
structure Cached where
  /-- Space, a VD number. -/
  space : Nat
  /-- Level of the entry. -/
  level : Nat
  /-- VA of the entry's range. -/
  va : Nat
  entry : DWord
  deriving DecidableEq, Repr

/-- An invalidation command waiting or running (R238, R239). -/
structure Inval where
  seq : Nat
  va : Nat
  n : Nat
  whole : Bool
  deriving DecidableEq, Repr

/-- A device address space, by VD number; 0 is the system space. -/
structure Space where
  /-- XLT_SYSROOT or XLT_VDROOT: ROOT and EN. [R229, R247 spec/08; 64 bits; reset 0] -/
  root : DWord := 0#64
  /-- BUSY. [R229, R247 spec/08; 1 bit; reset 0] -/
  busy : Bool := false
  /-- Translation phase. [R238 spec/08; 1 bit; reset 0 DC] -/
  phase : Bool := false
  /-- Fault ring slots. [R242 spec/08; 32 records; reset empty] -/
  ring : SMap (Option FaultRec) := []
  /-- SEQ the next fault record takes. [R243 spec/08; 16 bits; reset 0 DC] -/
  nextSeq : Nat := 0
  /-- Faults waiting for a slot, oldest first. [R242 spec/08; list; reset empty] -/
  waiting : List FaultRec := []
  /-- Invalidation in progress. [R239 spec/08; reset none] -/
  inv : Option Inval := none
  /-- Commands the one in progress also completes. [R239 spec/08; list; reset empty] -/
  invMerged : List Nat := []
  /-- Invalidations waiting. [R239 spec/08; list; reset empty] -/
  invWait : List Inval := []
  deriving DecidableEq, Repr

/-- One ATC entry of a host port (R235). -/
structure AtcEnt where
  fn : Nat
  /-- Untranslated page address. -/
  va : Nat
  /-- Translated page address. -/
  pa : Nat
  r : Bool
  w : Bool
  deriving DecidableEq, Repr

/-- A Translation Request of ATS: function, untranslated page, access, the leaf's PRI bit, and whether it follows a page
request (R235, R236). -/
structure AtsReq where
  fn : Nat
  va : Nat
  wr : Bool
  pri : Bool
  retried : Bool := false
  deriving DecidableEq, Repr

/-- Translation. -/
structure Xlt where
  /-- Spaces by VD number. [R223 spec/08; 128; reset disabled] -/
  spaces : SMap Space := []
  /-- Cached entries of the second-level and pod caches. [R231 spec/08; reset empty] -/
  cache : List Cached := []
  /-- Address translation caches, by function. [R235 spec/08; 2 x 4,096 entries; reset empty] -/
  atc : List AtcEnt := []
  /-- Functions whose page requests have stopped after a Response Failure. [R236 spec/08; 1 bit each; reset 0] -/
  priStop : SMap Bool := []
  /-- Translation requests sent and not completed. [R235 spec/08; list; reset empty] -/
  atsSent : List AtsReq := []
  /-- Page requests sent and not answered, with their index. [R236 spec/08; list; reset empty] -/
  prgSent : List (Nat × AtsReq) := []
  /-- Index of the next page request. [R236 spec/08; 9 bits; reset 0 DC] -/
  prgNext : Nat := 0
  /-- ATS Invalidate Requests not yet completed: function, tag. [R240 spec/08; list; reset empty] -/
  atsInv : List (Nat × Nat) := []
  /-- Pages whose host translation ended denied, until the walk that asked sees it. [R236 spec/08; list; reset empty] -/
  denied : List (Nat × Nat) := []
  deriving DecidableEq, Repr

/-! ### Host ports (spec/09) -/

/-- TDISP states of a VF's TDI (R263). -/
inductive Tdi where | configUnlocked | configLocked | run | error
  deriving DecidableEq, Repr

/-- One virtual function (R252, R253, R262, R263). -/
structure Vf where
  /-- Attached VD, 0 for none. [R253 spec/09; 7 bits; reset 0] -/
  vd : Nat := 0
  /-- TDISP state. [R263 spec/09; 4 states; reset CONFIG_UNLOCKED] -/
  tdi : Tdi := .configUnlocked
  /-- VF BAR0 address. [R254, R262 spec/09; 64 bits; reset 0 PRESUMED (PCIe)] -/
  bar0 : Nat := 0
  /-- VF BAR2 address. [R254, R262 spec/09; 64 bits; reset 0 PRESUMED (PCIe)] -/
  bar2 : Nat := 0
  /-- Memory Space Enable. [R262 spec/09; 1 bit; reset 0 PRESUMED (PCIe)] -/
  mse : Bool := false
  /-- BAR0 recorded at LOCK. [R262 spec/09; 64 bits; reset 0 DC] -/
  recBar0 : Nat := 0
  /-- BAR2 recorded at LOCK. [R262 spec/09; 64 bits; reset 0 DC] -/
  recBar2 : Nat := 0
  /-- NumVFs recorded at LOCK (the SR-IOV settings). [R262 spec/09; 16 bits; reset 0 DC] -/
  recNumVfs : Nat := 0
  /-- D3hot. [R249 spec/09; 1 bit; reset 0 PRESUMED (PCIe)] -/
  d3 : Bool := false
  /-- ATS enabled. [R235 spec/08; 1 bit; reset 0 PRESUMED (PCIe)] -/
  ats : Bool := false
  /-- Page Request enabled. [R236 spec/08; 1 bit; reset 0 PRESUMED (PCIe)] -/
  pri : Bool := false
  /-- MSI-X Enable. [R259 spec/09; 1 bit; reset 0 PRESUMED (PCIe)] -/
  msixEn : Bool := false
  /-- VFERR_STATUS.RSVW. [R453 spec/16; 1 bit; reset 0] -/
  rsvw : Bool := false
  deriving DecidableEq, Repr

/-- A Selective IDE Stream (R261). -/
structure IdeStream where
  /-- VF number bound by the RID association, 0 for none. [R261 spec/09; 8 bits; reset 0] -/
  vf : Nat := 0
  /-- The stream is Secure. [R261 spec/09; 1 bit; reset 0] -/
  secure : Bool := false
  /-- Keys programmed: key set × 3 + sub-stream. [R261 spec/09; 6 x 256 bits; reset none] -/
  keys : SMap (BitVec 256) := []
  /-- Key set and sub-stream slots that have been programmed. [R261 spec/09; 6 bits; reset 0] -/
  progd : BitVec 6 := 0#6
  /-- Active key set. [R261 spec/09; reset none] -/
  active : Option Nat := none
  /-- Failures counted. [R261 spec/09; 32 bits; reset 0] -/
  fails : Nat := 0
  deriving DecidableEq, Repr

/-- One host port with its physical function. -/
structure HostPort where
  /-- The link is up. [R269, R491 spec/09 spec/19; 1 bit; reset 0] -/
  up : Bool := false
  /-- VF Enable. [R252 spec/09; 1 bit; reset 0] -/
  vfEnable : Bool := false
  /-- NumVFs. [R252 spec/09; 16 bits; reset 0] -/
  numVfs : Nat := 0
  /-- Configuration writes refused while a VF is attached (GLB_HVFREF). [R252 spec/09, R464 spec/17; 16 bits; reset 0] -/
  refused : Nat := 0
  /-- Doorbell writes dropped (GLB_HDBDROP). [R255 spec/09, R464 spec/17; 32 bits; reset 0] -/
  hdbDrop : Nat := 0
  /-- MMIO answered Unsupported Request (GLB_HUR). [R263 spec/09, R464 spec/17; 32 bits; reset 0] -/
  ur : Nat := 0
  /-- IDE check failures (GLB_HIDE). [R261 spec/09, R464 spec/17; 32 bits; reset 0] -/
  ideFail : Nat := 0
  /-- PF BAR0 address. [R254 spec/09; 64 bits; reset 0 PRESUMED (PCIe)] -/
  bar0 : Nat := 0
  /-- PF BAR2 address. [R254 spec/09; 64 bits; reset 0 PRESUMED (PCIe)] -/
  bar2 : Nat := 0
  /-- PF Memory Space Enable. [R254 spec/09; 1 bit; reset 0 PRESUMED (PCIe)] -/
  mse : Bool := false
  /-- PF in D3hot. [R249 spec/09; 1 bit; reset 0 PRESUMED (PCIe)] -/
  d3 : Bool := false
  /-- PF ATS enabled. [R235 spec/08; 1 bit; reset 0 PRESUMED (PCIe)] -/
  ats : Bool := false
  /-- PF Page Request enabled. [R236 spec/08; 1 bit; reset 0 PRESUMED (PCIe)] -/
  pri : Bool := false
  /-- PF MSI-X Enable. [R258 spec/09; 1 bit; reset 0 PRESUMED (PCIe)] -/
  msixEn : Bool := false
  /-- Virtual functions by number, from 1. [R252 spec/09; 64 or 128; reset default] -/
  vfs : SMap Vf := []
  /-- IDE streams by index. [R261 spec/09; 129; reset none] -/
  streams : SMap IdeStream := []
  deriving DecidableEq, Repr

/-- Both host ports and what they share. -/
structure HostIf where
  /-- Ports A and B. [R249 spec/09; 2; reset down] -/
  ports : SMap HostPort := []
  /-- Strap HPMODE as sampled at L6: single mode. [R250 spec/09; 1 bit; reset 0 (dual)] -/
  single : Bool := false
  /-- MSI-X tables, 32-bit word w of function f's table at key 8192·f + w. [R255 spec/09; 2,048 or 64 entries of 16 bytes; reset 0, mask bits 1 PRESUMED (PCIe)] -/
  msixTab : SMap (Option Word) := []
  /-- Pending Bit Arrays, vector v of function f at key 2048·f + v. [R255 spec/09; bits; reset 0] -/
  pba : SMap Bool := []
  /-- MSI-X messages sent, newest first, as (function, vector): the port's output. [R258, R259 spec/09; reset empty] -/
  sent : List (Nat × Nat) := []
  /-- Host memory bytes reached by the H9's DMA, keyed by host address: the environment's. [R270 spec/10; reset 0 DC] -/
  mem : Mem := []
  /-- DOE reply data of the last SPDM, IDE_KM or TDISP request, as words. [R249, R262 spec/09; reset empty] -/
  doe : List Word := []
  deriving DecidableEq, Repr

/-! ### Queues, commands, contexts, objects, timelines and the journal (spec/10) -/

/-- QUE_QSTAT.STATE (R271). -/
inductive QState where | disabled | active | stopped
  deriving DecidableEq, Repr

/-- One queue pair (R270–R273, R292). -/
structure QueuePair where
  /-- QUE_QPMAP.ASSIGNED. [R292 spec/10; 1 bit; reset 0, 1 for pairs 0 to 255] -/
  assigned : Bool := false
  /-- QUE_QPMAP.VD. [R292 spec/10; 7 bits; reset 0] -/
  vd : Nat := 0
  /-- QUE_QPMAP.LQ. [R292 spec/10; 8 bits; reset 0] -/
  lq : Nat := 0
  /-- PF that owns a pair of VD 0, through which EN was last set. [R461 spec/17; 1 bit; reset 0 (A)] -/
  pf : Nat := 0
  /-- QUE_QCTL.EN. [R271 spec/10; 1 bit; reset 0] -/
  en : Bool := false
  /-- QUE_QCTL.SQSZ. [R271 spec/10; 4 bits; reset 0] -/
  sqsz : Nat := 0
  /-- QUE_QCTL.CQSZ. [R271 spec/10; 4 bits; reset 0] -/
  cqsz : Nat := 0
  /-- QUE_QCTL.VEC. [R271 spec/10; 11 bits; reset 0] -/
  vec : Nat := 0
  /-- QUE_QSQBASE. [R271 spec/10; 64 bits; reset 0] -/
  sqbase : Nat := 0
  /-- QUE_QCQBASE. [R271 spec/10; 64 bits; reset 0] -/
  cqbase : Nat := 0
  /-- QUE_QSQHEAD.HEAD. [R271 spec/10; 16 bits; reset 0] -/
  head : Nat := 0
  /-- Tail the last doorbell gave. [R272 spec/10; 16 bits; reset 0] -/
  tail : Nat := 0
  /-- QUE_QCQPTR.CQHEAD. [R271 spec/10; 16 bits; reset 0] -/
  cqhead : Nat := 0
  /-- QUE_QCQPTR.CQTAIL. [R271 spec/10; 16 bits; reset 0] -/
  cqtail : Nat := 0
  /-- Phase bit of the next record. [R273 spec/10; 1 bit; reset 1] -/
  phase : Bool := true
  /-- QUE_QSTAT.DBERR. [R271, R272 spec/10; 16 bits; reset 0] -/
  dberr : Nat := 0
  /-- QUE_QSTAT.ERR. [R271 spec/10; 4 bits; reset 0] -/
  err : Nat := 0
  /-- QUE_QSTAT.STATE. [R271 spec/10; 3 states; reset DISABLED] -/
  st : QState := .disabled
  /-- Completion records held, oldest first, without phase, with the no-interrupt bit. [R273 spec/10; 128 bytes each; reset empty] -/
  held : List (BitVec 1024 × Bool) := []
  deriving DecidableEq, Repr

/-- Where an accepted command stands. -/
inductive CmdPhase where
  | waiting    -- accepted, not started
  | running    -- started, its effect not yet ended
  | ready      -- its effect has ended; the completion is to be written (R278)
  | done
  deriving DecidableEq, Repr

/-- How far the pool accesses of an exec have come (R373). -/
inductive PoolStage where
  | idle
  | fetching (page : Nat)
  | fetched
  | writing (page : Nat)
  | done
  deriving DecidableEq, Repr

/-- A command the queue engine took and that has not completed, with what its completion will say (R275, R278). -/
structure Cmd where
  /-- Journal sequence number. [R275, R290 spec/10; 64 bits; reset 0 DC] -/
  seq : Nat := 0
  /-- Global queue pair. [R290 spec/10; 14 bits; reset 0 DC] -/
  q : Nat := 0
  /-- VD that owns the queue. [R290 spec/10; 7 bits; reset 0 DC] -/
  vd : Nat := 0
  /-- Slot index. [R278 spec/10; 16 bits; reset 0 DC] -/
  slotIdx : Nat := 0
  /-- The 64-byte slot as taken. [R274 spec/10; 512 bits; reset 0 DC] -/
  slot : BitVec 512 := 0#512
  /-- Progress. [R275 spec/10; 4 states; reset waiting] -/
  phase : CmdPhase := .waiting
  /-- Toll count at acceptance. [R290 spec/10; 64 bits; reset 0 DC] -/
  tacc : Nat := 0
  /-- STATUS so far. [R279 spec/10; 8 bits; reset 0] -/
  status : Nat := 0
  /-- REJ. [R275 spec/10; 1 bit; reset 0] -/
  rej : Bool := false
  /-- DETAIL. [R278 spec/10; 32 bits; reset 0] -/
  detail : Nat := 0
  /-- RESULT0. [R278 spec/10; 32 bits; reset 0] -/
  result0 : Nat := 0
  /-- RESULT1. [R278 spec/10; 64 bits; reset 0] -/
  result1 : Nat := 0
  /-- EXT, when present. [R278 spec/10; 512 bits; reset none] -/
  ext : Option (BitVec 512) := none
  /-- Object indices referenced at acceptance. [R285 spec/10; list; reset empty] -/
  refs : List Nat := []
  /-- Bytes or items moved so far. [R275 spec/10; 64 bits; reset 0] -/
  pos : Nat := 0
  /-- Hot-set entries an exec references (R182). [R182 spec/06; at most 16; reset empty] -/
  hots : List Nat := []
  /-- The exec list has been read and checked. [R281 spec/10; 1 bit; reset 0] -/
  listed : Bool := false
  /-- The exec's copy of its fallback chain. [R328 spec/12; 512 bits; reset none] -/
  chain : Option (BitVec 512) := none
  /-- Position in the chain. [R329 spec/12; 2 bits; reset 0] -/
  fpos : Nat := 0
  /-- PEER_LOST or STATE_LOST holds, which R498 puts first. [R498 spec/10; 1 bit; reset 0] -/
  lost : Bool := false
  /-- Object index an OBJ_FREE with WAIT = 1 waits on. [R285 spec/10; 20 bits; reset none] -/
  waitObj : Option Nat := none
  /-- Hot-set entry the command is filling. [R180 to R183 spec/06; 9 bits; reset none] -/
  fill : Option Nat := none
  /-- Pool accesses of an exec that names KVOBJ. [R373 spec/13; reset idle] -/
  pool : PoolStage := .idle
  /-- Version of the record the exec fetched. [R373 spec/13; 32 bits; reset 0] -/
  poolVer : Nat := 0
  /-- Memory-role device and record its descriptor names. [R373 spec/13; 10 and 64 bits; reset 0] -/
  poolRec : Nat × Nat := (0, 0)
  deriving DecidableEq, Repr

/-- A journal record: header fields in clear, body sealed (R290, R291). -/
structure JRec where
  /-- SEQ, 0 while the slot holds no record. [R290 spec/10; 64 bits; reset 0] -/
  seq : Nat := 0
  /-- TACC. [R290 spec/10; 64 bits; reset 0] -/
  tacc : Nat := 0
  /-- VD. [R290 spec/10; 7 bits; reset 0] -/
  vd : Nat := 0
  /-- DONE. [R290 spec/10; 1 bit; reset 0] -/
  done : Bool := false
  /-- QP. [R290 spec/10; 14 bits; reset 0] -/
  qp : Nat := 0
  /-- SLOT. [R290 spec/10; 16 bits; reset 0] -/
  slotIdx : Nat := 0
  /-- TDONE. [R290 spec/10; 64 bits; reset 0] -/
  tdone : Nat := 0
  /-- Bytes +0x20 to +0x6F as stored, encrypted. [R291 spec/10; 640 bits; reset 0] -/
  body : BitVec 640 := 0#640
  /-- SEALTAG. [R290 spec/10; 128 bits; reset 0] -/
  tag : BitVec 128 := 0#128
  deriving DecidableEq, Repr

/-- A slot of a context's timeline table (R283). -/
structure TlSlot where
  /-- Timeline number. [R283 spec/10; 16 bits; reset 0 DC] -/
  tl : Nat := 0
  /-- Signal right S. [R283 spec/10; 1 bit; reset 0] -/
  sig : Bool := false
  /-- Wait right W. [R283 spec/10; 1 bit; reset 0] -/
  wait : Bool := false
  deriving DecidableEq, Repr

/-- How a context's running exec is ending (R86, R89, R429). -/
inductive CtxStop where
  | none
  | exception                  -- R86
  | boundary (m : Nat)         -- stop requested at slot m (R89)
  | saving                     -- every core's record is being written (R89 step 4)
  | teardown (detail : Nat)    -- L1 and the DETAIL of R429
  deriving DecidableEq, Repr

/-- One context (R283, and the scheduler's marks of spec/12). -/
structure Ctx where
  /-- The number is in use. [R283 spec/10; 1 bit; reset 0] -/
  used : Bool := false
  /-- Owner. [R283 spec/10; 7 bits; reset 0 DC] -/
  vd : Nat := 0
  /-- Rounding seed. [R283 spec/10, R42 spec/02; 32 bits; reset 0 DC] -/
  seed : Word := 0#32
  /-- Save area, a store line address. [R276, R283 spec/10; 32 bits; reset 0 DC] -/
  save : Nat := 0
  /-- Scheduling parameter set. [R276, R283 spec/10; 8 bits; reset 0 DC] -/
  sched : Nat := 0
  /-- Timeline table. [R283 spec/10; 256 slots; reset empty] -/
  tls : SMap TlSlot := []
  /-- SEQ of the exec that occupies the context, 0 for none. [R282 spec/10; 64 bits; reset 0] -/
  cur : Nat := 0
  /-- SEQs of later EXECs of the context, in acceptance order. [R282 spec/10; list; reset empty] -/
  queued : List Nat := []
  /-- The exec has started on pods at least once. [R325 spec/12; 1 bit; reset 0] -/
  started : Bool := false
  /-- The context's state lies in its save area. [R90, R324 spec/12; 1 bit; reset 0] -/
  saved : Bool := false
  /-- How the exec is ending. [R86, R89 spec/03; reset none] -/
  stop : CtxStop := .none
  /-- Primary exception: shape core number, its exception, SRCNT and toll count. [R86, R87 spec/03; reset none] -/
  exc : Option (Nat × Exc × Word × Nat) := none
  /-- Further faulting cores (MORE). [R87 spec/03; 8 bits; reset 0] -/
  more : Nat := 0
  /-- MAYWRITE so far. [R87 spec/03; 1 bit; reset 0] -/
  mayWrite : Bool := false
  /-- Measures completed, kept when the context leaves its cores. [R91 spec/03; 64 bits; reset 0] -/
  measures : Nat := 0
  /-- Hot-set entries the running exec names, in order. [R159 spec/06, R281 spec/10; at most 16; reset empty] -/
  hot : List Nat := []
  /-- The context still uses the previous routing epoch. [R159 spec/06, R310 spec/11; 1 bit; reset 0] -/
  oldEpoch : Bool := false
  /-- Retained execs, whose inputs are kept. [R282 spec/10; list; reset empty] -/
  retained : List Cmd := []
  /-- Beats of a WAITB past the boundary a context was saved at, by local core. [R89 spec/03; reset none] -/
  ahead : SMap Nat := []
  /-- The running exec replays the first phase for this SEQ (0 none). [R282 spec/10; 64 bits; reset 0] -/
  replay : Nat := 0
  /-- The running exec was replayed. [R282 spec/10; 1 bit; reset 0] -/
  replayed : Bool := false
  /-- The remote state of the exec was reported lost. [R282 spec/10, R374 spec/13; 1 bit; reset 0] -/
  stateLost : Bool := false
  /-- Toll count at which the context was last started, for round robin. [R324 spec/12; 64 bits; reset 0] -/
  lastRun : Nat := 0
  deriving DecidableEq, Repr

/-- Object states of R285. -/
inductive ObjState where | free | active | retiring | scrubbing
  deriving DecidableEq, Repr

/-- An entry of the shared object table (R284, R285). -/
structure Obj where
  /-- State. [R285 spec/10; 4 states; reset FREE] -/
  st : ObjState := .free
  /-- Generation. [R284 spec/10; 12 bits; reset 1 (0 is never used)] -/
  gen : Nat := 1
  /-- Owner VD. [R284 spec/10; 7 bits; reset 0 DC] -/
  vd : Nat := 0
  /-- KIND. [R284 spec/10; 4 bits; reset 0 DC] -/
  kind : Nat := 0
  /-- VA. [R276 spec/10; 64 bits; reset 0 DC] -/
  va : Nat := 0
  /-- SIZE. [R276 spec/10; 64 bits; reset 0 DC] -/
  size : Nat := 0
  /-- POOL handle of a REMOTE object. [R276 spec/10; 32 bits; reset 0] -/
  pool : Nat := 0
  /-- HREF. [R285 spec/10; 16 bits; reset 0] -/
  href : Nat := 0
  /-- DREF. [R285 spec/10; 24 bits; reset 0] -/
  dref : Nat := 0
  /-- VD that last retired the index. [R284 spec/10; 7 bits; reset none] -/
  retiredBy : Option Nat := none
  /-- Pages the scrub skipped. [R285 spec/10; 32 bits; reset 0] -/
  skipped : Nat := 0
  /-- Held out of use until the next L6. [R285 spec/10; 1 bit; reset 0] -/
  dead : Bool := false
  deriving DecidableEq, Repr

/-- One timeline (R286–R289). -/
structure Timeline where
  /-- Number in use. [R286 spec/10; 1 bit; reset 0] -/
  used : Bool := false
  /-- Owner VD. [R286 spec/10; 7 bits; reset 0 DC] -/
  vd : Nat := 0
  /-- Value. [R286 spec/10; 64 bits; reset 0 DC] -/
  value : Nat := 0
  /-- MIRROR, a device virtual address, 0 for none. [R286 spec/10; 64 bits; reset 0] -/
  mirror : Nat := 0
  /-- A mirror write waits for a host translation. [R235 spec/08, R286 spec/10; 1 bit; reset 0] -/
  mirrorDue : Bool := false
  /-- Poisoned. [R289 spec/10; 1 bit; reset 0] -/
  poisoned : Bool := false
  /-- NONADV. [R287, R293 spec/10; 16 bits; reset 0] -/
  nonadv : Nat := 0
  /-- WRAP. [R287, R293 spec/10; 16 bits; reset 0] -/
  wrap : Nat := 0
  deriving DecidableEq, Repr

/-- The queue engine. -/
structure Que where
  /-- Queue pairs. [R270 spec/10; 16,384; reset: pairs 0 to 255 assigned to VD 0] -/
  pairs : SMap QueuePair := (List.range 256).map fun q => (q, { assigned := true, lq := q })
  /-- Commands taken and not completed, by SEQ. [R275 spec/10; reset empty] -/
  cmds : SMap Cmd := []
  /-- Contexts. [R283 spec/10; 4,096; reset free] -/
  ctxs : SMap Ctx := []
  /-- Shared object table. [R284 spec/10; 1,048,576 entries; reset FREE] -/
  objs : SMap Obj := []
  /-- Timelines. [R286 spec/10; 65,536; reset free] -/
  tls : SMap Timeline := []
  /-- Command journal by record index. [R290 spec/10; 524,288 records; reset empty] -/
  jrn : SMap JRec := []
  /-- QUE_JRNNEXT.SEQ. [R290, R292 spec/10; 64 bits; reset 1] -/
  seq : Nat := 1
  /-- The engine takes no slots (L5). [R430 spec/16; 1 bit; reset 0] -/
  halted : Bool := false
  deriving DecidableEq, Repr

/-! ### Composition (spec/11) -/

/-- VD states of R296, in code order. -/
inductive VdState where | none | created | bound | changing | held | teardown
  deriving DecidableEq, Repr

/-- The limit record of R297. -/
structure Limits where
  maxPods : Nat := 0
  maxBins : Nat := 0
  maxCh : Nat := 0
  sealedOk : Bool := false
  treeOk : Bool := false
  maxHotQ : Nat := 0
  maxGuar : Nat := 0
  maxLink : Nat := 0
  half : Nat := 0
  prio : Nat := 0
  seamOk : Bool := false
  group : Nat := 0
  deriving DecidableEq, Repr

/-- A carve-out asked for or held: channels, mode, interleave, guarantee, floor (R299). -/
structure CarveReq where
  ch : Nat := 0
  mode : Nat := 0
  il : Nat := 0
  guar : Nat := 0
  floor : Nat := 0
  deriving DecidableEq, Repr

/-- An alternative entry of a shape request (R299). -/
structure Alt where
  pw : Nat := 1
  ph : Nat := 1
  noSeam : Bool := false
  near : Nat := 0
  far : Nat := 0
  hotq : Nat := 0
  carves : List CarveReq := []
  link : Nat := 0
  farGbs : Nat := 0
  hostGbs : Nat := 0
  deriving DecidableEq, Repr

/-- A carve-out of a VD (R189–R191). -/
structure Carve where
  /-- Global channel by position. [R191 spec/07; up to 256; reset empty] -/
  chans : List Nat := []
  /-- The position map of the previous routing epoch. [R309 spec/11; reset none] -/
  old : Option (List Nat) := none
  /-- Mode: 1 SEALED, 2 TREE, 3 SYSTEM. [R189 spec/07; 2 bits; reset 0] -/
  mode : Nat := 0
  /-- Interleave code. [R191 spec/07; 2 bits; reset 0] -/
  il : Nat := 0
  /-- Key ID. [R189 spec/07; 12 bits; reset 0] -/
  key : Nat := 0
  /-- Guarantee in GB/s. [R299 spec/11; 16 bits; reset 0] -/
  guar : Nat := 0
  /-- Floor in GB/s. [R299 spec/11; 16 bits; reset 0] -/
  floor : Nat := 0
  deriving DecidableEq, Repr

/-- What a bind gives a VD on this device. -/
structure Placement where
  /-- Physical pod of each shape pod, in order. -/
  pods : List Nat := []
  orient : Nat := 0
  cutKind : Nat := 0
  cutAt : Nat := 0
  /-- Bin of each working slot (R159). -/
  slots : List Nat := []
  /-- Channels of each carve-out by position. -/
  chans : SMap (List Nat) := []
  /-- Finwin share in MB/s by port (R305). -/
  ports : SMap Nat := []
  deriving DecidableEq, Repr

/-- Kinds of change (R310), and the bind that makes the first placement. -/
inductive ChangeKind where | bind | shape | move
  deriving DecidableEq, Repr

/-- Phases of a change (R311). -/
inductive ChangePhase where | waiting | preparing | scheduled | committed
  deriving DecidableEq, Repr

/-- One change of a VD (R311, R312). -/
structure Change where
  kind : ChangeKind
  /-- BIND's SEQ, 0 for a move. -/
  seq : Nat
  phase : ChangePhase := .waiting
  altIdx : Nat := 0
  alt : Alt := {}
  place : Placement := {}
  /-- Toll count of acceptance. -/
  accepted : Nat := 0
  /-- REBINDMS and JOINMS in ms. -/
  rebindMs : Nat := 100
  joinMs : Nat := 100
  btset : Nat := 0
  part : Nat := 0
  nparts : Nat := 1
  /-- Device number of each part. -/
  devs : List Nat := []
  /-- Digest of the shape request. -/
  digest : BitVec 384 := 0#384
  /-- Number of alternatives, and those this part admits. -/
  nalt : Nat := 1
  mask : Nat := 0
  /-- The alternatives of this part. -/
  alts : List Alt := []
  /-- Coordinator: parts that joined, with digest and mask; parts that are prepared, and the last period reported. -/
  joined : SMap (Option (BitVec 384 × Nat)) := []
  prepared : List Nat := []
  kmax : Nat := 0
  /-- Survivors of a lost peer take it back and prepare nothing (R371). -/
  rejoin : Bool := false
  /-- Coordinator that answered a returning part 0 (R371). -/
  coord : Option Nat := none
  /-- The coordinator has told the parts to prepare. -/
  told : Bool := false
  /-- Commit boundary, once scheduled. -/
  commitAt : Option Nat := none
  /-- Toll count at which it was scheduled. -/
  schedAt : Nat := 0
  /-- Channels to format before the prepare phase ends. -/
  formatting : List Nat := []
  /-- Measure boundary at which a running context whose pods stay passes to the new epoch. -/
  rebindM : Nat := 0
  /-- An operator request waits on it. -/
  op : Bool := false
  deriving DecidableEq, Repr

/-- The operator request in progress (R318). -/
structure OpReq where
  op : Nat
  vd : Nat
  arg : Nat
  /-- VDs whose moves it waits for. -/
  vds : List Nat
  deriving DecidableEq, Repr

/-- A role change in progress (R319). -/
structure RoleReq where
  role : Bool
  stks : Nat
  /-- VDs whose channels are still moving off the stacks. -/
  vds : List Nat
  /-- Commit boundary, once the moves are made. -/
  commitAt : Option Nat := none
  deriving DecidableEq, Repr

/-- The binder. -/
structure Comp where
  /-- VD of CMP_OPCMD as last written. [R320 spec/11; 7 bits; reset 0] -/
  opVd : Nat := 0
  /-- CMP_OPSTAT.REFUSED. [R320 spec/11; 1 bit; reset 0] -/
  refused : Bool := false
  /-- CMP_OPSTAT.RESULT. [R320 spec/11; 4 bits; reset 0] -/
  result : Nat := 0
  /-- CMP_OPSTAT.STATE. [R320 spec/11; 2 bits; reset IDLE] -/
  opState : Nat := 0
  /-- Operator request in progress. [R318 spec/11; reset none] -/
  opReq : Option OpReq := none
  /-- CMP_SEAMLOAD.LOAD. [R306, R320 spec/11; 14 bits; reset 0] -/
  seamLoad : Nat := 0
  /-- Evacuated resources: kind × 4096 + index. [R318 spec/11; list; reset empty] -/
  withheld : List Nat := []
  /-- ROLE in force. [R319, R320 spec/11; 1 bit; reset compute] -/
  memRole : Bool := false
  /-- SERVED. [R320 spec/11; 8 bits; reset 0] -/
  served : Nat := 0
  /-- Role change in progress. [R319, R320 spec/11; reset none] -/
  roleReq : Option RoleReq := none
  /-- The two SYSTEM bins of each served stack. [R372 spec/13; 8 x 2; reset none] -/
  roleBins : SMap (List Nat) := []
  /-- CMP_ROLESTAT.RESULT. [R320 spec/11; 4 bits; reset 0] -/
  roleResult : Nat := 0
  /-- CMP_ROLESTAT.STATE. [R320 spec/11; 2 bits; reset IDLE] -/
  roleState : Nat := 0
  deriving DecidableEq, Repr

/-! ### Scheduling and bandwidth classes (spec/12) -/

/-- A class's counters of one VD (SCH_VFLINES to SCH_VFLATE). -/
structure ClassCnt where
  lines : Nat := 0
  demoted : Nat := 0
  wmax : Nat := 0
  late : Nat := 0
  deriving DecidableEq, Repr

/-- A token bucket of R333: thousandths of a byte held and the toll count they were counted at. -/
structure Bucket where
  level : Nat := 0
  at_ : Nat := 0
  deriving DecidableEq, Repr

/-- The scheduler's own state; its configuration lies in the register file. -/
structure Sched where
  /-- WEIGHT of class 14. [R331, R335 spec/12; 8 bits; reset 8 (WMIN)] -/
  w14 : Nat := 8
  /-- WEIGHT of class 15. [R331, R335 spec/12; 8 bits; reset 16 (WMIN)] -/
  w15 : Nat := 16
  /-- OTLIM of class 14. [R335 spec/12; 10 bits; reset 256] -/
  ot14 : Nat := 256
  /-- OTLIM of class 15. [R335 spec/12; 10 bits; reset 256] -/
  ot15 : Nat := 256
  /-- Largest wait at grant of class 14 in this period. [R335 spec/12; 12 bits; reset 0] -/
  wmax14 : Nat := 0
  /-- Largest wait at grant of class 15 in this period. [R335 spec/12; 12 bits; reset 0] -/
  wmax15 : Nat := 0
  /-- Token buckets: channel c at key c, port p's share of VD v at 1024 + 128·p + v. [R333 spec/12; reset empty] -/
  buckets : SMap Bucket := []
  /-- Profile of the request at input j of arbiter i, key 65536·i + j: 1 in profile, 2 demoted. [R333 spec/12; 2 bits; reset 0] -/
  profile : SMap Nat := []
  /-- Allotment of VD v on Finwin port p in MB/s, key 128·p + v. [R339 spec/12; 32 bits; reset 0] -/
  portAllot : SMap Nat := []
  /-- Finwin ports in scarcity. [R338 spec/12; 32 bits; reset 0] -/
  portScarce : SMap Bool := []
  /-- Lines issued in the present window of each shaped flow. [R336 spec/12; reset 0] -/
  flowReal : SMap Nat := []
  /-- Filler lines issued by each shaped flow. [R336 spec/12; reset 0] -/
  flowFill : SMap Nat := []
  deriving DecidableEq, Repr

/-! ### Finwin, toll time and the cascade (spec/13) -/

/-- Port states of R346, in code order. -/
inductive PortState where | disabled | training | unauth | active | quarantined
  deriving DecidableEq, Repr

/-- What a port's partner advertised in its last TOLL frame (R363, R365). -/
structure Advert where
  master : Nat
  hops : Nat
  mprio : Nat
  extref : Bool
  synced : Bool
  epoch : Nat
  /-- Largest count the partner has shown. -/
  count : Nat
  deriving DecidableEq, Repr

/-- The four quantities of R362 in one toll period: frames malformed, tags failed, replays, microseconds without credit. -/
structure Window where
  malf : Nat := 0
  tagf : Nat := 0
  retry : Nat := 0
  stall : Nat := 0
  deriving DecidableEq, Repr

/-- One Finwin port; EN, RSV and LANES lie in the register file. -/
structure FwPort where
  /-- STATE. [R346, R375 spec/13; 4 bits; reset DISABLED] -/
  st : PortState := .disabled
  /-- CAUSE. [R375 spec/13; 4 bits; reset 0] -/
  cause : Nat := 0
  /-- ACTLANES: lanes in use. [R375 spec/13; 4 bits; reset 0] -/
  actLanes : Nat := 0
  /-- PKIND. [R375 spec/13; 2 bits; reset 0] -/
  pkind : Nat := 0
  /-- PDEV. [R375 spec/13; 10 bits; reset 0] -/
  pdev : Nat := 0
  /-- PINC. [R375 spec/13; 16 bits; reset 0] -/
  pinc : Nat := 0
  /-- CAP in MB/s. [R345, R375 spec/13; 32 bits; reset 0] -/
  cap : Nat := 0
  /-- Counters of FWL_PERR0 to 2. [R375 spec/13; 6 x 16 bits; reset 0] -/
  malformed : Nat := 0
  tagFail : Nat := 0
  retry : Nat := 0
  credStall : Nat := 0
  rateDrop : Nat := 0
  late : Nat := 0
  /-- Window counts of this period and of the 15 before it. [R362 spec/13; reset 0] -/
  now : Window := {}
  past : List Window := []
  /-- Credits held on VC0 and VC1. [R356 spec/13; lines; reset 0] -/
  cred0 : Nat := 0
  cred1 : Nat := 0
  /-- Lines freed in the receive buffer, cumulative, and the partner's as last reported. [R356, R363 spec/13; 32 bits each; reset 0] -/
  freed0 : Nat := 0
  freed1 : Nat := 0
  seen0 : Nat := 0
  seen1 : Nat := 0
  /-- Frames sent in hop order and not acknowledged. [R356 spec/13; list; reset empty] -/
  replay : List Frame := []
  /-- Frames acknowledged by HOPACK, and frames received in order. [R356, R363 spec/13; 32 bits each; reset 0] -/
  acked : Nat := 0
  got : Nat := 0
  /-- Toll count at which HOPACK last advanced. [R356 spec/13; 64 bits; reset 0 DC] -/
  ackAt : Nat := 0
  /-- Frames are discarded until the sender replays. [R356 spec/13; 1 bit; reset 0] -/
  discarding : Bool := false
  /-- SEQ of the first frame discarded since the lost codeword. [R356 spec/13; 32 bits; reset none] -/
  firstDrop : Option Nat := none
  /-- Lines freed as last returned, and toll count of the last CREDIT frame. [R356 spec/13; 32, 32 and 64 bits; reset 0] -/
  ret0 : Nat := 0
  ret1 : Nat := 0
  credAt : Nat := 0
  /-- A frame of an XFER waits at the port for credit, with no copy sent (R359). [R356 spec/13; 1 bit; reset 0] -/
  blocked : Bool := false
  /-- Frames waiting for credit, oldest first. [R356 spec/13; list; reset empty] -/
  waiting : List Frame := []
  /-- Link delays of the last 16 TOLL frames, in eighths of ns, newest first. [R364 spec/13; reset empty] -/
  delays : List Int := []
  /-- TXCOUNTs of the TOLL frames sent lately, newest first. [R364 spec/13; list; reset empty] -/
  txs : List Nat := []
  /-- Count at the arrival of the last TOLL frame, and its TXCOUNT. [R363 spec/13; 64 bits each; reset 0] -/
  rxAt : Nat := 0
  rxTx : Nat := 0
  /-- Toll count of the last usable TOLL frame. [R367, R370 spec/13; 64 bits; reset 0 DC] -/
  usableAt : Nat := 0
  /-- Outliers in a row. [R364 spec/13; count; reset 0] -/
  outliers : Nat := 0
  /-- What the partner advertises. [R365 spec/13; reset none] -/
  adv : Option Advert := none
  /-- Frames of this period in UNAUTH, received and sent; SPDM frames in ACTIVE. [R347 spec/13; counts; reset 0] -/
  framesIn : Nat := 0
  framesOut : Nat := 0
  spdmIn : Nat := 0
  spdmOut : Nat := 0
  /-- DATA frames sent and replayed in this period. [R345 spec/13; counts; reset 0] -/
  dataSent : Nat := 0
  dataReplayed : Nat := 0
  /-- Toll count at which a failed training is retried. [R345 spec/13; reset none] -/
  trainAt : Option Nat := none
  /-- The port retrains at a narrower width and keeps its partner. [R345 spec/13; 1 bit; reset 0] -/
  narrowing : Bool := false
  /-- Toll count at which authentication is tried again. [R348 spec/13; reset none] -/
  authAt : Option Nat := none
  /-- An authentication is running. [R348 spec/13; 1 bit; reset 0] -/
  authing : Bool := false
  deriving DecidableEq, Repr

/-- A notice that waits for its answer (R354). -/
structure Sent where
  notice : Notice
  /-- Toll count at which it was first sent. -/
  since : Nat
  deriving DecidableEq, Repr

/-- A notice acted on, and the answer given to it (R354). -/
structure Acted where
  got : Notice
  answer : Option Notice := none
  deriving DecidableEq, Repr

/-- A peer device (R348, R349, R370). -/
structure Peer where
  /-- A peer session is in place. [R348, R376 spec/13; 1 bit; reset 0] -/
  session : Bool := false
  /-- The peer is lost. [R370, R376 spec/13; 1 bit; reset 0] -/
  lost : Bool := false
  /-- Its loss has been detected and is handled at the next TOLL frame. [R370 spec/13; 1 bit; reset 0] -/
  losing : Bool := false
  /-- Incarnation recorded. [R376 spec/13; 16 bits; reset 0] -/
  inc : Nat := 0
  /-- SEPOCH. [R349, R376 spec/13; 8 bits; reset 0] -/
  sepoch : Nat := 0
  /-- Frame sequences, sent and received. [R349 spec/13; 32 bits each; reset 0] -/
  seqOut : Nat := 0
  seqIn : Nat := 0
  /-- Toll count until which frames of the previous SEPOCH are accepted. [R349 spec/13; reset none] -/
  oldUntil : Option Nat := none
  /-- A frame of the present SEPOCH has arrived. [R349 spec/13; 1 bit; reset 0] -/
  newSeen : Bool := false
  /-- Export secret of the session. [R391 spec/14; 256 bits; reset 0] -/
  secret : BitVec 256 := 0#256
  /-- The peer is reached through a switch. [R376 spec/13; 1 bit; reset 0] -/
  switched : Bool := false
  /-- NSEQ of the last notice sent to it. [R354 spec/13; 32 bits; reset 0] -/
  nseq : Nat := 0
  /-- Notices that wait for an answer. [R354 spec/13; list; reset empty] -/
  out : List Sent := []
  /-- Notices acted on, with the answer given. [R354 spec/13; list; reset empty] -/
  acted : List Acted := []
  /-- Last headroom report: period and code. [R368 spec/13; reset none] -/
  report : Option (Nat × Nat) := none
  /-- STACKS served as its ROLE notice said. [R319, R354 spec/13; 8 bits; reset 0] -/
  served : Nat := 0
  /-- Its ROLE notice until B: B, STACKS and DROPPED. [R354 spec/13; reset none] -/
  role : Option (Nat × Nat × Nat) := none
  /-- Measurements 2, 3 and 4 it showed. [R387 spec/14; 3 x 384 bits; reset 0] -/
  meas : BitVec 384 × BitVec 384 × BitVec 384 := (0#384, 0#384, 0#384)
  deriving DecidableEq, Repr

/-- A link key of a multi-device VD toward a peer (R350). -/
structure LinkKey where
  vd : Nat
  peer : Nat
  /-- Own label. -/
  label : Nat
  /-- The peer's label, once a frame or a notice has shown it. -/
  theirs : Option Nat := none
  key : BitVec 512 := 0#512
  /-- Boundary of zeroisation once it retires. -/
  zeroAt : Option Nat := none
  deriving DecidableEq, Repr

/-- Where a target of an XFER stands (R361). -/
inductive TgtState where
  | sending
  | waiting (since : Nat)    -- last frame sent, or NOBUF received, at this toll count
  | acked
  | failed
  | lost
  deriving DecidableEq, Repr

/-- A target of an XFER (R358, R361). -/
structure XTgt where
  part : Nat
  dev : Nat
  local_ : Bool
  /-- Next data line of the attempt to send. -/
  next : Nat := 0
  sig : Bool
  dstLine : Nat
  tl : Nat
  sval : Nat
  st : TgtState := .sending
  /-- Attempts made after the first. -/
  retries : Nat := 0
  deriving DecidableEq, Repr

/-- An XFER in progress. -/
structure XferSt where
  tgts : List XTgt := []
  /-- Boundary of the collective time-out, once every target has acknowledged or failed. -/
  timeout : Option Nat := none
  deriving DecidableEq, Repr

/-- An inbound transfer (R360). -/
structure Inbound where
  dev : Nat
  xfer : Nat
  attempt : Nat
  vd : Nat
  total : Nat
  /-- Lines landed, by offset. -/
  landed : SMap Bool := []
  /-- Lines whose bin holds writes (R313), by Seedbank line address, with their offset. -/
  waits : List (Nat × Nat × BitVec 512) := []
  sig : Bool
  tl : Nat
  sval : Nat
  /-- The attempt was answered by NOBUF: its other frames are discarded. -/
  discard : Bool := false
  deriving DecidableEq, Repr

/-- A record of the pool held in the memory role (R373). -/
structure PoolRec where
  group : Nat
  record : Nat
  /-- Stack that holds it. -/
  stack : Nat
  version : Nat
  /-- Pages: ciphertext and tag. -/
  pages : SMap (List Byte × BitVec 128) := []
  deriving DecidableEq, Repr

/-- The Finwin block and the toll timekeeper. -/
structure Fw where
  /-- Ports F0 to F31. [R344, R346 spec/13; 32; reset DISABLED] -/
  ports : SMap FwPort := []
  /-- Peers by device number. [R348 spec/13; 1,024; reset none] -/
  peers : SMap Peer := []
  /-- Link keys. [R350 spec/13; list; reset empty] -/
  links : List LinkKey := []
  /-- Frames sent, newest first, by port: the ports' output. [R352 spec/13; reset empty] -/
  sent : List (Nat × Frame) := []
  /-- This device's incarnation. [R369, R376 spec/13; 16 bits; reset 1 DC: a random non-zero value at L6] -/
  inc : Nat := 1
  /-- Strap CASCHINT as sampled at L6: the reset value of DEVNO. [R376 spec/13, R476 spec/18; 10 bits; reset 0 DC] -/
  strap : Nat := 0
  /-- XFERs in progress, by SEQ. [R361 spec/13; reset empty] -/
  xfers : SMap XferSt := []
  /-- Inbound transfers. [R360 spec/13; at most 64 for each VD; reset empty] -/
  inbound : List Inbound := []
  /-- Feeder masks of timelines. [R360 spec/13; 65,536 x 64 bits; reset 0] -/
  feeders : SMap (BitVec 64) := []
  /-- Pool records held in the memory role. [R373 spec/13; list; reset empty] -/
  pool : List PoolRec := []
  /-- Records known to be lost: device, GROUP, RECORD. [R374 spec/13; list; reset empty] -/
  lostRecs : List (Nat × Nat × Nat) := []
  /-- Records fetched or written by this device: device, GROUP, RECORD, and 8 × version + stack. [R373 spec/13; list; reset empty] -/
  knownRecs : List (Nat × Nat × Nat × Nat) := []
  /-- Port of the next frame, for round robin, by VD. [R357 spec/13; 5 bits; reset 0] -/
  rr : SMap Nat := []
  /-- EPOCH. [R27, R377 spec/13; 16 bits; reset 0] -/
  epoch : Nat := 0
  /-- SYNCED. [R377 spec/13; 1 bit; reset 0] -/
  synced : Bool := false
  /-- HOLDOVER. [R377 spec/13; 1 bit; reset 0] -/
  holdover : Bool := false
  /-- Toll count at which holdover began. [R367 spec/13; 64 bits; reset 0 DC] -/
  holdAt : Nat := 0
  /-- MASTER: this device is master. [R377 spec/13; 1 bit; reset 1] -/
  master : Bool := true
  /-- EXTREF. [R377 spec/13; 1 bit; reset 0] -/
  extref : Bool := false
  /-- HOPS. [R377 spec/13; 6 bits; reset 0] -/
  hops : Nat := 0
  /-- MDEV, when another device is master. [R377 spec/13; 10 bits; reset DEVNO] -/
  mdev : Nat := 0
  /-- MPRIO, when another device is master. [R377 spec/13; 8 bits; reset PRIO] -/
  mprio : Nat := 128
  /-- UPPORT, none while NOUP. [R377 spec/13; 5 bits; reset none] -/
  up : Option Nat := none
  /-- TOLL_OFFSET in eighths of ns. [R377 spec/13; 32 bits; reset 0] -/
  offset : Int := 0
  /-- The idle tick has held the count back once at this nanosecond, to slew it down. [R364 spec/13; 1 bit; reset 0] -/
  slewHeld : Bool := false
  /-- Decisions and periods: the master's last decision. [R368 spec/13; 8 bits; reset 0] -/
  lastStep : Nat := 0
  /-- NEXT and its period. [R377 spec/13; 8 and 64 bits; reset none] -/
  next : Option (Nat × Nat) := none
  /-- HEAD last reported. [R377 spec/13; 8 bits; reset 0] -/
  head : Nat := 0
  /-- Last toll boundary performed. [R28 spec/01; 64 bits; reset 0] -/
  lastBound : Nat := 0
  /-- Toll count of the last TOLL_IN pulse, and whether it has been aligned. [R366 spec/13; reset none] -/
  pulse : Option Nat := none
  deriving DecidableEq, Repr

/-! ### The security controller (spec/14) -/

/-- A mailbox with its buffers (R383). -/
structure Mbox where
  /-- Request buffer bytes. [R383 spec/14; 2,048 bytes; reset 0 DC] -/
  req : Mem := []
  /-- Reply buffer bytes. [R383 spec/14; 2,048 bytes; reset 0 DC] -/
  rep : Mem := []
  /-- LEN of the request in progress. [R383 spec/14; 12 bits; reset 0] -/
  len : Nat := 0
  /-- SEC_MBSTAT.BUSY. [R383 spec/14; 1 bit; reset 0] -/
  busy : Bool := false
  /-- SEC_MBSTAT.DONE. [R383 spec/14; 1 bit; reset 0] -/
  done : Bool := false
  /-- SEC_MBSTAT.RESULT. [R383 spec/14; 8 bits; reset 0] -/
  result : Nat := 0
  /-- SEC_MBSTAT.RLEN. [R383 spec/14; 12 bits; reset 0] -/
  rlen : Nat := 0
  deriving DecidableEq, Repr

/-- A tenant session (R384, R388): its number, keys tenant to device and back, and the last SEQ of each direction. -/
structure Session where
  num : Nat
  keyIn : BitVec 256
  keyOut : BitVec 256
  seqIn : Nat := 0
  seqOut : Nat := 0
  deriving DecidableEq, Repr

/-- A debug grant (R398): its number, scope (HBM, SEEDBANK, CORES, WRITE) and the boundary at which it ends. -/
structure Grant where
  num : Nat
  scope : BitVec 4
  ends : Nat
  deriving DecidableEq, Repr

/-- A device set of a VD (R393). -/
structure SetKey where
  id : BitVec 384
  key : BitVec 256
  deriving DecidableEq, Repr

/-- Phases of a teardown (R399). -/
inductive TearPhase where | quiesce | force | retire
  deriving DecidableEq, Repr

/-- A teardown in progress (R399): its phase, the end of quiesce, the VD_DESTROY it completes (0 none), and the
zeroisation boundary once the drain begins. -/
structure Teardown where
  phase : TearPhase := .quiesce
  deadline : Nat
  seq : Nat
  boundary : Option Nat := none
  deriving DecidableEq, Repr

/-- What the security controller holds for a VD. -/
structure VdSec where
  /-- Tenant mailbox. [R383 spec/14; reset idle] -/
  mb : Mbox := {}
  /-- Open session. [R388 spec/14; reset none] -/
  session : Option Session := none
  /-- CARVE K secrets. [R390 spec/14; 4 x 256 bits; reset none] -/
  carve : SMap (Option (BitVec 256)) := []
  /-- GROUP secret. [R390 spec/14; 256 bits; reset none] -/
  group : Option (BitVec 256) := none
  /-- CAPSULE secret. [R390 spec/14; 256 bits; reset none] -/
  capsule : Option (BitVec 256) := none
  /-- Device sets. [R393 spec/14; at most 8; reset none] -/
  sets : List SetKey := []
  /-- Debug grants. [R398 spec/14; list; reset empty] -/
  grants : List Grant := []
  /-- Teardown in progress. [R399 spec/14; reset none] -/
  tear : Option Teardown := none
  /-- Subtree reset in progress: channel, level and first page. [R212 spec/07, R396 spec/14; reset none] -/
  sub : Option (Nat × Nat × Nat) := none
  deriving DecidableEq, Repr

/-- A firmware set: measurements 2, 3 and 4, its version, and those of its device and PHY firmware (R386, R464, R494). -/
structure FwSet where
  m2 : BitVec 384 := 0#384
  m3 : BitVec 384 := 0#384
  m4 : BitVec 384 := 0#384
  version : Nat := 0
  devfw : Nat := 0
  phyfw : Nat := 0
  deriving DecidableEq, Repr

/-- What the debug aperture is mapped onto (R398). -/
structure DebugMap where
  kind : Nat
  index : Nat
  off : Nat
  deriving DecidableEq, Repr

/-- The security controller. -/
structure Sec where
  /-- Operator mailbox. [R383 spec/14; reset idle] -/
  mb : Mbox := {}
  /-- Active firmware set: measurements 2, 3 and 4. [R386, R494 spec/14 spec/19; 3 x 384 bits; reset 0 DC: measured at STAGE 0] -/
  active : FwSet := {}
  /-- The firmware store holds an active set. [R494 spec/19; 1 bit; nonvolatile, 1 DC] -/
  activeOk : Bool := true
  /-- Staged firmware set; FWSTAGED tells whether there is one. [R383, R386, R494 spec/14; reset none] -/
  staged : Option FwSet := none
  /-- Anti-rollback fuses: lowest version accepted. [R386 spec/14; nonvolatile, 0 DC] -/
  rollback : Nat := 0
  /-- SEC_STATE.JTAG. [R383 spec/14; 1 bit; reset 0] -/
  jtag : Bool := false
  /-- Level 1, system debug, is open. [R397 spec/14; 1 bit; reset 0] -/
  level1 : Bool := false
  /-- Level 2 is open under a grant of a VD: VD and grant number. [R397 spec/14; reset none] -/
  level2 : Option (Nat × Nat) := none
  /-- Level 3, invasive, is open. [R397 spec/14; 1 bit; reset 0] -/
  level3 : Bool := false
  /-- A level 3 unlock waits for the tenants' teardowns; no VD_CREATE succeeds from then on. [R397, R402 spec/14; 1 bit; reset 0] -/
  unlocking : Bool := false
  /-- The debug aperture's target. [R398 spec/14; reset none] -/
  dmap : Option DebugMap := none
  /-- Peer policy: allowed triples of measurements 2, 3 and 4. [R387 spec/14; at most 32; reset empty] -/
  policy : List (BitVec 384 × BitVec 384 × BitVec 384) := []
  /-- Measurement 7, the peer policy digest. [R386 spec/14; 384 bits; reset 0 DC: digest of the empty policy at STAGE 0] -/
  policyDigest : BitVec 384 := 0#384
  /-- Number the next session takes. [R388 spec/14; 32 bits; reset 1 DC] -/
  nextSession : Nat := 1
  /-- Number the next grant takes. [R398 spec/14; 16 bits; reset 1 DC] -/
  nextGrant : Nat := 1
  deriving DecidableEq, Repr

/-! ### Power, clocks and heat (spec/15) -/

/-- One rail's telemetry. -/
structure Rail where
  /-- Present level of the power-good input. [R403, R425 spec/15; 1 bit; reset 1 DC: the sequence has completed when L6 ends] -/
  pg : Bool := true
  /-- VOUT in mV. [R425 spec/15; 16 bits; reset 0] -/
  vout : Nat := 0
  /-- IOUT in 0.1 A. [R425 spec/15; 16 bits; reset 0] -/
  iout : Nat := 0
  /-- Last STATUS_WORD. [R425 spec/15; 16 bits; reset 0] -/
  status : Nat := 0
  /-- Regulator temperature. [R425 spec/15; 8 bits; reset 0] -/
  temp : Nat := 0
  /-- Consecutive PMBus polls of the rail that failed. [R417 spec/15; count; reset 0] -/
  fails : Nat := 0
  deriving DecidableEq, Repr

/-- One half's core rail, clocks and readings. -/
structure HalfPwr where
  /-- CURN or CURS, the code in force. [R425 spec/15; 8 bits; reset 32] -/
  code : Nat := 32
  /-- Core and store clocks on RC (NRC, SRC). [R411, R425 spec/15; 1 bit; reset 0] -/
  onRc : Bool := false
  /-- HBM PLL failed (HBMN, HBMS). [R411, R425 spec/15; 1 bit; reset 0] -/
  hbmFail : Bool := false
  /-- Core rail currents of the last 100 µs in A, newest first. [R418 spec/15; at most 10; reset empty] -/
  amps : List Nat := []
  /-- Core rail power of the last 100 µs in mW, and its sum over the period's cap loops. [R418, R421 spec/15; reset 0] -/
  mw : Nat := 0
  sumMw : Nat := 0
  /-- Largest 10 µs reading of the period. [R421 spec/15; 16 bits; reset 0] -/
  ipk : Nat := 0
  /-- Consecutive AVSBus polls without a valid answer. [R417 spec/15; count; reset 0] -/
  avsBad : Nat := 0
  /-- Consecutive valid AVSBus answers. [R417 spec/15; count; reset 0] -/
  avsGood : Nat := 0
  /-- The AVSBus loss holds the safety throttle. [R417, R419 spec/15; 1 bit; reset 0] -/
  avsLost : Bool := false
  /-- Junction temperature, °C. [R425 spec/15; 8 bits; reset 0] -/
  tj : Nat := 0
  /-- Hottest junction reading of the period. [R421 spec/15; 8 bits; reset 0] -/
  tjMax : Nat := 0
  /-- The rail is below its droop level. [R420 spec/15; 1 bit; reset 0] -/
  droop : Bool := false
  /-- Roll decay interval D, 0 before it is computed. [R422 spec/15; beats; reset 0 DC] -/
  rollD : Nat := 0
  deriving DecidableEq, Repr

/-- A frequency step decided: boundary, codes of north and south (R414, R415). -/
structure Step where
  at_ : Nat
  north : Nat
  south : Nat
  /-- The regulators have settled at the target of a rise. -/
  settled : Bool := false
  deriving DecidableEq, Repr

/-- The judgement of one clock source (R408). -/
structure Judge where
  /-- Stable. [R408, R425 spec/15; 1 bit; reset 0] -/
  stable : Bool := false
  /-- Consecutive windows inside the band. [R408 spec/15; 0 to 8; reset 0] -/
  good : Nat := 0
  /-- Toll count from which the source is required, none while it is not. [R408 spec/15; 64 bits; reset none] -/
  since : Option Nat := none
  deriving DecidableEq, Repr

/-- The power manager. -/
structure Power where
  /-- North (0) and south (1). [spec/15; reset default] -/
  halves : SMap HalfPwr := []
  /-- Rails by index. [R403 spec/15; 12; reset default] -/
  rails : SMap Rail := []
  /-- PCT_PGSTAT.OOO. [R405, R425 spec/15; 1 bit; reset 0] -/
  ooo : Bool := false
  /-- PCT_PGSTAT.LOSS. [R406, R425 spec/15; 1 bit; reset 0] -/
  loss : Bool := false
  /-- PCT_PGSTAT.RAIL. [R425 spec/15; 4 bits; reset 0] -/
  rail : Nat := 0
  /-- Toll count at which the latest power-good input asserted. [R404 spec/15; 64 bits; reset 0 DC] -/
  pgAt : Nat := 0
  /-- The power-up sequence has completed. [R406 spec/15; 1 bit; reset 1 DC] -/
  upSeq : Bool := true
  /-- Rails that have asserted in order since the last full sequence began. [R404, R406 spec/15; 0 to 12; reset 12 DC] -/
  seqDone : Nat := 12
  /-- Clock sources: 0 XTAL, 1 REFCLK_A, 2 REFCLK_B, 3 LREFCLK, 4 TOLL_IN 10 MHz. [R407, R408 spec/15; 5; reset not stable] -/
  src : SMap Judge := []
  /-- RC oscillator failed: the inverse of RCOK. [R411, R425 spec/15; 1 bit; reset 0] -/
  rcFail : Bool := false
  /-- AONRC. [R411, R425 spec/15; 1 bit; reset 0] -/
  aonRc : Bool := false
  /-- Gating level g. [R418, R425 spec/15; 6 bits; reset 0] -/
  gate : Nat := 0
  /-- CAPHIT. [R425 spec/15; 1 bit; reset 0] -/
  capHit : Bool := false
  /-- Consecutive loops at g = 48 above the limit. [R418 spec/15; count; reset 0] -/
  over48 : Nat := 0
  /-- PCT_CAP.CAPVIOL. [R425 spec/15; 8 bits; reset 0] -/
  capViol : Nat := 0
  /-- The cap loop has run. [R418, R426 spec/15; 1 bit; reset 0] -/
  loopRan : Bool := false
  /-- PCT_POWER.PKG. [R425 spec/15; 16 bits; reset 0] -/
  pkg : Nat := 0
  /-- PCT_POWER.CORE. [R425 spec/15; 16 bits; reset 0] -/
  core : Nat := 0
  /-- Sums over the period's cap loops: package power in W, gating level. [R421, R426 spec/15; reset 0] -/
  sumPkg : Nat := 0
  sumGate : Nat := 0
  /-- Cap loops of the period, and those that exceeded LIMIT. [R426 spec/15; 16 bits; reset 0] -/
  loops : Nat := 0
  capHits : Nat := 0
  /-- The safety throttle was in force in the period. [R426 spec/15; 1 bit; reset 0] -/
  safePeriod : Bool := false
  /-- Hottest stack reading of the period. [R421, R426 spec/15; 8 bits; reset 0] -/
  hbmMax : Nat := 0
  /-- A junction at TCRIT holds the safety throttle. [R419, R423 spec/15; 1 bit; reset 0] -/
  critSafe : Bool := false
  /-- Toll count from which the junctions have been below TCRIT - 5. [R423 spec/15; 64 bits; reset none] -/
  critCool : Option Nat := none
  /-- A stack at 100 °C holds the safety throttle. [R419, R423 spec/15; 1 bit; reset 0] -/
  hbmSafe : Bool := false
  /-- THROT_N is asserted after its filter. [R424 spec/15; 1 bit; reset 0] -/
  throt : Bool := false
  /-- THROT_N holds the safety throttle. [R419, R424 spec/15; 1 bit; reset 0] -/
  throtSafe : Bool := false
  /-- Toll count of the assertion or of the last 1 s mark. [R424 spec/15; 64 bits; reset 0] -/
  throtAt : Nat := 0
  /-- A droop stretch is in force. [R420, R425 spec/15; 1 bit; reset 0] -/
  stretch : Bool := false
  /-- PCT_DROOP.COUNT. [R425 spec/15; 16 bits; reset 0] -/
  droops : Nat := 0
  /-- Stretches of the present millisecond, and its start. [R420 spec/15; count; reset 0] -/
  droopWin : Nat := 0
  droopFrom : Nat := 0
  /-- Stretches of the period. [R426 spec/15; 16 bits; reset 0] -/
  droopPeriod : Nat := 0
  /-- PCT_HEAD: HC, HP, HT, HR. [R425 spec/15; 4 x 8 bits; reset 0] -/
  hc : Nat := 0
  hp : Nat := 0
  ht : Nat := 0
  hr : Nat := 0
  /-- Headroom of each half at the last boundary, north and south. [R421 spec/15; 8 bits each; reset 32 DC] -/
  headN : Nat := 32
  headS : Nat := 32
  /-- Headroom reported after a step was not taken, until the next boundary. [R414 spec/15; 8 bits; reset none] -/
  headCap : Option Nat := none
  /-- A step was not taken in the running period: LAG. [R414 spec/15; 1 bit; reset 0] -/
  stepLag : Bool := false
  /-- Frequency steps decided, the earliest first. [R414, R415 spec/15, R368 spec/13; list; reset empty] -/
  steps : List Step := []
  /-- PCT_EVT. [R425 spec/15; 9 bits; reset 0] -/
  evt : BitVec 9 := 0#9
  /-- Snapshot words from PCT_SNAPLO to PCT_SNAPDROOP. [R426 spec/15; 7 x 32 bits; reset 0] -/
  snap : List Word := []
  /-- Snapshot words latched by each function. [R426 spec/15; 7 x 32 bits; reset none] -/
  snapLatch : SMap (Option (List Word)) := []
  /-- A trip has stopped the clocks; THERMTRIP_N is asserted. [R424 spec/15; 1 bit; reset 0] -/
  tripped : Bool := false
  deriving DecidableEq, Repr
/-! ### Resets, errors and recovery (spec/16) -/

/-- An error ring record (R441). -/
structure ErrRec where
  unit : Nat := 0
  sev : Nat := 0
  status : Nat := 0
  action : Nat := 0
  count : Nat := 0
  tfirst : Nat := 0
  tlast : Nat := 0
  vd : Nat := 0
  seq : Nat := 0
  index : Nat := 0
  info : BitVec 128 := 0#128
  deriving DecidableEq, Repr

/-- The detail of a VD record that a ring record does not hold (R443). -/
structure VdDetail where
  ctx : Option Nat := none
  index : Nat := 0
  akind : Nat := 0
  addr : Nat := 0
  addr2 : Nat := 0
  deriving DecidableEq, Repr

/-- A VD's own error record (R443). -/
structure VdErrRec where
  base : ErrRec := {}
  det : VdDetail := {}
  deriving DecidableEq, Repr

/-- What a recovery covers (R433, R444). -/
inductive RecDom where
  | ctx (vd ctx : Nat)
  | vd (n : Nat)
  | half (h : Nat)
  | compute
  | store (d : Nat)
  | hbmctl (s : Nat)
  | fwport (p : Nat)
  deriving DecidableEq, Repr

/-- A recovery running or waiting (R444, R445); `level` 6 is a unit reset. -/
structure Recovery where
  level : Nat
  dom : RecDom
  unit : Nat
  index : Nat
  /-- VD the record names, 0 for none. -/
  vd : Nat
  start : Nat
  /-- A hang detector started it (R429). -/
  hang : Bool
  /-- Its work has been done by the level's command. -/
  performed : Bool := false
  deriving DecidableEq, Repr

/-- Why an L5 is due (ERR_RSTLAST.CAUSE, R452). -/
inductive L5Cause where | request | fatal | escalation
  deriving DecidableEq, Repr

/-- Error ring, recoveries and reset bookkeeping. -/
structure Resets where
  /-- ERR_REC slots. [R440, R452 spec/16; 512 x 64 bytes; reset 0] -/
  ring : SMap ErrRec := []
  /-- ERR_RINGHEAD.HEAD. [R452 spec/16; 9 bits; reset 0] -/
  head : Nat := 0
  /-- ERR_RINGTAIL.TAIL. [R452 spec/16; 9 bits; reset 0] -/
  tail : Nat := 0
  /-- ERR_LOST.COUNT. [R452 spec/16; 26 bits; reset 0] -/
  lost : Nat := 0
  /-- ERR_LOST.MAXSEV. [R452 spec/16; 2 bits; reset 0] -/
  maxSev : Nat := 0
  /-- Number the next record takes. [R441 spec/16; 16 bits; reset 0 DC] -/
  seq : Nat := 0
  /-- ERR_STATUS.RSVW. [R452 spec/16, R11 spec/00; 1 bit; reset 0] -/
  rsvw : Bool := false
  /-- Running recovery. [R444 spec/16; reset none] -/
  running : Option Recovery := none
  /-- Waiting recoveries, oldest first. [R444 spec/16; at most 32; reset empty] -/
  waiting : List Recovery := []
  /-- An L5 is due. [R444, R446 spec/16; reset none] -/
  l5Due : Option (L5Cause × Nat) := none
  /-- Start times of the L5s of the current run of 600 s. [R446 spec/16; list; reset empty] -/
  l5Times : List Nat := []
  /-- ERR_RSTLAST.LEVEL. [R452 spec/16; 3 bits; reset 6] -/
  lastLevel : Nat := 6
  /-- ERR_RSTLAST.CAUSE. [R452 spec/16; 8 bits; reset 1] -/
  lastCause : Nat := 1
  /-- ERR_RSTLAST.COUNT5. [R452 spec/16; 16 bits; reset 0] -/
  count5 : Nat := 0
  /-- ERR_RSTCFG.COLDA. [R452 spec/16; 1 bit; reset 1] -/
  coldA : Bool := true
  /-- ERR_RSTCFG.COLDB. [R452 spec/16; 1 bit; reset 0] -/
  coldB : Bool := false
  /-- ERR_CAPSTAT.VALID. [R452 spec/16; 1 bit; reset 0] -/
  capValid : Bool := false
  /-- ERR_CAPSTAT.SEQ. [R452 spec/16; 16 bits; reset 0] -/
  capSeq : Nat := 0
  /-- Tenant parts of the latest capsule, bytes at 8192·(v−1). [R449 to R451 spec/16; 127 x 8 KiB; reset 0] -/
  capTenant : Mem := []
  /-- Domain-down sideband: 0–3 store domains, 8–15 HBM controllers, 16–47 Finwin ports, 64–191 pods. [R433, R434 spec/16; 1 bit each; reset 0] -/
  down : SMap Bool := []
  /-- Domain generation, same keys. [R170 spec/06, R434 spec/16; 4 bits each; reset 0] -/
  gen : SMap Nat := []
  /-- Every domain but the always-on domain is held in reset until L6. [R438, R446 spec/16, R406 spec/15; 1 bit; reset 0] -/
  heldInReset : Bool := false
  /-- A DEVICE-FATAL error was found during start-up, which stays in its stage until the next L6. [R492 spec/19; 1 bit; reset 0] -/
  bootStop : Bool := false
  deriving DecidableEq, Repr

/-! ### Register space and the GLB block (spec/17) -/

/-- GLB_STATUS.STAGE (R462). -/
inductive Stage where | secboot | clocks | train | clear | system | run | warm | halted
  deriving DecidableEq, Repr

/-- The GLB block and the machinery of register accesses. -/
structure Glb where
  /-- GLB_STATUS.STAGE. [R462, R464 spec/17; 3 bits; reset 0] -/
  stage : Stage := .secboot
  /-- GLB_STATUS.READY. [R464 spec/17; 1 bit; reset 0] -/
  ready : Bool := false
  /-- GLB_STATUS.CAPV. [R464 spec/17; 1 bit; reset 0] -/
  capv : Bool := false
  /-- GLB_STATUS.SPARE_CLKMON. [R16 spec/01, R464 spec/17; 1 bit; reset 0] -/
  spareClkmon : Bool := false
  /-- GLB_STATUS.SPARE_TOLL. [R16 spec/01, R464 spec/17; 1 bit; reset 0] -/
  spareToll : Bool := false
  /-- GLB_NMECAUSE. [R464, R465 spec/17; 15 bits; reset 0] -/
  nme : BitVec 15 := 0#15
  /-- GLB_NMEFIRST.VALID. [R464 spec/17; 1 bit; reset 0] -/
  nmeValid : Bool := false
  /-- GLB_NMEFIRST.BIT. [R464 spec/17; 5 bits; reset 0] -/
  nmeBit : Nat := 0
  /-- GLB_NMETIME. [R464 spec/17; 64 bits; reset 0] -/
  nmeTime : Nat := 0
  /-- RW fields of every block by PF BAR0 byte address, where they differ from reset. [R455, R463 spec/17; 64 bits each; reset as each register's table] -/
  val : SMap (Option DWord) := []
  /-- Values in force of registers that take effect at a toll boundary, same keys. [R323 spec/12, R426 spec/15; 64 bits each; reset as the register] -/
  eff : SMap (Option DWord) := []
  /-- Low half staged by a function: address and value. [R457 spec/17; per function; reset none] -/
  staged : SMap (Option (Nat × Word)) := []
  /-- High half latched by a function's low read: address and value. [R457 spec/17; per function; reset none] -/
  latched : SMap (Option (Nat × Word)) := []
  /-- TOLL_CNTHI as latched by each function. [R377 spec/13; 32 bits; reset 0] -/
  tollHi : SMap Word := []
  /-- VFID_TOLLHI as latched for each VF. [R466 spec/17; 32 bits; reset 0] -/
  vfTollHi : SMap Word := []
  deriving DecidableEq, Repr


/-! ### Sideband and JTAG (spec/18) -/

/-- An event input's supervision (R478, R479). -/
structure InPin where
  /-- Level after the filter: asserted. [R478 spec/18; 1 bit; reset 0] -/
  level : Bool := false
  /-- Toll count at which it last changed level. [R478, R479 spec/18; 64 bits; reset 0] -/
  since : Nat := 0
  /-- Masked for storm. [R478, R483 spec/18; 1 bit; reset 0] -/
  storm : Bool := false
  /-- Consecutive 1 ms windows with at most 10 edges. [R479 spec/18; 0 to 1,000; reset 0] -/
  calm : Nat := 0
  /-- Masked as stuck. [R478, R483 spec/18; 1 bit; reset 0] -/
  stuck : Bool := false
  /-- Has been in storm since SB_INSTAT was last read. [R483 spec/18; 1 bit; reset 0] -/
  stormSeen : Bool := false
  /-- Has been stuck since SB_INSTAT was last read. [R483 spec/18; 1 bit; reset 0] -/
  stuckSeen : Bool := false
  deriving DecidableEq, Repr

/-- The sideband. -/
structure Side where
  /-- Inputs: 0 THROT_N, 1 PMB_ALERT_N, 2 TOLL_IN_PPS, 3 DEVRST_N, 4 PERST_A_N, 5 PERST_B_N. [R478 spec/18; 6; reset default] -/
  ins : SMap InPin := []
  /-- I3C dynamic address of the BMC target. [R482 spec/18; 7 bits; reset none: SMBus] -/
  i3c : Option Nat := none
  /-- In-band interrupts raised to the BMC. [R479 spec/18; count; reset 0] -/
  ibi : Nat := 0
  /-- TAP instruction register. [R484 spec/18; 8 bits; reset 1: IDCODE] -/
  ir : BitVec 8 := 1#8
  /-- DBGACC result for the next Capture-DR. [R484 spec/18; 66 bits; reset 0] -/
  dr : BitVec 66 := 0#66
  deriving DecidableEq, Repr
/-! ### Virtual devices -/

/-- A hold of a VD on this device (R76, R77).  Wall beats are counted since exec and 12 beats late, so that a hold
requested at beat t takes effect at `req` = t + 12 and one released at r resumes at `rel` = r + 12. -/
structure Hold where
  /-- First slot that does not execute. -/
  slot : Nat
  /-- Beat at which it takes effect. -/
  req : Nat
  /-- It has taken effect. -/
  eff : Bool := false
  /-- Beat at which the VD resumes, once no core has a false condition. -/
  rel : Option Nat := none
  /-- Toll count at which it took effect, for the hold watchdog (R436). -/
  since : Nat := 0
  deriving DecidableEq, Repr

/-- One virtual device: its running part.  -/
structure Vd where
  /-- State. [R296 spec/11; 3 bits; reset NONE] -/
  st : VdState := .none
  /-- Incarnation of the number. [R277 spec/10; 24 bits; reset 0] -/
  inc : Nat := 0
  /-- Limit record. [R297 spec/11; 64 bytes; reset 0] -/
  limits : Limits := {}
  /-- Quiet placement class. [R296, R307 spec/11; 1 bit; reset 0] -/
  quiet : Bool := false
  /-- Bound alternative and its index. [R298, R299 spec/11; 64 bytes, 4 bits; reset none] -/
  alt : Alt := {}
  altIdx : Nat := 0
  /-- Beat-table set handle of the bound shape. [R298 spec/11; 32 bits; reset 0] -/
  btset : Nat := 0
  /-- Routing epoch. [R309 spec/11; 4 bits; reset 0] -/
  epoch : Nat := 0
  /-- Placement in force. [R303 to R305 spec/11; reset empty] -/
  place : Placement := {}
  /-- Placement of the previous epoch while it is live. [R309 spec/11; reset none] -/
  oldPlace : Option Placement := none
  /-- Carve-outs by number. [R189 spec/07; 4; reset none] -/
  carves : SMap Carve := []
  /-- This device's part, and the parts of the shape. [R312 spec/11; 6 bits each; reset 0, 1] -/
  part : Nat := 0
  nparts : Nat := 1
  /-- Device number of each part. [R298 spec/11; 10 bits each; reset empty] -/
  devs : List Nat := []
  /-- VD handle of each part's VD, as JOIN and PREPARE gave them. [R312 spec/11, R354 spec/13; 32 bits each; reset 0] -/
  peerHandles : SMap Nat := []
  /-- Digest of the bound shape request. [R312, R371 spec/11 spec/13; 384 bits; reset 0] -/
  digest : BitVec 384 := 0#384
  /-- Parts on lost peers while HELD. [R370, R371 spec/13; list; reset empty] -/
  lostParts : List Nat := []
  /-- Toll count of the last commit. [R308 spec/11; 64 bits; reset 0 DC] -/
  tcommit : Nat := 0
  /-- FARGBS counted in CMP_SEAMLOAD. [R306 spec/11; 32 bits; reset 0] -/
  seamShare : Nat := 0
  /-- Changes in acceptance order, the first in progress. [R309 spec/11; list; reset empty] -/
  changes : List Change := []
  /-- Contexts that have still to pass to the new resources, and the SEQ of the BIND that completes then. [R310, R311 spec/11; reset empty] -/
  passing : List Nat := []
  /-- Attached VF as (port, number). [R253 spec/09; reset none] -/
  vf : Option (Nat × Nat) := none
  /-- Journal key; VD 0's is the system journal key. [R291 spec/10, R391 spec/14; 256 bits; reset 0 DC: drawn at L6 or VD_CREATE] -/
  jkey : BitVec 256 := 0#256
  /-- Running context. [R322, R324 spec/12; 12 bits; reset none] -/
  ctx : Option Nat := none
  /-- Holds in force or requested, the earliest first. [R76, R77 spec/03; reset none] -/
  holds : List Hold := []
  /-- Toll boundaries since the running context started or was restored. [R324 spec/12; count; reset 0] -/
  sliceBoundaries : Nat := 0
  /-- Context last started. [R324 spec/12; 12 bits; reset 0 DC] -/
  lastCtx : Nat := 0
  /-- A choice of the scheduler waits for the running context to stop. [R324, R325 spec/12; 1 bit; reset 0] -/
  switching : Bool := false
  /-- Queue pair served in the VD's last tick. [R337 spec/12; 14 bits; reset 0 DC] -/
  lastTick : Nat := 0
  /-- Carve-out allotments in MB/s. [R339, R342 spec/12; 4 x 32 bits; reset 0] -/
  allot : SMap Nat := []
  /-- Carve-outs in scarcity. [R338 spec/12; 4 bits; reset 0] -/
  carveScarce : SMap Bool := []
  /-- SCARCE: any carve-out or port share in scarcity. [R341 spec/12; 1 bit; reset 0] -/
  scarce : Bool := false
  /-- DEGRADED. [R340 spec/12; 1 bit; reset 0] -/
  degraded : Bool := false
  /-- SCH_VFFBT.HANDLE. [R342 spec/12; 32 bits; reset 0] -/
  fbt : Nat := 0
  /-- SCH_VFEVT. [R342 spec/12; 4 bits; reset 0] -/
  evt : BitVec 4 := 0#4
  /-- Class counters. [R342 spec/12; 16 x 4; reset 0] -/
  cls : SMap ClassCnt := []
  /-- VD error ring (VFERR_REC). [R443, R453 spec/16; 64 x 64 bytes; reset 0] -/
  ring : SMap VdErrRec := []
  /-- VFERR_HEAD. [R453 spec/16; 6 bits; reset 0] -/
  errHead : Nat := 0
  /-- VFERR_TAIL. [R453 spec/16; 6 bits; reset 0] -/
  errTail : Nat := 0
  /-- VFERR_LOST. [R453 spec/16; 32 bits; reset 0] -/
  errLost : Nat := 0
  /-- Number the VD's next record takes. [R443 spec/16; 16 bits; reset 0 DC] -/
  errSeq : Nat := 0
  /-- What the security controller holds for it. [spec/14; reset empty] -/
  sec : VdSec := {}
  deriving DecidableEq, Repr

/-! ### The whole machine -/

/-- Everything the spec gives the machine, and the queue of waiting commands. -/
structure State where
  /-- Commands waiting, first in first out: the block's input. [the model's own; list; reset empty] -/
  pending : List Instr := []
  /-- Free values taken so far; the model's own counter. [the model's own; Nat; reset 0 DC] -/
  freeCount : Nat := 0
  /-- Data the last read command returned, as 64-bit words: the model's output. [the model's own; list; reset empty] -/
  rdata : List DWord := []
  /-- Toll count in ns. [R26 spec/01; 64 bits; reset 0] -/
  toll : Nat := 0
  /-- The 8,192 cores by global core number. [R13 spec/00, R56 spec/03; reset: none running] -/
  cores : SMap Core := []
  /-- The 128 pods by global pod number. [R13 spec/00, R152 spec/05; reset unbound] -/
  pods : SMap Pod := []
  /-- The seam. [R136 spec/05; reset closed] -/
  seam : Seam := {}
  /-- Virtual devices by number; VD 0 is the system. [R13 spec/00, R296 spec/11; 128; reset none] -/
  vds : SMap Vd := []
  /-- Seedbank and store fabric. [spec/06; reset as its fields] -/
  sbk : Sbk := {}
  /-- HBM and memory protection. [spec/07; reset as its fields] -/
  hbm : Hbm := {}
  /-- Translation. [spec/08; reset as its fields] -/
  xlt : Xlt := {}
  /-- Host interface. [spec/09; reset down] -/
  host : HostIf := {}
  /-- Queue engine. [spec/10; reset as its fields] -/
  que : Que := {}
  /-- Binder. [spec/11; reset as its fields] -/
  cmp : Comp := {}
  /-- Scheduler. [spec/12; reset as its fields] -/
  sch : Sched := {}
  /-- Power manager. [spec/15; reset as its fields] -/
  pwr : Power := {}
  /-- Finwin, toll time and the cascade. [spec/13; reset as its fields] -/
  fw : Fw := {}
  /-- Security controller. [spec/14; reset as its fields] -/
  sec : Sec := {}
  /-- Sideband and JTAG. [spec/18; reset as its fields] -/
  side : Side := {}
  /-- GLB block and register file. [spec/17; reset as its fields] -/
  glb : Glb := {}
  /-- Errors and resets. [spec/16; reset as its fields] -/
  rst : Resets := {}
  deriving DecidableEq, Repr

/-- The machine right after the power-on reset L6. -/
def State.reset : State := {}

end Sys2Proof.Machine
end

