-- ==== Sys2Proof/Machine/Ops.lean ====
section
/-!
DEFINITION. The named operations every family uses: sparse maps and memories, the accessors of the state's parts,
free values, MSI-X, NME causes, the error rings and the queueing of recoveries.
-/
namespace Sys2Proof.Machine

/-! ### Sparse maps -/

/-- The value at a key, `d` where it is not listed. -/
def sget {α : Type} (d : α) : SMap α → Nat → α
  | [], _ => d
  | (k', v) :: m, k => if k = k' then v else if k < k' then d else sget d m k

/-- Store a value at a key, keeping the canonical form: keys rising, the default never listed. -/
def sput {α : Type} [DecidableEq α] (d : α) (k : Nat) (v : α) : SMap α → SMap α
  | [] => if v = d then [] else [(k, v)]
  | (k', v') :: m =>
    if k < k' then (if v = d then (k', v') :: m else (k, v) :: (k', v') :: m)
    else if k = k' then (if v = d then m.dropWhile (fun e => e.1 ≤ k) else (k, v) :: m)
    else (k', v') :: sput d k v m

/-- The canonical form: keys strictly rising and no value equal to the default. -/
def SMap.wf {α : Type} [DecidableEq α] (d : α) : SMap α → Bool
  | [] => true
  | [(_, v)] => v != d
  | (k, v) :: (k', v') :: m => k < k' && v != d && SMap.wf d ((k', v') :: m)

/-- Keys of a sparse map. -/
def skeys {α : Type} (m : SMap α) : List Nat := m.map Prod.fst

/-- The least key from `k` on, below `k + n`, whose value passes the test. -/
def lowestKey (p : Nat → Bool) : Nat → Nat → Option Nat
  | 0, _ => none
  | n + 1, k => if p k then some k else lowestKey p n (k + 1)

/-! ### Byte memories -/

/-- The canonical form of a memory. -/
def Memory.wf (m : Mem) : Bool := SMap.wf 0#8 m

/-- One byte. -/
def readByte (m : Mem) (a : Nat) : Byte := sget 0#8 m a

/-- Store one byte. -/
def writeByte (m : Mem) (a : Nat) (b : Byte) : Mem := sput 0#8 a b m

/-- n bytes from a. -/
def readBytes (m : Mem) (a : Nat) : Nat → List Byte
  | 0 => []
  | n + 1 => readByte m a :: readBytes m (a + 1) n

/-- Store bytes from a on. -/
def writeBytes (m : Mem) (a : Nat) : List Byte → Mem
  | [] => m
  | b :: l => writeBytes (writeByte m a b) (a + 1) l

/-- n bytes as a little-endian number. -/
def readLE (m : Mem) (a n : Nat) : Nat := leNat (readBytes m a n)

/-- Store a number as n little-endian bytes. -/
def writeLE (m : Mem) (a n v : Nat) : Mem := writeBytes m a (leBytes n v)

/-- A 64-byte line. -/
def readLine (m : Mem) (a : Nat) : BitVec 512 := BitVec.ofNat 512 (readLE m a 64)

/-- Store a 64-byte line. -/
def writeLine (m : Mem) (a : Nat) (d : BitVec 512) : Mem := writeLE m a 64 d.toNat

/-- Bits [hi:lo] of a number. -/
def bitsOf (n hi lo : Nat) : Nat := n / 2 ^ lo % 2 ^ (hi + 1 - lo)

/-- Bit i of a number. -/
def bitOf (n i : Nat) : Bool := n / 2 ^ i % 2 = 1

/-- 1 for true. -/
def b2n (b : Bool) : Nat := if b then 1 else 0

/-- a + b held at the largest value of w bits (saturating counters). -/
def satAdd (w a b : Nat) : Nat := min (a + b) (2 ^ w - 1)

/-- The signed value of the low w bits of n. -/
def sext (w n : Nat) : Int := let m := n % 2 ^ w; if m ≥ 2 ^ (w - 1) then (m : Int) - 2 ^ w else m

/-! ### Parts of the state -/

abbrev Res := Host.Outcome State Fault Refusal

def State.core (s : State) (c : Nat) : Core := sget {} s.cores c
def State.setCore (s : State) (c : Nat) (k : Core) : State := { s with cores := sput {} c k s.cores }
def State.pod (s : State) (p : Nat) : Pod := sget {} s.pods p
def State.setPod (s : State) (p : Nat) (k : Pod) : State := { s with pods := sput {} p k s.pods }
def State.vd (s : State) (v : Nat) : Vd := sget {} s.vds v
def State.setVd (s : State) (v : Nat) (k : Vd) : State := { s with vds := sput {} v k s.vds }
def State.ctx (s : State) (c : Nat) : Ctx := sget {} s.que.ctxs c
def State.setCtx (s : State) (c : Nat) (k : Ctx) : State :=
  { s with que := { s.que with ctxs := sput {} c k s.que.ctxs } }
def State.timeline (s : State) (t : Nat) : Timeline := sget {} s.que.tls t
def State.setTimeline (s : State) (t : Nat) (k : Timeline) : State :=
  { s with que := { s.que with tls := sput {} t k s.que.tls } }
def State.obj (s : State) (i : Nat) : Obj := sget {} s.que.objs i
def State.setObj (s : State) (i : Nat) (k : Obj) : State :=
  { s with que := { s.que with objs := sput {} i k s.que.objs } }
def State.cmd (s : State) (q : Nat) : Cmd := sget {} s.que.cmds q
def State.setCmd (s : State) (q : Nat) (k : Cmd) : State :=
  { s with que := { s.que with cmds := sput {} q k s.que.cmds } }
def State.pair (s : State) (q : Nat) : QueuePair := sget {} s.que.pairs q
def State.setPair (s : State) (q : Nat) (k : QueuePair) : State :=
  { s with que := { s.que with pairs := sput {} q k s.que.pairs } }
def State.port (s : State) (p : Nat) : HostPort := sget {} s.host.ports p
def State.setPort (s : State) (p : Nat) (k : HostPort) : State :=
  { s with host := { s.host with ports := sput {} p k s.host.ports } }
def State.vf (s : State) (p n : Nat) : Vf := sget {} (s.port p).vfs n
def State.setVf (s : State) (p n : Nat) (k : Vf) : State :=
  s.setPort p { s.port p with vfs := sput {} n k (s.port p).vfs }

/-- What a read command returns: one word. -/
def State.reply (s : State) (l : List DWord) : State := { s with rdata := l }

/-- The next free value, `w` bits wide, and the state past it. -/
def State.takeFree (s : State) (w : Nat) : BitVec w × State :=
  (Config.free s.freeCount w, { s with freeCount := s.freeCount + 1 })

/-- Toll periods of 1,024,000 ns (R27, R28). -/
def tollPeriod : Nat := 1024000

/-- Milliseconds in toll counts. -/
def ms (n : Nat) : Nat := n * 1000000

/-! ### The register file -/

/-- The RW fields of the register at a PF BAR0 address, as last written. -/
def State.reg (s : State) (a : Nat) : Nat :=
  match sget none s.glb.val a with
  | some v => v.toNat
  | none => regReset a

/-- The value in force: for a register that takes effect at a toll boundary, the one the last boundary took. -/
def State.regEff (s : State) (a : Nat) : Nat :=
  match sget none s.glb.eff a with
  | some v => v.toNat
  | none => regReset a

/-- Set a register's RW fields. -/
def State.setReg (s : State) (a v : Nat) : State :=
  { s with glb := { s.glb with val := sput none a (some (BitVec.ofNat 64 v)) s.glb.val } }

/-- A field of a register value. -/
def State.regField (s : State) (a hi lo : Nat) : Nat := bitsOf (s.reg a) hi lo
def State.effField (s : State) (a hi lo : Nat) : Nat := bitsOf (s.regEff a) hi lo

/-! ### Numbering (R13) -/

/-- The half of a core: 4,096 cores to a half. -/
def coreHalf (c : Nat) : Nat := c / 4096

/-- Device row of a core, 0 to 127: N rows then S rows (R146). -/
def coreRow (c : Nat) : Nat := c / 64

/-- Column of a core. -/
def coreCol (c : Nat) : Nat := c % 64

/-- The core at a device row and column. -/
def coreAt (row col : Nat) : Nat := row * 64 + col

/-- Global pod of a core: eight pod columns, pod rows of eight core rows. -/
def corePod (c : Nat) : Nat := coreRow c / 8 * 8 + coreCol c / 8

/-- The cores of a pod, row by row. -/
def podCores (p : Nat) : List Nat :=
  (List.range 64).map fun i => coreAt (p / 8 * 8 + i / 8) (p % 8 * 8 + i % 8)

/-- The half of a pod. -/
def podHalf (p : Nat) : Nat := p / 64

/-- The pods bound to a VD on this device, in rising number. -/
def State.podsOf (s : State) (v : Nat) : List Nat :=
  if v = 0 then [] else (s.pods.filter fun e => e.2.vd = v).map Prod.fst

/-- The cores running a context of the VD, in rising number. -/
def State.coresOf (s : State) (v : Nat) : List Nat :=
  (s.cores.filter fun e => e.2.running && e.2.vd = v).map Prod.fst

/-- Does the VD span the seam (R136)? -/
def State.spans (s : State) (v : Nat) : Bool :=
  (s.podsOf v).any (fun p => podHalf p = 0) && (s.podsOf v).any fun p => podHalf p = 1

/-! ### MSI-X (R258–R260) -/

/-- Function numbers of the model: 0 PF A, 1 PF B, then the VFs of port A and of port B. -/
def vfFn (port n : Nat) : Nat := 2 + 128 * port + (n - 1)

/-- The port of a function. -/
def fnPort (f : Nat) : Nat := if f < 2 then f else (f - 2) / 128

/-- The VF number of a function, 0 for a PF. -/
def fnVf (f : Nat) : Nat := if f < 2 then 0 else (f - 2) % 128 + 1

/-- A word of a function's MSI-X table; the mask bit of an entry's control word is set at reset (PCIe). -/
def State.msixWord (s : State) (f w : Nat) : Word :=
  match sget none s.host.msixTab (8192 * f + w) with
  | some v => v
  | none => if w % 4 = 3 then 1#32 else 0#32

/-- MSI-X Enable of a function. -/
def State.msixEnabled (s : State) (f : Nat) : Bool :=
  if f < 2 then (s.port f).msixEn else (s.vf (fnPort f) (fnVf f)).msixEn

/-- Raise a vector of a function: sent, or pending while it is masked or MSI-X is disabled (assumption 5). -/
def State.raise (s : State) (f v : Nat) : State :=
  if s.msixEnabled f && !((s.msixWord f (4 * v + 3)).getLsbD 0) then
    { s with host := { s.host with sent := (f, v) :: s.host.sent } }
  else { s with host := { s.host with pba := sput false (2048 * f + v) true s.host.pba } }

/-- Raise a device-level vector on every active PF (R258). -/
def State.raisePfs (s : State) (v : Nat) : State :=
  if s.host.single then s.raise 0 v else (s.raise 0 v).raise 1 v

/-- Raise a vector of a VD's VF, only while its TDI is in RUN (R259). -/
def State.raiseVd (s : State) (vd v : Nat) : State :=
  match (s.vd vd).vf with
  | none => s
  | some (p, n) => if (s.vf p n).tdi = .run then s.raise (vfFn p n) v else s

/-! ### NME (R260, R465) -/

/-- Bits of GLB_NMECAUSE (R464). -/
def nmeFatal : Nat := 0
def nmeL5Loop : Nat := 1
def nmePgLoss : Nat := 2
def nmeThermTrip : Nat := 3
def nmeSecHang : Nat := 4
def nmeSpareFail : Nat := 14

/-- Latch NME causes: vector 0 for each new bit, and the first cause and its time when none was set. -/
def State.nme (s : State) (bits : BitVec 15) : State :=
  let new := bits &&& ~~~s.glb.nme
  let g := { s.glb with nme := s.glb.nme ||| bits }
  let g := if s.glb.nme = 0#15 ∧ bits ≠ 0#15 then
      { g with nmeValid := true, nmeBit := (lowestKey (fun i => bits.getLsbD i) 15 0).getD 0, nmeTime := s.toll }
    else g
  let s := { s with glb := g }
  if new = 0#15 then s else s.raisePfs 0

/-- One NME cause. -/
def State.nmeOne (s : State) (i : Nat) : State := s.nme (1#15 <<< i)

/-! ### Errors (R439–R446) -/

/-- UNIT codes of R442. -/
def uCore : Nat := 1
def uDrumline : Nat := 2
def uSeedbank : Nat := 3
def uStore : Nat := 4
def uFabric : Nat := 5
def uHbm : Nat := 6
def uMpe : Nat := 7
def uHbmctl : Nat := 8
def uXlt : Nat := 9
def uQueue : Nat := 10
def uHost : Nat := 11
def uFinwin : Nat := 12
def uBinder : Nat := 13
def uSched : Nat := 14
def uSecurity : Nat := 15
def uClock : Nat := 16
def uToll : Nat := 17
def uRequest : Nat := 18

/-- Severities of R439. -/
def sevCorrected : Nat := 0
def sevDeferred : Nat := 1
def sevContained : Nat := 2
def sevFatal : Nat := 3

/-- ACTION codes of R441. -/
def actNone : Nat := 0
def actUnit : Nat := 7
def actPoison : Nat := 8
def actRetire : Nat := 9

/-- What a rule that logs an error supplies: the record's fields and the VD record's detail. -/
structure ErrArgs where
  unit : Nat
  index : Nat
  sev : Nat
  vd : Nat := 0
  status : Nat := 0
  action : Nat := 0
  info : BitVec 128 := 0#128
  det : VdDetail := {}
  deriving DecidableEq, Repr

/-- Slots that hold unconsumed records, from `tail` up to `head` in a ring of `n`. -/
def unconsumed (n tail head : Nat) : List Nat :=
  (List.range ((head + n - tail) % n)).map fun i => (tail + i) % n

/-- Does an error coalesce into a record (R440)? -/
def ErrArgs.matchesRec (a : ErrArgs) (r : ErrRec) : Bool :=
  r.unit = a.unit && r.index = a.index && r.sev = a.sev && r.vd = a.vd && r.status = a.status && r.action = a.action

/-- Write or coalesce a record in the error ring (R440). -/
def State.ringPut (s : State) (a : ErrArgs) : State :=
  let r := s.rst
  match (unconsumed 512 r.tail r.head).find? fun i => a.matchesRec (sget {} r.ring i) with
  | some i =>
    let e := sget {} r.ring i
    { s with rst := { r with ring := sput {} i { e with count := satAdd 32 e.count 1, tlast := s.toll } r.ring } }
  | none =>
    if (r.head + 1) % 512 = r.tail then
      { s with rst := { r with lost := satAdd 26 r.lost 1, maxSev := max r.maxSev a.sev } }
    else
      let e : ErrRec := { unit := a.unit, sev := a.sev, status := a.status, action := a.action, count := 1,
                          tfirst := s.toll, tlast := s.toll, vd := a.vd, seq := r.seq, index := a.index,
                          info := if a.vd = 0 then a.info else 0#128 }
      let s := { s with rst := { r with ring := sput {} r.head e r.ring, head := (r.head + 1) % 512,
                                        seq := (r.seq + 1) % 65536 } }
      if a.sev = sevFatal then s else s.raisePfs 1

/-- Write or coalesce the VD's own record (R443). -/
def State.vdRingPut (s : State) (a : ErrArgs) : State :=
  let v := s.vd a.vd
  match (unconsumed 64 v.errTail v.errHead).find? fun i =>
      let e := (sget {} v.ring i : VdErrRec)
      ({ a with index := a.det.index } : ErrArgs).matchesRec e.base with
  | some i =>
    let e := (sget {} v.ring i : VdErrRec)
    let e' := { e with base := { e.base with count := satAdd 32 e.base.count 1, tlast := s.toll } }
    s.setVd a.vd { v with ring := sput {} i e' v.ring }
  | none =>
    if (v.errHead + 1) % 64 = v.errTail then s.setVd a.vd { v with errLost := satAdd 32 v.errLost 1 }
    else
      let e : VdErrRec :=
        { base := { unit := a.unit, sev := a.sev, status := a.status, action := a.action, count := 1,
                    tfirst := s.toll, tlast := s.toll, vd := a.vd, seq := v.errSeq, index := a.det.index },
          det := a.det }
      (s.setVd a.vd { v with ring := sput {} v.errHead e v.ring, errHead := (v.errHead + 1) % 64,
                             errSeq := (v.errSeq + 1) % 65536 }).raiseVd a.vd 0

/-- Both records of an error, without its recovery. -/
def State.record (s : State) (a : ErrArgs) : State :=
  let s := s.ringPut a
  if a.sev > sevCorrected ∧ a.vd ≠ 0 then s.vdRingPut a else s

/-- The halves a recovery domain touches; both for one with no half. -/
def State.domHalves (s : State) : RecDom → List Nat
  | .ctx vd _ => ((s.podsOf vd).map podHalf).dedup
  | .vd v => ((s.podsOf v).map podHalf).dedup
  | .half h => [h]
  | _ => [0, 1]

/-- Does domain a cover domain b (R444)? -/
def State.covers (s : State) (a b : RecDom) : Bool :=
  a = b ||
  match a, b with
  | .vd v, .ctx v' _ => v = v'
  | .half h, .vd _ => s.domHalves b = [h]
  | .half h, .ctx _ _ => s.domHalves b = [h]
  | .compute, .half _ => true
  | .compute, .vd _ => true
  | .compute, .ctx _ _ => true
  | _, _ => false

/-- Is an error in a recovery's domain: its unit lies there, or its record names the context or VD (R445)? -/
def State.inDomain (s : State) (d : RecDom) (a : ErrArgs) : Bool :=
  let podIn (p : Nat → Bool) : Bool := (a.unit = uCore || a.unit = uDrumline) && p a.index
  match d with
  | .ctx v c => a.vd = v && a.det.ctx = some c
  | .vd v => (v ≠ 0 && a.vd = v) || podIn fun p => (s.pod p).vd = v && v ≠ 0
  | .half h => podIn fun p => podHalf p = h
  | .compute => podIn fun _ => true
  | .store n => a.unit = uStore && a.index = n
  | .hbmctl n => a.unit = uHbmctl && a.index = n
  | .fwport n => a.unit = uFinwin && a.index = n

/-- The recovery an escalation turns a recovery into; `none` is L5 (R445). -/
def State.escalated (s : State) (r : Recovery) : Option Recovery :=
  match r.dom with
  | .ctx v _ => some { r with level := 2, dom := .vd v, start := s.toll, hang := false, performed := false }
  | .vd v => match s.domHalves (.vd v) with
    | [h] => some { r with level := 3, dom := .half h, start := s.toll, hang := false, performed := false }
    | _ => some { r with level := 4, dom := .compute, start := s.toll, hang := false, performed := false }
  | .half _ => some { r with level := 4, dom := .compute, start := s.toll, hang := false, performed := false }
  | _ => none

/-- An L5 is due: it includes every recovery running or waiting (R444, R446). -/
def State.dueL5 (s : State) (c : L5Cause) (unit : Nat) : State :=
  { s with rst := { s.rst with l5Due := some (c, unit), running := none, waiting := [] } }

/-- Replace recovery `old` by its escalation, with its new record (R445). -/
def State.escalate (s : State) (old : Recovery) : State :=
  match s.escalated old with
  | none => (s.record { unit := old.unit, index := old.index, sev := sevContained, vd := old.vd, action := 5 }).dueL5
              .escalation old.unit
  | some r =>
    let s := s.record { unit := r.unit, index := r.index, sev := sevContained, vd := r.vd, action := r.level }
    if s.rst.running = some old then { s with rst := { s.rst with running := some r } }
    else { s with rst := { s.rst with waiting := s.rst.waiting.map fun x => if x = old then r else x } }

/-- The single recovery that replaces a full queue and the new one; `none` is L5 (R444). -/
def State.coverAll (s : State) (l : List Recovery) (r : Recovery) : Option Recovery :=
  if l.all fun x => x.level ≤ 2 && s.domHalves x.dom = [0] then some { r with level := 3, dom := .half 0 }
  else if l.all fun x => x.level ≤ 2 && s.domHalves x.dom = [1] then some { r with level := 3, dom := .half 1 }
  else if l.all fun x => x.level ≤ 3 then some { r with level := 4, dom := .compute }
  else none

/-- The domain-down key of a unit domain (R433). -/
def downKey : RecDom → Option Nat
  | .store d => some d
  | .hbmctl n => some (8 + n)
  | .fwport p => some (16 + p)
  | _ => none

/-- Queue a recovery: merged into one that covers it, started when none runs, or waiting (R444). A unit domain goes
down at once (R434). -/
def State.addRecovery (s : State) (r : Recovery) : State :=
  let s := match downKey r.dom with
    | some k => { s with rst := { s.rst with down := sput false k true s.rst.down } }
    | none => s
  match s.rst.running with
  | none => { s with rst := { s.rst with running := some r } }
  | some run =>
    if s.covers run.dom r.dom ∨ s.rst.waiting.any (fun w => s.covers w.dom r.dom) then s
    else if s.rst.waiting.length < 32 then { s with rst := { s.rst with waiting := s.rst.waiting ++ [r] } }
    else match s.coverAll (r :: s.rst.waiting) r with
      | some c =>
        let s := s.record { unit := r.unit, index := r.index, sev := sevContained, action := c.level }
        { s with rst := { s.rst with waiting := [c] } }
      | none => (s.record { unit := r.unit, index := r.index, sev := sevContained, action := 5 }).dueL5
                  .escalation r.unit

/-- Log an error: its records, the escalation a second CONTAINED error causes, and an L5 for a DEVICE-FATAL one; one found
during start-up starts no L5 and stops the start-up (R492). -/
def State.logErr (s : State) (a : ErrArgs) : State :=
  let s := s.record a
  if a.sev = sevFatal then
    let s := s.nmeOne nmeFatal
    if s.glb.stage = .run ∨ s.glb.stage = .warm then s.dueL5 .fatal a.unit
    else { s with rst := { s.rst with bootStop := true } }
  else if a.sev = sevContained then
    match (s.rst.running.toList ++ s.rst.waiting).find? fun r => s.inDomain r.dom a with
    | some r => s.escalate r
    | none => s
  else s

/-- Log a CONTAINED error whose ACTION is a recovery, and queue that recovery (R444, R445). -/
def State.logRecovery (s : State) (a : ErrArgs) (level : Nat) (dom : RecDom) (hang : Bool) : State :=
  let s := s.logErr { a with sev := sevContained, action := if level = 6 then actUnit else level }
  match s.rst.l5Due with
  | some _ => s
  | none => s.addRecovery { level := level, dom := dom, unit := a.unit, index := a.index, vd := a.vd,
                            start := s.toll, hang := hang }

end Sys2Proof.Machine
end

