-- ==== Sys2Proof/Machine/Flags.lean ====
section
/-!
DEFINITION. What an instruction leaves beside its result: the numeric event counters (R50, R119, R120), the times at
which results become valid (R74, R96), the advance of pc and slot (R71, R73), and the raising of an exception (R85,
R499).  The H9 has no condition flags; these are its flag computations.
-/
namespace Sys2Proof.Machine

/-- The wall beat of the slot the back end executes next, counted since exec (R96). -/
def Core.wall (k : Core) : Nat := k.slot + k.heldTotal

/-! ### Numeric event counters -/

/-- Add events to counters, each saturating at 0xFFFF_FFFF (R119). -/
def Events.accumulate (a b : Events) : Events :=
  { elemSat := satAdd 32 a.elemSat b.elemSat, ovfInf := satAdd 32 a.ovfInf b.ovfInf,
    nanOut := satAdd 32 a.nanOut b.nanOut, specBlk := satAdd 32 a.specBlk b.specBlk,
    sclFloor := satAdd 32 a.sclFloor b.sclFloor, intSat := satAdd 32 a.intSat b.intSat,
    badTrit := satAdd 32 a.badTrit b.badTrit, chime := satAdd 32 a.chime b.chime,
    escal := satAdd 32 a.escal b.escal }

/-- Counter i, in CSR order from 0x100 (R119). -/
def Events.counter (e : Events) (i : Nat) : Nat := e.toList.getD i 0

/-- Set counter i to a value (CSRW, R119). -/
def Events.setCounter (e : Events) (i v : Nat) : Events :=
  match i with
  | 0 => { e with elemSat := v } | 1 => { e with ovfInf := v } | 2 => { e with nanOut := v }
  | 3 => { e with specBlk := v } | 4 => { e with sclFloor := v } | 5 => { e with intSat := v }
  | 6 => { e with badTrit := v } | 7 => { e with chime := v } | 8 => { e with escal := v }
  | _ => e

/-- Counts whose latency beat has come move into the counters (R120). -/
def Core.settle (k : Core) : Core :=
  { k with cnt := (k.cntPend.filter fun p => p.1 ≤ k.wall).foldl (fun e p => e.accumulate p.2) k.cnt,
           cntPend := k.cntPend.filter fun p => !(p.1 ≤ k.wall) }

/-- Every pending count moves into the counters: units have finished (R122). -/
def Core.settleAll (k : Core) : Core :=
  { k with cnt := k.cntPend.foldl (fun e p => e.accumulate p.2) k.cnt, cntPend := [] }

/-- Count an instruction's events at its latency beat (R120). -/
def Core.count (k : Core) (lat : Nat) (e : Events) : Core :=
  if e = {} then k else { k with cntPend := k.cntPend ++ [(k.wall + lat, e)] }

/-- Count router events in the beat of the addition (R134). -/
def Core.countNow (k : Core) (e : Events) : Core := { k with cnt := k.cnt.accumulate e }

/-! ### Validity of results and use of units -/

/-- Execution units of R95. -/
def unitTensor : Nat := 0
def unitConvert : Nat := 1
def unitVector : Nat := 2
def unitPocket : Nat := 3
def unitCsr : Nat := 4

/-- A unit is busy for the occupancy of an instruction (R96). -/
def Core.occupy (k : Core) (u occ : Nat) : Core :=
  let macs := if u = unitTensor then (k.wall, k.wall + occ) :: k.macs.filter (fun m => k.wall ≤ m.2 + 256) else k.macs
  { k with unitFree := sput 0 u (k.wall + occ) k.unitFree, macs := macs }

/-- A scalar register becomes valid after a latency (R74). -/
def Core.validSAt (k : Core) (r lat : Nat) : Core := { k with validS := sput 0 r (k.wall + lat) k.validS }
/-- A vector register becomes valid after a latency (R121). -/
def Core.validVAt (k : Core) (r lat : Nat) : Core := { k with validV := sput 0 r (k.wall + lat) k.validV }
/-- A mask register becomes valid after a latency (R121). -/
def Core.validMAt (k : Core) (r lat : Nat) : Core := { k with validM := sput 0 r (k.wall + lat) k.validM }
/-- A tile is in use for some beats; `chain` names the accumulation format of an MMA, 0 otherwise (R104, R121). -/
def Core.useTile (k : Core) (t beats chain : Nat) : Core :=
  { k with tileUse := sput 0 t (k.wall + beats) k.tileUse, tileChain := sput 0 t chain k.tileChain }

/-! ### The advance of pc -/

/-- Loop-back processing when the word at `pc` completes, from the innermost live entry outwards (R71): the next pc
and the loop stack. -/
def loopAdvance (pc : Nat) : List LoopEnt → Nat × List LoopEnt
  | [] => (pc + 8, [])
  | e :: l =>
    if e.last = pc then
      if e.count > 1 then (e.first, { e with count := e.count - 1 } :: l) else loopAdvance pc l
    else (pc + 8, e :: l)

/-- The exception of execution past 0x7FF8 (R64). -/
def fetchPast (slot : Nat) : Exc :=
  { cause := .fetchRange, pc := 0x8000, info := 0x8000, instr := 0#64, slot := slot }

/-- The slots of one instruction pass and its word completes (R71, R73). -/
def Core.retireN (k : Core) (n : Nat) : Core :=
  let a := loopAdvance k.pc k.loops
  let k := { k with pc := a.1, loops := a.2, slot := k.slot + n, lead := k.lead.drop n }
  if k.pc ≥ 0x8000 then { k with exc := some (fetchPast k.slot) } else k

/-- One slot passes and its word completes. -/
def Core.retire (k : Core) : Core := k.retireN 1

/-- The word of the instruction at pc: the fetched word at the head of the lead queue, else the stored word. -/
def Core.instrWord (k : Core) : DWord :=
  match k.lead with
  | .word pc w :: _ => if pc = k.pc then w else sget 0#64 k.istore (k.pc / 8)
  | _ => sget 0#64 k.istore (k.pc / 8)

/-! ### Exceptions -/

/-- Raise an exception at the instruction's own slot: it does not execute (R85, R499). -/
def Core.fault (k : Core) (c : Cause) (info : Nat) : Core :=
  { k with exc := some { cause := c, pc := k.pc, info := info, instr := k.instrWord, slot := k.slot } }

/-- Code of R85. -/
def Cause.code : Cause → Nat
  | .illegalInstr => 1 | .operandShape => 2 | .pocketRange => 3 | .fetchRange => 4 | .loopDepth => 5
  | .storeRange => 6 | .poisonConsumed => 7 | .timelineSlot => 8 | .timelinePoisoned => 9 | .break_ => 10
  | .transferTargetReset => 11

/-- Exec completion status of R85. -/
def Cause.status : Cause → Nat
  | .storeRange => 0x21 | .timelineSlot => 0x21 | .poisonConsumed => 0x31 | .timelinePoisoned => 0x40
  | .transferTargetReset => 0x70 | _ => 0x7F

/-- The first slot of a VD that does not execute, while a hold is in force or requested (R76). -/
def State.holdSlot (s : State) (vd : Nat) : Option Nat := (s.vd vd).holds.head?.map (·.slot)

/-- Is a hold of the VD in effect (R76)? -/
def State.held (s : State) (vd : Nat) : Bool := (s.vd vd).holds.head?.any (·.eff)

/-- The router has nothing to do: an idle table and no datum on its way (R128). -/
def Core.quietRouter (k : Core) : Bool := k.table.isEmpty && k.skid.isEmpty && k.link.isEmpty && k.rwrite.isNone

/-- May a context's cores still execute this slot, while it is stopping (R86, R89)? -/
def Ctx.allows (x : Ctx) (slot : Nat) : Bool :=
  match x.stop with
  | .none => true
  | .boundary m => slot < m
  | .exception => x.exc.any fun e => slot < e.2.1.slot + 12
  | _ => false

/-- The back end of a core can execute its next slot: a context runs and allows it, the core has not halted or stopped,
no exception takes effect at that slot or before, no ISLD is still copying (R65), no hold stops it, and its router, unless idle, has stepped the same
beat (assumption 10). -/
def State.canIssue (s : State) (c : Nat) : Bool :=
  let k := s.core c
  k.running && !k.halted && !k.stopped && k.isld.isNone && k.exc.all (fun e => k.slot < e.slot) &&
    (s.holdSlot k.vd).all (fun h => k.slot < h) && (s.ctx k.ctx).allows k.slot &&
    (k.quietRouter || k.slot < k.rbeat)

/-- An instruction of core `c`: its effect where the back end can execute it, no change otherwise (assumption 6). -/
def issue (c : Nat) (s : State) (r : Core → State) : Res :=
  .next (if s.canIssue c then r (s.core c) else s)

/-- The common case: the effect is on the core alone. -/
def issueCore (c : Nat) (s : State) (f : Core → Core) : Res := issue c s fun k => s.setCore c (f k)

end Sys2Proof.Machine
end

