-- ==== Sys2Proof/Machine/Operands.lean ====
section
/-!
DEFINITION. Operand forms of the core: scalar, vector, mask and tile operands (R56, R58), effective addresses and
pocket accesses with their checks (R61, R63, R499), the ordering windows of R121, and operand descriptors (R100).
-/
namespace Sys2Proof.Machine

/-! ### Registers -/

/-- Scalar register; s0 reads as zero (R56). -/
def Core.getS (k : Core) (r : Nat) : Word := if r = 0 then 0#32 else sget 0#32 k.s r
/-- Write a scalar register; a write to s0 is discarded (R56). -/
def Core.setS (k : Core) (r : Nat) (v : Word) : Core := if r = 0 then k else { k with s := sput 0#32 r v k.s }
/-- The value of a register pair: low half in sn (R58). -/
def Core.getPair (k : Core) (n : Nat) : DWord := (k.getS (n + 1)) ++ (k.getS n)
/-- Write a register pair (R58). -/
def Core.setPair (k : Core) (n : Nat) (v : DWord) : Core :=
  (k.setS n (v.setWidth 32)).setS (n + 1) ((v >>> 32).setWidth 32)
/-- A register pair must be even and between 2 and 30 (R58). -/
def pairOk (n : Nat) : Bool := n % 2 = 0 && 2 ≤ n && n ≤ 30

/-- Mask register; m0 reads as all ones (R56). -/
def Core.getM (k : Core) (r : Nat) : DWord := if r = 0 then BitVec.allOnes 64 else sget 0#64 k.m r
/-- Write a mask register; a write to m0 is discarded (R56). -/
def Core.setM (k : Core) (r : Nat) (v : DWord) : Core := if r = 0 then k else { k with m := sput 0#64 r v k.m }

/-- Vector register. -/
def Core.getV (k : Core) (r : Nat) : VReg := sget 0#2048 k.v r
def Core.setV (k : Core) (r : Nat) (v : VReg) : Core := { k with v := sput 0#2048 r v k.v }
/-- Lane i of a vector register, bits [32i+31:32i] (R56). -/
def lane (v : VReg) (i : Nat) : Word := BitVec.ofNat 32 (v.toNat / 2 ^ (32 * i))
/-- The 64 lanes. -/
def lanes (v : VReg) : List Word := (List.range 64).map (lane v)
/-- A vector register from its lanes, lane 0 lowest. -/
def ofLanes : List Word → VReg
  | [] => 0#2048
  | w :: l => BitVec.ofNat 2048 (w.toNat + 2 ^ 32 * (ofLanes l).toNat)
/-- Lane by lane: the new value where the mask bit is 1, the previous elsewhere (R113). -/
def mergeLanes (mask : DWord) (new old : List Word) : List Word :=
  (List.range 64).map fun i => if mask.getLsbD i then new.getD i 0#32 else old.getD i 0#32

/-- Accumulator element (R56). -/
def Core.getAcc (k : Core) (t row col : Nat) : Word := sget 0#32 k.acc (2048 * t + 64 * row + col)
/-- A row of a tile. -/
def Core.accRow (k : Core) (t row : Nat) : List Word := (List.range 64).map (k.getAcc t row)
/-- Write words to a tile from element e on, row-major. -/
def accPut (m : SMap Word) (t : Nat) : Nat → List Word → SMap Word
  | _, [] => m
  | e, w :: l => accPut (sput 0#32 (2048 * t + e) w m) t (e + 1) l
/-- Write a row of a tile. -/
def Core.setAccRow (k : Core) (t row : Nat) (ws : List Word) : Core :=
  { k with acc := accPut k.acc t (64 * row) ws }
/-- Set a tile's type: INT32 or FP32 (R59). -/
def Core.setAccType (k : Core) (t : Nat) (int : Bool) : Core :=
  { k with accInt := if int then k.accInt ||| (1#4 <<< t) else k.accInt &&& ~~~(1#4 <<< t) }

/-! ### Pocket accesses -/

/-- Effective address: register plus signed immediate, modulo 2^32 (R61). -/
def effAddr (base imm : Word) : Nat := (base + imm).toNat

/-- R61: a pocket access of `len` bytes with an alignment; the lowest address that breaks the rule, if any. -/
def pocketBad (a len al : Nat) : Option Nat :=
  if a + len > 0x20000 ∨ a % al ≠ 0 then some a else none

/-- The lines, by number, that a run of bytes touches. -/
def linesOf (a len : Nat) : List Nat :=
  if len = 0 then [] else (List.range ((a + len - 1) / 64 - a / 64 + 1)).map fun i => a / 64 + i

/-- The first poisoned line among some lines, taken in the order given. -/
def Core.firstPoison (k : Core) (ls : List Nat) : Option Nat := ls.find? fun l => sget false k.poison l

/-- The lowest poisoned line. -/
def Core.lowPoison (k : Core) (ls : List Nat) : Option Nat :=
  (ls.filter fun l => sget false k.poison l).foldl (fun b l => match b with | none => some l | some x => some (min x l)) none

/-- The addresses of a span's runs. -/
def Span.runs (sp : Span) : List (Nat × Nat) := (List.range sp.rows).map fun i => (sp.base + i * sp.stride, sp.len)

/-- Do two byte ranges meet? -/
def rangesMeet (a n b m : Nat) : Bool := a < b + m && b < a + n

/-- Does a span meet a byte range? -/
def Span.meets (sp : Span) (a n : Nat) : Bool := sp.runs.any fun r => rangesMeet r.1 r.2 a n

/-- Lines a span touches. -/
def Span.lines (sp : Span) : List Nat := (sp.runs.map fun r => linesOf r.1 r.2).flatten

/-- Drop windows that have ended (R121). -/
def Core.liveHazards (k : Core) : List Hazard := k.hazards.filter fun h => k.slot < h.untilSlot || k.slot < h.resUntil

/-- Is byte a still being written by a CVT or ACCST (R121)? -/
def Core.unready (k : Core) (a : Nat) : Bool :=
  k.hazards.any fun h => k.slot < h.resUntil && h.writes.any fun sp => sp.meets a 1

/-- Read pocket bytes; a byte still being written reads as a free value (R121). `n` is the free counter. -/
def Core.readPocket (k : Core) (n a len : Nat) : List Byte × Nat :=
  if (List.range len).any (fun i => k.unready (a + i)) then
    ((List.range len).map fun i => if k.unready (a + i) then Config.free (n + i) 8 else readByte k.pocket (a + i),
     n + len)
  else (readBytes k.pocket a len, n)

/-- Bytes of a span become free values. -/
def freeSpan (m : Mem) (n : Nat) (sp : Span) : Mem × Nat :=
  sp.runs.foldl (fun (m, n) r =>
    (writeBytes m r.1 ((List.range r.2).map fun i => Config.free (n + i) 8), n + r.2)) (m, n)

/-- Every result of an instruction whose operands were overwritten too early becomes a free value (R121). -/
def Core.spoil (k : Core) (n : Nat) (h : Hazard) : Core × Nat :=
  let acc := h.tiles.foldl (fun (m, n) t =>
    (accPut m t 0 ((List.range 2048).map fun i => Config.free (n + i) 32), n + 2048)) (k.acc, n)
  let p := h.writes.foldl (fun (m, n) sp => freeSpan m n sp) (k.pocket, acc.2)
  ({ k with acc := acc.1, pocket := p.1 }, p.2)

/-- A write of `len` bytes at a spoils every instruction still reading a byte of it (R121). -/
def Core.breakHazards (k : Core) (n a len : Nat) : Core × Nat :=
  (k.hazards.filter fun h => k.slot < h.untilSlot && h.reads.any fun sp => sp.meets a len).foldl
    (fun (k, n) h => k.spoil n h) (k, n)

/-- Write pocket bytes at a; lines wholly covered by this one write lose their poison (R63). -/
def Core.writePocket (k : Core) (n a : Nat) (bs : List Byte) : Core × Nat :=
  let r := k.breakHazards n a bs.length
  let full := (linesOf a bs.length).filter fun l => a ≤ 64 * l && 64 * l + 64 ≤ a + bs.length
  ({ r.1 with pocket := writeBytes r.1.pocket a bs,
              poison := full.foldl (fun p l => sput false l false p) r.1.poison }, r.2)

/-- Write one whole line with its poison: a router receive or an SBLD line (R63, R82, R132). -/
def Core.writePocketLine (k : Core) (n l : Nat) (d : BitVec 512) (poison : Bool) : Core × Nat :=
  let r := k.breakHazards n (64 * l) 64
  ({ r.1 with pocket := writeLine r.1.pocket (64 * l) d, poison := sput false l poison r.1.poison }, r.2)

/-- Put a core back with the free counter its accesses reached. -/
def State.putCore (s : State) (c : Nat) (k : Core × Nat) : State :=
  { s.setCore c k.1 with freeCount := k.2 }

/-! ### Operand descriptors (R100) -/

/-- A descriptor as read: element address and step, scale address and step. -/
structure Desc where
  el : Nat
  elRow : Nat
  sc : Nat
  scRow : Nat
  deriving DecidableEq, Repr

/-- The 32-bit word at a pocket address. -/
def Core.pword (k : Core) (a : Nat) : Nat := readLE k.pocket a 4

/-- The descriptor at a pocket address. -/
def Core.desc (k : Core) (a : Nat) : Desc :=
  { el := k.pword a % 2 ^ 17, elRow := k.pword (a + 4) % 2 ^ 17, sc := k.pword (a + 8) % 2 ^ 17,
    scRow := k.pword (a + 12) % 2 ^ 17 }

/-- A check that failed: the exception and its INFO (R499). -/
abbrev Fail := Option (Cause × Nat)

/-- The first failure of a list of checks. -/
def firstFail : List Fail → Fail
  | [] => none
  | none :: l => firstFail l
  | some f :: _ => some f

/-- Fail with a cause and INFO when a condition does not hold. -/
def need (b : Bool) (c : Cause) (info : Nat) : Fail := if b then none else some (c, info)

/-- Alignment and range of a descriptor itself (R100, R499 rule 3). -/
def descPlace (a len al : Nat) : Fail := need (a % al = 0 && a + len ≤ 0x20000) .pocketRange a

/-- "Must be 0" bits [31:17] of the four words of an operand descriptor (R100). -/
def Core.descZero (k : Core) (a : Nat) : Fail :=
  firstFail ([0, 4, 8, 12].map fun o => need (k.pword (a + o) < 2 ^ 17) .operandShape (a + o))

/-- Even SC and SCROW of a T3 operand (R100). -/
def Core.descT3 (k : Core) (a : Nat) (t3 : Bool) : Fail :=
  if t3 then firstFail ([8, 12].map fun o => need (k.pword (a + o) % 2 = 0) .pocketRange (a + o)) else none

/-- The range rule over operands in order: of the first operand that breaks it, the lowest address of a run of bytes
that passes the end of the pocket (R499 rule 4). -/
def spansBad (ops : List (List Span)) : Fail :=
  firstFail (ops.map fun sps =>
    match (sps.map Span.runs).flatten.filter fun r => r.2 > 0 && r.1 + r.2 > 0x20000 with
    | [] => none
    | l => some (.pocketRange, l.foldl (fun b r => min b r.1) (2 ^ 40)))

/-- Poison over the lines of some spans (R499 rule 6). -/
def Core.spansPoison (k : Core) (sps : List Span) : Fail :=
  match k.lowPoison (sps.map Span.lines).flatten with
  | some l => some (.poisonConsumed, 64 * l)
  | none => none

/-- Element bytes of `n` elements of a format, whole bytes that hold an element (R35, R36). -/
def Fmt.bytesOf (f : Fmt) (n : Nat) : Nat := if f = .t3 then (n / 64) * 13 + (n % 64 + 4) / 5 else (n * f.bits + 7) / 8

/-- Scale bytes per block (R37). -/
def Fmt.scaleBytes (f : Fmt) : Nat := if f = .t3 then 2 else 1

/-- The spans of an operand of `rows` × `n` elements, with scales when present. -/
def Desc.spans (d : Desc) (f : Fmt) (scaled : Bool) (rows n : Nat) : List Span :=
  { base := d.el, stride := d.elRow, rows := rows, len := f.bytesOf n } ::
  (if scaled then [{ base := d.sc, stride := d.scRow, rows := rows, len := f.scaleBytes * (n / 32) }] else [])

/-- Code (or trit digit) of element i of row r, read from a pocket image. -/
def elemAt (m : Mem) (d : Desc) (f : Fmt) (r i : Nat) : Nat :=
  let b := d.el + r * d.elRow
  if f = .t3 then tritDigit (readByte m (b + i / 64 * 13 + i % 64 / 5)).toNat (i % 64 % 5)
  else
    let bit := i * f.bits
    (readLE m (b + bit / 8) ((f.bits + 7) / 8 + 1)) / 2 ^ (bit % 8) % 2 ^ f.bits

/-- Scale of block kb of row r. -/
def scaleAt (m : Mem) (d : Desc) (f : Fmt) (scaled : Bool) (r kb : Nat) : Scale :=
  if !scaled then .unit
  else if f = .t3 then .fp16 (readLE m (d.sc + r * d.scRow + 2 * kb) 2)
  else .e8m0 (readByte m (d.sc + r * d.scRow + kb)).toNat

/-- The exact scaled value of an element (R38, R48). -/
def elemValue (f : Fmt) (code : Nat) (sc : Scale) : FV := dequant f code sc

end Sys2Proof.Machine
end

