-- ==== Sys2Proof/Machine/CoreScalar.lean ====
section
/-!
DEFINITION. System, scalar and control instructions of OP 0x00 to 0x03 (spec/03 R60, R69–R72).
-/
namespace Sys2Proof.Machine

/-- NOP: one slot (R69). -/
def execNop (c : Nat) (s : State) : Res := issueCore c s Core.retire

/-- WAITB imm: imm slots, 1 to 4,096 (R69, R73); any other value is an excluded field (R67). -/
def execWaitb (c : Nat) (imm : Word) (s : State) : Res :=
  issueCore c s fun k =>
    if 1 ≤ imm.toNat ∧ imm.toNat ≤ 4096 then { k.retireN imm.toNat with waitWord := some (k.pc, k.instrWord) } else k.fault .illegalInstr 0

/-- HALT: the core issues no further instruction; its router keeps stepping (R72). -/
def execHalt (c : Nat) (s : State) : Res := issueCore c s fun k => { k.retire with halted := true }

/-- BRK imm: BREAK, with the immediate in INFO (R69, R87). -/
def execBrk (c : Nat) (imm : Word) (s : State) : Res := issueCore c s fun k => k.fault .break_ imm.toNat

/-! ### CSRs (R60, R119) -/

/-- Tags of outstanding transfers, bit t for tag t (XFERPEND). -/
def Core.pendTags (k : Core) : Nat :=
  (List.range 16).foldl (fun a t => if k.xfers.any (fun x => x.tag = t) then a + 2 ^ t else a) 0

/-- Measures completed and the beat within the measure (R127). -/
def Core.measure (k : Core) : Nat := k.slot / k.mlen
def Core.beat (k : Core) : Nat := k.slot % k.mlen

/-- The value a CSR reads, `none` for an address the table does not list. `toll` is the toll count. -/
def Core.csrValue (k : Core) (toll a : Nat) : Option Word :=
  match a with
  | 0x000 => some (BitVec.ofNat 32 k.shapeCore)
  | 0x001 => some (BitVec.ofNat 32 k.shapePods)
  | 0x002 => some (BitVec.ofNat 32 k.ctx)
  | 0x010 => some k.srcnt
  | 0x011 => some k.rseed
  | 0x020 => some (BitVec.ofNat 32 ((k.mlen - 1) * 65536 + k.beat))
  | 0x021 => some (BitVec.ofNat 32 k.measure)
  | 0x022 => some (BitVec.ofNat 32 (k.measure / 2 ^ 32))
  | 0x030 => some (BitVec.ofNat 32 (k.rollWin * 8192))
  | 0x031 => some (BitVec.ofNat 32 k.level)
  | 0x040 => some (BitVec.ofNat 32 k.pendTags)
  | 0x050 => some (BitVec.ofNat 32 k.holdReq)
  | 0x051 => some (BitVec.ofNat 32 k.holdBeats)
  | 0x060 => some (BitVec.ofNat 32 toll)
  | 0x061 => some (k.tollHi.getD (BitVec.ofNat 32 (toll / 2 ^ 32)))
  | _ => if 0x100 ≤ a ∧ a ≤ 0x108 then some (BitVec.ofNat 32 (k.settle.cnt.counter (a - 0x100))) else none

/-- Write a CSR; `none` for a read-only or unlisted address. Reserved bits are ignored (R60). -/
def Core.csrWrite (k : Core) (a : Nat) (v : Word) : Option Core :=
  match a with
  | 0x010 => some { k with srcnt := v }
  | 0x030 => some { k with rollWin := bitsOf v.toNat 16 13 }
  | _ =>
    if 0x100 ≤ a ∧ a ≤ 0x108 then
      let k := k.settle
      some { k with cnt := k.cnt.setCounter (a - 0x100) v.toNat }
    else none

/-- Reading TOLLLO latches TOLLHI (R60). -/
def Core.latchToll (k : Core) (toll a : Nat) : Core :=
  if a = 0x060 then { k with tollHi := some (BitVec.ofNat 32 (toll / 2 ^ 32)) } else k

/-- CSRR rd, imm: the CSR at imm[11:0] into rd, valid two beats later (R60, R74). -/
def execCsrr (c : Nat) (rd : Nat) (imm : Word) (s : State) : Res :=
  issueCore c s fun k =>
    match k.csrValue s.toll imm.toNat with
    | none => k.fault .illegalInstr 0
    | some v => ((((k.latchToll s.toll imm.toNat).setS rd v).validSAt rd 2).occupy unitCsr 1).retire

/-- CSRW rs1, imm: rs1 into the CSR at imm[11:0] (R60). -/
def execCsrw (c : Nat) (rs1 : Nat) (imm : Word) (s : State) : Res :=
  issueCore c s fun k =>
    match k.csrWrite imm.toNat (k.getS rs1) with
    | none => k.fault .illegalInstr 0
    | some k => (k.occupy unitCsr 1).retire

/-! ### Scalar ALU (R69, R70) -/

/-- The result of an operation; `sel` takes the third operand. -/
def aluResult (op : AluOp) (a b d : Word) : Word :=
  match op with
  | .add => a + b
  | .sub => a - b
  | .and => a &&& b
  | .or => a ||| b
  | .xor => a ^^^ b
  | .sll => a <<< (b.toNat % 32)
  | .srl => a >>> (b.toNat % 32)
  | .sra => a.sshiftRight (b.toNat % 32)
  | .slt => if a.toInt < b.toInt then 1#32 else 0#32
  | .sltu => if a.toNat < b.toNat then 1#32 else 0#32
  | .min => if a.toInt ≤ b.toInt then a else b
  | .max => if a.toInt ≤ b.toInt then b else a
  | .minu => if a.toNat ≤ b.toNat then a else b
  | .maxu => if a.toNat ≤ b.toNat then b else a
  | .mul => a * b
  | .mulh => BitVec.ofInt 32 (a.toInt * b.toInt / 2 ^ 32)
  | .mulhu => BitVec.ofNat 32 (a.toNat * b.toNat / 2 ^ 32)
  | .sel => if d = 0#32 then b else a

/-- Operations with an immediate form (R69). -/
def aluHasImm : AluOp → Bool
  | .sub | .mulh | .mulhu | .sel => false
  | _ => true

/-- Is the operation an immediate shift, whose count must be 0 to 31 (R67)? -/
def aluIsShift : AluOp → Bool
  | .sll | .srl | .sra => true
  | _ => false

/-- OP 0x01: rd = rs1 op rs2; SEL tests rs3. -/
def execScalarAlu (c : Nat) (op : AluOp) (rd rs1 rs2 rs3 : Nat) (s : State) : Res :=
  issueCore c s fun k => (k.setS rd (aluResult op (k.getS rs1) (k.getS rs2) (k.getS rs3))).retire

/-- OP 0x02: rd = rs1 op imm; a shift count outside 0 to 31, or an operation with no immediate form, is an excluded
word (R67, R69). -/
def execScalarAluImmediate (c : Nat) (op : AluOp) (rd rs1 : Nat) (imm : Word) (s : State) : Res :=
  issueCore c s fun k =>
    if aluHasImm op ∧ (aluIsShift op → imm.toNat ≤ 31) then (k.setS rd (aluResult op (k.getS rs1) imm 0#32)).retire
    else k.fault .illegalInstr 0

/-! ### Branches, jumps and loops (R64, R69, R71) -/

/-- Does a branch's comparison hold? -/
def condHolds (cd : Cond) (a b : Word) : Bool :=
  match cd with
  | .eq => a = b
  | .ne => a ≠ b
  | .lt => a.toInt < b.toInt
  | .ge => b.toInt ≤ a.toInt
  | .ltu => a.toNat < b.toNat
  | .geu => b.toNat ≤ a.toNat

/-- Is an address in a loop's body? -/
def LoopEnt.has (e : LoopEnt) (a : Nat) : Bool := e.first ≤ a && a ≤ e.last

/-- Does the word at address `l` start a loop whose body, not live, holds the target (R71)? -/
def Core.deadBody (k : Core) (l : Nat) (w : DWord) (target : Nat) : Bool :=
  let off := sext 32 w.toNat
  bitsOf w.toNat 63 58 = 3 && bitsOf w.toNat 57 50 = 0x0A && off ≥ 8 &&
    l + 8 ≤ target && (target : Int) ≤ l + off &&
    !k.loops.any fun e => e.first = l + 8 && (e.last : Int) = l + off

/-- A taken branch or jump leaves a live body, or enters a body that is not live (R71). -/
def Core.depthBad (k : Core) (target : Nat) : Bool :=
  (k.loops.any fun e => e.has k.pc && !e.has target) ||
  k.istore.any fun e => k.deadBody (8 * e.1) e.2 target && !(8 * e.1 + 8 ≤ k.pc && k.deadBody (8 * e.1) e.2 k.pc)

/-- A taken branch, jump or skipped LOOP: its checks, then pc at the target and one empty slot; the front end fetches
from there (R64, R71). `k` is the core with the link register already written. -/
def Core.jump (k0 k : Core) (target : Nat) : Core :=
  if target % 8 ≠ 0 ∨ target > 0x7FF8 then k0.fault .fetchRange target
  else if k0.depthBad target then k0.fault .loopDepth target
  else { k with pc := target, slot := k.slot + 2, lead := k.lead.drop 2, waitWord := none }

/-- BEQ to BGEU: a branch that is not taken raises nothing and costs nothing more than its slot. -/
def execBranch (c : Nat) (cond : Cond) (rs1 rs2 : Nat) (off : Word) (s : State) : Res :=
  issueCore c s fun k =>
    if off.toNat % 8 ≠ 0 then k.fault .illegalInstr 0
    else if condHolds cond (k.getS rs1) (k.getS rs2) then k.jump k (BitVec.ofNat 32 k.pc + off).toNat
    else k.retire

/-- JAL rd, imm: rd = pc + 8, pc = pc + imm. -/
def execJal (c : Nat) (rd : Nat) (imm : Word) (s : State) : Res :=
  issueCore c s fun k =>
    k.jump (k.setS rd (BitVec.ofNat 32 (k.pc + 8))) (BitVec.ofNat 32 k.pc + imm).toNat

/-- JALR rd, rs1, imm: t = rs1 + imm, rd = pc + 8, pc = t. -/
def execJalr (c : Nat) (rd rs1 : Nat) (imm : Word) (s : State) : Res :=
  issueCore c s fun k =>
    k.jump (k.setS rd (BitVec.ofNat 32 (k.pc + 8))) (k.getS rs1 + imm).toNat

/-- LOOP rs1, off: a count of 0 skips the body as a taken branch does; a fifth live loop raises LOOP_DEPTH (R71). -/
def execLoop (c : Nat) (rs1 : Nat) (off : Word) (s : State) : Res :=
  issueCore c s fun k =>
    if off.toNat % 8 ≠ 0 ∨ off.toInt < 8 then k.fault .illegalInstr 0
    else if k.getS rs1 = 0#32 then k.jump k (k.pc + off.toNat + 8)
    else if k.loops.length ≥ 4 then k.fault .loopDepth 0
    else
      let e : LoopEnt := { first := k.pc + 8, last := k.pc + off.toNat, count := (k.getS rs1).toNat }
      let k := { k with loops := e :: k.loops, pc := k.pc + 8, slot := k.slot + 1, lead := k.lead.drop 1 }
      if k.pc ≥ 0x8000 then { k with exc := some (fetchPast k.slot) } else k

end Sys2Proof.Machine
end

