-- ==== Sys2Proof/Machine/CorePocket.lean ====
section
/-!
DEFINITION. Pocket access, OP 0x04 (spec/03 R61, R63, R69, R74; spec/04 R121, R123).
-/
namespace Sys2Proof.Machine

/-- Bytes of a scalar load and whether it sign-extends (R69). -/
def loadShape : LoadKind → Nat × Bool
  | .ldb => (1, true) | .ldbu => (1, false) | .ldh => (2, true) | .ldhu => (2, false) | .ldw => (4, false)

/-- Bytes of a scalar store (R69). -/
def storeBytes : StoreKind → Nat
  | .stb => 1 | .sth => 2 | .stw => 4

/-- A pocket access's checks: range and alignment, then poison of the lines it reads (R499 rules 4 and 6). -/
def Core.accessFail (k : Core) (a len al : Nat) (reads : List Nat) : Fail :=
  match pocketBad a len al with
  | some x => some (.pocketRange, x)
  | none => match k.lowPoison reads with
    | some l => some (.poisonConsumed, 64 * l)
    | none => none

/-- Extend a loaded number of n bytes to 32 bits. -/
def extendLoad (n : Nat) (signed : Bool) (v : Nat) : Word :=
  if signed then BitVec.ofInt 32 (sext (8 * n) v) else BitVec.ofNat 32 v

/-- LDB to LDW: rd is valid four beats later (R74). -/
def execScalarLoad (c : Nat) (k : LoadKind) (rd rs1 : Nat) (imm : Word) (s : State) : Res :=
  issue c s fun co =>
    let a := effAddr (co.getS rs1) imm
    let n := (loadShape k).1
    match co.accessFail a n n (linesOf a n) with
    | some (x, i) => s.setCore c (co.fault x i)
    | none =>
      let r := co.readPocket s.freeCount a n
      let v := extendLoad n (loadShape k).2 (leNat r.1)
      s.putCore c ((((co.setS rd v).validSAt rd 4).occupy unitPocket 1).retire, r.2)

/-- STB to STW: the low bytes of sd. -/
def execScalarStore (c : Nat) (k : StoreKind) (sd rs1 : Nat) (imm : Word) (s : State) : Res :=
  issue c s fun co =>
    let a := effAddr (co.getS rs1) imm
    let n := storeBytes k
    match co.accessFail a n n [] with
    | some (x, i) => s.setCore c (co.fault x i)
    | none =>
      let r := co.writePocket s.freeCount a (leBytes n (co.getS sd).toNat)
      s.putCore c ((r.1.occupy unitPocket 1).retire, r.2)

/-- Lines of a 256-byte access in which some lane is enabled, 16 lanes to a line (R63). -/
def maskedLines (a : Nat) (mask : DWord) : List Nat :=
  ([0, 1, 2, 3].filter fun q => (List.range 16).any fun i => mask.getLsbD (16 * q + i)).map fun q => a / 64 + q

/-- Words of a byte list, little-endian. -/
def bytesToWords : List Byte → List Word
  | b0 :: b1 :: b2 :: b3 :: l => BitVec.ofNat 32 (leNat [b0, b1, b2, b3]) :: bytesToWords l
  | _ => []

/-- Bytes of words, little-endian. -/
def wordsToBytes (ws : List Word) : List Byte := (ws.map fun w => leBytes 4 w.toNat).flatten

/-- VLD: lanes whose mask bit is 0 keep their value and are not read (R63, R69). -/
def execVld (c : Nat) (vd rs1 mk : Nat) (imm : Word) (s : State) : Res :=
  issue c s fun co =>
    let a := effAddr (co.getS rs1) imm
    let mask := co.getM mk
    match co.accessFail a 256 256 (maskedLines a mask) with
    | some (x, i) => s.setCore c (co.fault x i)
    | none =>
      let r := co.readPocket s.freeCount a 256
      let v := ofLanes (mergeLanes mask (bytesToWords r.1) (lanes (co.getV vd)))
      s.putCore c ((((co.setV vd v).validVAt vd 4).occupy unitPocket 1).retire, r.2)

/-- Store the enabled lanes of a 256-byte access, as one write: a line all of whose lanes are enabled loses its
poison (R63). -/
def Core.storeLanes (k : Core) (n a : Nat) (mask : DWord) (ws : List Word) : Core × Nat :=
  let en := (List.range 64).filter fun i => mask.getLsbD i
  let r := en.foldl (fun (kn : Core × Nat) i => kn.1.breakHazards kn.2 (a + 4 * i) 4) (k, n)
  let pocket := en.foldl (fun m i => writeLE m (a + 4 * i) 4 (ws.getD i 0#32).toNat) r.1.pocket
  let full := [0, 1, 2, 3].filter fun q => (List.range 16).all fun i => mask.getLsbD (16 * q + i)
  ({ r.1 with pocket := pocket, poison := full.foldl (fun p q => sput false (a / 64 + q) false p) r.1.poison }, r.2)

/-- VST: lanes whose mask bit is 0 are not stored (R63, R69). -/
def execVst (c : Nat) (vd rs1 mk : Nat) (imm : Word) (s : State) : Res :=
  issue c s fun co =>
    let a := effAddr (co.getS rs1) imm
    match co.accessFail a 256 256 [] with
    | some (x, i) => s.setCore c (co.fault x i)
    | none =>
      let r := co.storeLanes s.freeCount a (co.getM mk) (lanes (co.getV vd))
      s.putCore c ((r.1.occupy unitPocket 1).retire, r.2)

/-- ACCLD: 8,192 bytes row-major into a tile, and the tile's type (R59, R69). -/
def execAccld (c : Nat) (acc rs1 : Nat) (ty : Bool) (imm : Word) (s : State) : Res :=
  issue c s fun co =>
    let a := effAddr (co.getS rs1) imm
    match co.accessFail a 8192 256 (linesOf a 8192) with
    | some (x, i) => s.setCore c (co.fault x i)
    | none =>
      let r := co.readPocket s.freeCount a 8192
      let co := { co with acc := accPut co.acc acc 0 (bytesToWords r.1) }
      s.putCore c ((((co.setAccType acc ty).useTile acc 34 0).occupy unitPocket 32).retire, r.2)

/-- ACCST: a tile to 8,192 bytes; nothing may read them before the latency beat (R69, R121). -/
def execAccst (c : Nat) (acc rs1 : Nat) (imm : Word) (s : State) : Res :=
  issue c s fun co =>
    let a := effAddr (co.getS rs1) imm
    match co.accessFail a 8192 256 [] with
    | some (x, i) => s.setCore c (co.fault x i)
    | none =>
      let ws := ((List.range 32).map fun r => co.accRow acc r).flatten
      let r := co.writePocket s.freeCount a (wordsToBytes ws)
      let h : Hazard := { untilSlot := 0, reads := [], resUntil := co.slot + 33,
                          writes := [{ base := a, stride := 0, rows := 1, len := 8192 }], tiles := [] }
      let co := { r.1 with hazards := h :: r.1.liveHazards }
      s.putCore c (((co.useTile acc 32 0).occupy unitPocket 32).retire, r.2)

end Sys2Proof.Machine
end

