-- ==== Sys2Proof/Machine/CoreTensor.lean ====
section
/-!
DEFINITION. Tensor, quantise and convert instructions, OP 0x20 to 0x22 (spec/04 R99–R112, R121; spec/02 R47–R55).
-/
namespace Sys2Proof.Machine

/-! ### Exact group sums (R48) -/

/-- The sum of a group onto an accumulator: NaN seen, an infinity of each sign seen, an invalid product seen, the exact
finite sum, and whether every zero term so far is negative. -/
structure Group where
  nan : Bool := false
  pinf : Bool := false
  ninf : Bool := false
  bad : Bool := false
  sum : Int × Int := (0, 0)
  negZero : Bool := true
  deriving DecidableEq, Repr

/-- Add one exact term; `none` is Inf × 0. -/
def Group.add (g : Group) (t : Option FV) : Group :=
  match t with
  | none => { g with bad := true }
  | some .nan => { g with nan := true }
  | some (.inf true) => { g with ninf := true }
  | some (.inf false) => { g with pinf := true }
  | some (.fin n m e) =>
    { g with sum := if m = 0 then g.sum else dyAdd g.sum (signed n m, e), negZero := g.negZero && n }

/-- The accumulator after a group, rounded once to FP32 (R48). -/
def Group.round (g : Group) : Word × Events :=
  if g.nan then (nan32, {})
  else if g.bad || (g.pinf && g.ninf) then nanOut
  else if g.pinf then (inf32 false, {})
  else if g.ninf then (inf32 true, {})
  else intTo32 g.negZero g.sum

/-- One group onto an FP32 accumulator. -/
def accGroup (x : Word) (ts : List (Option FV)) : Word × Events :=
  (ts.foldl Group.add (({} : Group).add (some (fv32 x)))).round

/-- Groups in increasing order of k (R49), `fuel` of them, g products each. -/
def accGroups (g : Nat) : Nat → Word × Events → List (Option FV) → Word × Events
  | 0, x, _ => x
  | fuel + 1, x, ts =>
    let r := accGroup x.1 (ts.take g)
    accGroups g fuel (r.1, x.2.add r.2) (ts.drop g)

/-- An event counted at most once per output element (R103). -/
def onceEach (e : Events) : Events := { ovfInf := min 1 e.ovfInf, nanOut := min 1 e.nanOut, intSat := min 1 e.intSat }

/-- The signed integer of an INT8 value. -/
def fvInt : FV → Int
  | .fin n m e => signed n (m * 2 ^ e.toNat)
  | _ => 0

/-- INT32 saturation (R48). -/
def sat32 (v : Int) : Int × Bool :=
  if v > 2147483647 then (2147483647, true) else if v < -2147483648 then (-2147483648, true) else (v, false)

/-- Groups of 32 integer products onto an INT32 accumulator, saturating at each addition. -/
def intGroups : Nat → Int × Bool → List Int → Int × Bool
  | 0, x, _ => x
  | fuel + 1, x, ts =>
    let r := sat32 (x.1 + (ts.take 32).sum)
    intGroups fuel (r.1, x.2 || r.2) (ts.drop 32)

/-! ### Format pairs (R101) -/

/-- What a format pair fixes: INT32 accumulation, output rows, MACs per cycle, group size. -/
structure PairShape where
  int : Bool
  rows : Nat
  macs : Nat
  group : Nat
  deriving DecidableEq, Repr

/-- The table of R101; `none` is any other pair. -/
def pairShape (fa fb : Fmt) : Option PairShape :=
  let small (f : Fmt) : Bool := f = .int2 || f = .t3
  let four (f : Fmt) : Bool := f.isChime
  let wide (f : Fmt) : Bool := f = .e4m3 || f = .e5m2 || f = .e3m2 || f = .e2m3 || f = .int8
  let inBlk (f : Fmt) : Bool := four f || wide f
  if fa = .fp32 ∧ fb = .fp32 then some ⟨false, 32, 64, 1⟩
  else if (fa = .bf16 ∧ fb = .bf16) ∨ (fa = .fp16 ∧ fb = .fp16) then some ⟨false, 32, 256, 8⟩
  else if fa = .int8 ∧ fb = .int8 then some ⟨true, 32, 1024, 32⟩
  else if inBlk fa ∧ inBlk fb then
    if wide fa ∨ wide fb then some ⟨false, 32, 1024, 32⟩
    else if small fa ∧ small fb then some ⟨false, 64, 4096, 32⟩
    else some ⟨false, 32, 2048, 32⟩
  else none

/-- A decoded MMA or MMAE word. -/
structure MmaDec where
  fa : Fmt
  fb : Fmt
  sh : PairShape
  sa : Bool
  sb : Bool
  init : Bool
  acc : Nat
  deriving DecidableEq, Repr

/-- Decode rules of R99, R101, R102; `none` raises ILLEGAL_INSTR. -/
def mmaDecode (x : XFields) (esc : Bool) : Option MmaDec :=
  match Fmt.ofCode x.f1, Fmt.ofCode x.f2 with
  | some fa, some fb =>
    let sa := bitOf x.mod 3
    let sb := bitOf x.mod 4
    match pairShape fa fb with
    | some sh =>
      if x.mod < 32 ∧ fa.scaleBitOk sa ∧ fb.scaleBitOk sb ∧ (esc ∨ x.d = 0) ∧ (sh.rows = 32 ∨ x.mod % 2 = 0) then
        some { fa := fa, fb := fb, sh := sh, sa := sa, sb := sb, init := bitOf x.mod 2, acc := x.mod % 4 }
      else none
    | none => none
  | _, _ => none

/-- The tile and row of output row i. -/
def MmaDec.tileRow (d : MmaDec) (i : Nat) : Nat × Nat := (d.acc + i / 32, i % 32)

/-- The tiles an MMA names. -/
def MmaDec.tiles (d : MmaDec) : List Nat := if d.sh.rows = 64 then [d.acc, d.acc + 1] else [d.acc]

/-- Does the type of every named tile match the accumulator format (R59, R102)? -/
def Core.typesOk (k : Core) (d : MmaDec) : Bool := d.init || d.tiles.all fun t => k.accInt.getLsbD t = d.sh.int

/-! ### Escalation (R105, R106) -/

/-- One side of an escalation descriptor. -/
structure EscSide where
  on : Bool
  mask : Nat
  maskRow : Nat
  b0 : Nat
  shd : Desc
  deriving DecidableEq, Repr

/-- The side at offset o of the descriptor at address a. -/
def Core.escSide (k : Core) (a o : Nat) : EscSide :=
  { on := bitOf (k.pword (a + o + 8)) 16, mask := k.pword (a + o) % 2 ^ 17, maskRow := k.pword (a + o + 4) % 2 ^ 17,
    b0 := k.pword (a + o + 8) % 2 ^ 16, shd := k.desc (a + o + 16) }

/-- No escalation. -/
def EscSide.off : EscSide := { on := false, mask := 0, maskRow := 0, b0 := 0, shd := ⟨0, 0, 0, 0⟩ }

/-- Checks of one side, in the order of R499: must-be-0 fields and the format rule, then mask alignment. -/
def Core.escShape (k : Core) (a o : Nat) (f : Fmt) : Fail :=
  let on := bitOf (k.pword (a + o + 8)) 16
  let z (off : Nat) : Fail := need (k.pword (a + o + off) < 2 ^ 17) .operandShape (a + o + off)
  firstFail [
    if on then z 0 else none, if on then z 4 else none, z 8,
    need (!on || f.isChime) .operandShape (a + o + 8),
    need (k.pword (a + o + 12) = 0) .operandShape (a + o + 12),
    if on then k.descZero (a + o + 16) else none]

/-- Mask addresses must be multiples of 4 (R105). -/
def Core.escAlign (k : Core) (a o : Nat) : Fail :=
  let on := bitOf (k.pword (a + o + 8)) 16
  firstFail [
    need (!on || k.pword (a + o) % 4 = 0) .pocketRange (a + o),
    need (!on || k.pword (a + o + 4) % 4 = 0) .pocketRange (a + o + 4)]

/-- The mask bit of a row and local block (R105). -/
def EscSide.bit (e : EscSide) (m : Mem) (row kb : Nat) : Bool :=
  e.on && bitOf (readLE m (e.mask + row * e.maskRow + 4 * ((e.b0 + kb) / 32)) 4) ((e.b0 + kb) % 32)

/-- The mask words of n rows and kn / 32 blocks. -/
def EscSide.maskSpan (e : EscSide) (rows kn : Nat) : List Span :=
  if e.on then [{ base := e.mask + 4 * (e.b0 / 32), stride := e.maskRow, rows := rows,
                  len := 4 * ((e.b0 + kn / 32 - 1) / 32 - e.b0 / 32 + 1) }] else []

/-- The shadow it could read. -/
def EscSide.shdSpans (e : EscSide) (rows kn : Nat) : List Span :=
  if e.on then e.shd.spans .e4m3 true rows kn else []

/-- The shadow it does read: the blocks its masks mark. -/
def EscSide.shdRead (e : EscSide) (m : Mem) (rows kn : Nat) : List Span :=
  if e.on then
    ((List.range rows).map fun r => ((List.range (kn / 32)).filter fun kb => e.bit m r kb).map fun kb =>
      [({ base := e.shd.el + r * e.shd.elRow + 32 * kb, stride := 0, rows := 1, len := 32 } : Span),
       { base := e.shd.sc + r * e.shd.scRow + kb, stride := 0, rows := 1, len := 1 }]).flatten.flatten
  else []

/-- The exact values of row r of an operand, escalated block by block (R55). -/
def rowValues (m : Mem) (d : Desc) (f : Fmt) (scaled : Bool) (e : EscSide) (r kn : Nat) : List FV :=
  (List.range kn).map fun i =>
    if e.bit m r (i / 32) then elemValue .e4m3 (elemAt m e.shd .e4m3 r i) (scaleAt m e.shd .e4m3 true r (i / 32))
    else elemValue f (elemAt m d f r i) (scaleAt m d f scaled r (i / 32))

/-- The number of escalated block products (R106). -/
def escCount (m : Mem) (ea eb : EscSide) (rows kn : Nat) : Nat :=
  ((List.range (kn / 32)).map fun kb =>
    let ma := ((List.range rows).filter fun i => ea.bit m i kb).length
    let mb := ((List.range 64).filter fun j => eb.bit m j kb).length
    rows * 64 - (rows - ma) * (64 - mb)).sum

/-- Addresses of the T3 bytes of an operand that hold element trits (R35, R103). -/
def tritBytes (d : Desc) (f : Fmt) (rows kn : Nat) : List Nat :=
  if f = .t3 then
    ((List.range rows).map fun r => (List.range (Fmt.t3.bytesOf kn)).map fun i => d.el + r * d.elRow + i).flatten
  else []

/-- Distinct bytes of 243–255 among some addresses. -/
def badTritCount (m : Mem) (as : List Nat) : Nat := (as.dedup.filter fun a => (readByte m a).toNat ≥ 243).length

/-- Occupancy of MMAE (R106): ceil(32·(P − e)/r + e/32) with P block products at r MACs per cycle. -/
def mmaeOccupancy (sh : PairShape) (kn e : Nat) : Nat :=
  let p := sh.rows * 64 * kn / 32
  (1024 * (p - e) + e * sh.macs + 32 * sh.macs - 1) / (32 * sh.macs)

/-- Bytes still being written by an earlier CVT or ACCST are free values in the operands that use them (R121). -/
def Core.readyImage (k : Core) (n : Nat) (sps : List Span) : Mem × Nat :=
  ((k.hazards.filter fun h => k.slot < h.resUntil).map (·.writes)).flatten.foldl (fun (mn : Mem × Nat) w =>
    if sps.any fun sp => sp.runs.any fun r => w.meets r.1 r.2 then freeSpan mn.1 mn.2 w else mn) (k.pocket, n)

/-- Every output element of an MMA (R103): the new tile contents and the events. -/
def mmaCompute (k : Core) (d : MmaDec) (av bv : List (List FV)) (kn : Nat) : List (Nat × Nat × List Word) × Events :=
  let rs := (List.range d.sh.rows).map fun i =>
    let tr := d.tileRow i
    let ai := av.getD i []
    let row := (List.range 64).map fun j =>
      let x := if d.init then 0#32 else k.getAcc tr.1 tr.2 j
      let bj := bv.getD j []
      if d.sh.int then
        let r := intGroups (kn / 32) (x.toInt, false) (List.zipWith (fun a b => fvInt a * fvInt b) ai bj)
        (BitVec.ofInt 32 r.1, ({ intSat := b2n r.2 } : Events))
      else
        let r := accGroups d.sh.group (kn / d.sh.group) (x, {}) (List.zipWith fvMul ai bj)
        (r.1, onceEach r.2)
    (tr.1, tr.2, row.map (·.1), Events.sum (row.map (·.2)))
  (rs.map fun r => (r.1, r.2.1, r.2.2.1), Events.sum (rs.map fun r => r.2.2.2))

/-- Checks of MMA and MMAE after decode, in the order of R499. -/
def Core.mmaFail (k : Core) (d : MmaDec) (x : XFields) (esc : Bool) : Fail :=
  let da := (k.getS x.a).toNat
  let db := (k.getS x.b).toNat
  let kn := (k.getS x.c).toNat
  let de := (k.getS x.d).toNat
  let ea := if esc then k.escSide de 0 else EscSide.off
  let eb := if esc then k.escSide de 32 else EscSide.off
  let a := k.desc da
  let b := k.desc db
  let here (p l : Nat) : Span := { base := p, stride := 0, rows := 1, len := l }
  firstFail [
    need (kn % 32 = 0 && 32 ≤ kn && kn ≤ 16384) .operandShape 0,
    need (k.typesOk d) .operandShape 0,
    descPlace da 16 16, k.descZero da, k.descT3 da (d.fa = .t3),
    descPlace db 16 16, k.descZero db, k.descT3 db (d.fb = .t3),
    if esc then descPlace de 64 64 else none,
    if esc then k.escShape de 0 d.fa else none,
    if esc then k.escShape de 32 d.fb else none,
    if esc then k.escAlign de 0 else none,
    if esc then k.escAlign de 32 else none,
    spansBad [a.spans d.fa d.sa d.sh.rows kn, b.spans d.fb d.sb 64 kn, ea.maskSpan d.sh.rows kn,
              ea.shdSpans d.sh.rows kn, eb.maskSpan 64 kn, eb.shdSpans 64 kn],
    k.spansPoison ([here da 16, here db 16] ++ (if esc then [here de 64] else []) ++
      a.spans d.fa d.sa d.sh.rows kn ++ b.spans d.fb d.sb 64 kn ++
      ea.maskSpan d.sh.rows kn ++ eb.maskSpan 64 kn ++
      ea.shdRead k.pocket d.sh.rows kn ++ eb.shdRead k.pocket 64 kn)]

/-- The effect of MMA and MMAE whose checks pass. -/
def Core.mmaRun (k : Core) (n : Nat) (d : MmaDec) (x : XFields) (esc : Bool) : Core × Nat :=
  let a := k.desc (k.getS x.a).toNat
  let b := k.desc (k.getS x.b).toNat
  let kn := (k.getS x.c).toNat
  let de := (k.getS x.d).toNat
  let ea := if esc then k.escSide de 0 else EscSide.off
  let eb := if esc then k.escSide de 32 else EscSide.off
  let reads := a.spans d.fa d.sa d.sh.rows kn ++ b.spans d.fb d.sb 64 kn ++ ea.maskSpan d.sh.rows kn ++
    ea.shdSpans d.sh.rows kn ++ eb.maskSpan 64 kn ++ eb.shdSpans 64 kn
  let im := k.readyImage n reads
  let m := im.1
  let av := (List.range d.sh.rows).map fun r => rowValues m a d.fa d.sa ea r kn
  let bv := (List.range 64).map fun r => rowValues m b d.fb d.sb eb r kn
  let r := mmaCompute k d av bv kn
  let e := escCount m ea eb d.sh.rows kn
  let bad := badTritCount m (tritBytes a d.fa d.sh.rows kn ++ tritBytes b d.fb 64 kn)
  let occ := mmaeOccupancy d.sh kn e
  let bound := if esc then d.sh.rows * 64 * kn / 1024 else occ
  let h : Hazard := { untilSlot := k.slot + bound, reads := reads, resUntil := 0, writes := [], tiles := d.tiles }
  let k1 := r.1.foldl (fun (k : Core) t => k.setAccRow t.1 t.2.1 t.2.2) k
  let k2 := if d.init then d.tiles.foldl (fun (k : Core) t => k.setAccType t d.sh.int) k1 else k1
  let k3 := d.tiles.foldl (fun (k : Core) t => k.useTile t (occ + 10) (if d.sh.int then 2 else 1)) k2
  let k4 := (k3.count (occ + 10) ((r.2.add { badTrit := bad }).add { escal := e })).occupy unitTensor occ
  let k5 := { k4 with hazards := h :: k4.liveHazards,
                      mmaeKnown := if esc then k4.wall + 4 + (kn + 511) / 512 else k4.mmaeKnown }
  (k5.retire, im.2)

/-- MMA and MMAE: decode, checks, effect. -/
def mmaStep (c : Nat) (x : XFields) (esc : Bool) (s : State) : Res :=
  issue c s fun k =>
    match mmaDecode x esc with
    | none => s.setCore c (k.fault .illegalInstr 0)
    | some d =>
      match k.mmaFail d x esc with
      | some (cs, i) => s.setCore c (k.fault cs i)
      | none => s.putCore c (k.mmaRun s.freeCount d x esc)

/-- MMA: t += A × Bᵀ (R101–R104). -/
def execMma (c : Nat) (x : XFields) (s : State) : Res := mmaStep c x false s

/-- MMAE: as MMA with the blocks its masks mark taken from the shadows (R105, R106). -/
def execMmae (c : Nat) (x : XFields) (s : State) : Res := mmaStep c x true s

/-! ### CVT (R107–R111) -/

/-- A decoded CVT word. -/
structure CvtDec where
  fs : Fmt
  fd : Fmt
  dsc : Bool
  ssc : Bool
  acc : Nat
  srcacc : Bool
  scalein : Bool
  shadow : Bool
  mask : Bool
  t : Nat
  sat : Bool
  sr : Bool
  deriving DecidableEq, Repr

/-- Decode rules of R99 and R107. -/
def cvtDecode (x : XFields) : Option CvtDec :=
  match Fmt.ofCode x.f1, Fmt.ofCode x.f2 with
  | some fs, some fd =>
    let d : CvtDec :=
      { fs := fs, fd := fd, dsc := bitOf x.mod 17, ssc := bitOf x.mod 16, acc := bitsOf x.mod 15 14,
        srcacc := bitOf x.mod 13, scalein := bitOf x.mod 12, shadow := bitOf x.mod 11, mask := bitOf x.mod 10,
        t := bitsOf x.mod 9 2, sat := bitOf x.mod 1, sr := bitOf x.mod 0 }
    if x.mod < 2 ^ 18 ∧ x.b = 0 ∧ x.c = 0 ∧ x.d = 0 ∧ fs.scaleBitOk d.ssc ∧ fd.scaleBitOk d.dsc ∧
       (d.srcacc ∨ d.acc = 0) ∧ (d.srcacc → fs = .fp32 ∧ d.ssc = false) ∧
       (d.mask ∨ d.shadow → fd.isChime) ∧ (d.t ≠ 0 → d.mask) ∧ (d.scalein → d.dsc) then some d else none
  | _, _ => none

/-- Rows and block index of a convert descriptor (R107). -/
def Core.cvtRows (k : Core) (a : Nat) : Nat := bitsOf (k.pword (a + 0x38)) 21 16
def Core.cvtBlk (k : Core) (a : Nat) : Nat := k.pword (a + 0x38) % 2 ^ 16

/-- A 64-element chunk of `rows` rows of a destination or shadow, at block blk (R108). -/
def Desc.chunk (d : Desc) (f : Fmt) (scaled : Bool) (rows blk : Nat) : List Span :=
  { base := d.el + f.bytesOf (32 * blk), stride := d.elRow, rows := rows, len := f.chunkBytes } ::
  (if scaled then [{ base := d.sc + blk * f.scaleBytes, stride := d.scRow, rows := rows,
                     len := 2 * f.scaleBytes }] else [])

/-- The mask words of a chunk (R110). -/
def cvtMaskSpan (mask maskRow rows blk : Nat) : Span :=
  { base := mask + 4 * (blk / 32), stride := maskRow, rows := rows, len := 4 }

/-- Checks of CVT after decode, in the order of R499. -/
def Core.cvtFail (k : Core) (d : CvtDec) (a : Nat) : Fail :=
  let w (o : Nat) : Nat := k.pword (a + o)
  let rows := k.cvtRows a
  let blk := k.cvtBlk a
  let src := k.desc a
  let dst := k.desc (a + 0x10)
  let shd := k.desc (a + 0x20)
  let srcSp := if d.srcacc then [] else src.spans d.fs d.ssc rows 64
  let dstSp := dst.chunk d.fd d.dsc rows blk
  let scSp : List Span := if d.scalein then dstSp.drop 1 else []
  firstFail [
    descPlace a 64 64,
    need (w 0x30 < 2 ^ 17) .operandShape (a + 0x30), need (w 0x34 < 2 ^ 17) .operandShape (a + 0x34),
    need (w 0x38 < 2 ^ 22 && 1 ≤ rows && rows ≤ 32 && blk % 2 = 0) .operandShape (a + 0x38),
    need (w 0x3C = 0) .operandShape (a + 0x3C),
    need (!d.mask || w 0x30 % 4 = 0) .pocketRange (a + 0x30),
    need (!d.mask || w 0x34 % 4 = 0) .pocketRange (a + 0x34),
    if d.srcacc then none else k.descZero a, if d.srcacc then none else k.descT3 a (d.fs = .t3),
    k.descZero (a + 0x10), k.descT3 (a + 0x10) (d.fd = .t3),
    if d.shadow then k.descZero (a + 0x20) else none,
    spansBad [srcSp, dstSp, if d.shadow then shd.chunk .e4m3 true rows blk else [],
              if d.mask then [cvtMaskSpan (w 0x30) (w 0x34) rows blk] else []],
    k.spansPoison ({ base := a, stride := 0, rows := 1, len := 64 } :: (srcSp ++ scSp))]

/-- Row i of the source, decoded to FP32 (R38, R108). -/
def Core.cvtSource (k : Core) (m : Mem) (d : CvtDec) (src : Desc) (i : Nat) : List Word × Events :=
  if d.srcacc then
    ((k.accRow d.acc i).map fun w => if k.accInt.getLsbD d.acc then intToFp w else w, {})
  else
    let rs := (List.range 64).map fun e =>
      decode32 (elemValue d.fs (elemAt m src d.fs i e) (scaleAt m src d.fs d.ssc i (e / 32)))
    (rs.map (·.1), Events.sum (rs.map (·.2)))

/-- Encode one block of a row for a destination (R44–R46, R109). -/
def encodeFor (fd : Fmt) (dsc sat : Bool) (supplied : Option Nat) (us : Option (List Nat)) (b : List Word) : EncBlock :=
  if !dsc then encodeUnscaled fd sat us b
  else match supplied with
    | some sc => encodeSupplied fd us sc b
    | none => encodeBlock fd us b

/-- The code of a scale. -/
def Scale.code : Scale → Nat
  | .unit => 0
  | .e8m0 c => c
  | .fp16 c => c

/-- Byte writes of row i, in a list of (address, bytes), with the row's events (R108, R110). -/
def cvtRow (d : CvtDec) (dst shd : Desc) (mask maskRow blk i : Nat) (m : Mem) (src : List Word)
    (us : Option (List Nat)) : List (Nat × List Byte) × Events :=
  let scAt (h : Nat) : Nat := dst.sc + i * dst.scRow + (blk + h) * d.fd.scaleBytes
  let enc (h : Nat) : EncBlock :=
    let b := (src.drop (32 * h)).take 32
    let sup := if d.scalein then some (readLE m (scAt h) d.fd.scaleBytes) else none
    encodeFor d.fd d.dsc d.sat sup (us.map fun l => (l.drop (32 * h)).take 32) b
  let e0 := enc 0
  let e1 := enc 1
  let els := (dst.el + i * dst.elRow + d.fd.bytesOf (32 * blk), packChunk d.fd (e0.codes ++ e1.codes))
  let scs := if d.dsc then
      [(scAt 0, leBytes d.fd.scaleBytes e0.scale.code), (scAt 1, leBytes d.fd.scaleBytes e1.scale.code)] else []
  let sh (h : Nat) : EncBlock := encodeBlock .e4m3 none ((src.drop (32 * h)).take 32)
  let shw := if d.shadow then
      [(shd.el + i * shd.elRow + 32 * blk, packChunk .e4m3 ((sh 0).codes ++ (sh 1).codes)),
       (shd.sc + i * shd.scRow + blk, [BitVec.ofNat 8 (sh 0).scale.code, BitVec.ofNat 8 (sh 1).scale.code])] else []
  let c0 := d.mask && chimeBit d.fd d.t (src.take 32) e0
  let c1 := d.mask && chimeBit d.fd d.t (src.drop 32) e1
  let ma := mask + i * maskRow + 4 * (blk / 32)
  let old := if blk % 32 = 0 then 0 else readLE m ma 4
  let p := blk % 32
  let word := old - (bitsOf old (p + 1) p) * 2 ^ p + (b2n c0 + 2 * b2n c1) * 2 ^ p
  let mw := if d.mask then [(ma, leBytes 4 word)] else []
  (els :: scs ++ shw ++ mw, (e0.ev.add e1.ev).add { chime := b2n c0 + b2n c1 })

/-- Lines every byte of which some runs cover (R63). -/
def coveredLines (ws : List (Nat × List Byte)) (ls : List Nat) : List Nat :=
  ls.filter fun l => (List.range 64).all fun i => ws.any fun w => w.1 ≤ 64 * l + i && 64 * l + i < w.1 + w.2.length

/-- Write the bytes of one instruction: windows broken, poison cleared only where they cover a line. -/
def Core.writeAll (k : Core) (n : Nat) (ws : List (Nat × List Byte)) : Core × Nat :=
  let r := ws.foldl (fun (kn : Core × Nat) w => kn.1.breakHazards kn.2 w.1 w.2.length) (k, n)
  let pocket := ws.foldl (fun m w => writeBytes m w.1 w.2) r.1.pocket
  let full := coveredLines ws (skeys r.1.poison)
  ({ r.1 with pocket := pocket, poison := full.foldl (fun p l => sput false l false p) r.1.poison }, r.2)

/-- Seed, draws and final generator state of an SR instruction of `n` elements (R41, R42). -/
def Core.draws (k : Core) (sr : Bool) (n : Nat) : Option (List Nat) × Word :=
  if sr then
    let r := srDraws n (srSeed k.rseed (BitVec.ofNat 32 k.shapeCore) (BitVec.ofNat 32 k.pc) k.srcnt)
    (some r.1, r.2)
  else (none, k.lfsr)

/-- SRCNT and the generator after an instruction (R42). -/
def Core.endSr (k : Core) (sr : Bool) (st : Word) (lat : Nat) : Core :=
  if sr then { k with srcnt := k.srcnt + 1#32, lfsr := st, srDone := k.wall + lat } else k

/-- The effect of a CVT whose checks pass (R108). -/
def Core.cvtRun (k : Core) (n : Nat) (d : CvtDec) (a : Nat) : Core × Nat :=
  let rows := k.cvtRows a
  let blk := k.cvtBlk a
  let src := k.desc a
  let dst := k.desc (a + 0x10)
  let shd := k.desc (a + 0x20)
  let mask := k.pword (a + 0x30) % 2 ^ 17
  let maskRow := k.pword (a + 0x34) % 2 ^ 17
  let srcSp := if d.srcacc then [] else src.spans d.fs d.ssc rows 64
  let dstSp := dst.chunk d.fd d.dsc rows blk ++ (if d.shadow then shd.chunk .e4m3 true rows blk else []) ++
    (if d.mask then [cvtMaskSpan mask maskRow rows blk] else [])
  let im := k.readyImage n (srcSp ++ dst.chunk d.fd d.dsc rows blk)
  let m := im.1
  let us := k.draws d.sr (64 * rows)
  let rs := (List.range rows).map fun i =>
    let sw := k.cvtSource m d src i
    let r := cvtRow d dst shd mask maskRow blk i m sw.1 (us.1.map fun l => (l.drop (64 * i)).take 64)
    (r.1, r.2.add sw.2)
  let bad := if d.srcacc then 0 else badTritCount m (tritBytes src d.fs rows 64)
  let occ := if d.shadow then 100 else 68
  let lat := if d.shadow then 106 else 74
  let w := k.writeAll im.2 (rs.map (·.1)).flatten
  let h : Hazard := { untilSlot := k.slot + occ, reads := srcSp, resUntil := k.slot + lat, writes := dstSp, tiles := [] }
  let clash := srcSp.any fun x => x.runs.any fun r => dstSp.any fun y => y.meets r.1 r.2
  let w := if clash then w.1.spoil w.2 h else w
  let k1 := w.1.count lat ((Events.sum (rs.map (·.2))).add { badTrit := bad })
  let k2 := (k1.endSr d.sr us.2 lat).occupy unitConvert occ
  let k3 := if d.srcacc then k2.useTile d.acc occ 0 else k2
  ({ k3 with hazards := h :: k3.liveHazards }.retire, w.2)

/-- CVT (R107). -/
def execCvt (c : Nat) (x : XFields) (s : State) : Res :=
  issue c s fun k =>
    match cvtDecode x with
    | none => s.setCore c (k.fault .illegalInstr 0)
    | some d =>
      match k.cvtFail d (k.getS x.a).toNat with
      | some (cs, i) => s.setCore c (k.fault cs i)
      | none => s.putCore c (k.cvtRun s.freeCount d (k.getS x.a).toNat)

/-! ### VQNT and VDQNT (R112) -/

/-- A vector register from a byte list, zero beyond it. -/
def bytesToV (bs : List Byte) : VReg := BitVec.ofNat 2048 (leNat bs)

/-- The packed image of a register as bytes. -/
def vBytes (v : VReg) : List Byte := leBytes 256 v.toNat

/-- VQNT vd, vs: the packed image of 64 lanes, always with chosen scales; chime bits to md. -/
def execVqnt (c : Nat) (x : XFields) (s : State) : Res :=
  issueCore c s fun k =>
    match Fmt.ofCode x.f2 with
    | none => k.fault .illegalInstr 0
    | some fd =>
      let sr := bitOf x.mod 0
      let sat := bitOf x.mod 1
      let t := bitsOf x.mod 9 2
      let mask := bitOf x.mod 10
      let dsc := bitOf x.mod 17
      if x.f1 = 0 ∧ x.d = 0 ∧ fd.scaleBitOk dsc ∧ (if mask then 1 ≤ x.c ∧ x.c ≤ 7 ∧ fd.isChime else x.c = 0) ∧
         (t ≠ 0 → mask) ∧ x.mod = b2n sr + 2 * b2n sat + 4 * t + 1024 * b2n mask + 131072 * b2n dsc then
        let ls := lanes (k.getV x.b)
        let us := k.draws sr 64
        let enc (h : Nat) : EncBlock :=
          encodeFor fd dsc sat none (us.1.map fun l => (l.drop (32 * h)).take 32) ((ls.drop (32 * h)).take 32)
        let e0 := enc 0
        let e1 := enc 1
        let els := packChunk fd (e0.codes ++ e1.codes)
        let img := if dsc then
            els ++ List.replicate (128 - els.length) 0#8 ++
              leBytes fd.scaleBytes e0.scale.code ++ leBytes fd.scaleBytes e1.scale.code
          else els
        let c0 := mask && chimeBit fd t (ls.take 32) e0
        let c1 := mask && chimeBit fd t (ls.drop 32) e1
        let ev := (e0.ev.add e1.ev).add { chime := b2n c0 + b2n c1 }
        let k := ((k.setV x.a (bytesToV img)).count 6 ev).validVAt x.a 6
        let k := if mask then (k.setM x.c (BitVec.ofNat 64 (b2n c0 + 2 * b2n c1))).validMAt x.c 6 else k
        ((k.endSr sr us.2 6).occupy unitConvert 2).retire
      else k.fault .illegalInstr 0

/-- VDQNT vd, vs: the image in vs to 64 FP32 lanes (R38). -/
def execVdqnt (c : Nat) (x : XFields) (s : State) : Res :=
  issueCore c s fun k =>
    match Fmt.ofCode x.f1 with
    | none => k.fault .illegalInstr 0
    | some fs =>
      let ssc := bitOf x.mod 16
      if x.f2 = 0 ∧ x.c = 0 ∧ x.d = 0 ∧ fs.scaleBitOk ssc ∧ x.mod = 65536 * b2n ssc then
        let bs := vBytes (k.getV x.b)
        let els := bs.take fs.chunkBytes
        let sc (h : Nat) : Scale :=
          if !ssc then .unit
          else if fs = .t3 then .fp16 (leNat ((bs.drop (128 + 2 * h)).take 2))
          else .e8m0 (bs.getD (128 + h) 0#8).toNat
        let rs := (List.range 64).map fun i => decode32 (elemValue fs (unpackAt fs els i) (sc (i / 32)))
        let bad := if fs = .t3 then badTrits els else 0
        let ev := (Events.sum (rs.map (·.2))).add { badTrit := bad }
        ((((k.setV x.a (ofLanes (rs.map (·.1)))).count 6 ev).validVAt x.a 6).occupy unitConvert 2).retire
      else k.fault .illegalInstr 0

end Sys2Proof.Machine
end

