-- ==== Sys2Proof/Machine/CoreDecode.lean ====
section
/-!
DEFINITION. The front end's decoder of 64-bit instruction words (spec/03 R66–R69; spec/04 R98, R99, R123): the command
a word stands for on a core, or none where R67, R98 or R99 raises ILLEGAL_INSTR.
-/
namespace Sys2Proof.Machine

/-- The fields of a word, by position. -/
structure WordFields where
  op : Nat
  fn : Nat
  f45 : Nat       -- [49:45]
  f40 : Nat       -- [44:40]
  f35 : Nat       -- [39:35]
  f30 : Nat       -- [34:30]
  low : Nat       -- [31:0]
  n : Nat         -- the whole word
  deriving DecidableEq, Repr

/-- Split a word (R66). -/
def wordFields (w : DWord) : WordFields :=
  let n := w.toNat
  { op := bitsOf n 63 58, fn := bitsOf n 57 50, f45 := bitsOf n 49 45, f40 := bitsOf n 44 40,
    f35 := bitsOf n 39 35, f30 := bitsOf n 34 30, low := n % 2 ^ 32, n := n }

/-- Function codes of OP 0x01 (R69). -/
def aluOfFn : Nat → Option AluOp
  | 0x00 => some .add | 0x01 => some .sub | 0x02 => some .and | 0x03 => some .or | 0x04 => some .xor
  | 0x05 => some .sll | 0x06 => some .srl | 0x07 => some .sra | 0x08 => some .slt | 0x09 => some .sltu
  | 0x0A => some .min | 0x0B => some .max | 0x0C => some .minu | 0x0D => some .maxu
  | 0x10 => some .mul | 0x11 => some .mulh | 0x12 => some .mulhu | 0x18 => some .sel
  | _ => none

/-- Function codes of OP 0x03 branches. -/
def condOfFn : Nat → Option Cond
  | 0 => some .eq | 1 => some .ne | 2 => some .lt | 3 => some .ge | 4 => some .ltu | 5 => some .geu
  | _ => none

/-- Function codes of OP 0x10 (R123). -/
def vfOfFn : Nat → Option VfOp
  | 0x00 => some .add | 0x01 => some .sub | 0x02 => some .mul | 0x03 => some .fma | 0x04 => some .min
  | 0x05 => some .max | 0x06 => some .abs | 0x07 => some .neg | 0x08 => some .rcp | 0x09 => some .rsq
  | 0x0A => some .exp2 | 0x0B => some .log2 | 0x0C => some .cvti | 0x0D => some .icvtf
  | _ => none

/-- Does an FP instruction take one operand (R123)? -/
def vfUnary : VfOp → Bool
  | .abs | .neg | .rcp | .rsq | .exp2 | .log2 | .cvti | .icvtf => true
  | _ => false

/-- Function codes of OP 0x11 (R123). -/
def viOfFn : Nat → Option ViOp
  | 0x00 => some .add | 0x01 => some .sub | 0x02 => some .mul | 0x03 => some .and | 0x04 => some .or
  | 0x05 => some .xor | 0x06 => some .sll | 0x07 => some .srl | 0x08 => some .sra | 0x09 => some .min
  | 0x0A => some .max | 0x0B => some .minu | 0x0C => some .maxu
  | 0x10 => some .slli | 0x11 => some .srli | 0x12 => some .srai
  | _ => none

/-- Immediate shifts. -/
def viImm : ViOp → Bool
  | .slli | .srli | .srai => true
  | _ => false

/-- Function codes of OP 0x12 compares. -/
def vcOfFn : Nat → Option VcOp
  | 0 => some .fclt | 1 => some .fcle | 2 => some .fceq | 3 => some .fcun
  | 8 => some .clt | 9 => some .cltu | 10 => some .ceq
  | _ => none

/-- Function codes of OP 0x12 mask logic. -/
def maskOfFn : Nat → Option MaskOp
  | 0x10 => some .and | 0x11 => some .or | 0x12 => some .xor | 0x13 => some .andn
  | _ => none

/-- Function codes of OP 0x14. -/
def redOfFn : Nat → Option RedOp
  | 0 => some .fsum | 1 => some .fmax | 2 => some .fmin | 3 => some .famax
  | 8 => some .sum | 9 => some .max | 10 => some .min
  | _ => none

/-- Keep a command only where the word's excluded and unused fields are as R67 and R98 require. -/
def keep (b : Bool) (i : Instr) : Option Instr := if b then some i else none

/-- OP 0x00: format I, bits [39:32] reserved. -/
def decodeSystem (c : Nat) (f : WordFields) : Option Instr :=
  let imm : Word := BitVec.ofNat 32 f.low
  let r := bitsOf f.n 39 32 = 0
  match f.fn with
  | 0x00 => keep (r && f.f45 = 0 && f.f40 = 0 && f.low = 0) (.nop c)
  | 0x01 => keep (r && f.f45 = 0 && f.f40 = 0 && 1 ≤ f.low && f.low ≤ 4096) (.waitb c imm)
  | 0x02 => keep (r && f.f45 = 0 && f.f40 = 0 && f.low = 0) (.halt c)
  | 0x03 => keep (r && f.f45 = 0 && f.f40 = 0) (.brk c imm)
  | 0x08 => keep (r && f.f40 = 0 && f.low < 4096) (.csrr c f.f45 imm)
  | 0x09 => keep (r && f.f45 = 0 && f.low < 4096) (.csrw c f.f40 imm)
  | _ => none

/-- OP 0x01: format R. -/
def decodeAlu (c : Nat) (f : WordFields) : Option Instr :=
  match aluOfFn f.fn with
  | some op => keep (bitsOf f.n 29 0 = 0 && (op = .sel || f.f30 = 0)) (.scalarAlu c op f.f45 f.f40 f.f35 f.f30)
  | none => none

/-- OP 0x02: format I. -/
def decodeAluImm (c : Nat) (f : WordFields) : Option Instr :=
  match aluOfFn f.fn with
  | some op =>
    keep (bitsOf f.n 39 32 = 0 && aluHasImm op && (!aluIsShift op || f.low ≤ 31))
      (.scalarAluImmediate c op f.f45 f.f40 (BitVec.ofNat 32 f.low))
  | none => none

/-- OP 0x03: formats B and I. -/
def decodeBranch (c : Nat) (f : WordFields) : Option Instr :=
  let imm : Word := BitVec.ofNat 32 f.low
  let r := bitsOf f.n 39 32 = 0
  match condOfFn f.fn with
  | some cd => keep (r && f.low % 8 = 0) (.branch c cd f.f45 f.f40 imm)
  | none => match f.fn with
    | 0x08 => keep (r && f.f40 = 0) (.jal c f.f45 imm)
    | 0x09 => keep r (.jalr c f.f45 f.f40 imm)
    | 0x0A => keep (r && f.f40 = 0 && f.low % 8 = 0 && imm.toInt ≥ 8) (.loop c f.f45 imm)
    | _ => none

/-- OP 0x04: format M. -/
def decodePocket (c : Nat) (f : WordFields) : Option Instr :=
  let imm : Word := BitVec.ofNat 32 f.low
  let mk := bitsOf f.n 39 37
  let ty := bitOf f.n 36
  let r := bitsOf f.n 35 32 = 0
  let plain := r && mk = 0 && !ty
  match f.fn with
  | 0x00 => keep plain (.scalarLoad c .ldb f.f45 f.f40 imm)
  | 0x01 => keep plain (.scalarLoad c .ldbu f.f45 f.f40 imm)
  | 0x02 => keep plain (.scalarLoad c .ldh f.f45 f.f40 imm)
  | 0x03 => keep plain (.scalarLoad c .ldhu f.f45 f.f40 imm)
  | 0x04 => keep plain (.scalarLoad c .ldw f.f45 f.f40 imm)
  | 0x08 => keep plain (.scalarStore c .stb f.f45 f.f40 imm)
  | 0x09 => keep plain (.scalarStore c .sth f.f45 f.f40 imm)
  | 0x0A => keep plain (.scalarStore c .stw f.f45 f.f40 imm)
  | 0x10 => keep (r && !ty) (.vld c f.f45 f.f40 mk imm)
  | 0x11 => keep (r && !ty) (.vst c f.f45 f.f40 mk imm)
  | 0x18 => keep (r && mk = 0 && f.f45 < 4) (.accld c f.f45 f.f40 ty imm)
  | 0x19 => keep (plain && f.f45 < 4) (.accst c f.f45 f.f40 imm)
  | _ => none

/-- OP 0x05: format T. -/
def decodeTransfer (c : Nat) (f : WordFields) : Option Instr :=
  let tag := bitsOf f.n 39 36
  let r := bitsOf f.n 35 32 = 0
  let len := 1 ≤ f.low && f.low ≤ 2048
  match f.fn with
  | 0x00 => keep (r && len) (.sbld c f.f45 f.f40 tag f.low)
  | 0x01 => keep (r && len) (.sbst c f.f45 f.f40 tag f.low)
  | 0x02 => keep (r && f.f45 = 0 && f.f40 = 0 && f.low = 0) (.sbwait c tag)
  | 0x03 => keep (r && len && tag = 0) (.isld c f.f45 f.f40 f.low)
  | _ => none

/-- OP 0x06: format I. -/
def decodeTimeline (c : Nat) (f : WordFields) : Option Instr :=
  let ok := bitsOf f.n 39 32 = 0 && f.f40 = 0 && f.low < 256 && pairOk f.f45
  match f.fn with
  | 0x00 => keep ok (.tlsig c f.f45 f.low)
  | 0x01 => keep ok (.tlwait c f.f45 f.low)
  | 0x02 => keep ok (.tlrd c f.f45 f.low)
  | _ => none

/-- OP 0x10 to 0x14: format V (R98). -/
def decodeVector (c : Nat) (f : WordFields) : Option Instr :=
  let d := f.f45
  let a := f.f40
  let b := f.f35
  let e := f.f30
  let mk := bitsOf f.n 29 27
  let imm := f.n % 2 ^ 27
  match f.op, f.fn with
  | 0x10, fn => match vfOfFn fn with
    | some op => keep (imm = 0 && (op = .fma || e = 0) && (!vfUnary op || b = 0)) (.vectorFpArithmetic c op d a b e mk)
    | none => none
  | 0x11, fn => match viOfFn fn with
    | some op => keep (e = 0 && (if viImm op then b = 0 && imm < 32 else imm = 0)) (.vectorInteger c op d a b mk imm)
    | none => none
  | 0x12, fn => match vcOfFn fn, maskOfFn fn with
    | some op, _ => keep (e = 0 && imm = 0 && d < 8) (.vectorCompare c op d a b mk)
    | none, some op => keep (e = 0 && imm = 0 && mk = 0 && d < 8 && a < 8 && b < 8) (.maskLogic c op d a b)
    | none, none => none
  | 0x13, 0x00 => keep (b = 0 && e = 0 && imm = 0) (.vbcast c d a mk)
  | 0x13, 0x01 => keep (b = 0 && e = 0 && mk = 0 && imm < 64) (.vmvs c d a imm)
  | 0x13, 0x02 => keep (b = 0 && e = 0 && mk = 0 && imm < 64) (.vmvsl c d a imm)
  | 0x13, 0x03 => keep (e = 0 && imm = 0) (.vperm c d a b mk)
  | 0x13, 0x04 => keep (e = 0 && imm = 0) (.vsel c d a b mk)
  | 0x13, 0x06 => keep (a = 0 && b = 0 && e = 0 && imm = 0) (.viota c d mk)
  | 0x13, 0x08 => keep (a < 4 && e = 0 && imm = 0 && mk = 0) (.vaccr c d a b)
  | 0x13, 0x09 => keep (d < 4 && e = 0 && imm = 0 && mk = 0) (.vaccw c d a b)
  | 0x13, 0x0A => keep (a < 8 && b = 0 && e = 0 && imm = 0 && mk = 0) (.mpop c d a)
  | 0x13, 0x0B => keep (a < 8 && pairOk d && b = 0 && e = 0 && imm = 0 && mk = 0) (.mtos c d a)
  | 0x13, 0x0C => keep (d < 8 && pairOk a && b = 0 && e = 0 && imm = 0 && mk = 0) (.stom c d a)
  | 0x14, fn => match redOfFn fn with
    | some op => keep (b = 0 && e = 0 && imm = 0) (.vectorReduction c op d a mk)
    | none => none
  | _, _ => none

/-- OP 0x20 to 0x22: format X (R99); the checks the instruction's own definition makes at decode are its own. -/
def decodeTensor (c : Nat) (f : WordFields) : Option Instr :=
  let x : XFields := { a := f.f45, b := f.f40, c := f.f35, d := f.f30, f1 := bitsOf f.n 29 26,
                       f2 := bitsOf f.n 25 22, mod := f.n % 2 ^ 22 }
  match f.op, f.fn with
  | 0x20, 0x00 => keep (mmaDecode x false).isSome (.mma c x)
  | 0x20, 0x01 => keep (mmaDecode x true).isSome (.mmae c x)
  | 0x21, 0x00 => keep (cvtDecode x).isSome (.cvt c x)
  | 0x22, 0x00 => some (.vqnt c x)
  | 0x22, 0x01 => some (.vdqnt c x)
  | _, _ => none

/-- The command an instruction word stands for on core c (R66–R69, R98, R99). -/
def decodeWord (c : Nat) (w : DWord) : Option Instr :=
  let f := wordFields w
  match f.op with
  | 0x00 => decodeSystem c f
  | 0x01 => decodeAlu c f
  | 0x02 => decodeAluImm c f
  | 0x03 => decodeBranch c f
  | 0x04 => decodePocket c f
  | 0x05 => decodeTransfer c f
  | 0x06 => decodeTimeline c f
  | 0x10 | 0x11 | 0x12 | 0x13 | 0x14 => decodeVector c f
  | 0x20 | 0x21 | 0x22 => decodeTensor c f
  | _ => none

/-- Scalar registers an instruction reads in the front end (R73). -/
def readsS : Instr → List Nat
  | .csrw _ r _ => [r]
  | .scalarAlu _ op _ a b d => if op = .sel then [a, b, d] else [a, b]
  | .scalarAluImmediate _ _ _ a _ => [a]
  | .branch _ _ a b _ => [a, b]
  | .jalr _ _ a _ => [a]
  | .loop _ a _ => [a]
  | .scalarLoad _ _ _ a _ => [a]
  | .scalarStore _ _ sd a _ => [sd, a]
  | .vld _ _ a _ _ => [a]
  | .vst _ _ a _ _ => [a]
  | .accld _ _ a _ _ => [a]
  | .accst _ _ a _ => [a]
  | .sbld _ rp rl _ _ => [rp, rl]
  | .sbst _ rp rl _ _ => [rp, rl]
  | .isld _ rp rl _ => [rp, rl]
  | .tlsig _ sn _ => [sn, sn + 1]
  | .tlwait _ sn _ => [sn, sn + 1]
  | .vbcast _ _ a _ => [a]
  | .vmvsl _ _ a _ => [a]
  | .vaccr _ _ _ b => [b]
  | .vaccw _ _ _ b => [b]
  | .stom _ _ a => [a, a + 1]
  | .mma _ x => [x.a, x.b, x.c]
  | .mmae _ x => [x.a, x.b, x.c, x.d]
  | .cvt _ x => [x.a]
  | _ => []

/-- Scalar registers an instruction writes. -/
def writesS : Instr → List Nat
  | .csrr _ rd _ => [rd]
  | .scalarAlu _ _ rd _ _ _ => [rd]
  | .scalarAluImmediate _ _ rd _ _ => [rd]
  | .jal _ rd _ => [rd]
  | .jalr _ rd _ _ => [rd]
  | .scalarLoad _ _ rd _ _ => [rd]
  | .tlrd _ sn _ => [sn, sn + 1]
  | .vmvs _ d _ _ => [d]
  | .mpop _ d _ => [d]
  | .mtos _ d _ => [d, d + 1]
  | _ => []

/-- Vector registers an instruction reads or writes (R97, R121). -/
def touchesV : Instr → List Nat
  | .vld _ v _ _ _ => [v]
  | .vst _ v _ _ _ => [v]
  | .vectorFpArithmetic _ op d a b e _ => if op = .fma then [d, a, b, e] else if vfUnary op then [d, a] else [d, a, b]
  | .vectorInteger _ op d a b _ _ => if viImm op then [d, a] else [d, a, b]
  | .vectorCompare _ _ _ a b _ => [a, b]
  | .vbcast _ d _ _ => [d]
  | .vmvs _ _ a _ => [a]
  | .vmvsl _ d _ _ => [d]
  | .vperm _ d a b _ => [d, a, b]
  | .vsel _ d a b _ => [d, a, b]
  | .viota _ d _ => [d]
  | .vaccr _ d _ _ => [d]
  | .vaccw _ _ a _ => [a]
  | .vectorReduction _ _ d a _ => [d, a]
  | .vqnt _ x => [x.a, x.b]
  | .vdqnt _ x => [x.a, x.b]
  | _ => []

/-- Mask registers an instruction reads or writes. -/
def touchesM : Instr → List Nat
  | .vld _ _ _ mk _ => [mk]
  | .vst _ _ _ mk _ => [mk]
  | .vectorFpArithmetic _ _ _ _ _ _ mk => [mk]
  | .vectorInteger _ _ _ _ _ mk _ => [mk]
  | .vectorCompare _ _ d _ _ mk => [d, mk]
  | .maskLogic _ _ d a b => [d, a, b]
  | .vbcast _ _ _ mk => [mk]
  | .vperm _ _ _ _ mk => [mk]
  | .vsel _ _ _ _ mk => [mk]
  | .viota _ _ mk => [mk]
  | .mpop _ _ a => [a]
  | .mtos _ _ a => [a]
  | .stom _ d _ => [d]
  | .vectorReduction _ _ _ _ mk => [mk]
  | .vqnt _ x => [x.c]
  | _ => []

/-- Tiles an instruction names, and for an accumulating MMA the format it chains with (R104, R121). -/
def touchesT : Instr → List Nat × Nat
  | .accld _ t _ _ _ => ([t], 0)
  | .accst _ t _ _ => ([t], 0)
  | .vaccr _ _ t _ => ([t], 0)
  | .vaccw _ t _ _ => ([t], 0)
  | .mma _ x => match mmaDecode x false with
    | some d => (d.tiles, if d.init then 0 else if d.sh.int then 2 else 1)
    | none => ([], 0)
  | .mmae _ x => match mmaDecode x true with
    | some d => (d.tiles, if d.init then 0 else if d.sh.int then 2 else 1)
    | none => ([], 0)
  | .cvt _ x => match cvtDecode x with
    | some d => (if d.srcacc then [d.acc] else [], 0)
    | none => ([], 0)
  | _ => ([], 0)

/-- The unit an instruction needs, if its occupancy can make it wait (R95, R96). -/
def unitOf : Instr → Option Nat
  | .csrr .. | .csrw .. => some unitCsr
  | .scalarLoad .. | .scalarStore .. | .vld .. | .vst .. | .accld .. | .accst .. => some unitPocket
  | .vectorFpArithmetic .. | .vectorInteger .. | .vectorCompare .. | .maskLogic .. | .vbcast .. | .vmvs ..
  | .vmvsl .. | .vperm .. | .vsel .. | .viota .. | .vaccr .. | .vaccw .. | .mpop .. | .mtos .. | .stom ..
  | .vectorReduction .. => some unitVector
  | .mma .. | .mmae .. => some unitTensor
  | .cvt .. | .vqnt .. | .vdqnt .. => some unitConvert
  | _ => none

/-- Does the instruction use stochastic rounding (R111)? -/
def usesSr : Instr → Bool
  | .cvt _ x => bitOf x.mod 0
  | .vqnt _ x => bitOf x.mod 0
  | _ => false

end Sys2Proof.Machine
end

