-- ==== Sys2Proof/Machine/CoreVector.lean ====
section
/-!
DEFINITION. Vector instructions, OP 0x10 to 0x14 (spec/04 R113–R118, R121, R123).
-/
namespace Sys2Proof.Machine

/-! ### FP32 arithmetic (R114) -/

/-- One lane of an FP32 instruction: the result and its events. -/
def vfLane (op : VfOp) (a b d : Word) : Word × Events :=
  match op with
  | .add => fpAdd (fv32 a) (fv32 b)
  | .sub => fpAdd (fv32 a) (fv32 b).negate
  | .mul => fpMul (fv32 a) (fv32 b)
  | .fma => fpFma (fv32 a) (fv32 b) (fv32 d)
  | .min => (fpMin a b, {})
  | .max => (fpMax a b, {})
  | .abs => (if fv32 a = .nan then nan32 else abs32 a, {})
  | .neg => (if fv32 a = .nan then nan32 else a ^^^ 0x80000000#32, {})
  | .rcp => fpRcp (fv32 a)
  | .rsq => fpRsq (fv32 a)
  | .exp2 => fpExp2 (fv32 a)
  | .log2 => fpLog2 (fv32 a)
  | .cvti => fpToInt (fv32 a)
  | .icvtf => (intToFp a, {})

/-- Latency of R123. -/
def vfLatency : VfOp → Nat
  | .min | .max | .abs | .neg => 2
  | .rcp | .rsq | .exp2 | .log2 => 12
  | _ => 4

/-- Occupancy of R123. -/
def vfOccupancy : VfOp → Nat
  | .rcp | .rsq | .exp2 | .log2 => 4
  | _ => 1

/-- Lane results of a masked instruction: lanes not computed keep their value and raise nothing (R113). -/
def maskedLanes (mask : DWord) (f : Nat → Word × Events) (old : List Word) : List Word × Events :=
  let rs := (List.range 64).map fun i => if mask.getLsbD i then f i else (old.getD i 0#32, {})
  (rs.map (·.1), Events.sum (rs.map (·.2)))

/-- Write a vector result, its events and its timing. -/
def Core.finishV (k : Core) (d lat occ : Nat) (r : List Word × Events) : Core :=
  ((((k.setV d (ofLanes r.1)).count lat r.2).validVAt d lat).occupy unitVector occ).retire

/-- OP 0x10. -/
def execVectorFpArithmetic (c : Nat) (op : VfOp) (d a b c3 mk : Nat) (s : State) : Res :=
  issueCore c s fun k =>
    let va := k.getV a
    let vb := k.getV b
    let vc := k.getV c3
    k.finishV d (vfLatency op) (vfOccupancy op)
      (maskedLanes (k.getM mk) (fun i => vfLane op (lane va i) (lane vb i) (lane vc i)) (lanes (k.getV d)))

/-! ### INT32 arithmetic (R115) -/

/-- One lane of an integer instruction; immediate shifts take the count from imm[4:0]. -/
def viLane (op : ViOp) (a b : Word) (imm : Nat) : Word :=
  match op with
  | .add => a + b
  | .sub => a - b
  | .mul => a * b
  | .and => a &&& b
  | .or => a ||| b
  | .xor => a ^^^ b
  | .sll => a <<< (b.toNat % 32)
  | .srl => a >>> (b.toNat % 32)
  | .sra => a.sshiftRight (b.toNat % 32)
  | .min => if a.toInt ≤ b.toInt then a else b
  | .max => if a.toInt ≤ b.toInt then b else a
  | .minu => if a.toNat ≤ b.toNat then a else b
  | .maxu => if a.toNat ≤ b.toNat then b else a
  | .slli => a <<< (imm % 32)
  | .srli => a >>> (imm % 32)
  | .srai => a.sshiftRight (imm % 32)

/-- Latency of R123: VMUL 4, the rest 2. -/
def viLatency : ViOp → Nat
  | .mul => 4
  | _ => 2

/-- OP 0x11. -/
def execVectorInteger (c : Nat) (op : ViOp) (d a b mk imm : Nat) (s : State) : Res :=
  issueCore c s fun k =>
    let va := k.getV a
    let vb := k.getV b
    k.finishV d (viLatency op) 1
      (maskedLanes (k.getM mk) (fun i => (viLane op (lane va i) (lane vb i) imm, {})) (lanes (k.getV d)))

/-! ### Compares and mask logic (R116) -/

/-- A compare of one lane. -/
def vcLane (op : VcOp) (a b : Word) : Bool :=
  match op with
  | .fclt => fvLt (fv32 a) (fv32 b)
  | .fcle => fvLt (fv32 a) (fv32 b) || fvEq (fv32 a) (fv32 b)
  | .fceq => fvEq (fv32 a) (fv32 b)
  | .fcun => fv32 a = .nan || fv32 b = .nan
  | .clt => a.toInt < b.toInt
  | .cltu => a.toNat < b.toNat
  | .ceq => a = b

/-- A mask from its bits. -/
def maskOf (f : Nat → Bool) : DWord :=
  (List.range 64).foldl (fun m i => if f i then m ||| (1#64 <<< i) else m) 0#64

/-- Write a mask result and its timing. -/
def Core.finishM (k : Core) (d lat : Nat) (v : DWord) : Core :=
  (((k.setM d v).validMAt d lat).occupy unitVector 1).retire

/-- OP 0x12 compares: md bit i is the result of lane i, 0 where the lane is masked off (R113). -/
def execVectorCompare (c : Nat) (op : VcOp) (d a b mk : Nat) (s : State) : Res :=
  issueCore c s fun k =>
    let va := k.getV a
    let vb := k.getV b
    let m := k.getM mk
    k.finishM d 2 (maskOf fun i => m.getLsbD i && vcLane op (lane va i) (lane vb i))

/-- Mask logic, bit by bit and unmasked. -/
def maskResult (op : MaskOp) (a b : DWord) : DWord :=
  match op with
  | .and => a &&& b
  | .or => a ||| b
  | .xor => a ^^^ b
  | .andn => a &&& ~~~b

/-- MAND, MOR, MXOR, MANDN. -/
def execMaskLogic (c : Nat) (op : MaskOp) (d a b : Nat) (s : State) : Res :=
  issueCore c s fun k => k.finishM d 1 (maskResult op (k.getM a) (k.getM b))

/-! ### Lane moves and accumulator exchange (R117) -/

/-- VBCAST: the scalar to every lane. -/
def execVbcast (c : Nat) (d a mk : Nat) (s : State) : Res :=
  issueCore c s fun k =>
    k.finishV d 2 1 (maskedLanes (k.getM mk) (fun _ => (k.getS a, {})) (lanes (k.getV d)))

/-- VMVS: lane imm[5:0] of va to rd, valid two beats later (R74). -/
def execVmvs (c : Nat) (d a ln : Nat) (s : State) : Res :=
  issueCore c s fun k =>
    (((k.setS d (lane (k.getV a) (ln % 64))).validSAt d 2).occupy unitVector 1).retire

/-- VMVSL: the scalar to lane imm[5:0] only. -/
def execVmvsl (c : Nat) (d a ln : Nat) (s : State) : Res :=
  issueCore c s fun k => k.finishV d 2 1 ((lanes (k.getV d)).set (ln % 64) (k.getS a), {})

/-- VPERM: lane i of vd from lane (vb lane i)[5:0] of va. -/
def execVperm (c : Nat) (d a b mk : Nat) (s : State) : Res :=
  issueCore c s fun k =>
    let va := k.getV a
    let vb := k.getV b
    k.finishV d 3 1
      (maskedLanes (k.getM mk) (fun i => (lane va ((lane vb i).toNat % 64), {})) (lanes (k.getV d)))

/-- VSEL: each lane from va where the mask bit is 1 and from vb where it is 0; every lane is written. -/
def execVsel (c : Nat) (d a b mk : Nat) (s : State) : Res :=
  issueCore c s fun k =>
    k.finishV d 2 1 (mergeLanes (k.getM mk) (lanes (k.getV a)) (lanes (k.getV b)), {})

/-- VIOTA: i to lane i. -/
def execViota (c : Nat) (d mk : Nat) (s : State) : Res :=
  issueCore c s fun k =>
    k.finishV d 2 1 (maskedLanes (k.getM mk) (fun i => (BitVec.ofNat 32 i, {})) (lanes (k.getV d)))

/-- VACCR: row s[b] of tile a, as raw patterns; a row above 31 raises OPERAND_SHAPE. -/
def execVaccr (c : Nat) (d a b : Nat) (s : State) : Res :=
  issueCore c s fun k =>
    let row := (k.getS b).toNat
    if row > 31 then k.fault .operandShape 0
    else (k.useTile a 1 0).finishV d 3 1 (k.accRow a row, {})

/-- VACCW: va to row s[b] of tile d, as raw patterns; the tile's type is unchanged (R59). -/
def execVaccw (c : Nat) (d a b : Nat) (s : State) : Res :=
  issueCore c s fun k =>
    let row := (k.getS b).toNat
    if row > 31 then k.fault .operandShape 0
    else (((k.setAccRow d row (lanes (k.getV a))).useTile d 3 0).occupy unitVector 1).retire

/-- Set bits of a mask. -/
def popCount (m : DWord) : Nat := ((List.range 64).filter fun i => m.getLsbD i).length

/-- MPOP: the number of set bits of mask a to rd. -/
def execMpop (c : Nat) (d a : Nat) (s : State) : Res :=
  issueCore c s fun k =>
    (((k.setS d (BitVec.ofNat 32 (popCount (k.getM a)))).validSAt d 2).occupy unitVector 1).retire

/-- MTOS: mask a to the register pair d; an odd pair or pair 0 is illegal (R58). -/
def execMtos (c : Nat) (d a : Nat) (s : State) : Res :=
  issueCore c s fun k =>
    if pairOk d then
      ((((k.setPair d (k.getM a)).validSAt d 2).validSAt (d + 1) 2).occupy unitVector 1).retire
    else k.fault .illegalInstr 0

/-- STOM: the pair a to mask d. -/
def execStom (c : Nat) (d a : Nat) (s : State) : Res :=
  issueCore c s fun k =>
    if pairOk a then k.finishM d 1 (k.getPair a) else k.fault .illegalInstr 0

/-! ### Reductions (R118) -/

/-- The identity a masked-off lane contributes (R113). -/
def redIdentity : RedOp → Word
  | .fsum => 0x80000000#32
  | .fmax => 0xFF800000#32
  | .fmin => 0x7F800000#32
  | .famax => 0#32
  | .sum => 0#32
  | .max => 0x80000000#32
  | .min => 0x7FFFFFFF#32

/-- The value a contributing lane brings: its magnitude for VRFAMAX. -/
def redLane (op : RedOp) (w : Word) : Word :=
  match op with
  | .famax => if fv32 w = .nan then nan32 else abs32 w
  | _ => w

/-- Combination of two values. -/
def redPair (op : RedOp) (a b : Word) : Word × Events :=
  match op with
  | .fsum => fpAdd (fv32 a) (fv32 b)
  | .fmax => (fpMax a b, {})
  | .fmin => (fpMin a b, {})
  | .famax => (fpMax a b, {})
  | .sum => (a + b, {})
  | .max => (if a.toInt ≤ b.toInt then b else a, {})
  | .min => (if a.toInt ≤ b.toInt then a else b, {})

/-- One level of the pairwise tree, value 2j with value 2j + 1. -/
def redLevel (op : RedOp) : List Word → List Word × Events
  | a :: b :: l =>
    let r := redPair op a b
    let t := redLevel op l
    (r.1 :: t.1, r.2.add t.2)
  | l => (l, {})

/-- n levels of the tree. -/
def redTree (op : RedOp) : Nat → List Word → List Word × Events
  | 0, l => (l, {})
  | n + 1, l =>
    let r := redLevel op l
    let t := redTree op n r.1
    (t.1, r.2.add t.2)

/-- OP 0x14: the result in lane 0, lanes 1 to 63 zero; mk selects the contributing lanes. -/
def execVectorReduction (c : Nat) (op : RedOp) (d a mk : Nat) (s : State) : Res :=
  issueCore c s fun k =>
    let va := k.getV a
    let m := k.getM mk
    let ls := (List.range 64).map fun i => if m.getLsbD i then redLane op (lane va i) else redIdentity op
    let r := redTree op 6 ls
    k.finishV d 8 1 (r.1.headD 0#32 :: List.replicate 63 0#32, r.2)

end Sys2Proof.Machine
end

