-- ==== Sys2Proof/Machine/Crypto.lean ====
section
/-!
DEFINITION. The published algorithms the spec names: AES-256 (FIPS 197), GHASH and GCM (NIST SP 800-38D), AES-KW (NIST
SP 800-38F), SHA-384 (FIPS 180-4), HMAC, HKDF (RFC 5869) and P-384 (FIPS 186-5, SP 800-186).  Byte strings are lists
of bytes; a block is the number its bytes spell with the first byte highest.
-/
namespace Sys2Proof.Machine

/-! ### Byte strings -/

/-- A byte string as a number, first byte highest. -/
def beNat (l : List Byte) : Nat := l.foldl (fun a b => a * 256 + b.toNat) 0

/-- A number as n bytes, highest first. -/
def beBytes (n v : Nat) : List Byte := (List.range n).map fun i => BitVec.ofNat 8 (v / 256 ^ (n - 1 - i))

/-- Cut a byte string into pieces of n bytes. -/
def chunksOf (n : Nat) (l : List Byte) : List (List Byte) :=
  (List.range ((l.length + n - 1) / n)).map fun i => (l.drop (n * i)).take n

/-- A byte string padded with zeros to n bytes. -/
def padTo (n : Nat) (l : List Byte) : List Byte := l ++ List.replicate (n - l.length) 0#8

/-- Byte by byte exclusive or, as long as the first. -/
def xorBytes (a b : List Byte) : List Byte := (List.range a.length).map fun i => a.getD i 0#8 ^^^ b.getD i 0#8

/-! ### AES-256 -/

/-- The S-box, entry 0 highest. -/
def aesSbox : Nat := 0x637C777BF26B6FC53001672BFED7AB76CA82C97DFA5947F0ADD4A2AF9CA472C0B7FD9326363FF7CC34A5E5F171D8311504C723C31896059A071280E2EB27B27509832C1A1B6E5AA0523BD6B329E32F8453D100ED20FCB15B6ACBBE394A4C58CFD0EFAAFB434D338545F9027F503C9FA851A3408F929D38F5BCB6DA2110FFF3D2CD0C13EC5F974417C4A77E3D645D197360814FDC222A908846EEB814DE5E0BDBE0323A0A4906245CC2D3AC629195E479E7C8376D8DD54EA96C56F4EA657AAE08BA78252E1CA6B4C6E8DD741F4BBD8B8A703EB5664803F60E613557B986C11D9EE1F8981169D98E949B1E87E9CE5528DF8CA1890DBFE6426841992D0FB054BB16

/-- The inverse S-box. -/
def aesInvSbox : Nat := 0x52096AD53036A538BF40A39E81F3D7FB7CE339829B2FFF87348E4344C4DEE9CB547B9432A6C2233DEE4C950B42FAC34E082EA16628D924B2765BA2496D8BD12572F8F66486689816D4A45CCC5D65B6926C704850FDEDB9DA5E154657A78D9D8490D8AB008CBCD30AF7E45805B8B34506D02C1E8FCA3F0F02C1AFBD0301138A6B3A9111414F67DCEA97F2CFCEF0B4E67396AC7422E7AD3585E2F937E81C75DF6E47F11A711D29C5896FB7620EAA18BE1BFC563E4BC6D279209ADBC0FE78CD5AF41FDDA8338807C731B11210592780EC5F60517FA919B54A0D2DE57A9F93C99CEFA0E03B4DAE2AF5B0C8EBBB3C83539961172B047EBA77D626E169146355210C7D

def subByte (b : Byte) : Byte := BitVec.ofNat 8 (aesSbox / 256 ^ (255 - b.toNat))
def invSubByte (b : Byte) : Byte := BitVec.ofNat 8 (aesInvSbox / 256 ^ (255 - b.toNat))

/-- Multiplication by x in GF(2^8). -/
def xtime (b : Byte) : Byte := (b <<< 1) ^^^ (if b.getLsbD 7 then 0x1B#8 else 0#8)

/-- Multiplication by a small constant in GF(2^8). -/
def gmul (k : Nat) (b : Byte) : Byte :=
  (if bitOf k 0 then b else 0#8) ^^^ (if bitOf k 1 then xtime b else 0#8) ^^^
  (if bitOf k 2 then xtime (xtime b) else 0#8) ^^^ (if bitOf k 3 then xtime (xtime (xtime b)) else 0#8)

/-- Words of the key schedule, newest first, grown n times. -/
def keyExpand : Nat → List (List Byte) → List (List Byte)
  | 0, ws => ws
  | n + 1, ws =>
    let i := ws.length
    let t := ws.headD []
    let t := if i % 8 = 0 then
        let r := (t.drop 1 ++ t.take 1).map subByte
        xorBytes r [BitVec.ofNat 8 (2 ^ (i / 8 - 1)), 0#8, 0#8, 0#8]
      else if i % 8 = 4 then t.map subByte else t
    keyExpand n (xorBytes (ws.getD 7 []) t :: ws)

/-- The fifteen round keys of a 256-bit key. -/
def roundKeys (key : BitVec 256) : List (List Byte) :=
  let ws := (keyExpand 52 (chunksOf 4 (beBytes 32 key.toNat)).reverse).reverse
  (List.range 15).map fun r => ((List.range 4).map fun i => ws.getD (4 * r + i) []).flatten

/-- Rows of the column-major state rotated left by their number. -/
def shiftRows (s : List Byte) : List Byte := (List.range 16).map fun i => s.getD ((i + 4 * (i % 4)) % 16) 0#8
def invShiftRows (s : List Byte) : List Byte := (List.range 16).map fun i => s.getD ((i + 12 * (i % 4)) % 16) 0#8

/-- Each column times a circulant of constants. -/
def mixWith (c : List Nat) (s : List Byte) : List Byte :=
  (List.range 16).map fun i =>
    (List.range 4).foldl (fun a j => a ^^^ gmul (c.getD ((j + 4 - i % 4) % 4) 0) (s.getD (i / 4 * 4 + j) 0#8)) 0#8

/-- AES-256 of one 16-byte block. -/
def aesBytes (key : BitVec 256) (b : List Byte) : List Byte :=
  let ks := roundKeys key
  let s := (List.range 13).foldl (fun s r =>
    xorBytes (mixWith [2, 3, 1, 1] (shiftRows (s.map subByte))) (ks.getD (r + 1) [])) (xorBytes b (ks.getD 0 []))
  xorBytes (shiftRows (s.map subByte)) (ks.getD 14 [])

/-- The inverse cipher. -/
def aesInvBytes (key : BitVec 256) (b : List Byte) : List Byte :=
  let ks := roundKeys key
  let s := (List.range 13).foldl (fun s r =>
    mixWith [14, 11, 13, 9] (xorBytes ((invShiftRows s).map invSubByte) (ks.getD (13 - r) [])))
    (xorBytes b (ks.getD 14 []))
  xorBytes ((invShiftRows s).map invSubByte) (ks.getD 0 [])

/-- AES-256 of a block given as a number. -/
def aes256 (key : BitVec 256) (b : Nat) : Nat := beNat (aesBytes key (beBytes 16 b))

/-! ### GHASH and GCM -/

/-- Multiplication in the field of GHASH: bit 0 of the standard is the block's highest bit. -/
def ghashMul (x y : BitVec 128) : BitVec 128 :=
  ((List.range 128).foldl (fun (zv : BitVec 128 × BitVec 128) i =>
    (if x.getLsbD (127 - i) then zv.1 ^^^ zv.2 else zv.1,
     (zv.2 >>> 1) ^^^ (if zv.2.getLsbD 0 then 0xE1000000000000000000000000000000#128 else 0#128))) (0#128, y)).1

/-- GHASH of a list of blocks. -/
def ghash (h : BitVec 128) (l : List (List Byte)) : BitVec 128 :=
  l.foldl (fun y b => ghashMul (y ^^^ BitVec.ofNat 128 (beNat (padTo 16 b))) h) 0#128

/-- The counter-mode stream over n bytes from a 96-bit nonce and a first block number. -/
def ctrStream (key : BitVec 256) (nonce first n : Nat) : List Byte :=
  (((List.range ((n + 15) / 16)).map fun i => aesBytes key (beBytes 16 (nonce * 2 ^ 32 + first + i))).flatten).take n

/-- The GCM tag of a ciphertext and its additional data. -/
def gcmTag (key : BitVec 256) (nonce : Nat) (aad ct : List Byte) : List Byte :=
  let h := BitVec.ofNat 128 (beNat (aesBytes key (List.replicate 16 0#8)))
  let s := ghash h (chunksOf 16 aad ++ chunksOf 16 ct ++ [beBytes 8 (8 * aad.length) ++ beBytes 8 (8 * ct.length)])
  xorBytes (beBytes 16 s.toNat) (aesBytes key (beBytes 16 (nonce * 2 ^ 32 + 1)))

/-- GCM encryption: ciphertext and tag. -/
def gcmSeal (key : BitVec 256) (nonce : Nat) (aad pt : List Byte) : List Byte × List Byte :=
  let ct := xorBytes pt (ctrStream key nonce 2 pt.length)
  (ct, gcmTag key nonce aad ct)

/-- GCM decryption: the plaintext when the tag verifies. -/
def gcmOpen (key : BitVec 256) (nonce : Nat) (aad ct tag : List Byte) : Option (List Byte) :=
  if gcmTag key nonce aad ct = tag then some (xorBytes ct (ctrStream key nonce 2 ct.length)) else none

/-! ### AES-KW -/

/-- One unwrap pass: A and the registers from step t down. -/
def kwUnwrapSteps (key : BitVec 256) (n : Nat) : Nat → List Byte × List (List Byte) → List Byte × List (List Byte)
  | 0, st => st
  | t + 1, (a, r) =>
    let i := t % n
    let b := aesInvBytes key (xorBytes a (beBytes 8 (t + 1)) ++ r.getD i [])
    kwUnwrapSteps key n t (b.take 8, r.set i (b.drop 8))

/-- Unwrap a key: the key when the integrity value is the standard's. -/
def kwUnwrap (key : BitVec 256) (c : List Byte) : Option (List Byte) :=
  let n := c.length / 8 - 1
  let r := kwUnwrapSteps key n (6 * n) (c.take 8, chunksOf 8 (c.drop 8))
  if r.1 = List.replicate 8 0xA6#8 then some r.2.flatten else none

/-! ### SHA-384, HMAC, HKDF -/

/-- The round constants, twenty to a number, the first highest. -/
def shaK0 : Nat := 0x428A2F98D728AE227137449123EF65CDB5C0FBCFEC4D3B2FE9B5DBA58189DBBC3956C25BF348B53859F111F1B605D019923F82A4AF194F9BAB1C5ED5DA6D8118D807AA98A303024212835B0145706FBE243185BE4EE4B28C550C7DC3D5FFB4E272BE5D74F27B896F80DEB1FE3B1696B19BDC06A725C71235C19BF174CF692694E49B69C19EF14AD2EFBE4786384F25E30FC19DC68B8CD5B5240CA1CC77AC9C65
def shaK1 : Nat := 0x2DE92C6F592B02754A7484AA6EA6E4835CB0A9DCBD41FBD476F988DA831153B5983E5152EE66DFABA831C66D2DB43210B00327C898FB213FBF597FC7BEEF0EE4C6E00BF33DA88FC2D5A79147930AA72506CA6351E003826F142929670A0E6E7027B70A8546D22FFC2E1B21385C26C9264D2C6DFC5AC42AED53380D139D95B3DF650A73548BAF63DE766A0ABB3C77B2A881C2C92E47EDAEE692722C851482353B
def shaK2 : Nat := 0xA2BFE8A14CF10364A81A664BBC423001C24B8B70D0F89791C76C51A30654BE30D192E819D6EF5218D69906245565A910F40E35855771202A106AA07032BBD1B819A4C116B8D2D0C81E376C085141AB532748774CDF8EEB9934B0BCB5E19B48A8391C0CB3C5C95A634ED8AA4AE3418ACB5B9CCA4F7763E373682E6FF3D6B2B8A3748F82EE5DEFB2FC78A5636F43172F6084C87814A1F0AB728CC702081A6439EC
def shaK3 : Nat := 0x90BEFFFA23631E28A4506CEBDE82BDE9BEF9A3F7B2C67915C67178F2E372532BCA273ECEEA26619CD186B8C721C0C207EADA7DD6CDE0EB1EF57D4F7FEE6ED17806F067AA72176FBA0A637DC5A2C898A6113F9804BEF90DAE1B710B35131C471B28DB77F523047D8432CAAB7B40C724933C9EBE0A15C9BEBC431D67C49C100D4C4CC5D4BECB3E42B6597F299CFC657E2A5FCB6FAB3AD6FAEC6C44198C4A475817

/-- Round constant i. -/
def shaK (i : Nat) : DWord :=
  let n := if i < 20 then shaK0 else if i < 40 then shaK1 else if i < 60 then shaK2 else shaK3
  BitVec.ofNat 64 (n / 2 ^ (64 * (19 - i % 20)))

/-- The initial hash value of SHA-384. -/
def shaInit : List DWord := (List.range 8).map fun i => BitVec.ofNat 64
  (0xCBBB9D5DC1059ED8629A292A367CD5079159015A3070DD17152FECD8F70E593967332667FFC00B318EB44A8768581511DB0C2E0D64F98FA747B5481DBEFA4FA4 / 2 ^ (64 * (7 - i)))

/-- The message schedule, newest first, grown n times. -/
def shaExpand : Nat → List DWord → List DWord
  | 0, w => w
  | n + 1, w =>
    let x1 := w.getD 1 0#64
    let x15 := w.getD 14 0#64
    let s1 := x1.rotateRight 19 ^^^ x1.rotateRight 61 ^^^ (x1 >>> 6)
    let s0 := x15.rotateRight 1 ^^^ x15.rotateRight 8 ^^^ (x15 >>> 7)
    shaExpand n ((s1 + w.getD 6 0#64 + s0 + w.getD 15 0#64) :: w)

/-- One block of the compression function. -/
def shaBlock (hs : List DWord) (b : List Byte) : List DWord :=
  let w := (shaExpand 64 ((chunksOf 8 b).map fun c => BitVec.ofNat 64 (beNat c)).reverse).reverse
  let out := (List.range 80).foldl (fun (v : List DWord) i =>
    let e := v.getD 4 0#64
    let a := v.getD 0 0#64
    let t1 := v.getD 7 0#64 + (e.rotateRight 14 ^^^ e.rotateRight 18 ^^^ e.rotateRight 41) +
      ((e &&& v.getD 5 0#64) ^^^ (~~~e &&& v.getD 6 0#64)) + shaK i + w.getD i 0#64
    let t2 := (a.rotateRight 28 ^^^ a.rotateRight 34 ^^^ a.rotateRight 39) +
      ((a &&& v.getD 1 0#64) ^^^ (a &&& v.getD 2 0#64) ^^^ (v.getD 1 0#64 &&& v.getD 2 0#64))
    [t1 + t2, a, v.getD 1 0#64, v.getD 2 0#64, v.getD 3 0#64 + t1, e, v.getD 5 0#64, v.getD 6 0#64]) hs
  (List.range 8).map fun i => hs.getD i 0#64 + out.getD i 0#64

/-- SHA-384: 48 bytes. -/
def sha384 (m : List Byte) : List Byte :=
  let z := (111 + 128 - m.length % 128) % 128
  let p := m ++ [0x80#8] ++ List.replicate z 0#8 ++ beBytes 16 (8 * m.length)
  (((chunksOf 128 p).foldl shaBlock shaInit).map fun w => beBytes 8 w.toNat).flatten.take 48

/-- HMAC-SHA-384. -/
def hmac384 (key m : List Byte) : List Byte :=
  let k := padTo 128 (if key.length > 128 then sha384 key else key)
  sha384 (k.map (· ^^^ 0x5C#8) ++ sha384 (k.map (· ^^^ 0x36#8) ++ m))

/-- HKDF-Extract. -/
def hkdfExtract (salt ikm : List Byte) : List Byte := hmac384 salt ikm

/-- HKDF-Expand, first n bytes (at most 96 here). -/
def hkdfExpand (prk info : List Byte) (n : Nat) : List Byte :=
  let t1 := hmac384 prk (info ++ [1#8])
  (t1 ++ (if n > 48 then hmac384 prk (t1 ++ info ++ [2#8]) else [])).take n

/-- A string's bytes. -/
def asciiBytes (s : String) : List Byte := s.toList.map fun c => BitVec.ofNat 8 c.toNat

/-- The number of a byte string as a key. -/
def keyOf (l : List Byte) : BitVec 256 := BitVec.ofNat 256 (beNat (l.take 32))

/-! ### P-384 -/

def p384p : Nat := 0xFFFFFFFFFFFFFFFFFFFFFFFFFFFFFFFFFFFFFFFFFFFFFFFFFFFFFFFFFFFFFFFEFFFFFFFF0000000000000000FFFFFFFF
def p384n : Nat := 0xFFFFFFFFFFFFFFFFFFFFFFFFFFFFFFFFFFFFFFFFFFFFFFFFC7634D81F4372DDF581A0DB248B0A77AECEC196ACCC52973
def p384gx : Nat := 0xAA87CA22BE8B05378EB1C71EF320AD746E1D3B628BA79B9859F741E082542A385502F25DBF55296C3A545E3872760AB7
def p384gy : Nat := 0x3617DE4A96262C6F5D9E98BF9292DC29F8F41DBD289A147CE9DA3113B5F0B8C00A60B1CE1D7E819D7A431D7C90EA0E5F
def p384b : Nat := 0xB3312FA7E23EE7E4988E056BE3F82D19181D9C6EFE8141120314088F5013875AC656398D8A2ED19D2A85C8EDD3EC2AEF

/-- Powers modulo m by the bits of the exponent, lowest first. -/
def powMod (m : Nat) : Nat → Nat → Nat → Nat → Nat
  | 0, _, _, acc => acc
  | f + 1, b, e, acc => powMod m f (b * b % m) (e / 2) (if e % 2 = 1 then acc * b % m else acc)

/-- The inverse modulo a prime. -/
def invMod (m a : Nat) : Nat := powMod m 384 (a % m) (m - 2) 1

/-- A point of the curve; none is the point at infinity. -/
abbrev EcPoint := Option (Nat × Nat)

/-- Point addition. -/
def ecAdd : EcPoint → EcPoint → EcPoint
  | none, q => q
  | p, none => p
  | some (x1, y1), some (x2, y2) =>
    let p := p384p
    if x1 = x2 ∧ (y1 + y2) % p = 0 then none
    else
      let l := if x1 = x2 then (3 * x1 * x1 + p - 3) * invMod p (2 * y1) % p
        else (y2 + p - y1) * invMod p (x2 + p - x1) % p
      let x3 := (l * l + 2 * p - x1 - x2) % p
      some (x3, (l * (x1 + p - x3) + p - y1) % p)

/-- Scalar multiplication by the bits of k, lowest first. -/
def ecMul : Nat → Nat → EcPoint → EcPoint → EcPoint
  | 0, _, _, acc => acc
  | f + 1, k, q, acc => ecMul f (k / 2) (ecAdd q q) (if k % 2 = 1 then ecAdd acc q else acc)

/-- k times the base point. -/
def ecBase (k : Nat) : EcPoint := ecMul 384 k (some (p384gx, p384gy)) none

/-- Is a pair of numbers a point of the curve? -/
def onCurve (x y : Nat) : Bool := x < p384p && y < p384p && (y * y) % p384p = (x * x * x + (p384p - 3) * x + p384b) % p384p

/-- ECDH: the x coordinate of the shared point, 48 bytes. -/
def ecdh (d x y : Nat) : Option (List Byte) :=
  if onCurve x y then (ecMul 384 d (some (x, y)) none).map fun q => beBytes 48 q.1 else none

/-- An ECDSA signature r followed by s, 96 bytes, of a digest, with the signer's secret number k. -/
def ecdsaSign (d k : Nat) (digest : List Byte) : List Byte :=
  let r := (match ecBase k with
    | some (x, _) => x
    | none => 0) % p384n
  let s := invMod p384n k * (beNat digest + r * d) % p384n
  beBytes 48 r ++ beBytes 48 s

/-- Does a signature verify? -/
def ecdsaVerify (qx qy : Nat) (digest sig : List Byte) : Bool :=
  let r := beNat (sig.take 48)
  let s := beNat ((sig.drop 48).take 48)
  let w := invMod p384n s
  let u := ecAdd (ecMul 384 (beNat digest * w % p384n) (some (p384gx, p384gy)) none)
    (ecMul 384 (r * w % p384n) (some (qx, qy)) none)
  onCurve qx qy && 0 < r && r < p384n && 0 < s && s < p384n &&
  (match u with
   | some (x, _) => x % p384n = r
   | none => false)

end Sys2Proof.Machine
end

