-- ==== Sys2Proof/Machine/Hbm.lean ====
section
/-!
DEFINITION. HBM channels and the memory protection engine: where an address lies, the counter input, ciphertext, tags,
counter blocks and tree, admission by key ID, reads and writes of granules, key rolls, erase and refresh (spec/07).
-/
namespace Sys2Proof.Machine

def State.chan (s : State) (g : Nat) : Chan := sget {} s.hbm.chans g
def State.setChan (s : State) (g : Nat) (c : Chan) : State := { s with hbm := { s.hbm with chans := sput {} g c s.hbm.chans } }
def State.stack (s : State) (n : Nat) : Stack := sget {} s.hbm.stk n
def State.setStack (s : State) (n : Nat) (c : Stack) : State := { s with hbm := { s.hbm with stk := sput {} n c s.hbm.stk } }
def State.key (s : State) (k : Nat) : KeySlot := sget {} s.hbm.keys k
def State.setKey (s : State) (k : Nat) (c : KeySlot) : State := { s with hbm := { s.hbm with keys := sput {} k c s.hbm.keys } }
def State.carve (s : State) (v k : Nat) : Carve := sget {} (s.vd v).carves k
def State.setCarve (s : State) (v k : Nat) (c : Carve) : State :=
  s.setVd v { s.vd v with carves := sput {} k c (s.vd v).carves }

/-! ### Addresses (R190–R193) -/

/-- Data capacity of a channel by mode (R192). -/
def chanData (mode : Nat) : Nat := if mode = 3 then 0xF0000000 else 0xE0000000

/-- Lines of a protection granule (R192). -/
def granLines (mode : Nat) : Nat := if mode = 3 then 4 else 1

/-- Granule bytes. -/
def granBytes (mode : Nat) : Nat := 64 * granLines mode

/-- The interleave granule G (R191). -/
def interleaveG (mode il : Nat) : Nat :=
  match il with
  | 0 => 256
  | 1 => 4096
  | 2 => 2 ^ 21
  | _ => chanData mode

/-- Position and channel-local address of a carve-out offset (R191). -/
def chanOf (mode il c off : Nat) : Nat × Nat :=
  let g := interleaveG mode il
  if il = 3 then (off / g, off % g)
  else
    let n := off / g
    (n % c, n / c * g + off % g)

/-- The carve-out offset of a position and channel-local address. -/
def offsetOf (mode il c pos loc : Nat) : Nat :=
  let g := interleaveG mode il
  if il = 3 then pos * g + loc else (loc / g * c + pos) * g + loc % g

/-- The channels of a carve-out by position, in the request's routing epoch (R309). -/
def Carve.map (c : Carve) (old : Bool) : List Nat := if old then c.old.getD c.chans else c.chans

/-- Tag base, counter base and tree base (R192). -/
def tagBase (mode : Nat) : Nat := if mode = 3 then 0xF0000000 else 0xE0000000
def ctrBase (mode : Nat) : Nat := if mode = 3 then 0xF7800000 else 0xFC000000
def treeBase : Nat := 0xFF800000

/-- Offset of level k in the tree region (R193). -/
def levelOff (k : Nat) : Nat := [0, 0x000000, 0x700000, 0x7E0000, 0x7FC000, 0x7FF800, 0x7FFF00].getD k 0

/-- Channel-local address of node j of level k. -/
def nodeAddr (k j : Nat) : Nat := treeBase + levelOff k + 64 * j

/-- Key of node j of level k, or of its version in its parent; level 0 stands for the counter blocks. -/
def nodeKey (k j : Nat) : Nat := 131072 * 8 * k + j

/-! ### Encryption and tags (R194–R197) -/

/-- The counter input I. -/
def counterInput (gen ch line major minor : Nat) (tag : Bool) (i : Nat) : Nat :=
  gen % 256 * 2 ^ 120 + ch * 2 ^ 112 + line * 2 ^ 86 + major % 2 ^ 24 * 2 ^ 62 + minor * 2 ^ 55 + b2n tag * 4 + i

/-- The keystream of a line: AES-256 of the counter inputs of its four chunks. -/
def lineStream (k : BitVec 256) (gen ch line major minor : Nat) : BitVec 512 :=
  BitVec.ofNat 512 (leNat ((List.range 4).map fun i =>
    aesBytes k (beBytes 16 (counterInput gen ch line major minor false i))).flatten)

/-- The bytes of a line. -/
def lineBytes (d : BitVec 512) : List Byte := leBytes 64 d.toNat

/-- The tag rule of R195 over some bytes, with the counter input given. -/
def tagRule (k : BitVec 256) (i : Nat) (bs : List Byte) : DWord :=
  let h := BitVec.ofNat 128 (aes256 k 0)
  let g := ghash h (chunksOf 16 bs ++ [beBytes 16 (8 * bs.length)])
  (g ^^^ BitVec.ofNat 128 (aes256 k i)).setWidth 64

/-- The tag of a granule's ciphertext (R195). -/
def granTag (k : BitVec 256) (gen ch line major minor : Nat) (ls : List (BitVec 512)) : DWord :=
  tagRule k (counterInput gen ch line major minor true 0) (ls.map lineBytes).flatten

/-- A counter block's bits [479:0]. -/
def CtrBlk.body (b : CtrBlk) : Nat := b.gen * 2 ^ 472 + b.minors.toNat * 2 ^ 24 + b.major

/-- CHECK of a counter block: the tag rule with the page's first line, no counters, and in TREE the parent's version (R196). -/
def ctrCheck (k : BitVec 256) (ch page ver : Nat) (b : CtrBlk) : Word :=
  (tagRule k (counterInput b.gen ch (64 * page) ver 0 true 0) (leBytes 60 b.body)).setWidth 32

/-- The tag of a tree node over its eight versions (R197). -/
def nodeTag (k : BitVec 256) (gen ch addr ver : Nat) (vs : List Nat) : DWord :=
  tagRule k (counterInput gen ch (addr / 64) ver (ver / 2 ^ 24 % 128) true 0)
    (leBytes 56 ((vs.zipIdx.map fun x => x.1 % 2 ^ 56 * 2 ^ (56 * x.2)).sum))

/-! ### A channel's contents -/

/-- The counter block of a page. -/
def Chan.ctr (c : Chan) (p : Nat) : CtrBlk := sget { gen := c.fmtGen } c.ctrs p
def Chan.setCtr (c : Chan) (p : Nat) (b : CtrBlk) : Chan := { c with ctrs := sput { gen := c.fmtGen } p b c.ctrs }

/-- Minor counter j. -/
def CtrBlk.minor (b : CtrBlk) (j : Nat) : Nat := bitsOf b.minors.toNat (7 * j + 6) (7 * j)
def CtrBlk.setMinor (b : CtrBlk) (j v : Nat) : CtrBlk :=
  { b with minors := (b.minors &&& ~~~(BitVec.ofNat 448 (127 * 2 ^ (7 * j)))) ||| BitVec.ofNat 448 (v % 128 * 2 ^ (7 * j)) }

/-- Index of a line's minor counter in its page. -/
def minorIdx (mode line : Nat) : Nat := line % 64 / granLines mode

/-- The pair of a key slot for a generation; none where the slot holds neither (R201). -/
def KeySlot.pair (k : KeySlot) (gen : Nat) : Option KeyPair :=
  if gen = k.gen then some k.cur
  else if k.st = .rolling ∧ (gen + 1) % 256 = k.gen then some k.prev else none

/-- The stored ciphertext of a line; a line as formatted is the encryption of zero (R206). -/
def Chan.stored (c : Chan) (g : Nat) (fp : KeyPair) (line : Nat) : BitVec 512 :=
  match sget none c.lines line with
  | some d => d
  | none => lineStream fp.dataKey c.fmtGen g line 0 0

/-- Lines of the granule that holds a line. -/
def granOf (mode line : Nat) : List Nat := (List.range (granLines mode)).map fun i => line / granLines mode * granLines mode + i

/-- The stored tag of a granule, by its first line. -/
def Chan.storedTag (c : Chan) (g : Nat) (fp : KeyPair) (line0 : Nat) : DWord :=
  match sget none c.tags (line0 / granLines c.mode) with
  | some t => t
  | none => granTag fp.tagKey c.fmtGen g line0 0 0
      ((granOf c.mode line0).map fun l => lineStream fp.dataKey c.fmtGen g l 0 0)

/-- Does a granule's tag verify under the page's counters? -/
def Chan.tagOk (c : Chan) (g : Nat) (fp kp : KeyPair) (line : Nat) : Bool :=
  let ls := granOf c.mode line
  let b := c.ctr (line / 64)
  let m := b.minor (minorIdx c.mode line)
  c.storedTag g fp (ls.headD 0) = granTag kp.tagKey b.gen g (ls.headD 0) b.major m (ls.map (c.stored g fp))

/-- The plaintext of a line under the page's counters. -/
def Chan.plain (c : Chan) (g : Nat) (fp kp : KeyPair) (line : Nat) : BitVec 512 :=
  let b := c.ctr (line / 64)
  c.stored g fp line ^^^ lineStream kp.dataKey b.gen g line b.major (b.minor (minorIdx c.mode line))

/-- Write a granule's lines under given counters: ciphertext and tag; poison and flaws clear. -/
def Chan.putGranule (c : Chan) (g : Nat) (kp : KeyPair) (line0 gen major minor : Nat) (ds : List (BitVec 512)) : Chan :=
  let cts := ds.zipIdx.map fun x => x.1 ^^^ lineStream kp.dataKey gen g (line0 + x.2) major minor
  let ls := cts.zipIdx.foldl (fun m x => sput none (line0 + x.2) (some x.1) m) c.lines
  let n := ds.length
  { c with lines := ls,
           tags := sput none (line0 / granLines c.mode) (some (granTag kp.tagKey gen g line0 major minor cts)) c.tags,
           poison := (List.range n).foldl (fun m i => sput false (line0 + i) false m) c.poison,
           flaw := (List.range n).foldl (fun m i => sput Ecc.clean (line0 + i) Ecc.clean m) c.flaw }

/-- Poison a granule. -/
def Chan.poisonGran (c : Chan) (line : Nat) : Chan :=
  { c with poison := (granOf c.mode line).foldl (fun m l => sput false l true m) c.poison }

/-! ### Records -/

/-- The VD memory address of a channel-local address, in the owner's present map. -/
def State.vdAddr (s : State) (g loc : Nat) : Nat :=
  let c := s.chan g
  let cv := s.carve c.owner c.carve
  c.carve * 2 ^ 40 + offsetOf c.mode cv.il cv.chans.length ((cv.chans.findIdx? fun x => x = g).getD 0) loc

/-- INDEX of an HBM or MPE record in the owner's ring (R442). -/
def State.posIndex (s : State) (g : Nat) : Nat :=
  let c := s.chan g
  c.carve * 256 + (((s.carve c.owner c.carve).chans.findIdx? fun x => x = g).getD 0)

/-- Log an error of a channel for its owner. -/
def State.chanErr (s : State) (unit g sev status action loc : Nat) : State :=
  s.logErr { unit := unit, index := g, sev := sev, vd := (s.chan g).owner, status := status, action := action,
             info := BitVec.ofNat 128 loc,
             det := { index := s.posIndex g, akind := 1, addr := s.vdAddr g loc } }

/-! ### Metadata checks (R198 steps 2 and 3, R210, R211) -/

/-- How a granule request is answered. -/
inductive MpeAns where
  | ok (d : List (BitVec 512))        -- the granule's lines
  | poisoned (d : List (BitVec 512))  -- the same, poisoned
  | fail (status : Nat)
  | wait
  deriving DecidableEq, Repr

/-- Is a page in a poisoned subtree, or its channel's root lost? -/
def Chan.subBad (c : Chan) (p : Nat) : Bool := (c.rootBadA && c.rootBadB) || c.badSub.any fun r => r.1 ≤ p && p < r.2

/-- Poison the subtree of level k over page p, with its record (R210). -/
def State.poisonSub (s : State) (g k p status : Nat) : State :=
  let c := s.chan g
  let w := 8 ^ k
  let lo := p / w * w
  (s.setChan g { c with badSub := c.badSub ++ [(lo, lo + w)] }).chanErr uMpe g sevContained status actPoison (4096 * lo)

/-- Versions of the children of node j of level k (k from 1). -/
def Chan.children (c : Chan) (k j : Nat) : List Nat := (List.range 8).map fun i => sget 0 c.vers (nodeKey (k - 1) (8 * j + i))

/-- The version a parent holds for node j of level k, 0 for a counter block. -/
def Chan.ver (c : Chan) (k j : Nat) : Nat := if c.mode = 2 then sget 0 c.vers (nodeKey k j) else 0

/-- Does node j of level k carry its tag? -/
def Chan.nodeOk (c : Chan) (g : Nat) (kp : KeyPair) (k j : Nat) : Bool :=
  match sget none c.nodeTags (nodeKey k j) with
  | none => true
  | some t => t = nodeTag kp.tagKey c.fmtGen g (nodeAddr k j) (c.ver k j) (c.children k j)

/-- What ECC finds at a channel-local metadata address. -/
def Chan.eccAt (c : Chan) (a : Nat) : Ecc := sget Ecc.clean c.flaw (a / 64)

/-- The levels whose nodes a read verifies, from the root down; 0 is the counter block. -/
def metaLevels (mode : Nat) : List Nat := if mode = 2 then [6, 5, 4, 3, 2, 1, 0] else [0]

/-- Verify one metadata block: none when it holds, else the status; a correctable error is corrected. -/
def State.checkMeta (s : State) (g p k : Nat) (kp : KeyPair) : Option Nat × State :=
  let c := s.chan g
  let j := p / 8 ^ k
  let a := if k = 0 then ctrBase c.mode + 64 * p else nodeAddr k j
  match c.eccAt a with
  | .uncorrectable => (some 0x31, s.poisonSub g k p 0x31)
  | e =>
    let s := if e = .corrected then
        (s.setChan g { c with flaw := sput Ecc.clean (a / 64) Ecc.clean c.flaw }).chanErr uMpe g sevCorrected 0 actNone a
      else s
    let ok := if k = 0 then
        match (c.ctr p).check with
        | none => true
        | some t => t = ctrCheck kp.tagKey g p (c.ver 0 p) (c.ctr p)
      else c.nodeOk g kp k j
    if ok then (none, s)
    else
      let c := s.chan g
      (some 0x30, (s.setChan g { c with tagFail := satAdd 16 c.tagFail 1, tagFailVf := satAdd 16 c.tagFailVf 1 }).poisonSub g k p 0x30)

/-- Verify every metadata block of a page that is not held verified; the first failure. -/
def State.checkPage (s : State) (g p : Nat) (kp : KeyPair) : Option Nat × State :=
  if sget false (s.chan g).dirtyMeta p then (none, s)
  else (metaLevels (s.chan g).mode).foldl (fun (r : Option Nat × State) k =>
    match r.1 with
    | some _ => r
    | none => r.2.checkMeta g p k kp) (none, s)

/-! ### Admission (R204) -/

/-- What admission finds. -/
inductive Admit where
  | ok (g loc : Nat) (cv : Nat)
  | refuse (status : Nat)

/-- Count a refusal on the channel the address maps to, if it maps to one. -/
def State.countKeyRef (s : State) (g : Option Nat) : State :=
  match g with
  | some g => let c := s.chan g
    s.setChan g { c with keyRef := satAdd 8 c.keyRef 1, keyRefVf := satAdd 8 c.keyRefVf 1 }
  | none => s

/-- The channel and local address a VD memory address maps to. -/
def State.mapAddr (s : State) (vd addr : Nat) (old : Bool) : Option (Nat × Nat) :=
  let cv := s.carve vd (bitsOf addr 41 40)
  let off := addr % 2 ^ 40
  let chans := cv.map old
  if chans.isEmpty ∨ off ≥ chans.length * chanData cv.mode then none
  else
    let p := chanOf cv.mode cv.il chans.length off
    some (chans.getD p.1 0, p.2)

/-- The checks of R204, in table order. -/
def State.admitLine (s : State) (vd key addr : Nat) (old : Bool) : Admit × State :=
  let k := s.key key
  let kc := bitsOf addr 41 40
  let cv := s.carve vd kc
  let m := s.mapAddr vd addr old
  let g := m.map Prod.fst
  let rec0 (s : State) : State := s.logErr { unit := uMpe, index := g.getD 0, sev := sevDeferred, status := 0x21 }
  if k.st = .retiring ∨ k.st = .zeroised then (.refuse 0x7F, s.countKeyRef g)
  else if k.st = .empty ∨ k.vd ≠ vd then (.refuse 0x21, rec0 (s.countKeyRef g))
  else if !cv.chans.isEmpty ∧ cv.key ≠ key then (.refuse 0x21, rec0 (s.countKeyRef g))
  else match m with
    | none => (.refuse 0x21, s.logErr { unit := uMpe, index := 0, sev := sevDeferred, vd := vd, status := 0x21,
                                        det := { index := kc * 256, akind := 1, addr := addr } })
    | some (g, loc) =>
      let st := (s.chan g).st
      if st = .bound ∨ st = .system ∨ (st = .incoming ∧ !old) then (.ok g loc kc, s)
      else (.refuse 0x21, rec0 s)

/-! ### Reads (R198, R208) -/

/-- The key pairs of a page: as formatted, and of its generation. -/
def State.pairs (s : State) (g p : Nat) : KeyPair × Option KeyPair :=
  let c := s.chan g
  let k := s.key c.key
  ((k.pair c.fmtGen).getD {}, k.pair (c.ctr p).gen)

/-- Poison a granule found bad on a read, with its counts and record. -/
def State.badGranule (s : State) (g line : Nat) (tag : Bool) : State :=
  let c := s.chan g
  let c := if tag then { c with tagFail := satAdd 16 c.tagFail 1, tagFailVf := satAdd 16 c.tagFailVf 1 }
    else { c with uncorr := satAdd 16 c.uncorr 1, uncorrVf := satAdd 16 c.uncorrVf 1, uncorrAll := c.uncorrAll + 1,
                  retReq := c.retReq || decide (c.uncorrAll + 1 ≥ 64) }
  (s.setChan g (c.poisonGran line)).chanErr (if tag then uMpe else uHbm) g sevContained (if tag then 0x30 else 0x31)
    actPoison (64 * line)

/-- A corrected line: written back, counted, logged. -/
def State.corrLine (s : State) (g line : Nat) : State :=
  let c := s.chan g
  (s.setChan g { c with corr := satAdd 16 c.corr 1, corrVf := satAdd 16 c.corrVf 1,
                        flaw := sput Ecc.clean line Ecc.clean c.flaw }).chanErr uHbm g sevCorrected 0 actNone (64 * line)

/-- The worse of two ECC findings. -/
def eccMax (a b : Ecc) : Ecc :=
  if a = .uncorrectable ∨ b = .uncorrectable then .uncorrectable
  else if a = .corrected ∨ b = .corrected then .corrected else .clean

/-- What ECC finds in a granule, with what a command says it finds. -/
def Chan.granEcc (c : Chan) (line : Nat) (e : Ecc) : Ecc :=
  (granOf c.mode line).foldl (fun a l => eccMax a (sget Ecc.clean c.flaw l)) e

/-- Data moved on a channel in this period (R217). -/
def State.touchChan (s : State) (g : Nat) : State :=
  let c := s.chan g
  s.setChan g { c with idlePeriods := 0 }

/-- Read and verify the granule that holds a line (R198 steps 2 to 5, R208). -/
def State.readGranule (s : State) (g line : Nat) (e : Ecc) : MpeAns × State :=
  let s := s.touchChan g
  let p := line / 64
  let zero := List.replicate (granLines (s.chan g).mode) 0#512
  if (s.chan g).subBad p then (.poisoned zero, s)
  else match s.pairs g p with
    | (_, none) => (.fail 0x30, s.poisonSub g 0 p 0x30)
    | (fp, some kp) =>
      match s.checkPage g p kp with
      | (some st, s) => (if st = 0x31 then .poisoned zero else .fail st, s)
      | (none, s) =>
        let c := s.chan g
        let ls := granOf c.mode line
        let data := ls.map (c.plain g fp kp)
        if ls.any fun l => sget false c.poison l then (.poisoned data, s)
        else match c.granEcc line e with
          | .uncorrectable => (.poisoned data, s.badGranule g line false)
          | e =>
            let s := if e = .corrected then s.corrLine g line else s
            if c.tagOk g fp kp line then (.ok data, s) else (.fail 0x30, s.badGranule g line true)

/-! ### Writes (R199–R201, R209) -/

/-- Re-encrypt a page: every line rewritten under a new generation and major, every minor the same; a granule whose
tag fails, or that is poisoned, is left poisoned (R200, R201). -/
def Chan.reencrypt (c : Chan) (g : Nat) (fp old new : KeyPair) (p gen major : Nat) : Chan :=
  let b := c.ctr p
  let n := granLines c.mode
  let c' := (List.range (64 / n)).foldl (fun (c' : Chan) i =>
    let l0 := 64 * p + n * i
    let bad := (granOf c.mode l0).any (fun l => sget false c.poison l) || !c.tagOk g fp old l0
    let c' := c'.putGranule g new l0 gen major 0 ((granOf c.mode l0).map (c.plain g fp old))
    if bad then c'.poisonGran l0 else c') c
  { c'.setCtr p { b with gen := gen, major := major, minors := 0#448 } with
    maxMajor := max c.maxMajor major, dirtyMeta := sput false p true c'.dirtyMeta }

/-- Channels of a key ID. -/
def State.keyChans (s : State) (k : Nat) : List Nat :=
  (s.hbm.chans.filter fun e => e.2.key = k && (e.2.st = .bound || e.2.st = .incoming || e.2.st = .system)).map Prod.fst

/-- The pair of a carve-out key's generation (R391); key ID 0's is random. -/
def KeySlot.derive (k : KeySlot) (gen : Nat) : KeyPair :=
  let prk := hkdfExtract (beBytes 32 k.cnonce.toNat) (beBytes 32 k.secret.toNat)
  let tail := [BitVec.ofNat 8 k.carve, BitVec.ofNat 8 gen]
  { dataKey := keyOf (hkdfExpand prk (asciiBytes "H9 data" ++ tail) 32),
    tagKey := keyOf (hkdfExpand prk (asciiBytes "H9 tag" ++ tail) 32) }

/-- A random pair: free values. -/
def State.randomPair (s : State) : KeyPair × State :=
  let a := s.takeFree 256
  let b := a.2.takeFree 256
  ({ dataKey := a.1, tagKey := b.1 }, b.2)

/-- Install the next generation of a key ID and start its sweep (R201 steps 1 and 3). -/
def State.rollKey (s : State) (k : Nat) : State :=
  let sl := s.key k
  let gen := (sl.gen + 1) % 256
  let r := if k = 0 then s.randomPair else (sl.derive gen, s)
  let s := r.2.setKey k { sl with st := .rolling, gen := gen, prev := sl.cur, cur := r.1, rollWaits := false }
  (s.keyChans k).foldl (fun s g => s.setChan g { s.chan g with sweep := some 0, maxMajor := 0 }) s

/-- Make room in a full minor counter: a page re-encryption, a key roll, or a wait for a running sweep (R200, R201). -/
def State.renewPage (s : State) (g p : Nat) : Bool × State :=
  let c := s.chan g
  let b := c.ctr p
  let old := (s.pairs g p)
  let kp := old.2.getD {}
  if b.major < 0xFFFFFF then (true, s.setChan g (c.reencrypt g old.1 kp kp p b.gen (b.major + 1)))
  else if (s.key c.key).st = .rolling then (false, s.setKey c.key { s.key c.key with rollWaits := true })
  else
    let s := s.rollKey c.key
    let sl := s.key c.key
    (true, s.setChan g ((s.chan g).reencrypt g old.1 kp sl.cur p sl.gen 0))

/-- The move whose source, or destination, is the channel. -/
def State.chMoveFrom (s : State) (g : Nat) : Option ChMove := s.hbm.moves.find? fun m => m.src = g
def State.chMoveTo (s : State) (g : Nat) : Option ChMove := s.hbm.moves.find? fun m => m.dst = g
def State.setChMove (s : State) (m : ChMove) : State :=
  { s with hbm := { s.hbm with moves := s.hbm.moves.map fun x => if x.src = m.src then m else x } }

/-- Does a request wait on a channel move (R313, R314)? -/
def State.chWaits (s : State) (g p : Nat) (needs write : Bool) : Bool :=
  (match s.chMoveTo g with
   | some m => needs && !sget false m.fresh p && (sget false m.dirty p || m.next ≤ p)
   | none => false) ||
  (match s.chMoveFrom g with
   | some m => write && m.holdWrites
   | none => false)

/-- A write marks its page dirty at a move's source and fresh at its destination. -/
def State.markPage (s : State) (g p : Nat) : State :=
  let s := match s.chMoveFrom g with
    | some m => s.setChMove { m with dirty := sput false p true m.dirty }
    | none => s
  match s.chMoveTo g with
  | some m => s.setChMove { m with fresh := sput false p true m.fresh, dirty := sput false p false m.dirty }
  | none => s

/-- Write a whole granule (R199). -/
def State.writeGranule (s : State) (g line0 : Nat) (ds : List (BitVec 512)) : MpeAns × State :=
  let s := s.touchChan g
  let p := line0 / 64
  if (s.chan g).subBad p then (.fail 0x31, s)
  else match (s.pairs g p).2 with
    | none => (.fail 0x30, s.poisonSub g 0 p 0x30)
    | some kp =>
      match s.checkPage g p kp with
      | (some st, s) => (.fail st, s)
      | (none, s) =>
        let c := s.chan g
        let j := minorIdx c.mode line0
        let r := if (c.ctr p).minor j = 127 then s.renewPage g p else (true, s)
        if !r.1 then (.wait, r.2)
        else
          let s := r.2
          let c := s.chan g
          let b := c.ctr p
          let m := b.minor j + 1
          let kp := ((s.pairs g p).2).getD {}
          let c := (c.putGranule g kp line0 b.gen b.major m ds).setCtr p (b.setMinor j m)
          (.ok [], (s.setChan g { c with dirtyMeta := sput false p true c.dirtyMeta,
                                         maxMajor := max c.maxMajor b.major }).markPage g p)

/-- New bytes over old where given. -/
def overlay (old : List (BitVec 512)) (new : List (Option Byte)) : List (BitVec 512) :=
  let ob := (old.map lineBytes).flatten
  (chunksOf 64 ((List.range ob.length).map fun i => ((new.getD i none).getD (ob.getD i 0#8)))).map fun c =>
    BitVec.ofNat 512 (leNat c)

/-- A partial write: a read-modify-write of the granule (R209). -/
def State.partialGranule (s : State) (g line0 : Nat) (new : List (Option Byte)) : MpeAns × State :=
  let c := s.chan g
  if (granOf c.mode line0).any (fun l => sget false c.poison l) ∨ c.subBad (line0 / 64) then (.fail 0x31, s)
  else match s.readGranule g line0 .clean with
    | (.ok d, s) => s.writeGranule g line0 (overlay d new)
    | (.wait, s) => (.wait, s)
    | (_, s) =>
      let c := s.chan g
      let c := { c.poisonGran line0 with rmwFail := satAdd 8 c.rmwFail 1, rmwFailVf := satAdd 8 c.rmwFailVf 1 }
      (.fail 0x30, (s.setChan g c).chanErr uMpe g sevContained 0x30 actPoison (64 * line0))

/-! ### Requests by VD memory address -/

/-- Read the line at an address, with the epoch's map (R198). -/
def State.mpeRead (s : State) (vd key addr : Nat) (old : Bool) (e : Ecc) : MpeAns × State :=
  match s.admitLine vd key addr old with
  | (.refuse st, s) => (.fail st, s)
  | (.ok g loc _, s) =>
    let line := loc / 64
    if s.chWaits g (line / 64) true false then (.wait, s)
    else
      let i := line % granLines (s.chan g).mode
      match s.readGranule g line e with
      | (.ok d, s) => (.ok [d.getD i 0#512], s)
      | (.poisoned d, s) => (.poisoned [d.getD i 0#512], s)
      | r => r

/-- Write bytes of one granule, given from the granule's start. -/
def State.mpeWrite (s : State) (vd key addr : Nat) (old : Bool) (new : List (Option Byte)) : MpeAns × State :=
  match s.admitLine vd key addr old with
  | (.refuse st, s) => (.fail st, s)
  | (.ok g loc _, s) =>
    let n := granLines (s.chan g).mode
    let line0 := loc / 64 / n * n
    let full := new.length = 64 * n && new.all Option.isSome
    if s.chWaits g (line0 / 64) (!full) true then (.wait, s)
    else if full then
      s.writeGranule g line0 ((chunksOf 64 (new.map fun b => b.getD 0#8)).map fun c => BitVec.ofNat 512 (leNat c))
    else s.partialGranule g line0 new

/-- Protection granule of the carve-out an address names. -/
def State.granAt (s : State) (vd addr : Nat) : Nat := granBytes (s.carve vd (bitsOf addr 41 40)).mode

/-- Status code of an answer, 0 for OK; `wait` has none. -/
def MpeAns.status : MpeAns → Nat
  | .ok _ => 0
  | .poisoned _ => 0x31
  | .fail st => st
  | .wait => 0

/-- An answer as reply words: 0 data, 1 poisoned data, 2 a status, 3 wait. -/
def MpeAns.words : MpeAns → List DWord
  | .ok d => 0#64 :: (d.map fun l => (List.range 8).map fun i => BitVec.ofNat 64 (l.toNat / 2 ^ (64 * i))).flatten
  | .poisoned d => 1#64 :: (d.map fun l => (List.range 8).map fun i => BitVec.ofNat 64 (l.toNat / 2 ^ (64 * i))).flatten
  | .fail st => [2#64, BitVec.ofNat 64 st]
  | .wait => [3#64]

/-- Does the VD's requests use the previous position map: never for new requests (R309). -/
def newEpoch : Bool := false

/-- HBM_READ: a read of the line that holds an address (R198, R204, R208). -/
def execHbmRead (vd key addr : Nat) (ecc : Ecc) (s : State) : Res :=
  let r := s.mpeRead vd key (addr / 64 * 64) newEpoch ecc
  .next (r.2.reply r.1.words)

/-- HBM_WRITE: a write of one 64-byte line (R199); a partial write in the system carve-out (R209). -/
def execHbmWrite (vd key addr : Nat) (data : BitVec 512) (s : State) : Res :=
  let g := s.granAt vd addr
  let base := addr / g * g
  let pad := addr / 64 * 64 - base
  let r := s.mpeWrite vd key base newEpoch
    (List.replicate pad none ++ (lineBytes data).map some ++ List.replicate (g - pad - 64) none)
  .next (r.2.reply r.1.words)

/-- PARTIAL_WRITE: the enabled bytes of a line (R209). -/
def execPartialWrite (vd key addr : Nat) (data : BitVec 512) (be : DWord) (s : State) : Res :=
  let g := s.granAt vd addr
  let base := addr / g * g
  let pad := addr / 64 * 64 - base
  let r := s.mpeWrite vd key base newEpoch
    (List.replicate pad none ++ ((lineBytes data).zipIdx.map fun x => if be.getLsbD x.2 then some x.1 else none) ++
      List.replicate (g - pad - 64) none)
  .next (r.2.reply r.1.words)

/-! ### The metadata cache (R202) -/

/-- Write one page's counter block back: CHECK, and in TREE a version up to the root and the tags on the path. -/
def Chan.flushPage (c : Chan) (g : Nat) (kp : KeyPair) (p : Nat) : Chan :=
  let c := if c.mode = 2 then
      (List.range 7).foldl (fun (c : Chan) k =>
        let key := nodeKey k (p / 8 ^ k)
        { c with vers := sput 0 key (sget 0 c.vers key + 1) c.vers }) c
    else c
  let b := c.ctr p
  let c := c.setCtr p { b with check := some (ctrCheck kp.tagKey g p (c.ver 0 p) b) }
  let c := { c with dirtyMeta := sput false p false c.dirtyMeta }
  if c.mode = 2 then
    (List.range 6).foldl (fun (c : Chan) i =>
      let k := i + 1
      let j := p / 8 ^ k
      let t := nodeTag kp.tagKey c.fmtGen g (nodeAddr k j) (c.ver k j) (c.children k j)
      { c with nodeTags := sput none (nodeKey k j) (some t) c.nodeTags }) c
  else c

/-- Flush a channel's metadata. -/
def State.flushChan (s : State) (g : Nat) : State :=
  (skeys (s.chan g).dirtyMeta).foldl (fun s p => s.setChan g ((s.chan g).flushPage g (((s.pairs g p).2).getD {}) p)) s

/-! ### Formatting and erasing (R206, R219) -/

/-- A channel with no contents: all bits zero. -/
def Chan.bare (c : Chan) : Chan :=
  { c with lines := [], tags := [], poison := [], flaw := [], ctrs := [], dirtyMeta := [], vers := [], nodeTags := [],
           rootBadA := false, rootBadB := false, badSub := [], maxMajor := 0, sweep := none }

/-- A channel that starts erasing belongs to no carve-out (R218, R219). -/
def State.toErasing (s : State) (g : Nat) : State :=
  let c := s.chan g
  s.setChan g { c.bare with st := .erasing, owner := 0, mode := 0, carve := 0, key := 0, fmtGen := 0 }

/-- CHANNEL_FORMAT_COMPLETE: a channel in FORMATTING holds its initial image and enters its carve-out; a system channel
becomes SYSTEM. -/
def execChannelFormatComplete (ch : Nat) (s : State) : Res :=
  let c := s.chan ch
  .next (if c.st = .formatting then
      s.setChan ch { c.bare with st := if c.mode = 3 then .system else .bound, fmtGen := (s.key c.key).gen }
    else s)

/-- CHANNEL_ERASE_COMPLETE: an ERASING channel becomes FREE; where a change has been granted it, its format pass
begins (R221, R305). -/
def execChannelEraseComplete (ch : Nat) (s : State) : Res :=
  let c := s.chan ch
  .next (if c.st = .erasing then
      match (s.vds.find? fun e => e.2.changes.any fun x => x.phase = .preparing && x.formatting.contains ch) with
      | some (v, d) =>
        match d.changes.head? with
        | some x =>
          let k := ((List.range 4).find? fun k => (sget [] x.place.chans k).contains ch).getD 0
          s.setChan ch { c.bare with st := .formatting, owner := v, carve := k, mode := ((x.alt.carves.getD k {})).mode,
                                     key := (s.carve v k).key }
        | none => s
      | none =>
        -- a channel of a stack served in the memory role passes to VD 0 (R319)
        if bitOf s.cmp.served (ch / 32) then s.setChan ch { c.bare with st := .formatting, mode := 3 }
        else s.setChan ch { c.bare with st := .free }
    else s)

/-! ### Key rolls and retirement (R201, R218) -/

/-- Re-encrypt every page of a channel still under the previous generation. -/
def State.sweepChan (s : State) (g : Nat) : State :=
  let c := s.chan g
  let sl := s.key c.key
  let oldGen := (sl.gen + 255) % 256
  let pages := ((skeys c.ctrs) ++ (skeys c.lines).map (· / 64)).dedup.filter fun p => (c.ctr p).gen = oldGen
  let c' := pages.foldl (fun (c' : Chan) p => c'.reencrypt g sl.prev sl.prev sl.cur p sl.gen 0) c
  -- pages never written are rewritten as encryptions of zero under the new generation
  s.setChan g { c' with sweep := none, fmtGen := if c.fmtGen = oldGen then sl.gen else c.fmtGen,
                        lines := c'.lines, maxMajor := c'.maxMajor }

/-- KEY_ROLL_SWEEP_END: every page is under the new generation; the previous pair is zeroised; a waiting roll follows. -/
def execKeyRollSweepEnd (k : Nat) (s : State) : Res :=
  let sl := s.key k
  .next (if sl.st = .rolling then
      let s := (s.keyChans k).foldl (fun s g => s.sweepChan g) s
      let s := s.setKey k { sl with st := .active, prev := {}, rollWaits := false }
      if sl.rollWaits then s.rollKey k else s
    else s)

/-- KEY_DRAIN_REPORT: admitted requests have finished and the metadata of the key's channels is flushed (R218). -/
def execKeyDrainReport (k : Nat) (s : State) : Res :=
  let sl := s.key k
  .next (if sl.st = .retiring then
      let s := (s.keyChans k).foldl (fun s g => s.flushChan g) s
      (s.keyChans k).foldl (fun s g => s.setChan g { s.chan g with sweep := none })
        (s.setKey k { sl with drained := true })
    else s)

/-- Zeroise a key slot: both pairs destroyed, its channels ERASING (R218). A key with no peer is released at once (R392). -/
def State.zeroiseKey (s : State) (k : Nat) : State :=
  let sl := s.key k
  let s := (s.keyChans k).foldl (fun s g => s.toErasing g) s
  if sl.peer = none then s.setKey k {}
  else s.setKey k { st := .zeroised, vd := sl.vd, peer := sl.peer, zeroAt := sl.zeroAt, drained := sl.drained }

/-- KEY_ZEROISATION: at the scheduled boundary of a drained key ID. -/
def execKeyZeroisation (k : Nat) (s : State) : Res :=
  let sl := s.key k
  .next (if sl.st = .retiring ∧ sl.drained ∧ (sl.zeroAt.any fun t => t ≤ s.toll) then s.zeroiseKey k else s)

/-- KEY_ID_RELEASE: a zeroised slot returns to EMPTY when its peer has confirmed drain (`drained` again, from KEYDRAIN),
or 4 toll periods after zeroisation (R218, R392). -/
def execKeyIdRelease (k : Nat) (s : State) : Res :=
  let sl := s.key k
  .next (if sl.st = .zeroised ∧ (sl.peer = none ∨ (sl.zeroAt.any fun t => t + 4 * tollPeriod ≤ s.toll)) then s.setKey k {}
    else s)

/-! ### Scrub, refresh and retirement (R213–R217) -/

/-- HBM_SCRUB_PATROL: the controller reads a line under ECC only (R214). -/
def execHbmScrubPatrol (ch line : Nat) (ecc : Ecc) (s : State) : Res :=
  let c := s.chan ch
  if c.st = .free ∨ c.st = .erasing ∨ c.st = .retired ∨ line ≥ 2 ^ 26 ∨
      s.regField (baseHbm + 0x10000 * (ch / 32) + 0x10) 31 31 = 0 then .next s
  else
    let s := s.setChan ch { c with scrubPos := (line + 1) % 2 ^ 26 }
    if 64 * line ≥ chanData c.mode then .next s
    else .next (match eccMax ecc (sget Ecc.clean c.flaw line) with
      | .clean => s
      | .corrected => s.corrLine ch line
      | .uncorrectable => if sget false c.poison line then s else s.badGranule ch line false)

/-- A stack reports its temperature: TEMP, HOT at 95 °C, and the refresh rate for the next boundary (R213). -/
def State.stackTemp (s : State) (stack temp : Nat) : State :=
  let k := s.stack stack
  s.setStack stack { k with temp := temp % 256, hot := decide (temp ≥ 95),
                            refrNext := if temp ≥ 85 then true else if temp < 80 then false else k.refrNext }

/-- REFRESH_RATE_SWITCH: the rate decided takes effect at a toll boundary (R213). -/
def execRefreshRateSwitch (stack : Nat) (s : State) : Res :=
  let k := s.stack stack
  .next (if s.toll % tollPeriod = 0 ∧ stack < 8 then s.setStack stack { k with refr2 := k.refrNext } else s)

/-- HBM_PHY_LANE_FAILURE: the channel asks to be retired (R215). -/
def execHbmPhyLaneFailure (ch : Nat) (s : State) : Res :=
  .next (if ch < 256 then s.setChan ch { s.chan ch with retReq := true } else s)

/-- Constant m of a mode in 1/1,024ths (R222). -/
def metaConst (mode : Nat) : Nat := match mode with
  | 1 => 144
  | 2 => 304
  | 3 => 48
  | _ => 0

/-- Budget in whole percent: e ÷ (1 + m), m in 1/1,024ths times 1,000,000 for the constants' exact values (R216). -/
def budgetPct (e1000 mMillion : Nat) : Nat := e1000 * 100 * 1000 / (1000000 + mMillion)

/-- m of a mode in millionths, to the precision R216 gives. -/
def metaMillion (mode : Nat) : Nat := match mode with
  | 1 => 140625
  | 2 => 296875
  | 3 => 46875
  | _ => 0

/-- Deliverable budget of a mode in whole percent (R217). -/
def deliverablePct (mode : Nat) : Nat := budgetPct 945 (metaMillion mode)

/-- Raw rate of a channel in tenths of GB/s by RATE code (R217). -/
def rawRate10 (rate : Nat) : Nat := match rate with
  | 0 => 800
  | 1 => 640
  | _ => 512

/-- Deliverable budget of a channel in MB/s. -/
def State.deliverable (s : State) (mode : Nat) : Nat := deliverablePct mode * rawRate10 s.hbm.rate

/-- The current budget of one channel at a boundary (R217); a measured ratio is a free value (assumption 8). -/
def State.rebudget (s : State) (g : Nat) : State :=
  let c := s.chan g
  let e := if (s.stack (g / 32)).refr2 then 910 else 945
  if c.st = .retired then s.setChan g { c with budget := 0, metam := 0 }
  else if c.mode = 0 then s.setChan g { c with budget := 0, metam := 0 }
  else if c.idlePeriods < 16 then
    let f := s.takeFree 10
    let m := f.1.toNat
    let mm := max (m * 1000000 / 1024) (metaMillion c.mode)
    f.2.setChan g { c with metam := m, budget := budgetPct e mm, idlePeriods := c.idlePeriods + 1 }
  else s.setChan g { c with metam := metaConst c.mode, budget := budgetPct e (metaMillion c.mode) }

/-- Current budget of a channel in MB/s. -/
def State.curBudget (s : State) (g : Nat) : Nat := (s.chan g).budget * rawRate10 s.hbm.rate

end Sys2Proof.Machine
end

