-- ==== Sys2Proof/Machine/Seedbank.lean ====
section
/-!
DEFINITION. The Seedbank: bins, owners and slots, requests, poison, scrub, clearing and the hot set (spec/06).
-/
namespace Sys2Proof.Machine

def State.bin (s : State) (b : Nat) : Bin := sget {} s.sbk.bins b
def State.setBin (s : State) (b : Nat) (x : Bin) : State := { s with sbk := { s.sbk with bins := sput {} b x s.sbk.bins } }
def State.region (s : State) (p : Nat) : Region := sget {} s.sbk.regions p
def State.setRegion (s : State) (p : Nat) (x : Region) : State :=
  { s with sbk := { s.sbk with regions := sput {} p x s.sbk.regions } }
def State.hotEntry (s : State) (e : Nat) : HotEntry := sget {} s.sbk.hot e
def State.setHot (s : State) (e : Nat) (x : HotEntry) : State :=
  { s with sbk := { s.sbk with hot := sput {} e x s.sbk.hot } }

/-- Physical line address of line L of bin b (R155). -/
def physLine (b l : Nat) : Nat := b * 2 ^ 18 + l
/-- Pod region of a bin (R155). -/
def binPod (b : Nat) : Nat := b / 4
/-- Store domain of a bin: one per SRAM die of 32 pod regions (R170, R433). -/
def binDomain (b : Nat) : Nat := b / 128
/-- Bank and row of line L of bin b (R156). -/
def bankOf (l : Nat) : Nat := (bitsOf l 4 0) ^^^ (bitsOf l 9 5) ^^^ (bitsOf l 14 10)
def rowOf (b l : Nat) : Nat := b % 4 * 8192 + bitsOf l 17 5

/-- Is a domain's down sideband asserted (R170)? -/
def State.isDown (s : State) (k : Nat) : Bool := sget false s.rst.down k

/-! ### Slots (R159) -/

/-- The working slot map that a request of the VD uses: the previous epoch's for a context still on it. -/
def State.workSlots (s : State) (v : Nat) (old : Bool) : List Nat :=
  let d := s.vd v
  if old then (d.oldPlace.getD d.place).slots else d.place.slots

/-- The slots of a context: working bins, then the bins of each hot-set entry its exec names, in order. -/
def State.ctxSlots (s : State) (v c : Nat) : List Nat :=
  s.workSlots v (s.ctx c).oldEpoch ++ ((s.ctx c).hot.map fun e => (s.hotEntry e).bins).flatten

/-- Slot and line of a store line address (R79). -/
def slotOf (a : Nat) : Nat := bitsOf a 27 18
def lineOf (a : Nat) : Nat := a % 2 ^ 18

/-- STORE_RANGE of a transfer of n lines from a over slots of a given number (R79). -/
def storeRangeBad (a n slots : Nat) : Bool :=
  a / 2 ^ 28 ≠ 0 || (n ≠ 0 && (a + n - 1) / 2 ^ 18 ≥ slots)

/-- The slot of a bin in a VD's working map, for its own error records. -/
def State.slotOfBin (s : State) (v b : Nat) : Nat := ((s.vd v).place.slots.findIdx? fun x => x = b).getD 1023

/-! ### Requests (R157, R158, R172–R174, R179) -/

/-- How a Seedbank request is answered. -/
inductive SbAns where
  | data (d : BitVec 512) (poison : Bool)
  | done
  | refused       -- R158
  | targetReset   -- R170
  | poisoned      -- a byte-masked write to a poisoned line (R174)
  | wait          -- a dirty line of a move, or held writes (R179, R313)
  deriving DecidableEq, Repr

/-- The accepted requests of R157. -/
def Bin.accepts (b : Bin) (vd : Nat) (hotOk newEpoch : Bool) : Bool :=
  match b.st with
  | .owned => b.owner = vd && vd ≠ 0
  | .incoming => b.owner = vd && newEpoch
  | .hot => b.owner = vd && hotOk
  | .system => vd = 0
  | _ => false

/-- The line at a physical line address, with its poison bit. -/
def State.sbLine (s : State) (pa : Nat) : BitVec 512 × Bool := (readLine s.sbk.mem (64 * pa), sget false s.sbk.poison pa)

/-- A full-line write sets the poison bit to the poison it carries (R174). -/
def State.sbPut (s : State) (pa : Nat) (d : BitVec 512) (poison : Bool) : State :=
  { s with sbk := { s.sbk with mem := writeLine s.sbk.mem (64 * pa) d, poison := sput false pa poison s.sbk.poison } }

/-- Bytes of a line where the enable is set. -/
def mergeBytes (old new : BitVec 512) (be : DWord) : BitVec 512 :=
  BitVec.ofNat 512 (leNat ((List.range 64).map fun i =>
    if be.getLsbD i then BitVec.ofNat 8 (new.toNat / 2 ^ (8 * i)) else BitVec.ofNat 8 (old.toNat / 2 ^ (8 * i))))

/-- A corrected word: counted and logged, coalesced per pod region (R173). -/
def State.sbCorrected (s : State) (b : Nat) : State :=
  let r := s.region (binPod b)
  (s.setRegion (binPod b) { r with corr := satAdd 16 r.corr 1, corrVf := satAdd 16 r.corrVf 1 }).logErr
    { unit := uSeedbank, index := binPod b, sev := sevCorrected }

/-- INDEX of a Seedbank record in a VD's ring: the shape pod above the region, 0xFFFF for a far bin (R442). -/
def State.shapePodOf (s : State) (v p : Nat) : Nat := ((s.vd v).place.pods.findIdx? fun x => x = p).getD 0xFFFF

/-- An uncorrectable line: poison, counts, RETREQ at 16, and a DEFERRED record for the bin's owner (R173, R175). -/
def State.sbUncorrectable (s : State) (b l : Nat) : State :=
  let r := s.region (binPod b)
  let x := s.bin b
  let unc := min 31 (x.unc + 1)
  let s := s.setRegion (binPod b) { r with uncorr := satAdd 16 r.uncorr 1, uncorrVf := satAdd 16 r.uncorrVf 1 }
  let s := s.setBin b { x with unc := unc, retReq := x.retReq || unc ≥ 16 }
  let s := { s with sbk := { s.sbk with poison := sput false (physLine b l) true s.sbk.poison } }
  s.logErr { unit := uSeedbank, index := binPod b, sev := sevDeferred, vd := x.owner, action := actPoison,
             info := BitVec.ofNat 128 (physLine b l),
             det := { index := s.shapePodOf x.owner (binPod b), akind := 2,
                      addr := s.slotOfBin x.owner b * 2 ^ 18 + l } }

/-- What the bank's ECC finds when it reads a line (R173). -/
def State.sbEcc (s : State) (b l : Nat) (e : Ecc) : State :=
  match e with
  | .clean => s
  | .corrected => s.sbCorrected b
  | .uncorrectable => s.sbUncorrectable b l

/-- A refused request: counted and logged DEFERRED for VD 0 (R158). -/
def State.sbRefuse (s : State) (b : Nat) : State :=
  let r := s.region (binPod b)
  (s.setRegion (binPod b) { r with fail := satAdd 32 r.fail 1 }).logErr
    { unit := uSeedbank, index := binPod b, sev := sevDeferred, status := 0x21 }

/-- The move whose source, or whose destination, is the bin. -/
def State.moveFrom (s : State) (b : Nat) : Option BinMove := s.sbk.moves.find? fun m => m.src = b
def State.moveTo (s : State) (b : Nat) : Option BinMove := s.sbk.moves.find? fun m => m.dst = b

/-- Replace the move of a source bin. -/
def State.setMove (s : State) (m : BinMove) : State :=
  { s with sbk := { s.sbk with moves := s.sbk.moves.map fun x => if x.src = m.src then m else x } }

/-- Mark a line of a moving source dirty (R179 step 3). -/
def State.markDirty (s : State) (b l : Nat) : State :=
  match s.moveFrom b with
  | some m => s.setMove { m with dirty := sput false l true m.dirty }
  | none => s

/-- Mark a line of a destination fresh; the engine then never copies it (R179 step 4). -/
def State.markFresh (s : State) (b l : Nat) : State :=
  match s.moveTo b with
  | some m => s.setMove { m with fresh := sput false l true m.fresh, dirty := sput false l false m.dirty }
  | none => s

/-- Does a request to a bin wait on a move: a new-epoch access that needs a line still dirty or not yet copied, or an
old-epoch write that R313 holds? -/
def State.moveWaits (s : State) (b l : Nat) (needsLine write : Bool) : Bool :=
  (match s.moveTo b with
   | some m => needsLine && !sget false m.fresh l && (sget false m.dirty l || m.next ≤ l)
   | none => false) ||
  (match s.moveFrom b with
   | some m => write && m.holdWrites
   | none => false)

/-- Perform a checked request on a line. -/
def State.sbPerform (s : State) (b l : Nat) (op : SbOp) (e : Ecc) : SbAns × State :=
  let pa := physLine b l
  match op with
  | .read =>
    let s := s.sbEcc b l e
    let x := s.sbLine pa
    (.data x.1 x.2, s)
  | .write d be poison =>
    if be = BitVec.allOnes 64 then
      (.done, ((s.sbPut pa d poison).markDirty b l).markFresh b l)
    else
      let s := s.sbEcc b l e
      if (s.sbLine pa).2 then (.poisoned, s)
      else (.done, ((s.sbPut pa (mergeBytes (s.sbLine pa).1 d be) poison).markDirty b l).markFresh b l)

/-- A Seedbank request: the domain, the check of R158, the waits of a move, then the access. -/
def State.sbRequest (s : State) (b l : Nat) (r : SbReq) : SbAns × State :=
  let full : Bool := match r.op with
    | .read => false
    | .write _ be _ => be = BitVec.allOnes 64
  let isWrite : Bool := match r.op with
    | .read => false
    | .write .. => true
  if s.isDown (binDomain b) then (if r.vd = 0 then .wait else .targetReset, s)
  else if !(s.bin b).accepts r.vd r.hotOk r.newEpoch then (.refused, s.sbRefuse b)
  else if s.moveWaits b l (!full) isWrite then (.wait, s)
  else s.sbPerform b l r.op r.ecc

/-- The answer as reply words: a code, the poison bit, then the line. -/
def SbAns.words : SbAns → List DWord
  | .data d p => 0#64 :: BitVec.ofNat 64 (b2n p) :: (List.range 8).map fun i => BitVec.ofNat 64 (d.toNat / 2 ^ (64 * i))
  | .done => [1#64]
  | .refused => [2#64]
  | .targetReset => [3#64]
  | .poisoned => [4#64]
  | .wait => [5#64]

/-- SEEDBANK_REQUEST: the bank controller checks a request and performs or refuses it (R158). -/
def execSeedbankRequest (bin line : Nat) (r : SbReq) (s : State) : Res :=
  if bin < 512 ∧ line < 2 ^ 18 then
    let a := s.sbRequest bin line r
    .next (a.2.reply a.1.words)
  else .next s

/-! ### Clearing (R176, R177) -/

/-- Drop the cells of a range: they read as zero again. -/
def clearRange {α : Type} (m : SMap α) (lo hi : Nat) : SMap α := m.filter fun e => e.1 < lo || hi ≤ e.1

/-- A bin leaves its owner and is to be cleared (R176). -/
def State.toClearing (s : State) (b : Nat) : State :=
  let x := s.bin b
  s.setBin b { x with st := .clearing, owner := 0, hotId := 0, retire := x.retire || x.retReq }

/-- Zero a bin's lines and poison bits. -/
def State.zeroBin (s : State) (b : Nat) : State :=
  { s with sbk := { s.sbk with mem := clearRange s.sbk.mem (64 * physLine b 0) (64 * physLine (b + 1) 0),
                               poison := clearRange s.sbk.poison (physLine b 0) (physLine (b + 1) 0) } }

/-- Bins of a region in CLEARING, in rising number. -/
def State.clearingIn (s : State) (p : Nat) : List Nat :=
  ((List.range 4).map fun i => 4 * p + i).filter fun b => (s.bin b).st = .clearing

/-- BIN_CLEAR_COMPLETE: bins of a region clear one after another in rising number; a cleared bin is FREE, or RETIRED
where retirement was requested (R175, R177). -/
def execBinClearComplete (b : Nat) (s : State) : Res :=
  if (s.clearingIn (binPod b)).head? = some b ∧ s.isDown (binDomain b) = false then
    let x := s.bin b
    .next ((s.zeroBin b).setBin b
      { x with st := if x.retire then BinState.retired else BinState.free, owner := 0, hotId := 0, retire := false, retReq := false })
  else .next s

/-- SBK_CLRSTAT.PENDING (R184). -/
def State.clearPending (s : State) : Nat := (s.sbk.bins.filter fun e => e.2.st = .clearing).length

/-! ### Scrub (R175) -/

/-- Lines of a pod region: four bins. -/
def regionLines : Nat := 4 * 2 ^ 18

/-- The end of a pass: the position wraps and the pass is counted. -/
def Region.advance (r : Region) (toll : Nat) : Region :=
  if r.scrubPos + 1 < regionLines then { r with scrubPos := r.scrubPos + 1 }
  else { r with scrubPos := 0, passStart := toll, lateCounted := false, passes := (r.passes + 1) % 65536 }

/-- SCRUB_LINE: the region's engine reads its next line in a maintenance cycle no clearing uses. A corrected word is
written back unless a request has written the line since (`racing`); an uncorrectable line of a FREE bin is cleared. -/
def execScrubLine (pod : Nat) (ecc : Ecc) (racing : Bool) (s : State) : Res :=
  if s.regField (baseSbk + 0x2000) 31 31 = 0 ∨ s.clearingIn pod ≠ [] ∨ s.isDown (pod / 32) ∨ pod ≥ 128 then .next s
  else
    let r := s.region pod
    let b := 4 * pod + r.scrubPos / 2 ^ 18
    let l := r.scrubPos % 2 ^ 18
    let s1 := match ecc with
      | .clean => s
      | .corrected => if racing then s else s.sbCorrected b
      | .uncorrectable =>
        if (s.bin b).st = BinState.free then
          let q := s.region pod
          let s := s.setRegion pod { q with uncorr := satAdd 16 q.uncorr 1, uncorrVf := satAdd 16 q.uncorrVf 1 }
          let x := s.bin b
          let unc := min 31 (x.unc + 1)
          let s := s.setBin b { x with unc := unc, retReq := x.retReq || unc ≥ 16 }
          (s.sbPut (physLine b l) 0#512 false).logErr { unit := uSeedbank, index := pod, sev := sevDeferred }
        else s.sbUncorrectable b l
    let q := s1.region pod
    let late := s.toll - q.passStart > ms (s.regField (baseSbk + 0x2000) 15 0)
    let s2 := if late ∧ q.lateCounted = false then { s1 with sbk := { s1.sbk with late := satAdd 16 s1.sbk.late 1 } } else s1
    .next (s2.setRegion pod ({ q with lateCounted := q.lateCounted || late }.advance s.toll))

/-! ### Arbiter statistics (R171, R184) -/

/-- ERR_STATUS.RSVW: a PF write reached a reserved field or code (R11). -/
def State.setRsvw (s : State) : State := { s with rst := { s.rst with rsvw := true } }

/-- SBK_ARBSEL_WRITE: select an arbiter and class, latch its three counts and clear them in the arbiter. -/
def execSbkArbselWrite (v : Word) (s : State) : Res :=
  let n := v.toNat
  let bad := bitsOf n 12 4 ≥ 280
  let arb := if bad then s.sbk.arbSel / 16 else bitsOf n 12 4
  let key := 16 * arb + n % 16
  let s1 := if bad ∨ n ≥ 2 ^ 13 then s.setRsvw else s
  .next { s1 with sbk := { s1.sbk with arbSel := key, latched := sget {} s1.sbk.stats key,
                                       stats := sput {} key {} s1.sbk.stats } }

/-! ### The hot set (R180–R183) -/

/-- Hops between two pods' routers (R164), and across the seam. -/
def podHops (a b : Nat) : Nat :=
  (max (a % 8) (b % 8) - min (a % 8) (b % 8)) + (max (a / 8) (b / 8) - min (a / 8) (b / 8))

/-- Insert a number before the first whose key is not below its own. -/
def sortIns (key : Nat → Nat) (b : Nat) : List Nat → List Nat
  | [] => [b]
  | x :: l => if key b ≤ key x then b :: x :: l else x :: sortIns key b l

/-- Numbers in rising order of a key, ties in the order given. -/
def sortBy (key : Nat → Nat) (l : List Nat) : List Nat := l.foldr (sortIns key) []

/-- FREE bins, in rising number. -/
def State.freeBins (s : State) : List Nat := (List.range 512).filter fun b =>
  (s.bin b).st = .free && !s.vds.any fun e => e.2.changes.head?.any fun c => c.phase ≠ .waiting && c.place.slots.contains b

/-- Candidate bins for a resident entry, in the order of preference of R181; a quiet VD's entry only beneath its own
pods. -/
def State.hotPlacement (s : State) (v : Nat) (quiet : Bool) : List Nat :=
  let pods := s.podsOf v
  let p0 := pods.headD 0
  let free := s.freeBins
  let near := free.filter fun b => pods.contains (binPod b)
  let rest := free.filter fun b => !pods.contains (binPod b)
  let far (h : Nat) : List Nat := sortBy (fun b => podHops p0 (binPod b)) (rest.filter fun b => podHalf (binPod b) = h)
  near ++ (if quiet then [] else far (podHalf p0) ++ far (1 - podHalf p0))

/-- Give bins to an entry as HOT bins of its VD. -/
def State.giveHot (s : State) (v e : Nat) (bins : List Nat) : State :=
  bins.foldl (fun s b => s.setBin b { s.bin b with st := .hot, owner := v, hotId := e }) s

/-- Entries that may be evicted: resident, not referenced, not pinned, not loading (R183). -/
def State.evictable (s : State) (only : Option Nat) : List Nat :=
  (s.sbk.hot.filter fun x => x.2.used && x.2.resident && x.2.refs = 0 && !x.2.pin && !x.2.loading &&
    (match only with | some v => x.2.vd = v | none => true)).map Prod.fst

/-- The victim of R183: lowest priority, then oldest last use, then lowest number. -/
def State.victim (s : State) (l : List Nat) : Option Nat :=
  l.foldl (fun best e => match best with
    | none => some e
    | some b =>
      let x := s.hotEntry e
      let y := s.hotEntry b
      if x.prio < y.prio ∨ (x.prio = y.prio ∧ (x.lastUse < y.lastUse ∨ (x.lastUse = y.lastUse ∧ e < b))) then some e
      else best) none

/-- Evict an entry: its bins are cleared while the entry and its reference stay (R181). -/
def State.evict (s : State) (e : Nat) : State :=
  let x := s.hotEntry e
  (x.bins.foldl (fun s b => s.toClearing b) s).setHot e { x with resident := false, bins := [] }

/-- Bins of a VD in HOT state (R180). -/
def State.hotBins (s : State) (v : Nat) : Nat := (s.sbk.bins.filter fun e => e.2.st = .hot && e.2.owner = v).length

/-- Bins of a VD's pinned entries (R180). -/
def State.pinnedBins (s : State) (v : Nat) : Nat :=
  ((s.sbk.hot.filter fun e => e.2.used && e.2.vd = v && e.2.pin).map fun e => e.2.need).sum

/-- The lowest number of a hot-set entry that is free. -/
def State.freeHot (s : State) : Option Nat := lowestKey (fun e => !(s.hotEntry e).used) 512 0

/-- An entry is released: its bins are cleared and the entry removed (R180). -/
def State.dropHot (s : State) (e : Nat) : State :=
  ((s.hotEntry e).bins.foldl (fun s b => s.toClearing b) s).setHot e {}

end Sys2Proof.Machine
end

