-- ==== Sys2Proof/Machine/QueueOps.lean ====
section
/-!
DEFINITION. Queues: command slots and their fields, the progress and statuses of commands, completion records, the
sealed journal, object references and handles (spec/10 R270–R285, R290–R292, R498).
-/
namespace Sys2Proof.Machine

/-! ### Slots and statuses (R274, R278, R279, R498) -/

/-- A field of a slot: `w` bits from bit `lo` of the byte at `off`. -/
def slotField (d : BitVec 512) (off lo w : Nat) : Nat := d.toNat / 2 ^ (8 * off + lo) % 2 ^ w
def Cmd.fld (c : Cmd) (off lo w : Nat) : Nat := slotField c.slot off lo w
def Cmd.opc (c : Cmd) : Nat := c.fld 0 0 8
def Cmd.fence (c : Cmd) : Bool := c.fld 0 8 1 = 1
def Cmd.noirq (c : Cmd) : Bool := c.fld 0 9 1 = 1
def Cmd.sig (c : Cmd) : Bool := c.fld 0 10 1 = 1
def Cmd.sigfail (c : Cmd) : Bool := c.fld 0 11 1 = 1
def Cmd.ctxv (c : Cmd) : Bool := c.fld 0 12 1 = 1
def Cmd.ctx (c : Cmd) : Nat := c.fld 0 16 12
def Cmd.stl (c : Cmd) : Nat := c.fld 4 0 16
def Cmd.tag (c : Cmd) : Nat := c.fld 4 16 16
def Cmd.sval (c : Cmd) : Nat := c.fld 8 0 64

/-- Statuses of R279. -/
def stOK : Nat := 0x00
def stPartial : Nat := 0x01
def stRetired : Nat := 0x10
def stBadHandle : Nat := 0x11
def stTransFault : Nat := 0x20
def stPermission : Nat := 0x21
def stIntegrity : Nat := 0x30
def stPoisoned : Nat := 0x31
def stPeerLost : Nat := 0x40
def stStateLost : Nat := 0x41
def stFallback : Nat := 0x50
def stDeadline : Nat := 0x51
def stPreempted : Nat := 0x60
def stTargetReset : Nat := 0x70
def stAdmission : Nat := 0x7E
def stAborted : Nat := 0x7F

/-- Rank of a status under R498, the first the least. -/
def statusRank (st : Nat) : Nat :=
  if st = stPeerLost ∨ st = stStateLost then 0
  else if st = stAborted then 1 else if st = stPermission then 2 else if st = stTargetReset then 3
  else if st = stIntegrity then 4 else if st = stPoisoned then 5 else if st = stOK then 9 else 6

/-- A command meets a condition that calls for a status: the one R498 puts first stays. -/
def Cmd.meet (c : Cmd) (st detail : Nat) : Cmd :=
  if statusRank st < statusRank c.status then { c with status := st, detail := detail } else c

/-- Is a command numbered `seq` held by the engine? -/
def State.hasCmd (s : State) (seq : Nat) : Bool := seq ≠ 0 && (s.cmd seq).seq = seq

/-- Change a command that the engine holds. -/
def State.modCmd (s : State) (seq : Nat) (f : Cmd → Cmd) : State :=
  if s.hasCmd seq then s.setCmd seq (f (s.cmd seq)) else s

/-- A command's effect has ended: the completion can be written (R278). A status met before stays if R498 puts it first. -/
def State.finish (s : State) (seq st detail : Nat) : State :=
  s.modCmd seq fun c => { c.meet st detail with phase := .ready }

/-- Finish with results. -/
def State.finishR (s : State) (seq st detail r0 r1 : Nat) : State :=
  (s.modCmd seq fun c => { c with result0 := r0, result1 := r1 }).finish seq st detail

/-- Commands of a queue that have not completed, in slot order. -/
def State.cmdsOf (s : State) (q : Nat) : List Cmd := (s.que.cmds.filter fun e => e.2.q = q).map Prod.snd

/-- May a waiting command start: earlier commands of its queue have started, FENCE and TL_WAIT do not hold it (R275,
R288), and its VD's TDI is in RUN where it has one (R272). -/
def State.canStart (s : State) (c : Cmd) : Bool :=
  let earlier := (s.cmdsOf c.q).filter fun x => x.seq < c.seq
  c.phase = .waiting && earlier.all (fun x => x.phase ≠ .waiting) &&
    earlier.all (fun x => x.opc ≠ 0x0C) && (!c.fence || earlier.isEmpty) && !s.que.halted

/-- A command's row: it starts when it may, or goes on when it has started; otherwise nothing changes. -/
def runCmd (seq opc : Nat) (s : State) (f : Cmd → State → State) : Res :=
  let c := s.cmd seq
  .next (if s.hasCmd seq ∧ c.opc = opc ∧ (s.canStart c ∨ c.phase = .running) then
      let c := { c with phase := .running }
      f c (s.setCmd seq c)
    else s)

/-! ### Objects and handles (R284, R285) -/

/-- Index and generation of a handle. -/
def handleIdx (h : Nat) : Nat := h % 2 ^ 20
def handleGen (h : Nat) : Nat := bitsOf h 31 20
/-- The handle of an object. -/
def State.handle (s : State) (i : Nat) : Nat := (s.obj i).gen * 2 ^ 20 + i

/-- Acceptance check 4 of a handle: 0 where it passes, else the status. -/
def State.handleCheck (s : State) (vd h : Nat) : Nat :=
  let o := s.obj (handleIdx h)
  if handleGen h = o.gen ∧ o.vd = vd ∧ o.st = .active then 0
  else if (handleGen h = o.gen ∧ o.vd = vd ∧ (o.st = .retiring ∨ o.st = .scrubbing)) ∨
      (handleGen h ≠ 0 ∧ handleGen h < o.gen ∧ o.retiredBy = some vd) then stRetired
  else stBadHandle

/-- An object with no reference left is scrubbed (R285). -/
def State.settleObj (s : State) (i : Nat) : State :=
  let o := s.obj i
  if o.st = .active ∧ o.href = 0 then s.setObj i { o with st := if o.dref = 0 then .scrubbing else .retiring }
  else if o.st = .retiring ∧ o.dref = 0 then s.setObj i { o with st := .scrubbing }
  else s

/-- Take a device reference. -/
def State.takeRef (s : State) (i : Nat) : State := s.setObj i { s.obj i with dref := (s.obj i).dref + 1 }

/-- Release a device reference. -/
def State.dropRef (s : State) (i : Nat) : State :=
  (s.setObj i { s.obj i with dref := (s.obj i).dref - 1 }).settleObj i

/-- An object becomes FREE with the next generation (R285); one whose generation is spent stays out of use. -/
def State.freeObj (s : State) (i : Nat) : State :=
  let o := s.obj i
  s.setObj i { gen := if o.gen < 0xFFF then o.gen + 1 else o.gen, dead := o.dead || o.gen ≥ 0xFFF,
               retiredBy := some o.vd, skipped := o.skipped }

/-! ### The journal (R290, R291) -/

/-- Records of the ring. -/
def journalSize : Nat := 524288

def State.jrec (s : State) (i : Nat) : JRec := sget {} s.que.jrn i
def State.setJrec (s : State) (i : Nat) (r : JRec) : State := { s with que := { s.que with jrn := sput {} i r s.que.jrn } }

/-- Bytes +0x00 to +0x1F of a record. -/
def JRec.header (r : JRec) : List Byte :=
  leBytes 8 r.seq ++ leBytes 8 r.tacc ++ leBytes 4 (r.vd + 2 ^ 7 * b2n r.done + 2 ^ 8 * r.qp) ++
    leBytes 4 r.slotIdx ++ leBytes 8 r.tdone

/-- Bytes +0x20 to +0x6F in clear. -/
def jrnBody (slot : BitVec 512) (status lq rej detail r0 : Nat) : List Byte :=
  leBytes 64 slot.toNat ++ leBytes 4 (status + 2 ^ 8 * lq + 2 ^ 16 * rej) ++ leBytes 4 detail ++ leBytes 4 r0 ++ leBytes 4 0

/-- The GCM nonce of a record: SEQ low, 1 above for the rewrite at completion. -/
def jrnNonce (seq : Nat) (done : Bool) : Nat := b2n done * 2 ^ 64 + seq

/-- Seal a body under the VD's journal key. -/
def State.sealRec (s : State) (r : JRec) (body : List Byte) : JRec :=
  let x := gcmSeal (s.vd r.vd).jkey (jrnNonce r.seq r.done) r.header body
  { r with body := BitVec.ofNat 640 (leNat x.1), tag := BitVec.ofNat 128 (leNat x.2) }

/-- Open a record's body, if its tag verifies. -/
def State.openRec (s : State) (r : JRec) : Option (List Byte) :=
  gcmOpen (s.vd r.vd).jkey (jrnNonce r.seq r.done) r.header (leBytes 80 r.body.toNat) (leBytes 16 r.tag.toNat)

/-- The record of a command, as it stands. -/
def State.journal (s : State) (c : Cmd) (done : Bool) : State :=
  let r : JRec := { seq := c.seq, tacc := c.tacc, vd := c.vd, done := done, qp := c.q, slotIdx := c.slotIdx,
                    tdone := if done then s.toll else 0 }
  let lq := (s.pair c.q).lq
  let body := if done then jrnBody c.slot c.status lq (b2n c.rej) c.detail c.result0
    else jrnBody c.slot 0 lq (b2n c.rej) (if c.rej then c.detail else 0) 0
  s.setJrec (c.seq % journalSize) (s.sealRec r body)

/-- Can the engine take a slot: is the next journal index free of an unfinished record (R290)? -/
def State.journalReady (s : State) : Bool :=
  let r := s.jrec (s.que.seq % journalSize)
  r.seq = 0 || r.done

/-! ### Completion records (R273, R278) -/

/-- Slots of a ring by size code. -/
def ringSlots (sz : Nat) : Nat := 2 ^ (sz + 6)

/-- A completion record without its phase bit. -/
def State.cqRecord (s : State) (c : Cmd) : BitVec 1024 :=
  let w0 := c.tag + 2 ^ 16 * c.status + 2 ^ 25 * b2n c.rej + 2 ^ 26 * b2n c.ext.isSome
  let w1 := c.opc + 2 ^ 8 * (s.pair c.q).lq + 2 ^ 16 * c.slotIdx
  BitVec.ofNat 1024 (w0 + 2 ^ 32 * w1 + 2 ^ 64 * c.seq + 2 ^ 128 * s.toll + 2 ^ 192 * c.detail + 2 ^ 224 * c.result0 +
    2 ^ 256 * c.result1 + 2 ^ 512 * (c.ext.getD 0#512).toNat)

/-- Function that owns a queue pair (R270). -/
def State.qFn (s : State) (q : Nat) : Nat :=
  let p := s.pair q
  if p.vd = 0 then p.pf
  else match (s.vd p.vd).vf with
    | some (a, n) => vfFn a n
    | none => p.pf

/-- Is the queue's VD served: VD 0 always, a tenant while its TDI is in RUN (R263). -/
def State.qRun (s : State) (q : Nat) : Bool :=
  let p := s.pair q
  p.vd = 0 || match (s.vd p.vd).vf with
    | some (a, n) => (s.vf a n).tdi = .run
    | none => false

/-- Is a Selective IDE Stream bound to VF n of a port Secure (R261)? -/
def State.secureStream (s : State) (p n : Nat) : Bool := (s.port p).streams.any fun e => e.2.vf = n && e.2.secure

/-- Can the queue's function reach host memory: its link is up, and a tenant's requests use its Secure stream (R262). -/
def State.qLive (s : State) (q : Nat) : Bool :=
  let p := s.pair q
  (s.port (fnPort (s.qFn q))).up && (p.vd = 0 || match (s.vd p.vd).vf with
    | some (a, n) => s.secureStream a n
    | none => false)

/-- Write the oldest held record of a queue, if its ring has room (R273); a write that fails stops the queue. -/
def State.writeHeld (s : State) (q : Nat) : State :=
  let p := s.pair q
  let n := ringSlots p.cqsz
  match p.held with
  | [] => s
  | (r, noirq) :: rest =>
    if p.st ≠ .active ∨ (p.cqtail + 1) % n = p.cqhead then s
    else if !s.qLive q then s.setPair q { p with st := .stopped, err := 2, held := [] }
    else
      let rec' := r ||| BitVec.ofNat 1024 (b2n p.phase * 2 ^ 24)
      let s := { s with host := { s.host with mem := writeLE s.host.mem (p.cqbase + 128 * p.cqtail) 128 rec'.toNat } }
      let t := (p.cqtail + 1) % n
      let s := s.setPair q { p with held := rest, cqtail := t, phase := if t = 0 then !p.phase else p.phase }
      if noirq || !s.qRun q then s else s.raise (s.qFn q) p.vec

/-- Write held records while there is room, at most n. -/
def State.writeHeldN (s : State) (q : Nat) : Nat → State
  | 0 => s
  | n + 1 =>
    let s' := s.writeHeld q
    if (s'.pair q).held.length < (s.pair q).held.length then s'.writeHeldN q n else s'

end Sys2Proof.Machine
end

