-- ==== Sys2Proof/Machine/Xlt.lean ====
section
/-!
DEFINITION. Address translation: page tables and walks, cached entries, host memory through ATS, invalidations and the
fault rings (spec/08), and the rows that drive them.
-/
namespace Sys2Proof.Machine

def State.space (s : State) (v : Nat) : Space := sget {} s.xlt.spaces v
def State.setSpace (s : State) (v : Nat) (x : Space) : State :=
  { s with xlt := { s.xlt with spaces := sput {} v x s.xlt.spaces } }

/-! ### Page tables (R224–R226) -/

/-- Index of a VA at a level. -/
def vaIndex (level va : Nat) : Nat := match level with
  | 4 => bitsOf va 51 39
  | 3 => bitsOf va 38 30
  | 2 => bitsOf va 29 21
  | _ => bitsOf va 20 12

/-- log2 of the page a leaf of a level maps. -/
def leafShift (level : Nat) : Nat := match level with
  | 3 => 30
  | 2 => 21
  | _ => 12

/-- Fields of an entry. -/
def pteV (e : Nat) : Bool := bitOf e 0
def pteLeaf (e : Nat) : Bool := bitOf e 1
def pteTgt (e : Nat) : Nat := bitsOf e 3 2
def pteR (e : Nat) : Bool := bitOf e 4
def pteW (e : Nat) : Bool := bitOf e 5
def ptePri (e : Nat) : Bool := bitOf e 8
def pteAddr (e : Nat) : Nat := bitsOf e 63 12 * 4096

/-- Is a valid entry malformed (R226)? -/
def malformed (level e : Nat) : Bool :=
  let leaf := pteLeaf e
  bitsOf e 11 9 ≠ 0 || bitsOf e 7 6 ≠ 0 ||
  (if leaf then
     level = 4 || pteTgt e ≥ 2 || (ptePri e && pteTgt e ≠ 1) || pteAddr e % 2 ^ leafShift level ≠ 0 ||
       (pteTgt e = 0 && bitsOf e 63 42 ≠ 0)
   else
     level = 1 || pteTgt e ≠ 0 || pteR e || pteW e || ptePri e || bitsOf e 63 42 ≠ 0)

/-! ### Walks (R227–R232, R235, R241) -/

/-- What a translation yields. -/
inductive Trans where
  /-- A VD memory address. -/
  | mem (addr : Nat)
  /-- A host address presented by a function. -/
  | host (fn addr : Nat)
  /-- A fault that stalls the request. -/
  | fault (f : WalkFault)
  /-- The request completes with a status; a TABLE_READ also has a record. -/
  | done (status : Nat) (f : Option WalkFault)
  /-- An answer of the host is awaited, or a moving page. -/
  | wait
  deriving DecidableEq, Repr

/-- VA range an entry of a level covers, by its base. -/
def entryBase (level va : Nat) : Nat := match level with
  | 4 => va / 2 ^ 39 * 2 ^ 39
  | 3 => va / 2 ^ 30 * 2 ^ 30
  | 2 => va / 2 ^ 21 * 2 ^ 21
  | _ => va / 4096 * 4096

/-- The cached entry of a space at a level over a VA. -/
def State.cachedEntry (s : State) (v level va : Nat) : Option DWord :=
  (s.xlt.cache.find? fun c => c.space = v && c.level = level && c.va = entryBase level va).map (·.entry)

/-- Cache a valid entry (R227, R232). -/
def State.cacheEntry (s : State) (v level va : Nat) (e : DWord) : State :=
  let rest := s.xlt.cache.filter fun c => !(c.space = v && c.level = level && c.va = entryBase level va)
  { s with xlt := { s.xlt with cache := { space := v, level := level, va := entryBase level va, entry := e } :: rest } }

/-- The word of a table line. -/
def lineWord (d : BitVec 512) (addr : Nat) : DWord := BitVec.ofNat 64 (d.toNat / 2 ^ (8 * (addr % 64 / 8 * 8)))

/-- The entry a walk takes at an address: from a cache or from the table; where they differ, which one is free (R227).
The left component is a status that ends the walk. -/
def State.walkEntry (s : State) (v level va addr : Nat) : (Sum Nat DWord × Bool) × State :=
  let key := (s.carve v (bitsOf addr 41 40)).key
  let r := s.mpeRead v key (addr / 64 * 64) false .clean
  let fresh : Sum Nat DWord := match r.1 with
    | .ok d => .inr (lineWord (d.headD 0#512) addr)
    | .poisoned _ => .inl 0x31
    | .fail st => .inl st
    | .wait => .inl 0
  match s.cachedEntry v level va with
  | none => ((fresh, true), r.2)
  | some e =>
    if fresh = .inr e then ((.inr e, false), s)
    else
      let f := s.takeFree 1
      if f.1 = 1#1 then ((fresh, true), { r.2 with freeCount := f.2.freeCount }) else ((.inr e, false), f.2)

/-- The function a space's host addresses are presented by: the VD's VF, or for the system space the PF given (R235). -/
def State.spaceFn (s : State) (v pf : Nat) : Nat :=
  if v = 0 then pf
  else match (s.vd v).vf with
    | some (a, n) => vfFn a n
    | none => pf

/-- Is ATS, or the Page Request capability, enabled in a function? -/
def State.atsOn (s : State) (f : Nat) : Bool := if f < 2 then (s.port f).ats else (s.vf (fnPort f) (fnVf f)).ats
def State.priOn (s : State) (f : Nat) : Bool := if f < 2 then (s.port f).pri else (s.vf (fnPort f) (fnVf f)).pri

/-- The ATC entry of a page. -/
def State.atcFind (s : State) (f page : Nat) : Option AtcEnt := s.xlt.atc.find? fun e => e.fn = f && e.va = page

/-- Present an untranslated host address (R235, R236). -/
def State.hostTrans (s : State) (f addr : Nat) (wr pri : Bool) (mk : WalkFault) : Trans × State :=
  if !s.atsOn f then (.host f addr, s)
  else
    let page := addr / 4096 * 4096
    match s.atcFind f page with
    | some e =>
      if (wr && !e.w) || (!wr && !e.r) then (.fault { mk with cause := .hostDenied, host := true, level := 0 }, s)
      else (.host f (e.pa + addr % 4096), s)
    | none =>
      if s.xlt.denied.contains (f, page) then
        (.fault { mk with cause := .hostDenied, host := true, level := 0 },
         { s with xlt := { s.xlt with denied := s.xlt.denied.filter fun x => x ≠ (f, page) } })
      else if s.xlt.atsSent.any (fun a => a.fn = f && a.va = page) ∨ s.xlt.prgSent.any (fun a => a.2.fn = f && a.2.va = page) then
        (.wait, s)
      else (.wait, { s with xlt := { s.xlt with atsSent := s.xlt.atsSent ++ [{ fn := f, va := page, wr := wr, pri := pri }] } })

/-- The levels of a walk from `level` down, at a table's address. -/
def State.walkFrom (s : State) (v va : Nat) (wr : Bool) (pf : Nat) (mk : WalkFault) : Nat → Nat → Trans × State
  | 0, _ => (.fault mk, s)
  | level + 1, base =>
    let lv := level + 1
    let r := s.walkEntry v lv va (base + 8 * vaIndex lv va)
    let s1 := r.2
    let mk := { mk with level := lv }
    match r.1.1 with
    | .inl st =>
      if st = 0 then (.wait, s1)
      else if st = 0x30 ∨ st = 0x31 then (.done st (some { mk with cause := .tableRead }), s1)
      else (.done st none, s1)
    | .inr ew =>
      let e := ew.toNat
      if !pteV e then (.fault { mk with cause := .notPresent }, s1)
      else if malformed lv e then (.fault { mk with cause := .malformed }, s1)
      else
        let s2 := if r.1.2 then s1.cacheEntry v lv va ew else s1
        if pteLeaf e then
          let host := pteTgt e = 1
          if wr ∧ !pteW e then (.fault { mk with cause := .writeDenied, host := host }, s2)
          else if !wr ∧ !pteR e then (.fault { mk with cause := .readDenied, host := host }, s2)
          else
            let a := pteAddr e + va % 2 ^ leafShift lv
            if host then s2.hostTrans (s2.spaceFn v pf) a wr (ptePri e) mk else (.mem a, s2)
        else State.walkFrom s2 v va wr pf mk level (pteAddr e)

/-- Translate an address of a space for a requester (R224, R229). -/
def State.translate (s : State) (v va : Nat) (wr : Bool) (pf req seq ctx : Nat) : Trans × State :=
  let sp := s.space v
  let mk : WalkFault := { cause := .notPresent, wr := wr, host := false, level := 4, va := va / 4096 * 4096, req := req,
                          seq := seq, ctx := ctx, toll := s.toll }
  if va ≥ 2 ^ 52 then (.done stTransFault none, s)
  else if !sp.root.getLsbD 0 then (.fault mk, s)
  else s.walkFrom v va wr pf mk 4 (bitsOf sp.root.toNat 41 16 * 65536)

/-! ### Fault rings (R242–R246) -/

/-- A record of one fault. -/
def faultRec (f : WalkFault) : FaultRec :=
  { first := f, seqNo := 0, count := 1, wr := f.wr, reqs := BitVec.ofNat 256 (2 ^ f.req),
    stalled := if f.cause = .tableRead ∨ f.seq = 0 then [] else [f.seq], written := 0 }

/-- Add a fault to a record (R244). -/
def FaultRec.join (r : FaultRec) (f : WalkFault) : FaultRec :=
  { r with count := satAdd 32 r.count 1, wr := r.wr || f.wr, reqs := r.reqs ||| BitVec.ofNat 256 (2 ^ f.req),
           stalled := if f.seq = 0 ∨ r.stalled.contains f.seq then r.stalled else r.stalled ++ [f.seq] }

/-- Slots of a ring that are free. -/
def Space.freeSlot (x : Space) : Option Nat := lowestKey (fun i => (sget none x.ring i).isNone) 32 0

/-- Vector of a space's fault records (R258, R259). -/
def State.raiseFault (s : State) (v : Nat) : State := if v = 0 then s.raisePfs 2 else s.raiseVd v 1

/-- Write a record in a free slot. -/
def State.putFault (s : State) (v i : Nat) (r : FaultRec) : State :=
  let x := s.space v
  (s.setSpace v { x with ring := sput none i (some { r with seqNo := x.nextSeq, written := s.toll }) x.ring,
                         nextSeq := (x.nextSeq + 1) % 65536 }).raiseFault v

/-- Does a fault coalesce into a record (R244)? -/
def FaultRec.takes (r : FaultRec) (f : WalkFault) : Bool :=
  r.first.va = f.va && r.first.cause ≠ .tableRead && f.cause ≠ .tableRead

/-- Record a fault: coalesced, written, or waiting for a slot. -/
def State.addFault (s : State) (v : Nat) (f : WalkFault) : State :=
  let x := s.space v
  -- a VD in teardown keeps no fault record: its command completes with ABORTED (R399)
  if (s.vd v).st = .teardown then (if f.seq = 0 then s else s.finish f.seq stAborted 0)
  else match (List.range 32).find? fun i => (sget none x.ring i).any fun r => r.takes f with
  | some i => s.setSpace v { x with ring := sput none i ((sget none x.ring i).map fun r => r.join f) x.ring }
  | none =>
    if x.waiting.any fun r => r.takes f then
      s.setSpace v { x with waiting := x.waiting.map fun r => if r.takes f then r.join f else r }
    else if !x.waiting.isEmpty then s.setSpace v { x with waiting := x.waiting ++ [faultRec f] }
    else match x.freeSlot with
      | some i => s.putFault v i (faultRec f)
      | none => s.setSpace v { x with waiting := x.waiting ++ [faultRec f] }

/-- Is a command stalled on a fault? -/
def State.stalled (s : State) (seq : Nat) : Bool :=
  s.xlt.spaces.any fun e => (e.2.ring.any fun r => r.2.any fun q => q.stalled.contains seq) ||
    e.2.waiting.any fun r => r.stalled.contains seq

/-- Free a slot. -/
def State.freeFault (s : State) (v i : Nat) : State :=
  let x := s.space v
  s.setSpace v { x with ring := sput none i none x.ring }

/-- Status INVALID gives a fault's commands (R245). -/
def faultStatus : WalkCause → Nat
  | .readDenied | .writeDenied => stPermission
  | _ => stTransFault

/-- Apply INVALID to a record: every stalled command completes. -/
def State.invalidate (s : State) (v i : Nat) : State :=
  match sget none (s.space v).ring i with
  | none => s
  | some r => r.stalled.foldl (fun s q => s.finish q (faultStatus r.first.cause) 0) (s.freeFault v i)

/-- FAULT_RESOLVE_INVALID: a matching SEQ applies INVALID (R245). -/
def execFaultResolveInvalid (space slot seq : Nat) (s : State) : Res :=
  .next (match sget none (s.space space).ring slot with
    | some r => if r.seqNo = seq ∧ slot < 32 then s.invalidate space slot else s
    | none => s)

/-- FAULT_TIMEOUT: INVALID at the first boundary at which a record has stood XLT_FTIMEOUT.MS milliseconds. -/
def execFaultTimeout (space slot : Nat) (s : State) : Res :=
  .next (match sget none (s.space space).ring slot with
    | some r =>
      if s.toll % tollPeriod = 0 ∧ r.written + ms (s.regField (baseXlt + 8) 15 0) ≤ s.toll then s.invalidate space slot else s
    | none => s)

/-- FAULT_RECORD_DEFERRED: a slot is free and the oldest waiting fault is written (R242). -/
def execFaultRecordDeferred (space : Nat) (s : State) : Res :=
  let x := s.space space
  .next (match x.waiting, x.freeSlot with
    | r :: rest, some i => (s.setSpace space { x with waiting := rest }).putFault space i r
    | _, _ => s)

/-! ### Invalidation (R237–R240) -/

/-- Does a cached entry fall to an invalidation: a leaf that overlaps its range, or any non-leaf? -/
def Inval.hits (i : Inval) (c : Cached) : Bool :=
  i.whole || !pteLeaf c.entry.toNat ||
    (c.va < i.va + 4096 * i.n && i.va < c.va + 2 ^ leafShift c.level)

/-- Steps 1 and 2 of R238: remove the entries and invert the phase. -/
def State.startInval (s : State) (v : Nat) (i : Inval) : State :=
  let x := s.space v
  let s := s.setSpace v { x with inv := some i, phase := !x.phase }
  let left := s.xlt.cache.filter fun c => !(c.space = v && i.hits c)
  { s with xlt := { s.xlt with cache := left } }

/-- Begin an invalidation, or let it wait behind the one in progress. -/
def State.requestInval (s : State) (v : Nat) (i : Inval) : State :=
  let x := s.space v
  match x.inv with
  | none => s.startInval v i
  | some _ => s.setSpace v { x with invWait := x.invWait ++ [i] }

/-- INVALIDATION_PHASE_DRAIN: no request of the previous phase is left, so the invalidation completes and the next
begins; two or more waiting ones are merged into one of the whole space (R239). Requests of this model are whole
commands or single accesses, so none is outstanding here (assumption 9). -/
def execInvalidationPhaseDrain (space : Nat) (s : State) : Res :=
  let x := s.space space
  .next (match x.inv with
    | none => s
    | some i =>
      let s := (i.seq :: x.invMerged).foldl (fun s q => if q = 0 then s else s.finish q stOK 0) s
      let y := s.space space
      let y := { y with inv := none, invMerged := [], busy := if i.seq = 0 ∨ x.invMerged.contains 0 then false else y.busy }
      match y.invWait with
      | [] => s.setSpace space y
      | [a] => (s.setSpace space { y with invWait := [] }).startInval space a
      | a :: rest =>
        let s := (s.setSpace space { y with invWait := [] }).startInval space { seq := a.seq, va := 0, n := 0, whole := true }
        s.setSpace space { s.space space with invMerged := rest.map (·.seq) })

/-- ROOT_WRITE: XLT_SYSROOT or XLT_VDROOT; a change of ROOT sets BUSY and invalidates the space (R229, R247). -/
def execRootWrite (space : Nat) (v : DWord) (s : State) : Res :=
  let x := s.space space
  let n := v.toNat
  let root := bitsOf n 41 16 * 65536 + n % 2
  let s := if bitsOf n 63 42 ≠ 0 ∨ bitsOf n 15 2 ≠ 0 then
      (if space = 0 then s.setRsvw
       else match (s.vd space).vf with
         | some (p, k) => s.setVf p k { s.vf p k with rsvw := true }
         | none => s)
    else s
  let s1 := s.setSpace space { x with root := BitVec.ofNat 64 root }
  .next (if space ≠ 0 ∧ (s.vd space).st = .none then s
    else if bitsOf x.root.toNat 41 16 ≠ bitsOf n 41 16 then
      (s1.setSpace space { s1.space space with busy := true }).requestInval space { seq := 0, va := 0, n := 0, whole := true }
    else s1)

/-- Drop every cached entry and fault of a space (R231, R245: teardown). -/
def State.dropSpace (s : State) (v : Nat) : State :=
  let s := s.setSpace v {}
  let left := s.xlt.cache.filter fun c => c.space ≠ v
  { s with xlt := { s.xlt with cache := left } }

/-! ### ATS rows (R235, R236, R240) -/

/-- ATS_INVALIDATE_REQUEST: the host invalidates the ATC entries of a function over a range. -/
def execAtsInvalidateRequest (f : Nat) (va : DWord) (size tag : Nat) (s : State) : Res :=
  let a := va.toNat
  let left := s.xlt.atc.filter fun e => !(e.fn = f && e.va < a + size && a < e.va + 4096)
  .next { s with xlt := { s.xlt with atc := left, atsInv := s.xlt.atsInv ++ [(f, tag)] } }

/-- INVALIDATE_COMPLETION: the wait has ended and the completion is sent: the reply holds the tag. -/
def execInvalidateCompletion (f tag : Nat) (s : State) : Res :=
  .next (if s.xlt.atsInv.contains (f, tag) then
      ({ s with xlt := { s.xlt with atsInv := s.xlt.atsInv.filter fun x => x ≠ (f, tag) } }).reply [BitVec.ofNat 64 tag]
    else s)

/-- Capacity of outstanding page requests (R236). -/
def prgCapacity (f : Nat) : Nat := if f < 2 then 512 else 32

/-- Cache a host translation, newest first, at most 4,096 for each port (R235). -/
def State.atcPut (s : State) (e : AtcEnt) : State :=
  let rest := s.xlt.atc.filter fun x => !(x.fn = e.fn && x.va = e.va)
  let mine := (e :: rest.filter fun x => fnPort x.fn = fnPort e.fn).take 4096
  { s with xlt := { s.xlt with atc := mine ++ rest.filter fun x => fnPort x.fn ≠ fnPort e.fn } }

/-- TRANSLATION_WALK: one walk for a requester; a fault is recorded, its command stalls or completes (R232, R241). -/
def execTranslationWalk (space : Nat) (va : DWord) (wr : Bool) (req seq : Nat) (s : State) : Res :=
  let c := s.cmd seq
  let r := s.translate space va.toNat wr 0 req (if s.hasCmd seq then seq else 0) (if s.hasCmd seq then c.ctx else 0)
  .next (match r.1 with
    | .mem a => r.2.reply [0#64, BitVec.ofNat 64 a]
    | .host f a => r.2.reply [1#64, BitVec.ofNat 64 f, BitVec.ofNat 64 a]
    | .fault f => (r.2.addFault space f).reply [2#64]
    | .done st f =>
      let s := match f with
        | some f => r.2.addFault space f
        | none => r.2
      (s.finish seq st 0).reply [3#64, BitVec.ofNat 64 st]
    | .wait => r.2.reply [4#64])

/-! ### Memory through a space -/

/-- How an access through a space ends. -/
inductive VaAns where
  | ok (bs : List Byte) (status : Nat)   -- bytes, with POISONED or INTEGRITY_FAIL where a line met it
  | fault (f : WalkFault)
  | fail (status : Nat) (f : Option WalkFault)
  | wait
  deriving DecidableEq, Repr

/-- Bytes [lo, lo+n) of a line. -/
def lineSlice (d : BitVec 512) (lo n : Nat) : List Byte := ((lineBytes d).drop lo).take n

/-- Read n bytes that lie in one 64-byte line of a space. -/
def State.readVaLine (s : State) (v va n pf req seq ctx : Nat) : VaAns × State :=
  match s.translate v va false pf req seq ctx with
  | (.mem a, s) =>
    let key := (s.carve v (bitsOf a 41 40)).key
    match s.mpeRead v key (a / 64 * 64) false .clean with
    | (.ok d, s) => (.ok (lineSlice (d.headD 0#512) (a % 64) n) 0, s)
    | (.poisoned d, s) => (.ok (lineSlice (d.headD 0#512) (a % 64) n) stPoisoned, s)
    | (.fail st, s) => (if st = stIntegrity then .ok (List.replicate n 0#8) st else .fail st none, s)
    | (.wait, s) => (.wait, s)
  | (.host _ a, s) => (.ok (readBytes s.host.mem a n) 0, s)
  | (.fault f, s) => (.fault f, s)
  | (.done st f, s) => (.fail st f, s)
  | (.wait, s) => (.wait, s)

/-- The two statuses' precedence, as R498 orders them. -/
def worseStatus (a b : Nat) : Nat := if statusRank b < statusRank a then b else a

/-- Read n bytes of a space, line by line; stops at the first line that does not answer. -/
def State.readVa (s : State) (v pf req seq ctx : Nat) : Nat → Nat → Nat → VaAns × State
  | 0, _, _ => (.ok [] 0, s)
  | f + 1, va, n =>
    if n = 0 then (.ok [] 0, s)
    else
      let k := min n (64 - va % 64)
      match s.readVaLine v va k pf req seq ctx with
      | (.ok bs st, s1) =>
        match State.readVa s1 v pf req seq ctx f (va + k) (n - k) with
        | (.ok bs' st', s2) => (.ok (bs ++ bs') (worseStatus st st'), s2)
        | r => r
      | r => r

/-- Lines an access of n bytes may touch, as fuel. -/
def lineFuel (n : Nat) : Nat := n / 64 + 2

/-- Read n bytes at an address of a space. -/
def State.readAt (s : State) (v va n pf req seq ctx : Nat) : VaAns × State := s.readVa v pf req seq ctx (lineFuel n) va n

/-- Write bytes that lie in one 256-byte block of a space; a poisoned block lands poisoned in HBM and is not sent to a
host (R173). -/
def State.writeVaBlock (s : State) (v va : Nat) (bs : List Byte) (poison : Bool) (pf req seq ctx : Nat) : VaAns × State :=
  match s.translate v va true pf req seq ctx with
  | (.mem a, s) =>
    let kc := bitsOf a 41 40
    let key := (s.carve v kc).key
    let g := s.granAt v a
    -- one write for each granule the bytes touch
    let first := a / g * g
    let n := (a + bs.length - first + g - 1) / g
    (List.range n).foldl (fun (r : VaAns × State) i =>
      match r with
      | (.ok _ st, s) =>
        let base := first + g * i
        let new := (List.range g).map fun j => if base + j < a then none else bs[base + j - a]?
        (match s.mpeWrite v key base false new with
         | (.ok _, s) =>
           let s := if poison then
               match s.mapAddr v base false with
               | some (c, loc) => s.setChan c ((s.chan c).poisonGran (loc / 64))
               | none => s
             else s
           (.ok [] st, s)
         | (.fail e, s) => if e = stIntegrity ∨ e = stPoisoned then (.ok [] (worseStatus st e), s) else (.fail e none, s)
         | (.poisoned _, s) => (.ok [] (worseStatus st stPoisoned), s)
         | (.wait, s) => (.wait, s))
      | r => r) (.ok [] (if poison then stPoisoned else 0), s)
  | (.host _ a, s) =>
    if poison then (.ok [] stPoisoned, s)
    else (.ok [] 0, { s with host := { s.host with mem := writeBytes s.host.mem a bs } })
  | (.fault f, s) => (.fault f, s)
  | (.done st f, s) => (.fail st f, s)
  | (.wait, s) => (.wait, s)

/-- Write bytes of a space block by block; stops at the first block that does not answer. -/
def State.writeVa (s : State) (v pf req seq ctx : Nat) : Nat → Nat → List Byte → VaAns × State
  | 0, _, _ => (.ok [] 0, s)
  | f + 1, va, bs =>
    if bs.isEmpty then (.ok [] 0, s)
    else
      let k := min bs.length (256 - va % 256)
      match s.writeVaBlock v va (bs.take k) false pf req seq ctx with
      | (.ok _ st, s1) =>
        match State.writeVa s1 v pf req seq ctx f (va + k) (bs.drop k) with
        | (.ok _ st', s2) => (.ok [] (worseStatus st st'), s2)
        | r => r
      | r => r

/-- Write bytes at an address of a space. -/
def State.writeAt (s : State) (v va : Nat) (bs : List Byte) (pf req seq ctx : Nat) : VaAns × State :=
  s.writeVa v pf req seq ctx (bs.length / 256 + 2) va bs

/-- Requester numbers of R243. -/
def reqHost (port : Nat) : Nat := 160 + port
def reqQueue : Nat := 162
def reqSecurity : Nat := 163

/-- A command meets what an access answered: it goes on, stalls on a fault, completes, or waits. The Bool tells whether
it goes on. -/
def State.meetAns (s : State) (seq v : Nat) (a : VaAns) : Bool × State :=
  match a with
  | .ok _ st => (true, s.modCmd seq fun c => c.meet st 0)
  | .fault f => (false, s.addFault v f)
  | .fail st f =>
    (false, (match f with
      | some f => s.addFault v f
      | none => s).finish seq st 0)
  | .wait => (false, s)

/-- A VD before its first bind: it holds no carve-out, so it has no tables (R228) and no walk runs for it. -/
def State.unbound (s : State) (v : Nat) : Bool :=
  v ≠ 0 && (s.vd v).st = .created && !(s.space v).root.getLsbD 0

/-- Read the bytes of an object the H9 itself needs for a command; none where the access did not answer, with the
command's fault or completion done. The objects of a first bind lie in host memory, at the object's address
(assumption 14). -/
def State.readObj (s : State) (seq v pf h off n : Nat) : Option (List Byte) × State :=
  let va := (s.obj (handleIdx h)).va + off
  if s.unbound v then (some (readBytes s.host.mem va n), s)
  else
    let r := s.readAt v va n pf reqQueue seq (s.cmd seq).ctx
    match r.1 with
    | .ok bs 0 => (some bs, r.2)
    | .ok _ st => (none, r.2.finish seq st 0)
    | a => (none, (r.2.meetAns seq v a).2)

/-- A word of a byte string, little-endian. -/
def leAt (bs : List Byte) (off n : Nat) : Nat := leNat ((bs.drop off).take n)

end Sys2Proof.Machine
end

