-- ==== Sys2Proof/Machine/Timeline.lean ====
section
/-!
DEFINITION. Timelines: signals, mirrors, poison (spec/10 R286–R289), the core's timeline instructions (spec/03 R74,
R83, R84) and the timeline commands.
-/
namespace Sys2Proof.Machine

/-- Count a non-advancing signal (R287). -/
def State.countNonadv (s : State) (t : Nat) : State :=
  let x := s.timeline t
  s.setTimeline t { x with nonadv := satAdd 16 x.nonadv 1 }

/-- Write a timeline's value to its mirror; a write that faults is dropped and counted, without a record (R241, R286). -/
def State.mirror (s : State) (t : Nat) : State :=
  let x := s.timeline t
  if x.mirror = 0 then s
  else match s.writeVaBlock x.vd x.mirror (leBytes 8 x.value) false 0 reqQueue 0 0 with
    | (.ok _ _, s) => s.setTimeline t { s.timeline t with mirrorDue := false }
    | (.wait, s) => s.setTimeline t { s.timeline t with mirrorDue := true }
    | (_, s) => (s.setTimeline t { s.timeline t with mirrorDue := false }).countNonadv t

/-- A signal by SET or ADD (R287); the Bool tells whether an ADD passed 2^64 - 1. -/
def State.signal (s : State) (t v : Nat) (add : Bool) : Bool × State :=
  let x := s.timeline t
  let n := if add then x.value + v else v
  if x.poisoned then (false, s.countNonadv t)
  else if add ∧ n ≥ 2 ^ 64 then (true, s.setTimeline t { x with wrap := satAdd 16 x.wrap 1 })
  else if n > x.value then (false, (s.setTimeline t { x with value := n }).mirror t)
  else (false, s.countNonadv t)

/-- Poison a timeline; its value stays (R289). -/
def State.poisonTl (s : State) (t : Nat) : State :=
  let x := s.timeline t
  if x.used then s.setTimeline t { x with poisoned := true } else s

/-! ### The core's instructions (R74, R83, R84) -/

/-- The slot of a core's context, if it holds a timeline with the right. -/
def State.tlSlot (s : State) (ctx slot : Nat) (sig : Bool) : Option Nat :=
  let e := sget ({} : TlSlot) (s.ctx ctx).tls slot
  if (if sig then e.sig else e.wait) then some e.tl else none

/-- Perform a core's signals whose SBSTs are complete, in order of issue. -/
def State.performSigs (s : State) (c : Nat) : State :=
  let k := s.core c
  let due := k.sigs.filter fun q => q.after.isEmpty
  due.foldl (fun s q => (s.signal q.tl q.value false).2)
    (s.setCore c { k with sigs := k.sigs.filter (fun q => !q.after.isEmpty), wrote := k.wrote || !due.isEmpty })

/-- TLSIG sn, slot: a release; the signal waits for every earlier SBST of the core. -/
def execTlsig (c : Nat) (sn slot : Nat) (s : State) : Res :=
  issue c s fun k =>
    if !pairOk sn ∨ slot ≥ 256 then s.setCore c (k.fault .illegalInstr 0)
    else match s.tlSlot k.ctx slot true with
      | none => s.setCore c (k.fault .timelineSlot slot)
      | some t =>
        let after := (k.xfers.filter fun x => x.kind = .sbst).map (·.id)
        let k := { k with sigs := k.sigs ++ [({ tl := t, value := (k.getPair sn).toNat, after := after } : SigReq)] }
        (s.setCore c k.retire).performSigs c

/-- Is a TLWAIT's condition true: the timeline is at or past the value, or poisoned for good (R75, R94)? -/
def State.tlReached (s : State) (t v : Nat) : Bool := (s.timeline t).value ≥ v || (s.timeline t).poisoned

/-- TLWAIT sn, slot: passes once the timeline is at or past the value; a poisoned timeline below it raises
TIMELINE_POISONED; until then nothing changes. -/
def execTlwait (c : Nat) (sn slot : Nat) (s : State) : Res :=
  issue c s fun k =>
    if !pairOk sn ∨ slot ≥ 256 then s.setCore c (k.fault .illegalInstr 0)
    else match s.tlSlot k.ctx slot false with
      | none => s.setCore c (k.fault .timelineSlot slot)
      | some t =>
        let v := (k.getPair sn).toNat
        if (s.timeline t).value ≥ v then s.setCore c k.retire
        else if (s.timeline t).poisoned then s.setCore c (k.fault .timelinePoisoned 0)
        else s

/-- TLRD sn, slot: the request leaves; the pair becomes valid with the reply. -/
def execTlrd (c : Nat) (sn slot : Nat) (s : State) : Res :=
  issue c s fun k =>
    if !pairOk sn ∨ slot ≥ 256 then s.setCore c (k.fault .illegalInstr 0)
    else match s.tlSlot k.ctx slot false with
      | none => s.setCore c (k.fault .timelineSlot slot)
      | some t => s.setCore c { k.retire with tlrds := k.tlrds ++ [({ sn := sn, tl := t } : TlrdReq)] }

/-- TLRD_REPLY: the oldest outstanding TLRD gets the timeline's value, as the timeline unit serves it. -/
def execTlrdReply (c : Nat) (s : State) : Res :=
  let k := s.core c
  .next (match k.tlrds with
    | [] => s
    | r :: rest =>
      let k := k.setPair r.sn (BitVec.ofNat 64 (s.timeline r.tl).value)
      let k := { k with tlrds := rest, validS := sput 0 (r.sn + 1) k.wall (sput 0 r.sn k.wall k.validS) }
      s.setCore c k)

/-! ### Commands (R276, R286–R288) -/

/-- TL_CREATE: the lowest free number, with its mirror written before completion. -/
def execTlCreate (seq : Nat) (s : State) : Res :=
  runCmd seq 0x08 s fun c s =>
    match lowestKey (fun t => !(s.timeline t).used) 65536 0 with
    | none => s.finish seq stAdmission 0x32
    | some t =>
      let x : Timeline := { used := true, vd := c.vd, value := c.fld 0x10 0 64, mirror := c.fld 0x18 0 64 }
      (s.setTimeline t x).mirror t |>.finishR seq stOK 0 t 0

/-- Empty every context slot that holds a timeline. -/
def State.dropTl (s : State) (t : Nat) : State :=
  { s with que := { s.que with ctxs := s.que.ctxs.map fun e =>
      (e.1, { e.2 with tls := e.2.tls.filter fun q => q.2.tl ≠ t }) } }

/-- Waits of queues on a timeline. -/
def State.waitsOn (s : State) (t : Nat) : List Nat :=
  (s.que.cmds.filter fun e => e.2.opc = 0x0C && e.2.phase = .running && e.2.fld 0x10 0 16 = t).map Prod.fst

/-- TL_DESTROY: removed from every slot; waits on it complete with ABORTED. -/
def execTlDestroy (seq : Nat) (s : State) : Res :=
  runCmd seq 0x09 s fun c s =>
    let t := c.fld 0x10 0 16
    let s := (s.waitsOn t).foldl (fun s q => s.finish q stAborted 0) s
    ((s.dropTl t).setTimeline t {}).finish seq stOK 0

/-- TL_BIND: fill or empty a slot of a context's table. -/
def execTlBind (seq : Nat) (s : State) : Res :=
  runCmd seq 0x0A s fun c s =>
    let x := s.ctx c.ctx
    let slot := c.fld 0x10 16 8
    let e : TlSlot := if c.fld 0x10 26 1 = 1 then {}
      else { tl := c.fld 0x10 0 16, sig := c.fld 0x10 24 1 = 1, wait := c.fld 0x10 25 1 = 1 }
    (s.setCtx c.ctx { x with tls := sput {} slot e x.tls }).finish seq stOK 0

/-- TL_SIGNAL: SET or ADD; a wrap completes with ABORTED, DETAIL 1. -/
def execTlSignal (seq : Nat) (s : State) : Res :=
  runCmd seq 0x0B s fun c s =>
    let t := c.fld 0x10 0 16
    let r := s.signal t (c.fld 0x18 0 64) (c.fld 0x10 16 1 = 1)
    r.2.finishR seq (if r.1 then stAborted else stOK) (b2n r.1) 0 (r.2.timeline t).value

/-- TL_WAIT: it starts to wait; TL_WAIT_SATISFIED ends it. -/
def execTlWait (seq : Nat) (s : State) : Res :=
  runCmd seq 0x0C s fun _ s => s

/-- TL_WAIT_SATISFIED: the value is reached, or the timeline is poisoned below it (R288, R289). -/
def execTlWaitSatisfied (seq : Nat) (s : State) : Res :=
  let c := s.cmd seq
  let x := s.timeline (c.fld 0x10 0 16)
  .next (if s.hasCmd seq ∧ c.opc = 0x0C ∧ c.phase = .running then
      if x.value ≥ c.fld 0x18 0 64 then s.finishR seq stOK 0 0 x.value
      else if x.poisoned then s.finish seq stPeerLost 0
      else s
    else s)

end Sys2Proof.Machine
end

