-- ==== Sys2Proof/Machine/CoreXfer.lean ====
section
/-!
DEFINITION. Seedbank transfers of the core: SBLD, SBST, SBWAIT, ISLD, their responses and late exceptions (spec/03 R65,
R79–R82, R499).
-/
namespace Sys2Proof.Machine

/-- An exception found for a core (R82, R86): while its context is already stopping it only adds to MORE; otherwise it
waits for its slot, unless an earlier one already does. -/
def State.raiseExc (s : State) (c : Nat) (e : Exc) : State :=
  let k := s.core c
  let x := s.ctx k.ctx
  if x.stop = .exception then
    let s := s.setCtx k.ctx { x with more := satAdd 8 x.more 1 }
    if e.cause = .poisonConsumed then
      s.logErr { unit := uCore, index := corePod c, sev := sevContained, vd := k.vd, status := stPoisoned, action := 1,
                 det := { ctx := some k.ctx, index := k.shapeCore / 64, akind := 4, addr := k.shapeCore, addr2 := e.pc } }
    else s
  else if k.exc.any fun o => o.slot ≤ e.slot then s
  else s.setCore c { k with exc := some e }

/-- Issue a transfer after its checks (R499 rule 5). -/
def State.issueXfer (s : State) (c : Nat) (k : Core) (kind : XferKind) (rp rl : Word) (tag n : Nat) : State :=
  if k.xfers.length ≥ 16 then s
  else if storeRangeBad rl.toNat n (s.ctxSlots k.vd k.ctx).length then s.setCore c (k.fault .storeRange rl.toNat)
  else
    let x : CoreXfer := { id := k.nextXid, kind := kind, tag := tag, rp := rp.toNat, rl := rl.toNat, n := n,
                          left := List.range n, pc := k.pc, instr := k.instrWord }
    let k := { k with xfers := k.xfers ++ [x], nextXid := k.nextXid + 1,
                      isld := if kind = XferKind.isld then some x.id else k.isld }
    s.setCore c k.retire

/-- A transfer length must be 1 to 2,048 (R67). -/
def lenOk (n : Nat) : Bool := 1 ≤ n && n ≤ 2048

/-- SBLD: n lines from the store line address in rl to the pocket address in rp. -/
def execSbld (c : Nat) (rp rl tag n : Nat) (s : State) : Res :=
  issue c s fun k =>
    if !lenOk n ∨ tag ≥ 16 then s.setCore c (k.fault .illegalInstr 0)
    else match pocketBad (k.getS rp).toNat (64 * n) 64 with
      | some a => s.setCore c (k.fault .pocketRange a)
      | none => s.issueXfer c k .sbld (k.getS rp) (k.getS rl) tag n

/-- SBST: n lines from the pocket address in rp to the store line address in rl. -/
def execSbst (c : Nat) (rp rl tag n : Nat) (s : State) : Res :=
  issue c s fun k =>
    if !lenOk n ∨ tag ≥ 16 then s.setCore c (k.fault .illegalInstr 0)
    else match pocketBad (k.getS rp).toNat (64 * n) 64 with
      | some a => s.setCore c (k.fault .pocketRange a)
      | none => s.issueXfer c k .sbst (k.getS rp) (k.getS rl) tag n

/-- SBWAIT: passes once no earlier transfer with the tag is outstanding; until then nothing changes. -/
def execSbwait (c : Nat) (tag : Nat) (s : State) : Res :=
  issue c s fun k =>
    if tag ≥ 16 then s.setCore c (k.fault .illegalInstr 0)
    else if k.xfers.any fun x => x.tag = tag then s
    else s.setCore c k.retire

/-- ISLD: n lines from the store line address in rl to the instruction store at rp. -/
def execIsld (c : Nat) (rp rl n : Nat) (s : State) : Res :=
  issue c s fun k =>
    let a := (k.getS rp).toNat
    if !lenOk n then s.setCore c (k.fault .illegalInstr 0)
    else if a % 64 ≠ 0 ∨ a + 64 * n > 0x8000 then s.setCore c (k.fault .fetchRange a)
    else s.issueXfer c k .isld (k.getS rp) (k.getS rl) 0 n

/-! ### Responses -/

/-- The bin and line of a store line address for a context; none where the slot no longer exists. -/
def State.slotBin (s : State) (v c a : Nat) : Option (Nat × Nat) :=
  (s.ctxSlots v c)[slotOf a]?.map fun b => (b, lineOf a)

/-- The physical core whose state this is. -/
def State.whichCore (s : State) (k : Core) : Option Nat :=
  (s.cores.find? fun e => e.2.running && e.2.vd = k.vd && e.2.shapeCore = k.shapeCore).map Prod.fst

/-- Are the seam's store bridges fenced: has a half's core or store PLL failed (R411)? -/
def State.fenced (s : State) : Bool := [0, 1].any fun h => (sget {} s.pwr.halves h).onRc

/-- A core's request on a line of its context's slots; one that would cross fenced bridges is answered TARGET_RESET. -/
def State.coreRequest (s : State) (k : Core) (a : Nat) (op : SbOp) (e : Ecc) : SbAns × State :=
  match s.slotBin k.vd k.ctx a with
  | none => (.refused, s)
  | some (b, l) =>
    if s.fenced ∧ (s.whichCore k).any (fun c => coreHalf c ≠ podHalf (binPod b)) then (.targetReset, s)
    else s.sbRequest b l { vd := k.vd, hotOk := true, newEpoch := !(s.ctx k.ctx).oldEpoch, op := op, ecc := e }

/-- Line i of transfer x is answered; a transfer with no line left leaves, but for an ISLD, which waits for its copy. -/
def Core.answered (k : Core) (x : CoreXfer) (i : Nat) : Core :=
  let x := { x with left := x.left.erase i }
  if x.left.isEmpty ∧ x.kind ≠ .isld then
    { k with xfers := k.xfers.filter fun y => y.id ≠ x.id,
             sigs := k.sigs.map fun q => { q with after := q.after.erase x.id } }
  else { k with xfers := k.xfers.map fun y => if y.id = x.id then x else y }

/-- Store the eight instruction words of a line. -/
def Core.putCode (k : Core) (a : Nat) (d : BitVec 512) : Core :=
  { k with istore := (List.range 8).foldl (fun m j => sput 0#64 (a / 8 + j) (BitVec.ofNat 64 (d.toNat / 2 ^ (64 * j))) m)
             k.istore }

/-- A late exception of a transfer at the first slot not yet executed (R82). -/
def lateExc (k : Core) (x : CoreXfer) (cause : Cause) (info : Nat) : Exc :=
  { cause := cause, pc := x.pc, info := info, instr := x.instr, slot := k.slot }

/-- What an answer other than data or done makes of a line: its exception and that it is answered; a wait is neither. -/
def State.lateAnswer (s : State) (c : Nat) (x : CoreXfer) (i : Nat) (a : SbAns) : State :=
  let k := s.core c
  match a with
  | .wait => s
  | .targetReset => (s.setCore c (k.answered x i)).raiseExc c (lateExc k x .transferTargetReset (x.rl + i))
  | .poisoned => (s.setCore c (k.answered x i)).raiseExc c (lateExc k x .poisonConsumed (x.rl + i))
  | _ => (s.setCore c (k.answered x i)).raiseExc c (lateExc k x .storeRange (x.rl + i))

/-- TRANSFER_RESPONSE: line `line` of transfer `xid` is served (R80–R82). -/
def execTransferResponse (c xid line : Nat) (ecc : Ecc) (s : State) : Res :=
  let k := s.core c
  match k.xfers.find? fun x => x.id = xid && x.left.contains line with
  | none => .next s
  | some x =>
    match x.kind with
    | .sbld =>
      let r := s.coreRequest k (x.rl + line) .read ecc
      (match r.1 with
       | .data d p =>
         let w := k.writePocketLine r.2.freeCount (x.rp / 64 + line) d p
         .next (r.2.putCore c (w.1.answered x line, w.2))
       | a => .next (r.2.lateAnswer c x line a))
    | .sbst =>
      let l := x.rp / 64 + line
      if sget false k.poison l then
        .next (((s.setCore c (k.answered x line)).performSigs c).raiseExc c (lateExc k x .poisonConsumed (64 * l)))
      else
        let b := k.readPocket s.freeCount (64 * l) 64
        let s := { s with freeCount := b.2 }
        let r := s.coreRequest k (x.rl + line) (.write (BitVec.ofNat 512 (leNat b.1)) (BitVec.allOnes 64) false) ecc
        (match r.1 with
         | .done => .next ((r.2.setCore c { k.answered x line with wrote := true }).performSigs c)
         | a => .next ((r.2.lateAnswer c x line a).performSigs c))
    | .isld =>
      let r := s.coreRequest k (x.rl + line) .read ecc
      (match r.1 with
       | .data d p =>
         let k := if p then k else k.putCode (x.rp + 64 * line) d
         let x := if p then { x with bad := some (match x.bad with
             | none => line
             | some b => min b line) } else x
         .next (r.2.setCore c (k.answered x line))
       | a => .next (r.2.lateAnswer c x line a))

/-- ISLD_COPY_COMPLETE: the copy has ended and the next instruction can be fetched; a poisoned line raises
POISON_CONSUMED at the slot after the ISLD (R65). -/
def execIsldCopyComplete (c : Nat) (s : State) : Res :=
  let k := s.core c
  match k.isld with
  | none => .next s
  | some id =>
    match k.xfers.find? fun x => x.id = id with
    | none => .next (s.setCore c { k with isld := none })
    | some x =>
      if !x.left.isEmpty then .next s
      else
        let s := s.setCore c { k with isld := none, xfers := k.xfers.filter fun y => y.id ≠ id }
        .next (match x.bad with
          | none => s
          | some b => s.raiseExc c (lateExc k x .poisonConsumed (x.rl + b)))

end Sys2Proof.Machine
end

