-- ==== Sys2Proof/Machine/Drumline.lean ====
section
/-!
DEFINITION. The Drumline: ports and edges, one beat of a router, arriving data, the seam, placements, and beat-table
sets with their checks (spec/05).
-/
namespace Sys2Proof.Machine

/-! ### Ports (R124, R125, R136, R146, R149) -/

/-- Physical port of a logical port (0 N, 1 E, 2 S, 3 W) in an orientation (R146). -/
def portMap (orient l : Nat) : Nat :=
  (([[0, 1, 2, 3], [0, 3, 2, 1], [2, 1, 0, 3], [2, 3, 0, 1], [3, 2, 1, 0], [1, 2, 3, 0], [3, 0, 1, 2],
     [1, 0, 3, 2]] : List (List Nat)).getD orient []).getD l 0

/-- The core a physical port faces, none at the device's outer edge (R124). -/
def neighbour (c port : Nat) : Option Nat :=
  let r := coreRow c
  let x := coreCol c
  match port with
  | 0 => if r = 0 then none else some (coreAt (r - 1) x)
  | 1 => if x = 63 then none else some (coreAt r (x + 1))
  | 2 => if r = 127 then none else some (coreAt (r + 1) x)
  | _ => if x = 0 then none else some (coreAt r (x - 1))

/-- The port of the neighbour that faces back. -/
def facing (port : Nat) : Nat := (port + 2) % 4

/-- The neighbour over an open edge: inside a pod every edge is open, a pod edge only where the binder opened it (R149). -/
def State.openNeighbour (s : State) (c port : Nat) : Option Nat :=
  match neighbour c port with
  | none => none
  | some d => if corePod d = corePod c ∨ (s.pod (corePod c)).openE.getLsbD (3 - port) then some d else none

/-- Does the link between two neighbours cross the seam (R136)? -/
def crossesSeam (c d : Nat) : Bool := coreHalf c != coreHalf d

/-- Beats a datum takes over a link (R125). -/
def linkBeats (c d : Nat) : Nat := if crossesSeam c d then 6 else 1

/-! ### Arrivals (R126, R139, R150) -/

/-- Count in both copies of a pod's DRL counters (R152). -/
def State.countPod (s : State) (p : Nat) (f : Pod → Pod) : State := s.setPod p (f (s.pod p))

/-- A datum reaches a router: its check bits, its VD, and its place in the skid buffer. -/
def State.arrive (s : State) (c port : Nat) (d : Datum) (ecc : Ecc) : State :=
  let p := corePod c
  let v := (s.pod p).vd
  let r : Datum × State := match ecc with
    | .clean => (d, s)
    | .corrected =>
      (d, (s.countPod p fun x => { x with corr := satAdd 16 x.corr 1, corrVf := satAdd 16 x.corrVf 1 }).logErr
        { unit := uDrumline, index := p, sev := sevCorrected, vd := v })
    | .uncorrectable =>
      ({ d with poison := true },
       (s.countPod p fun x => { x with uncorr := satAdd 16 x.uncorr 1, uncorrVf := satAdd 16 x.uncorrVf 1 }).logErr
        { unit := uDrumline, index := p, sev := sevDeferred, vd := v, action := actPoison,
          det := { index := s.shapePodOf v p } })
  if d.vd ≠ v then
    (r.2.countPod p fun x => { x with bnd := satAdd 32 x.bnd 1, bndVf := satAdd 32 x.bndVf 1 }).logErr
      { unit := uDrumline, index := p, sev := sevDeferred }
  else
    let k := r.2.core c
    r.2.setCore c { k with skid := sput [] port (sget [] k.skid port ++ [r.1]) k.skid }

/-- The oldest datum on a link arrives. -/
def State.arriveNext (s : State) (c port : Nat) (ecc : Ecc) : State :=
  let k := s.core c
  match sget [] k.link port with
  | [] => s
  | d :: rest => (s.setCore c { k with link := sput [] port rest k.link }).arrive c port d ecc

/-- Data of a link that are due by beat b arrive unharmed (R139: at the latest in their due beat). -/
def State.arriveDue (s : State) (c port b : Nat) : Nat → State
  | 0 => s
  | n + 1 => match sget [] (s.core c).link port with
    | d :: _ => if d.due ≤ b then State.arriveDue (s.arriveNext c port .clean) c port b n else s
    | [] => s

/-- DRUMLINE_DATUM_ARRIVAL: the oldest datum on a port's link reaches the router. -/
def execDrumlineDatumArrival (c port : Nat) (ecc : Ecc) (s : State) : Res :=
  .next (if port < 4 then s.arriveNext c port ecc else s)

/-! ### Beat-table entries (R128–R130) -/

/-- The fields of an entry. -/
structure BeatEntry where
  /-- OUTN, OUTE, OUTS, OUTW. -/
  out : List Nat
  aop : Nat
  x : Nat
  y : Nat
  wsrc : Nat
  wam : Bool
  ram : Bool
  wa : Nat
  ra : Nat
  rsvd : Nat
  deriving DecidableEq, Repr

def beatEntry (w : Nat) : BeatEntry :=
  { out := [bitsOf w 63 60, bitsOf w 59 56, bitsOf w 55 52, bitsOf w 51 48], aop := bitsOf w 47 46, x := bitsOf w 45 43,
    y := bitsOf w 42 40, wsrc := bitsOf w 39 37, wam := bitOf w 36, ram := bitOf w 35, wa := bitsOf w 34 24,
    ra := bitsOf w 23 13, rsvd := bitsOf w 12 0 }

/-- Does an entry read line RA? -/
def BeatEntry.reads (e : BeatEntry) : Bool := e.out.any (fun o => o = 1) || (e.aop ≠ 0 && (e.x = 0 || e.y = 0))

/-- Does an entry name logical input i? -/
def BeatEntry.names (e : BeatEntry) (i : Nat) : Bool :=
  e.out.any (fun o => o = i + 2) || (e.aop ≠ 0 && (e.x = i + 1 || e.y = i + 1)) || e.wsrc = i + 1

/-- A line after the per-measure offset (R130). -/
def beatLine (base : Nat) (off : Bool) (step : Int) (per m : Nat) : Nat :=
  (((base : Int) + (if off then step * ((m % per : Nat) : Int) else 0)) % 2048).toNat

/-! ### The adder (R134) -/

/-- The 16 lanes of a datum. -/
def lanes16 (d : BitVec 512) : List Word := (List.range 16).map fun i => BitVec.ofNat 32 (d.toNat / 2 ^ (32 * i))

/-- A datum from lanes. -/
def ofLanes16 (l : List Word) : BitVec 512 := BitVec.ofNat 512 (leNat (l.map fun w => leBytes 4 w.toNat).flatten)

/-- One lane of an INT32 addition, saturating. -/
def intAddSat (a b : Word) : Word × Events :=
  let n := a.toInt + b.toInt
  if n > 2147483647 then (0x7FFFFFFF#32, { intSat := 1 })
  else if n < -2147483648 then (0x80000000#32, { intSat := 1 })
  else (BitVec.ofInt 32 n, {})

/-- The adder's result and its events: AOP 1 is FP32, 2 is INT32. -/
def routerAdd (aop : Nat) (a b : BitVec 512) : BitVec 512 × Events :=
  let r := (List.zip (lanes16 a) (lanes16 b)).map fun p =>
    if aop = 1 then fpAdd (fv32 p.1) (fv32 p.2) else intAddSat p.1 p.2
  (ofLanes16 (r.map Prod.fst), Events.sum (r.map Prod.snd))

/-! ### One beat (R131–R133) -/

/-- Data and poison. -/
abbrev Flit := BitVec 512 × Bool

/-- The router's write of the beat before lands (R62, R131). -/
def State.landWrite (s : State) (c : Nat) : State :=
  let k := s.core c
  match k.rwrite with
  | none => s
  | some (l, d, p) => s.putCore c ({ k with rwrite := none }.writePocketLine s.freeCount l d p)

/-- Send a datum over a physical port: nothing crosses a closed edge, and an unlocked seam discards (R137, R149). -/
def State.send (s : State) (c port : Nat) (f : Flit) (beat : Nat) : State :=
  match s.openNeighbour c port with
  | none => s
  | some d =>
    if crossesSeam c d && !s.seam.isOpen then { s with seam := { s.seam with drop := satAdd 32 s.seam.drop 1 } }
    else
      let k := s.core d
      let q := facing port
      let x : Datum := { data := f.1, poison := f.2, due := beat + linkBeats c d, vd := (s.pod (corePod c)).vd }
      s.setCore d { k with link := sput [] q (sget [] k.link q ++ [x]) k.link }

/-- May the router of a core step: a context runs and allows the beat, no hold stops it, it is not ahead of its back
end unless the core has halted, and every neighbour of the context has sent what is due. -/
def State.routerReady (s : State) (c : Nat) : Bool :=
  let k := s.core c
  k.running && (s.ctx k.ctx).allows k.rbeat && (s.holdSlot k.vd).all (fun h => k.rbeat < h) &&
    (k.halted || k.rbeat ≤ k.slot) &&
    [0, 1, 2, 3].all fun p => match s.openNeighbour c p with
      | none => true
      | some d => k.rbeat < (s.core d).rbeat + linkBeats c d || !(s.core d).running

/-- Execute the entry of a router's next beat. -/
def State.routerStep (s : State) (c : Nat) : State :=
  let s := s.landWrite c
  let b := (s.core c).rbeat
  let s := [0, 1, 2, 3].foldl (fun s p => s.arriveDue c p b ((sget [] (s.core c).link p).length)) s
  let k := s.core c
  let e := beatEntry (sget 0#64 k.table (b % k.mlen)).toNat
  let m := b / k.mlen
  let orient := (s.pod (corePod c)).orient
  -- step 1: the line and the data due
  let ra := beatLine e.ra e.ram k.rstep k.rper m
  let rd := if e.reads then k.readPocket s.freeCount (64 * ra) 64 else ([], s.freeCount)
  let bad := e.reads && sget false k.poison ra
  let line : Flit := (BitVec.ofNat 512 (leNat rd.1), bad)
  let due (i : Nat) : Option Datum := (sget [] k.skid (portMap orient i)).find? fun d => d.due = b
  let input (i : Nat) : Flit := match due i with
    | some d => (d.data, d.poison)
    | none => (0#512, false)
  let empty := ([0, 1, 2, 3].filter fun i => e.names i && (due i).isNone).length
  let unclaimed := ([0, 1, 2, 3].filter fun i => !e.names i && (due i).isSome).length
  let skid := [0, 1, 2, 3].foldl (fun m p => sput [] p ((sget [] m p).filter fun d => !(d.due ≤ b)) m) k.skid
  -- step 2: the adder
  let opnd (n : Nat) : Flit := if n = 0 then line else input (n - 1)
  let sum := routerAdd e.aop (opnd e.x).1 (opnd e.y).1
  let add : Flit := (sum.1, (opnd e.x).2 || (opnd e.y).2)
  -- step 4: the write waits for the beat's back-end store
  let wa := beatLine e.wa e.wam k.wstep k.wper m
  let wr : Option (Nat × BitVec 512 × Bool) :=
    if e.wsrc = 0 then none else if e.wsrc = 5 then some (wa, add.1, add.2)
    else some (wa, (input (e.wsrc - 1)).1, (input (e.wsrc - 1)).2)
  let k1 := if e.aop = 0 then k else k.countNow sum.2
  let s := { s.setCore c { k1 with skid := skid, rwrite := wr, rbeat := b + 1 } with freeCount := rd.2 }
  -- step 3: sending
  let s := [0, 1, 2, 3].foldl (fun s l =>
    let o := e.out.getD l 0
    let p := portMap orient l
    if o = 0 then s
    else if o = 1 then s.send c p line b
    else if o = 6 then s.send c p add b
    else s.send c p (input (o - 2)) b) s
  let s := s.countPod (corePod c) fun x =>
    { x with empty := satAdd 16 x.empty empty, emptyVf := satAdd 16 x.emptyVf empty,
             unclaimed := satAdd 16 x.unclaimed unclaimed, unclaimedVf := satAdd 16 x.unclaimedVf unclaimed }
  if bad then
    let w : Nat × DWord := if b = k.slot ∧ !k.halted then (k.pc, k.instrWord) else k.waitWord.getD (k.pc, 0#64)
    s.raiseExc c { cause := .poisonConsumed, pc := w.1, info := 64 * ra, instr := w.2, slot := b }
  else s

/-- ROUTER_BEAT. -/
def execRouterBeat (c : Nat) (s : State) : Res := .next (if s.routerReady c then s.routerStep c else s)

/-! ### The seam (R136, R137) -/

/-- The VDs that span the seam. -/
def State.spanning (s : State) : List Nat := (s.vds.map Prod.fst).filter fun v => v ≠ 0 && s.spans v

/-- The seam loses lock: it closes, and every VD that spans it takes an L2 (R137). -/
def State.unlockSeam (s : State) : State :=
  let vs := s.spanning
  let s := { s with seam := { s.seam with locked := false, isOpen := false } }
  vs.foldl (fun s v =>
    let p := ((s.podsOf v).find? fun p => podHalf p = 1).getD 0
    s.logRecovery { unit := uDrumline, index := p, sev := sevContained, vd := v, status := stAborted,
                    det := { index := s.shapePodOf v p } } 2 (.vd v) false) s

/-- SEAM_UNLOCK. -/
def execSeamUnlock (s : State) : Res := .next (if s.seam.locked then s.unlockSeam else s)

/-! ### Placements (R145–R147) -/

/-- Transpose, mirror rows, mirror columns of an orientation. -/
def orT (o : Nat) : Bool := bitOf o 2
def orMY (o : Nat) : Bool := bitOf o 1
def orMX (o : Nat) : Bool := bitOf o 0

/-- Physical coordinates in an h-by-w array (logical size) of a logical coordinate, by R146. -/
def orientAt (o h w y x : Nat) : Nat × Nat :=
  let y1 := if orT o then x else y
  let x1 := if orT o then y else x
  let h1 := if orT o then w else h
  let w1 := if orT o then h else w
  (if orMY o then h1 - 1 - y1 else y1, if orMX o then w1 - 1 - x1 else x1)

/-- Physical pods of the shape pods, in shape-pod order, for a rectangle whose top-left pod is (top, left). -/
def placedPods (o pw ph top left : Nat) : List Nat :=
  (List.range (pw * ph)).map fun i =>
    let q := orientAt o ph pw (i / pw) (i % pw)
    (top + q.1) * 8 + (left + q.2)

/-- The physical core of a shape core of this device's part. -/
def Placement.core (p : Placement) (i : Nat) : Nat :=
  let pod := p.pods.getD (i / 64) 0
  let q := orientAt p.orient 8 8 (i % 64 / 8) (i % 8)
  coreAt (pod / 8 * 8 + q.1) (pod % 8 * 8 + q.2)

/-- The logical cut of a rectangle: kind and position, (0, 0) where the seam does not cut it (R147). -/
def cutOf (o pw ph top : Nat) : Nat × Nat :=
  let h1 := if orT o then pw else ph
  if top < 8 ∧ 8 < top + h1 then
    let n := 8 - top
    (if orT o then 2 else 1, if orMY o then h1 - n else n)
  else (0, 0)

/-! ### Beat-table sets (R143–R145, R148) -/

/-- A variant directory entry. -/
structure Variant where
  part : Nat
  pw : Nat
  ph : Nat
  cutKind : Nat
  cutAt : Nat
  /-- L. -/
  len : Nat
  ntab : Nat
  mapOff : Nat
  tabOff : Nat
  deriving DecidableEq, Repr

/-- Bytes of one table. -/
def Variant.tabSize (v : Variant) : Nat := 64 + 64 * ((v.len + 7) / 8)
/-- Shape cores of the variant. -/
def Variant.cores (v : Variant) : Nat := v.pw * v.ph * 64

/-- A set read by little-endian numbers: offset, bytes. -/
abbrev SetReader := Nat → Nat → Nat

/-- Offset of directory entry i. -/
def dirOff (i : Nat) : Nat := 0x40 + 32 * i

def variantAt (rd : SetReader) (i : Nat) : Variant :=
  let o := dirOff i
  let w := rd o 4
  { part := bitsOf w 7 0, pw := bitsOf w 10 8 + 1, ph := bitsOf w 14 11 + 1, cutKind := bitsOf w 16 15,
    cutAt := bitsOf w 20 17, len := rd (o + 4) 4 % 4096 + 1, ntab := rd (o + 8) 4 % 2 ^ 14, mapOff := rd (o + 16) 8,
    tabOff := rd (o + 24) 8 }

/-- An offset, if a condition fails. -/
def failAt (ok : Bool) (off : Nat) : List Nat := if ok then [] else [off]

/-- Failing header fields (R143). -/
def headerFails (size : Nat) (rd : SetReader) : List Nat :=
  if size < 64 then [0]
  else
    let n := rd 2 2
    failAt (rd 0 2 = 1) 0 ++ failAt (1 ≤ n && n ≤ 256 && dirOff n ≤ size) 2 ++ failAt (rd 4 60 = 0) 4

/-- Failing fields of directory entry i, each at the byte of its lowest bit (R144). -/
def dirFails (size : Nat) (rd : SetReader) (i : Nat) : List Nat :=
  let o := dirOff i
  let v := variantAt rd i
  let cutOk : Bool := match v.cutKind with
    | 0 => v.cutAt = 0
    | 1 => 1 ≤ v.cutAt && v.cutAt < v.ph
    | 2 => 1 ≤ v.cutAt && v.cutAt < v.pw
    | _ => true
  failAt (v.cutKind ≠ 3) (o + 1) ++ failAt cutOk (o + 2) ++ failAt (bitsOf (rd o 4) 31 21 = 0) (o + 2) ++
    failAt (bitsOf (rd (o + 4) 4) 31 12 = 0) (o + 5) ++ failAt (1 ≤ v.ntab && v.ntab ≤ 8192) (o + 8) ++
    failAt (bitsOf (rd (o + 8) 4) 31 14 = 0) (o + 9) ++ failAt (rd (o + 12) 4 = 0) (o + 12) ++
    failAt (v.mapOff % 64 = 0 && v.mapOff + 2 * v.cores ≤ size) (o + 16) ++
    failAt (v.tabOff % 64 = 0 && v.tabOff + v.ntab * v.tabSize ≤ size) (o + 24)

/-- Failing core map entries. -/
def mapFails (rd : SetReader) (v : Variant) : List Nat :=
  ((List.range v.cores).filter fun i => v.ntab ≤ rd (v.mapOff + 2 * i) 2).map fun i => v.mapOff + 2 * i

/-- Offset of entry j of table t. -/
def Variant.entryOff (v : Variant) (t j : Nat) : Nat := v.tabOff + t * v.tabSize + 64 + 8 * j

/-- The byte of an entry that holds the lowest bit of OUTN, OUTE, OUTS, OUTW. -/
def outByte (l : Nat) : Nat := if l < 2 then 7 else 6

/-- Failing fields of one entry by R129. -/
def entryFails (off w : Nat) : List Nat :=
  let e := beatEntry w
  failAt (e.rsvd = 0) off ++
  failAt (e.wsrc ≤ 5 && !(e.aop = 0 && e.wsrc = 5)) (off + 4) ++
  failAt (e.y ≤ 4 && !(e.aop = 0 && e.y ≠ 0)) (off + 5) ++
  failAt (e.x ≤ 4 && !(e.aop = 0 && e.x ≠ 0)) (off + 5) ++
  failAt (e.aop ≠ 3) (off + 5) ++
  ((List.range 4).map fun l => failAt (e.out.getD l 0 ≤ 6 && !(e.aop = 0 && e.out.getD l 0 = 6)) (off + outByte l)).flatten

/-- Failing fields of the tables of a variant: headers' reserved fields, then entries. -/
def tableFails (rd : SetReader) (v : Variant) : List Nat :=
  ((List.range v.ntab).map fun t =>
    let o := v.tabOff + t * v.tabSize
    failAt (bitsOf (rd o 4) 31 24 = 0) (o + 3) ++ failAt (bitsOf (rd (o + 4) 4) 31 24 = 0) (o + 7) ++
      failAt (rd (o + 8) 56 = 0) (o + 8) ++
      ((List.range v.len).map fun j => entryFails (v.entryOff t j) (rd (v.entryOff t j) 8)).flatten).flatten

/-- Logical coordinates of a shape core in a variant's cores. -/
def Variant.coord (v : Variant) (i : Nat) : Nat × Nat :=
  (i / 64 / v.pw * 8 + i % 64 / 8, i / 64 % v.pw * 8 + i % 8)

/-- Does logical port l of a shape core face outside the shape? -/
def Variant.facesOut (v : Variant) (i l : Nat) : Bool :=
  let q := v.coord i
  match l with
  | 0 => q.1 = 0
  | 1 => q.2 + 1 = 8 * v.pw
  | 2 => q.1 + 1 = 8 * v.ph
  | _ => q.2 = 0

/-- Failing fields that name a port facing outside the shape, as source or destination. -/
def outwardFails (rd : SetReader) (v : Variant) : List Nat :=
  ((List.range v.ntab).map fun t =>
    let users := (List.range v.cores).filter fun i => rd (v.mapOff + 2 * i) 2 = t
    let closed (l : Nat) : Bool := users.any fun i => v.facesOut i l
    ((List.range v.len).map fun j =>
      let off := v.entryOff t j
      let e := beatEntry (rd off 8)
      failAt (!(1 ≤ e.wsrc && e.wsrc ≤ 4 && closed (e.wsrc - 1))) (off + 4) ++
      failAt (!(1 ≤ e.y && e.y ≤ 4 && closed (e.y - 1))) (off + 5) ++
      failAt (!(1 ≤ e.x && e.x ≤ 4 && closed (e.x - 1))) (off + 5) ++
      ((List.range 4).map fun l =>
        let o := e.out.getD l 0
        failAt (!((o ≠ 0 && closed l) || (2 ≤ o && o ≤ 5 && closed (o - 2)))) (off + outByte l)).flatten).flatten).flatten

/-- The least of a list of offsets. -/
def leastOf : List Nat → Option Nat
  | [] => none
  | a :: l => some (l.foldl min a)

/-- Variants of a set. -/
def variants (rd : SetReader) : List Variant := (List.range (rd 2 2)).map (variantAt rd)

/-- The variant that serves a part of a given size and cut. -/
def findVariant (rd : SetReader) (part pw ph : Nat) (cut : Nat × Nat) : Option Variant :=
  (variants rd).find? fun v => v.part = part && v.pw = pw && v.ph = ph && v.cutKind = cut.1 && v.cutAt = cut.2

/-- The checks of R148 but the last: the offset of the first failing field. -/
def setFails (size : Nat) (rd : SetReader) : Option Nat :=
  match headerFails size rd with
  | a :: l => leastOf (a :: l)
  | [] =>
    match leastOf ((List.range (rd 2 2)).map (dirFails size rd)).flatten with
    | some o => some o
    | none => match leastOf ((variants rd).map (mapFails rd)).flatten with
      | some o => some o
      | none => match leastOf ((variants rd).map (tableFails rd)).flatten with
        | some o => some o
        | none => leastOf ((variants rd).map (outwardFails rd)).flatten

/-- Load a core's table from a variant (R127, R145). -/
def Core.loadTable (k : Core) (rd : SetReader) (v : Variant) (shapeCore : Nat) : Core :=
  let t := rd (v.mapOff + 2 * shapeCore) 2
  let o := v.tabOff + t * v.tabSize
  let words := (List.range v.len).foldl (fun m j => sput 0#64 j (BitVec.ofNat 64 (rd (v.entryOff t j) 8)) m) []
  { k with table := words, mlen := v.len, rstep := sext 12 (rd o 4), rper := bitsOf (rd o 4) 23 12 + 1,
           wstep := sext 12 (rd (o + 4) 4), wper := bitsOf (rd (o + 4) 4) 23 12 + 1 }

/-- Does a core's table consume logical input i at some beat? (R142) -/
def Core.consumes (k : Core) (beat i : Nat) : Bool := (beatEntry (sget 0#64 k.table (beat % k.mlen)).toNat).names i

end Sys2Proof.Machine
end

