-- ==== Sys2Proof/Machine/CoreEvents.lean ====
section
/-!
DEFINITION. The front end and its wait conditions, holds, roll levels, and exceptions taking effect (spec/03 R73–R78,
R85–R88, R94; spec/04 R97; spec/15 R422).
-/
namespace Sys2Proof.Machine

/-! ### The front end's view (R73, R97) -/

/-- The effect of a core instruction on a state; nothing for any other command. -/
def coreRun (i : Instr) (s : State) : State :=
  let r : Res := match i with
    | .nop c => execNop c s
    | .waitb c imm => execWaitb c imm s
    | .halt c => execHalt c s
    | .brk c imm => execBrk c imm s
    | .csrr c rd imm => execCsrr c rd imm s
    | .csrw c rs1 imm => execCsrw c rs1 imm s
    | .scalarAlu c op rd rs1 rs2 rs3 => execScalarAlu c op rd rs1 rs2 rs3 s
    | .scalarAluImmediate c op rd rs1 imm => execScalarAluImmediate c op rd rs1 imm s
    | .branch c cond rs1 rs2 off => execBranch c cond rs1 rs2 off s
    | .jal c rd imm => execJal c rd imm s
    | .jalr c rd rs1 imm => execJalr c rd rs1 imm s
    | .loop c rs1 off => execLoop c rs1 off s
    | .scalarLoad c k rd rs1 imm => execScalarLoad c k rd rs1 imm s
    | .scalarStore c k sd rs1 imm => execScalarStore c k sd rs1 imm s
    | .vld c vd rs1 mk imm => execVld c vd rs1 mk imm s
    | .vst c vd rs1 mk imm => execVst c vd rs1 mk imm s
    | .accld c acc rs1 ty imm => execAccld c acc rs1 ty imm s
    | .accst c acc rs1 imm => execAccst c acc rs1 imm s
    | .sbld c rp rl tag n => execSbld c rp rl tag n s
    | .sbst c rp rl tag n => execSbst c rp rl tag n s
    | .sbwait c tag => execSbwait c tag s
    | .isld c rp rl n => execIsld c rp rl n s
    | .tlsig c sn slot => execTlsig c sn slot s
    | .tlwait c sn slot => execTlwait c sn slot s
    | .tlrd c sn slot => execTlrd c sn slot s
    | .vectorFpArithmetic c op d a b c3 mk => execVectorFpArithmetic c op d a b c3 mk s
    | .vectorInteger c op d a b mk imm => execVectorInteger c op d a b mk imm s
    | .vectorCompare c op d a b mk => execVectorCompare c op d a b mk s
    | .maskLogic c op d a b => execMaskLogic c op d a b s
    | .vbcast c d a mk => execVbcast c d a mk s
    | .vmvs c d a ln => execVmvs c d a ln s
    | .vmvsl c d a ln => execVmvsl c d a ln s
    | .vperm c d a b mk => execVperm c d a b mk s
    | .vsel c d a b mk => execVsel c d a b mk s
    | .viota c d mk => execViota c d mk s
    | .vaccr c d a b => execVaccr c d a b s
    | .vaccw c d a b => execVaccw c d a b s
    | .mpop c d a => execMpop c d a s
    | .mtos c d a => execMtos c d a s
    | .stom c d a => execStom c d a s
    | .vectorReduction c op d a mk => execVectorReduction c op d a mk s
    | .mma c x => execMma c x s
    | .mmae c x => execMmae c x s
    | .cvt c x => execCvt c x s
    | .vqnt c x => execVqnt c x s
    | .vdqnt c x => execVdqnt c x s
    | _ => .next s
  match r with
  | .next t => t
  | _ => s

/-- The wall beat at which the back end would execute slot n of a core if no further hold took effect; a hold not yet
released counts as released for beat T (R97). -/
def State.projected (s : State) (k : Core) (n T : Nat) : Nat :=
  n + k.heldTotal + (((s.vd k.vd).holds.filter fun h => h.slot ≤ n).map fun h => h.rel.getD T - h.req).sum

/-- A copy in which nothing but the core's own results holds its back end: idle router, no hold, no stop. -/
def State.ahead (s : State) (c : Nat) : State :=
  let k := s.core c
  let s := s.setVd k.vd { s.vd k.vd with holds := [] }
  let s := s.setCtx k.ctx { s.ctx k.ctx with stop := .none }
  s.setCore c { k with table := [], skid := [], link := [], rwrite := none, exc := none, stopped := false }

/-- Run the lead queue of a core on such a copy, each slot at its projected beat; none if a slot does not execute. -/
def State.runLead (orig : State) (c T : Nat) : Nat → State → Option State
  | 0, s => some s
  | n + 1, s =>
    let k := s.core c
    match k.lead with
    | [] => some s
    | .word _ w :: _ =>
      (match decodeWord c w with
       | none => none
       | some i =>
         let p := orig.projected (orig.core c) k.slot T
         let s1 := coreRun i (s.setCore c { k with heldTotal := p - k.slot })
         if (s1.core c).lead.length < k.lead.length ∧ (s1.core c).exc.isNone ∧ !(s1.core c).halted then
           State.runLead orig c T n s1
         else none)
    | _ :: _ => none

/-- The core as the front end sees it when it tries its next slot. -/
def State.frontView (s : State) (c T : Nat) : Option State := s.runLead c T 13 (s.ahead c)

/-- Slots the front end has accepted since exec. -/
def Core.accepted (k : Core) : Nat := k.slot + k.lead.length

/-- Scalar operands and destinations of an instruction are valid at the trial, 12 beats before T (R74, R75). -/
def Core.scalarsValid (k : Core) (i : Instr) (T : Nat) : Bool :=
  (readsS i ++ writesS i).all fun r =>
    r = 0 || ((sget 0 k.validS r = 0 || sget 0 k.validS r + 12 ≤ T) && !k.tlrds.any fun q => q.sn = r || q.sn + 1 = r)

/-- Tiles an instruction names are free, or it chains into them (R104, R121). -/
def Core.tilesFree (k : Core) (i : Instr) (p : Nat) : Bool :=
  let q := touchesT i
  q.1.all fun t => sget 0 k.tileUse t ≤ p || (q.2 ≠ 0 && sget 0 k.tileChain t = q.2)

/-- The wait condition of an instruction in the front end's view `v`, tried for wall beat T (12 beats after the trial)
and executing at p (R65, R75, R97, R104, R106, R111, R121). -/
def State.condition (s v : State) (c : Nat) (i : Instr) (p T : Nat) : Bool :=
  let k := v.core c
  let now := T - 12
  k.isld.isNone &&
  (match i with
   | .sbwait _ tag => !k.xfers.any fun x => x.tag = tag && x.kind ≠ .isld
   | .sbld .. => k.xfers.length < 16
   | .sbst .. => k.xfers.length < 16
   | .isld .. => k.xfers.length < 16
   | .tlwait _ sn slot => (match s.tlSlot k.ctx slot false with
     | some t => s.tlReached t (k.getPair sn).toNat
     | none => true)
   | _ => true) &&
  k.scalarsValid i T &&
  (match unitOf i with
   | some u => sget 0 k.unitFree u ≤ p && (u ≠ unitTensor || k.mmaeKnown ≤ now) &&
       (!usesSr i || k.srDone ≤ p)
   | none => true) &&
  ((touchesV i).all fun r => sget 0 k.validV r ≤ p) && ((touchesM i).all fun r => r = 0 || sget 0 k.validM r ≤ p) &&
  (k.tilesFree i p && ((touchesT i).1.isEmpty || k.mmaeKnown ≤ now))

/-! ### Accepting slots and asking for holds (R75–R77) -/

/-- Does some core of a VD have a false wait condition? -/
def State.vdWaits (s : State) (vd : Nat) : Bool := (s.coresOf vd).any fun c => (s.core c).feWait

/-- Release the hold of a VD that is not yet released, once no core waits (R76). -/
def State.releaseHold (s : State) (vd T : Nat) : State :=
  if s.vdWaits vd then s
  else
    let v := s.vd vd
    s.setVd vd { v with holds := v.holds.map fun h => if h.rel.isNone then { h with rel := some T } else h }

/-- A slot enters the lead queue; the core's condition is true. -/
def State.acceptSlot (s : State) (c T : Nat) (e : LeadSlot) : State :=
  let k := s.core c
  (s.setCore c { k with lead := k.lead ++ [e], feWait := false }).releaseHold k.vd T

/-- The condition is false for beat T: the core joins the unreleased hold of its VD or requests one; a slot that would
execute later than T is tried again (R75–R77). -/
def State.requestHold (s : State) (c n p T : Nat) : State :=
  let k := s.core c
  let v := s.vd k.vd
  let count := { k with feWait := true, holdReq := if k.feWait then k.holdReq else satAdd 32 k.holdReq 1 }
  if v.holds.any fun h => h.rel.isNone then s.setCore c count
  else if p = T then
    (s.setCore c count).setVd k.vd { v with holds := v.holds ++ [({ slot := n, req := T } : Hold)] }
  else s

/-- FRONT_END_ACCEPT: the front end tries its next slot for wall beat T, 12 beats after the trial. -/
def execFrontEndAccept (c T : Nat) (s : State) : Res :=
  let k := s.core c
  let n := k.accepted
  let p := s.projected k n T
  let stops := k.feStop || k.halted || !k.running || k.stopped || 12 ≤ k.lead.length || T > p ||
    k.exc.any (fun e => e.slot ≤ n) ||
    (match (s.ctx k.ctx).stop with
     | .none => false
     | .boundary m => m ≤ n
     | _ => true)
  .next (if stops then s
    else match s.frontView c T with
      | none => s
      | some v =>
        let f := v.core c
        if f.slot > n then
          -- a further slot of the last word: a beat of WAITB, or the empty slot of a taken branch
          s.acceptSlot c T (match f.waitWord with
            | some _ => .beat
            | none => .empty)
        else
          let w := sget 0#64 f.istore (f.pc / 8)
          match decodeWord c w with
          | none =>
            let e : Exc := { cause := .illegalInstr, pc := f.pc, info := 0, instr := w, slot := n }
            (s.setCore c { k with feStop := true }).raiseExc c e
          | some i =>
            if s.condition v c i p T then s.acceptSlot c T (.word f.pc w) else s.requestHold c n p T)

/-! ### Holds (R76–R78, R88, R422) -/

/-- Beats of the 256 before wall beat w in which the tensor unit was occupied. -/
def Core.busyBeats (k : Core) (w : Nat) : Nat :=
  ((List.range 256).filter fun i => i < w && k.macs.any fun m => m.1 ≤ w - 1 - i && w - 1 - i < m.2).length

/-- PCT_ROLL in force: START and FLOOR. -/
def State.rollStart (s : State) : Nat := s.effField (basePct + 0x2C) 13 7
def State.rollFloor (s : State) : Nat := s.effField (basePct + 0x2C) 6 0

def State.half (s : State) (h : Nat) : HalfPwr := sget {} s.pwr.halves h
def State.setHalf (s : State) (h : Nat) (x : HalfPwr) : State :=
  { s with pwr := { s.pwr with halves := sput {} h x s.pwr.halves } }

/-- Change every core of a VD. -/
def State.mapCores (s : State) (l : List Nat) (f : Core → Core) : State := l.foldl (fun s c => s.setCore c (f (s.core c))) s

/-- HOLD_TAKES_EFFECT: every running core of the VD has executed the slots before the hold's; roll starts at the level
of R422. A hold released before it was requested is none (R76). -/
def execHoldTakesEffect (vd : Nat) (s : State) : Res :=
  let v := s.vd vd
  .next (match v.holds with
    | [] => s
    | h :: rest =>
      if h.eff ∨ (s.coresOf vd).any (fun c => !(s.core c).halted && (s.core c).slot < h.slot) then s
      else if h.rel.any fun r => r ≤ h.req then s.setVd vd { v with holds := rest }
      else
        let s := s.setVd vd { v with holds := { h with eff := true, since := s.toll } :: rest }
        s.mapCores (s.coresOf vd) fun k =>
          if k.halted then k else { k with level := min 64 (k.busyBeats k.wall * s.rollStart / 400) })

/-- HOLD_RESUME: the hold has been released; every core resumes its next slot, HOLDBEATS counts, and roll ends. -/
def execHoldResume (vd : Nat) (s : State) : Res :=
  let v := s.vd vd
  .next (match v.holds with
    | [] => s
    | h :: rest => match h.rel with
      | none => s
      | some r =>
        if !h.eff then s
        else
          let n := r - h.req
          (s.setVd vd { v with holds := rest }).mapCores (s.coresOf vd) fun k =>
            { k with heldTotal := k.heldTotal + n, holdBeats := satAdd 32 k.holdBeats n, level := 0 })

/-- ROLL_LEVEL_DECAY: D wall beats have passed in a held core: LEVEL falls by one, not below FLOOR. -/
def execRollLevelDecay (c : Nat) (s : State) : Res :=
  let k := s.core c
  .next (if k.running ∧ !k.halted ∧ s.held k.vd ∧ k.level > s.rollFloor then
      s.setCore c { k with level := k.level - 1 }
    else s)

/-! ### Exceptions taking effect (R85, R86) -/

/-- Is exception a primary over b: an earlier slot, or the same slot in a lower shape core? -/
def earlierExc (ca : Nat) (a : Exc) (cb : Nat) (b : Exc) : Bool := a.slot < b.slot || (a.slot = b.slot && ca < cb)

/-- A poisoned operand's CONTAINED error (R86). -/
def State.logPoison (s : State) (k : Core) (c : Nat) (e : Exc) : State :=
  s.logErr { unit := uCore, index := corePod c, sev := sevContained, vd := k.vd, status := stPoisoned, action := 1,
             det := { ctx := some k.ctx, index := k.shapeCore / 64, akind := 4, addr := k.shapeCore, addr2 := e.pc } }

/-- EXCEPTION_TAKES_EFFECT: the back end has reached the exception's slot, or the core has halted; the core stops, and
the context begins to stop. -/
def execExceptionTakesEffect (c : Nat) (s : State) : Res :=
  let k := s.core c
  .next (match k.exc with
    | none => s
    | some e =>
      if !k.running ∨ k.stopped ∨ !(k.halted || e.slot ≤ k.slot) then s
      else
        let x := s.ctx k.ctx
        let mine := some (k.shapeCore, e, k.srcnt, s.toll)
        let x := match x.stop, x.exc with
          | .exception, some (cb, b, _) =>
            if earlierExc k.shapeCore e cb b then { x with exc := mine, more := satAdd 8 x.more 1 }
            else { x with more := satAdd 8 x.more 1 }
          | .teardown _, _ => { x with more := satAdd 8 x.more 1 }
          | _, _ => { x with stop := .exception, exc := mine }
        let s := (s.setCtx k.ctx x).setCore c { k with stopped := true, feStop := true }
        if e.cause = .poisonConsumed then s.logPoison k c e else s)

/-! ### The end of an exec (R72, R86, R87, R429) -/

/-- The exception record (R87). -/
def State.excRecord (s : State) (ctx : Nat) : BitVec 512 :=
  let x := s.ctx ctx
  match x.exc with
  | none => 0#512
  | some (sc, e, srcnt, toll) =>
    let l := ((s.cores.find? fun q => q.2.running && q.2.ctx = ctx).map fun q => q.2.mlen).getD 1
    BitVec.ofNat 512 (leNat (leBytes 4 (e.cause.code + 2 ^ 8 * x.more + 2 ^ 16 * b2n x.mayWrite) ++ leBytes 4 sc ++
      leBytes 4 e.pc ++ leBytes 4 e.info ++ leBytes 8 (e.slot / l) ++ leBytes 4 (e.slot % l) ++ leBytes 4 srcnt.toNat ++
      leBytes 8 e.instr.toNat ++ leBytes 8 toll ++ leBytes 4 ctx))

/-- Cores of a context. -/
def State.ctxCores (s : State) (ctx : Nat) : List Nat :=
  (s.cores.filter fun q => q.2.running && q.2.ctx = ctx).map Prod.fst

/-- A core without a context: its registers, memories and router state are gone, its instruction store stays (R56). -/
def Core.cleared (k : Core) : Core := { istore := k.istore, nextXid := k.nextXid }

/-- Measures a context has completed: by the furthest of its cores' slots and router beats, else what was kept. -/
def State.ctxMeasures (s : State) (ctx : Nat) : Nat :=
  match s.ctxCores ctx with
  | [] => (s.ctx ctx).measures
  | l => (l.map fun c => max (s.core c).slot (s.core c).rbeat / (s.core c).mlen).foldl max 0

/-- The context leaves its cores: their state goes, holds of the VD end, and the VD runs nothing (R127, R429). -/
def State.leaveCores (s : State) (ctx : Nat) : State :=
  let x := s.ctx ctx
  let s := (s.ctxCores ctx).foldl (fun s c => s.setCore c (s.core c).cleared) s
  let v := s.vd x.vd
  if v.ctx = some ctx then s.setVd x.vd { v with holds := [], ctx := none, switching := false } else s

/-- The exec of a context ends with a status: its completion's fields (R282), and the context is idle again. -/
def State.endExec (s : State) (ctx status detail : Nat) (ext : Option (BitVec 512)) : State :=
  let m := s.ctxMeasures ctx
  let s := s.leaveCores ctx
  let x := s.ctx ctx
  let c := s.cmd x.cur
  let r0 := if status = stFallback then c.result0 else c.fpos + 2 ^ 8 * b2n (x.replayed && status ≠ stStateLost)
  let s := s.modCmd x.cur fun c =>
    { c with status := status, detail := detail, ext := ext, result0 := r0, result1 := m, phase := .ready }
  s.setCtx ctx { x with cur := 0, started := false, saved := false, stop := .none, exc := none, more := 0,
                        mayWrite := false, measures := 0, hot := [], replay := 0, replayed := false, stateLost := false }

/-- Did any core of a context complete a Seedbank write or a signal since exec (R87)? -/
def State.ctxWrote (s : State) (ctx : Nat) : Bool := (s.ctx ctx).mayWrite || (s.ctxCores ctx).any fun c => (s.core c).wrote

/-- End the exec of a context by a reset of level 1 to 4: ABORTED with the DETAIL of R429. -/
def State.abortExec (s : State) (ctx detail : Nat) : State :=
  s.endExec ctx stAborted (detail + 2 ^ 16 * b2n (s.ctxWrote ctx)) none

/-- L1_CONTEXT_TEARDOWN: the transfers and signals already issued are complete; core and router state goes and the exec
ends with R85's status and its record, or ABORTED. -/
def execL1ContextTeardown (ctx : Nat) (s : State) : Res :=
  let x := s.ctx ctx
  let busy := (s.ctxCores ctx).any fun c => !(s.core c).xfers.isEmpty || !(s.core c).sigs.isEmpty
  .next (if busy then s
    else match x.stop, x.exc with
      | .exception, some (_, e, _) =>
        let s := s.setCtx ctx { x with mayWrite := s.ctxWrote ctx }
        s.endExec ctx e.cause.status 0 (some (s.excRecord ctx))
      | .teardown d, _ => s.abortExec ctx d
      | _, _ => s)

/-- A context is told to end at L1 (R429): CTX_DESTROY, an exit from RUN or the hold watchdog. A context with no exec on
pods ends a saved exec at once. An exception already taken keeps its status. -/
def State.teardownCtx (s : State) (ctx detail : Nat) : State :=
  let x := s.ctx ctx
  if x.cur = 0 then s
  else if (s.ctxCores ctx).isEmpty then s.abortExec ctx detail
  else if x.stop = .exception then s
  else
    let s := s.setCtx ctx { x with stop := .teardown detail }
    s.mapCores (s.ctxCores ctx) fun k => { k with stopped := true, feStop := true }

/-- Can the exec of a VD's running context complete: every core halted with its transfers and signals done (R72)? -/
def State.execDone (s : State) (ctx : Nat) : Bool :=
  !(s.ctxCores ctx).isEmpty && (s.ctxCores ctx).all fun c =>
    let k := s.core c
    k.halted && k.xfers.isEmpty && k.sigs.isEmpty && k.exc.isNone

end Sys2Proof.Machine
end

