-- ==== Sys2Proof/Machine/Accept.lean ====
section
/-!
DEFINITION. Taking commands from submission rings: payload fields and the seven acceptance checks of R275, acceptance
and rejection, completions and the registers of a queue pair (spec/10 R270–R278, R285, R290).
-/
namespace Sys2Proof.Machine

/-! ### Payload fields (R276) -/

/-- A payload field: its byte offset, first bit in that byte's word, width and legal values. -/
structure PayFld where
  off : Nat
  lo : Nat := 0
  w : Nat
  ok : Nat → Bool := fun _ => true

/-- First bit of the field in the slot. -/
def PayFld.bit (f : PayFld) : Nat := 8 * f.off + f.lo
def PayFld.value (f : PayFld) (c : Cmd) : Nat := c.fld f.off f.lo f.w

/-- Multiples of n. -/
def multOf (n : Nat) : Nat → Bool := fun v => v % n = 0
def atLeast1 : Nat → Bool := fun v => 1 ≤ v
def isZero : Nat → Bool := fun v => v = 0

/-- The payload of a command of a queue of VD `vd`, none for an opcode that is not defined or not allowed there
(check 1).  Conditions that tie two fields are made on the command itself. -/
def payload (c : Cmd) : Option (List PayFld) :=
  let tenant := c.vd ≠ 0
  let only (b : Bool) (l : List PayFld) : Option (List PayFld) := if b then some l else none
  match c.opc with
  | 0x00 => some []
  | 0x01 => some [{ off := 0x10, w := 32 }, { off := 0x14, w := 32 },
      { off := 0x18, w := 8, ok := fun v => !tenant || v % 16 < 13 }]
  | 0x02 => some []
  | 0x03 => some [{ off := 0x10, w := 64, ok := multOf 4096 },
      { off := 0x18, w := 64, ok := fun v => v % 4096 = 0 && 4096 ≤ v && v ≤ 2 ^ 40 },
      { off := 0x20, w := 4, ok := fun v => v ≤ 4 },
      { off := 0x24, w := 32, ok := fun v => c.fld 0x20 0 4 = 4 || v = 0 }]
  | 0x04 => some [{ off := 0x10, w := 32 }]
  | 0x05 => some [{ off := 0x10, w := 32 }, { off := 0x14, w := 1 }]
  | 0x06 => some [{ off := 0x10, w := 2 }, { off := 0x14, w := 32 }, { off := 0x18, w := 64 }, { off := 0x20, w := 32 },
      { off := 0x24, w := 32 }, { off := 0x28, w := 7, ok := fun v => !tenant || v = 0 }]
  | 0x08 => some [{ off := 0x10, w := 64 }, { off := 0x18, w := 64, ok := multOf 8 }]
  | 0x09 => some [{ off := 0x10, w := 16 }]
  | 0x0A =>
    let clear := c.fld 0x10 26 1 = 1
    some [{ off := 0x10, w := 16, ok := fun v => !clear || v = 0 }, { off := 0x10, lo := 16, w := 8 },
      { off := 0x10, lo := 24, w := 1, ok := fun v => !clear || v = 0 },
      { off := 0x10, lo := 25, w := 1, ok := fun v => !clear || v = 0 }, { off := 0x10, lo := 26, w := 1 }]
  | 0x0B => some [{ off := 0x10, w := 16 }, { off := 0x10, lo := 16, w := 1 }, { off := 0x18, w := 64 }]
  | 0x0C => some [{ off := 0x10, w := 16 }, { off := 0x18, w := 64 }]
  | 0x10 => only (!tenant) [{ off := 0x10, w := 1 }, { off := 0x10, lo := 8, w := 8 },
      { off := 0x10, lo := 16, w := 9, ok := fun v => 1 ≤ v && v ≤ 256 }, { off := 0x10, lo := 25, w := 1 },
      { off := 0x14, w := 32 }]
  | 0x11 => only (!tenant) [{ off := 0x10, w := 32 }, { off := 0x14, w := 16 }]
  | 0x12 => only tenant [{ off := 0x10, w := 32 }, { off := 0x14, w := 1 }]
  | 0x13 => some [{ off := 0x10, w := 42, ok := multOf 8 }, { off := 0x18, w := 3, ok := fun v => 1 ≤ v && v ≤ 4 },
      { off := 0x20, w := 64 }, { off := 0x28, w := 64 }, { off := 0x30, w := 64 }, { off := 0x38, w := 64 }]
  | 0x14 =>
    let whole := c.fld 0x1C 0 1 = 1
    some [{ off := 0x10, w := 64, ok := fun v => !whole || v = 0 },
      { off := 0x18, w := 32, ok := fun v => if whole then v = 0 else 1 ≤ v }, { off := 0x1C, w := 1 }]
  | 0x20 => some [{ off := 0x10, w := 32 }, { off := 0x14, w := 32, ok := atLeast1 }, { off := 0x18, w := 64 },
      { off := 0x20, w := 64 }]
  | 0x21 => some [{ off := 0x10, w := 32 }, { off := 0x14, w := 32, ok := atLeast1 }, { off := 0x18, w := 64 },
      { off := 0x20, w := 64 }]
  | 0x22 => some [{ off := 0x10, w := 32 }, { off := 0x14, w := 32 }, { off := 0x18, w := 64 }, { off := 0x20, w := 64 },
      { off := 0x28, w := 64, ok := atLeast1 }]
  | 0x24 => only tenant [{ off := 0x10, w := 32 }, { off := 0x14, w := 2 }, { off := 0x14, lo := 2, w := 1 }]
  | 0x25 => only tenant [{ off := 0x10, w := 9 }, { off := 0x14, w := 2 }, { off := 0x14, lo := 2, w := 1 }]
  | 0x26 => only tenant [{ off := 0x10, w := 9 }]
  | 0x30 => only tenant [{ off := 0x10, w := 32 }, { off := 0x14, w := 32 },
      { off := 0x18, w := 32, ok := fun v => v % 8 = 0 && v ≤ 0x7FF8 }, { off := 0x1C, w := 32 }, { off := 0x20, w := 8 },
      { off := 0x20, lo := 8, w := 1 }, { off := 0x20, lo := 9, w := 1 }, { off := 0x24, w := 32 },
      { off := 0x28, w := 64 }, { off := 0x30, w := 64 }]
  | 0x38 => only tenant [{ off := 0x10, w := 64, ok := multOf 64 },
      { off := 0x18, w := 32, ok := fun v => v % 64 = 0 && 64 ≤ v }, { off := 0x1C, w := 32 },
      { off := 0x20, w := 6 }]
  | 0x40 => only tenant [{ off := 0x10, w := 32 }, { off := 0x18, w := 64 }, { off := 0x20, w := 64 },
      { off := 0x28, w := 32 }]
  | _ => none

/-- Commands whose header must name a context. -/
def needsCtx (opc : Nat) : Bool := opc = 0x02 || opc = 0x0A || opc = 0x30

/-- The header's fields as check 2 sees them. -/
def headerFlds (c : Cmd) : List PayFld := [
  { off := 0, lo := 0, w := 8 }, { off := 0, lo := 8, w := 1 }, { off := 0, lo := 9, w := 1 }, { off := 0, lo := 10, w := 1 },
  { off := 0, lo := 11, w := 1 }, { off := 0, lo := 12, w := 1, ok := fun v => !needsCtx c.opc || v = 1 },
  { off := 0, lo := 13, w := 3, ok := isZero }, { off := 0, lo := 16, w := 12, ok := fun v => c.ctxv || v = 0 },
  { off := 0, lo := 28, w := 4, ok := isZero }, { off := 4, w := 16, ok := fun v => c.sig || v = 0 },
  { off := 4, lo := 16, w := 16 }, { off := 8, w := 64, ok := fun v => c.sig || v = 0 }]

/-- Bits of byte b of the slot that no field covers. -/
def uncovered (l : List PayFld) (b : Nat) : List Nat :=
  ((List.range 8).map fun i => 8 * b + i).filter fun x => !l.any fun f => f.bit ≤ x && x < f.bit + f.w

/-- Check 2: byte of the first failing field. -/
def formatFail (c : Cmd) (pay : List PayFld) : Option Nat :=
  let l := headerFlds c ++ pay
  let bad := (l.filter fun f => !f.ok (f.value c)).map PayFld.bit
  let stray := ((List.range 64).map fun b => (uncovered l b).filter fun x => bitOf c.slot.toNat x).flatten
  ((bad ++ stray).min?).map fun x => x / 8

/-! ### Names: contexts, timelines, entries, VD handles (check 3) -/

def State.ownsCtx (s : State) (vd n : Nat) : Bool := (s.ctx n).used && (s.ctx n).vd = vd
def State.ownsTl (s : State) (vd t : Nat) : Bool := (s.timeline t).used && (s.timeline t).vd = vd
def State.ownsHot (s : State) (vd e : Nat) : Bool := (s.hotEntry e).used && (s.hotEntry e).vd = vd

/-- A VD handle whose incarnation is current (R277). -/
def State.vdOfHandle (s : State) (h : Nat) : Option Nat :=
  let v := bitsOf h 6 0
  if v ≠ 0 ∧ bitsOf h 7 7 = 0 ∧ (s.vd v).st ≠ .none ∧ (s.vd v).inc = bitsOf h 31 8 then some v else none

/-- The VD handle of a VD. -/
def State.vdHandle (s : State) (v : Nat) : Nat := v + 2 ^ 8 * (s.vd v).inc

def State.nameFail (s : State) (c : Cmd) : Option Nat :=
  let tl := c.fld 0x10 0 16
  if c.ctxv ∧ !s.ownsCtx c.vd c.ctx then some 2
  else if c.sig ∧ !s.ownsTl c.vd c.stl then some 4
  else match c.opc with
    | 0x09 => if s.ownsTl c.vd tl then none else some 0x10
    | 0x0A => if c.fld 0x10 26 1 = 1 ∨ s.ownsTl c.vd tl then none else some 0x10
    | 0x0B => if s.ownsTl c.vd tl then none else some 0x10
    | 0x0C => if s.ownsTl c.vd tl then none else some 0x10
    | 0x11 => if (s.vdOfHandle (c.fld 0x10 0 32)).isSome then none else some 0x10
    | 0x25 => if s.ownsHot c.vd (c.fld 0x10 0 9) then none else some 0x10
    | 0x26 => if s.ownsHot c.vd (c.fld 0x10 0 9) then none else some 0x10
    | _ => none

/-! ### Handles and kinds (checks 4 and 6) -/

/-- A handle field: its offset, whether 0 may stand for none, and the kinds that suit it (R284). -/
structure HandleFld where
  off : Nat
  opt : Bool := false
  kinds : List Nat := [0, 1, 2, 3, 4]

def handleFlds (c : Cmd) : List HandleFld :=
  match c.opc with
  | 0x03 => if c.fld 0x20 0 4 = 4 then [{ off := 0x24, kinds := [0] }] else []
  | 0x04 => [{ off := 0x10 }]
  | 0x05 => [{ off := 0x10 }]
  | 0x06 => [{ off := 0x14, kinds := [0, 1, 2] }]
  | 0x10 => [{ off := 0x14, kinds := [0] }]
  | 0x12 => [{ off := 0x10, kinds := [0] }]
  | 0x20 => [{ off := 0x10, kinds := [0, 1, 2, 3] }]
  | 0x21 => [{ off := 0x10, kinds := [0, 1, 2] }]
  | 0x22 => [{ off := 0x10, kinds := [0, 1, 2, 3] }, { off := 0x14, kinds := [0, 1, 2] }]
  | 0x24 => [{ off := 0x10, kinds := [0, 1, 2, 3] }]
  | 0x30 => [{ off := 0x10, kinds := [1] }, { off := 0x14, kinds := [2] }, { off := 0x1C, opt := true, kinds := [0] },
      { off := 0x24, opt := true, kinds := [4] }]
  | 0x38 => [{ off := 0x1C, kinds := [0] }]
  | 0x40 => [{ off := 0x10, kinds := [0, 1, 2] }]
  | _ => []

/-- Handles the command names, with their fields. -/
def namedHandles (c : Cmd) : List (HandleFld × Nat) :=
  ((handleFlds c).map fun f => (f, c.fld f.off 0 32)).filter fun p => !(p.1.opt && p.2 = 0)

/-- Check 4: status and byte of the first handle that is not valid. -/
def State.handleFail (s : State) (c : Cmd) : Option (Nat × Nat) :=
  ((namedHandles c).find? fun p => s.handleCheck c.vd p.2 ≠ 0).map fun p => (s.handleCheck c.vd p.2, p.1.off)

/-- Is a CODE handle's object at most 32 KiB (R282)? -/
def State.codeFits (s : State) (h : Nat) : Bool := (s.obj (handleIdx h)).size ≤ 32768

/-- Shape cores of a VD's part. -/
def State.partCores (s : State) (v : Nat) : Nat := 64 * (s.vd v).place.pods.length

/-- Lines of a core's save record (R90). -/
def saveLines : Nat := 2752

/-- Does a context's save area fit the working bins (R283)? -/
def State.saveFits (s : State) (ctx : Nat) : Bool :=
  let x := s.ctx ctx
  !storeRangeBad x.save (saveLines * s.partCores x.vd) (s.workSlots x.vd false).length

/-- Check 6: byte of the first field whose object's kind does not suit it; an EXEC's save area is named by the header. -/
def State.kindFail (s : State) (c : Cmd) : Option Nat :=
  let bad := (namedHandles c).find? fun p =>
    !p.1.kinds.contains (s.obj (handleIdx p.2)).kind || (c.opc = 0x30 && p.1.off = 0x10 && !s.codeFits p.2)
  if c.opc = 0x30 ∧ (s.vd c.vd).st ≠ .created ∧ !s.saveFits c.ctx then some 0 else bad.map fun p => p.1.off

/-! ### Addresses and ranges (checks 5 and 7) -/

def vaFail (c : Cmd) : Option Nat :=
  match c.opc with
  | 0x03 => if c.fld 0x10 52 12 = 0 then none else some 0x10
  | 0x08 => if c.fld 0x18 52 12 = 0 then none else some 0x18
  | 0x14 => if c.fld 0x10 52 12 = 0 then none else some 0x10
  | _ => none

/-- An object range: handle field, offset field, length field and length. -/
def State.rangeFail1 (s : State) (c : Cmd) (hOff oOff lOff len : Nat) : Option Nat :=
  let size := (s.obj (handleIdx (c.fld hOff 0 32))).size
  let o := c.fld oOff 0 64
  if o ≥ size then some oOff else if o + len > size then some lOff else none

def State.rangeFail (s : State) (c : Cmd) : Option Nat :=
  match c.opc with
  | 0x06 => s.rangeFail1 c 0x14 0x18 0x18 1
  | 0x20 => s.rangeFail1 c 0x10 0x18 0x14 (c.fld 0x14 0 32)
  | 0x21 => s.rangeFail1 c 0x10 0x18 0x14 (c.fld 0x14 0 32)
  | 0x22 => match s.rangeFail1 c 0x10 0x18 0x28 (c.fld 0x28 0 64) with
    | some o => some o
    | none => s.rangeFail1 c 0x14 0x20 0x28 (c.fld 0x28 0 64)
  | 0x40 => s.rangeFail1 c 0x10 0x18 0x18 1
  | _ => none

/-- The SEALED object a LOAD or HOT_LOAD names, if its handle is valid (R395). -/
def State.sealedObj (s : State) (c : Cmd) : Option Nat :=
  let h := c.fld 0x10 0 32
  if (c.opc = 0x20 ∨ c.opc = 0x24) ∧ s.handleCheck c.vd h = 0 ∧ (s.obj (handleIdx h)).kind = 3 then some (handleIdx h) else none

/-- Key ID of the weight-key slot of an object (R395). -/
def State.weightKey (s : State) (v i : Nat) : Option Nat :=
  (s.hbm.keys.find? fun e => e.2.weight && e.2.vd = v && e.2.obj = some i && e.2.st = .active).map Prod.fst

/-- NPAGES of the sealed object a LOAD names: from its key slot, else from a header that reads well (R394, R395). -/
def State.sealedPages (s : State) (c : Cmd) : Option Nat × State :=
  match s.sealedObj c with
  | none => (none, s)
  | some i => match s.weightKey c.vd i with
    | some k => (some (s.key k).npages, s)
    | none => match s.readAt c.vd (s.obj i).va 16 0 reqSecurity 0 c.ctx with
      | (.ok bs 0, s) => (if leAt bs 0 4 = 0x4C414553 then some (leAt bs 8 8) else none, s)
      | (_, t) => (none, { s with freeCount := t.freeCount })

/-- Check 2 of a LOAD of a SEALED object: OFF and LEN are whole pages (R395). -/
def State.sealedAlign (s : State) (c : Cmd) : Option Nat :=
  if c.opc ≠ 0x20 ∨ (s.sealedObj c).isNone then none
  else if c.fld 0x14 0 32 % 4096 ≠ 0 then some 0x14
  else if c.fld 0x18 0 64 % 4096 ≠ 0 then some 0x18
  else none

/-- Check 7 of a LOAD of a SEALED object against NPAGES x 4,096 (R395). -/
def sealedRange (c : Cmd) (np : Option Nat) : Option Nat :=
  match np with
  | none => none
  | some n => if c.opc ≠ 0x20 then none
    else if c.fld 0x18 0 64 ≥ 4096 * n then some 0x18
    else if c.fld 0x18 0 64 + c.fld 0x14 0 32 > 4096 * n then some 0x14 else none

/-- The earlier of two failing bytes. -/
def firstByte : Option Nat → Option Nat → Option Nat
  | some a, some b => some (min a b)
  | a, none => a
  | none, b => b

/-- The acceptance checks: status and DETAIL of the first that fails (R275). -/
def State.acceptFail (s : State) (c : Cmd) (np : Option Nat) : Option (Nat × Nat) :=
  match payload c with
  | none => some (stPermission, 0)
  | some pay =>
    match firstByte (formatFail c pay) (s.sealedAlign c) with
    | some o => some (stAborted, o)
    | none => match s.nameFail c with
      | some o => some (stBadHandle, o)
      | none => match s.handleFail c with
        | some r => some r
        | none => match vaFail c with
          | some o => some (stTransFault, o)
          | none => match s.kindFail c with
            | some o => some (stBadHandle, o)
            | none => (if (s.sealedObj c).isSome then sealedRange c np else s.rangeFail c).map fun o => (stAborted, o)

/-! ### Fallback chains and exec lists at acceptance (R181, R281, R327–R329) -/

/-- Is a chain record well formed, and do its handles pass for a VD? -/
def State.chainOk (s : State) (vd : Nat) (bs : List Byte) : Bool :=
  let w (o : Nat) : Nat := leAt bs o 4
  let n := w 0 % 4
  w 0 / 4 = 0 && 1 ≤ n && w 8 = 0 && w 12 = 0 &&
  (List.range 3).all fun i =>
    let o := 0x10 + 16 * i
    if i < n then
      let good (h kind : Nat) : Bool := s.handleCheck vd h = 0 && (s.obj (handleIdx h)).kind = kind
      good (w o) 1 && s.codeFits (w o) && good (w (o + 4)) 2 && (w (o + 8) = 0 || good (w (o + 8)) 0)
    else w o = 0 && w (o + 4) = 0 && w (o + 8) = 0 && w (o + 12) = 0

/-- Handles of a chain's variants. -/
def chainHandles (d : BitVec 512) : List Nat :=
  let n := d.toNat % 4
  ((List.range n).map fun i => (List.range 3).map fun j => slotField d (0x10 + 16 * i + 4 * j) 0 32).flatten.filter (· ≠ 0)

/-- EST of a position in µs, and the number of variants. -/
def chainEst (d : BitVec 512) (p : Nat) : Nat := if p = 0 then slotField d 4 0 32 else slotField d (0x1C + 16 * (p - 1)) 0 32
def chainVars (d : Option (BitVec 512)) : Nat := match d with
  | some d => d.toNat % 4
  | none => 0

/-- How reading an EXEC's chain ends. -/
inductive ChainAns where
  | none
  | ok (d : BitVec 512)
  | reject
  | wait
  deriving DecidableEq, Repr

/-- Read the chain FBK names (R328). -/
def State.readChain (s : State) (c : Cmd) : ChainAns × State :=
  let fbk := c.fld 0x20 0 8
  if c.opc ≠ 0x30 ∨ fbk = 0 then (.none, s)
  else
    let h := (s.vd c.vd).fbt
    let o := s.obj (handleIdx h)
    if s.handleCheck c.vd h ≠ 0 ∨ o.kind ≠ 0 ∨ o.size < 64 * (fbk + 1) then (.reject, s)
    else match s.readAt c.vd (o.va + 64 * fbk) 64 0 reqQueue 0 c.ctx with
      | (.ok bs 0, s) => if s.chainOk c.vd bs then (.ok (BitVec.ofNat 512 (leNat bs)), s) else (.reject, s)
      | (.wait, s) => (.wait, s)
      | (_, s) => (.reject, s)

/-- The deadline rule of R329 applied once at toll count t. -/
def State.deadlineStep (s : State) (c : Cmd) : Cmd :=
  let d := c.fld 0x28 0 64
  let m := s.effField (baseSch + 0x100) 15 0 * 1000
  match c.chain with
  | none => c
  | some ch =>
    let n := ch.toNat % 4
    let fits (p : Nat) : Bool := s.toll + chainEst ch p * 1000 + m ≤ d
    if d = 0 ∨ fits c.fpos then c
    else { c with fpos := ((List.range (n + 1)).find? fun q => c.fpos < q && fits q).getD n }

/-- CODE, BTSET and EXL of the position an exec is served at. -/
def Cmd.execHandles (c : Cmd) : Nat × Nat × Nat :=
  match c.chain, c.fpos with
  | some d, p + 1 => (slotField d (0x10 + 16 * p) 0 32, slotField d (0x14 + 16 * p) 0 32, slotField d (0x18 + 16 * p) 0 32)
  | _, _ => (c.fld 0x10 0 32, c.fld 0x14 0 32, c.fld 0x1C 0 32)

/-! ### Completion (R273, R278) -/

/-- Write the completion record of a command: held behind earlier ones, then as many as the ring takes. -/
def State.postRecord (s : State) (c : Cmd) : State :=
  let p := s.pair c.q
  let s := s.setPair c.q { p with held := p.held ++ [(s.cqRecord c, c.noirq || !s.qRun c.q)] }
  s.writeHeldN c.q (p.held.length + 1)

/-- Objects a command takes a device reference on: the distinct objects it names, but OBJ_REF and OBJ_FREE take none. -/
def refsOf (c : Cmd) : List Nat :=
  if c.opc = 0x04 ∨ c.opc = 0x05 then []
  else ((namedHandles c).map (fun p => handleIdx p.2) ++ (match c.chain with
    | some d => (chainHandles d).map handleIdx
    | none => [])).dedup

/-- Reject a command: journalled and completed at once (R275). -/
def State.reject (s : State) (c : Cmd) (status detail : Nat) : State :=
  let c := { c with rej := true, status := status, detail := detail, phase := .done }
  (s.journal c true).postRecord c

/-- Hot-set entries of the VD that an exec's list names, as far as it can be read at acceptance (R182, R281). -/
def State.listHots (s : State) (c : Cmd) : List Nat × State :=
  let h := (if c.fpos = 0 then c.fld 0x1C 0 32 else c.execHandles.2.2)
  if c.opc ≠ 0x30 ∨ h = 0 then ([], s)
  else match s.readAt c.vd (s.obj (handleIdx h)).va 0x24 (fnPort (s.qFn c.q)) reqQueue 0 c.ctx with
    | (.ok bs 0, s) =>
      let l := ((List.range (min 16 (leAt bs 0 1 % 32))).map fun i => leAt bs (4 + 2 * i) 2).filter fun e => s.ownsHot c.vd e
      (l.dedup, s)
    | (_, t) => ([], { s with freeCount := t.freeCount })

/-- Take a reference on hot-set entries. -/
def State.holdHots (s : State) (l : List Nat) : State :=
  l.foldl (fun s e => s.setHot e { s.hotEntry e with refs := (s.hotEntry e).refs + 1 }) s

/-- Accept a command: references, the record, and what acceptance itself changes (R275, R285). -/
def State.accept (s : State) (c : Cmd) : State :=
  let c := { c with refs := refsOf c }
  let s := c.refs.foldl (fun s i => s.takeRef i) s
  let i := handleIdx (c.fld 0x10 0 32)
  let o := s.obj i
  let r : Cmd × State := match c.opc with
    | 0x04 =>
      if o.href ≥ 65535 then ({ c with status := stAdmission }, s)
      else ({ c with result0 := o.href + 1 }, s.setObj i { o with href := o.href + 1 })
    | 0x05 => ({ c with result0 := o.href - 1, waitObj := if c.fld 0x14 0 1 = 1 ∧ o.href = 1 then some i else none },
        (s.setObj i { o with href := o.href - 1 }).settleObj i)
    | 0x30 =>
      let x := s.ctx c.ctx
      let c := s.deadlineStep c
      let l := s.listHots c
      ({ c with hots := l.1 }, (l.2.holdHots l.1).setCtx c.ctx { x with queued := x.queued ++ [c.seq] })
    | _ => (c, s)
  (r.2.journal r.1 false).setCmd c.seq r.1

/-- Does the engine take slots from a queue: active, its function served, slots filled, the journal free? -/
def State.canTake (s : State) (q : Nat) : Bool :=
  let p := s.pair q
  p.st = .active && p.head ≠ p.tail && s.journalReady && !s.que.halted && (s.vd p.vd).st ≠ .teardown &&
    s.qRun q

/-- Take the next slot of a queue (R272, R275). -/
def State.takeSlot (s : State) (q : Nat) : State :=
  let p := s.pair q
  if !s.canTake q then s
  else if !s.qLive q then s.setPair q { p with st := .stopped, err := 1 }
  else
    let slot := BitVec.ofNat 512 (readLE s.host.mem (p.sqbase + 64 * p.head) 64)
    let c : Cmd := { seq := s.que.seq, q := q, vd := p.vd, slotIdx := p.head, slot := slot, tacc := s.toll }
    let np := s.sealedPages c
    let taken := (np.2.setPair q { p with head := (p.head + 1) % ringSlots p.sqsz })
    let taken := { taken with que := { taken.que with seq := s.que.seq + 1 } }
    match np.2.acceptFail c np.1 with
    | some (st, d) => taken.reject c st d
    | none => match taken.readChain c with
      | (.wait, _) => s
      | (.reject, t) => t.reject c stBadHandle 0x20
      | (.ok d, t) => t.accept { c with chain := some d }
      | (.none, t) => t.accept c

/-- Take at most n slots of a queue. -/
def State.takeSlots (s : State) (q : Nat) : Nat → State
  | 0 => s
  | n + 1 => if s.canTake q then State.takeSlots (s.takeSlot q) q n else s

/-- Is a queue served only in its VD's ticks (R337)? -/
def State.ticked (s : State) (q : Nat) : Bool := (s.vd (s.pair q).vd).quiet

/-- Take every pending slot of a queue. -/
def State.serve (s : State) (q : Nat) : State := if s.ticked q then s else s.takeSlots q 65536

/-- A doorbell write that reaches a queue pair (R272). -/
def State.ringDoorbell (s : State) (q tail : Nat) : State :=
  let p := s.pair q
  if p.st ≠ .active ∨ tail % 65536 ≥ ringSlots p.sqsz then s.setPair q { p with dberr := satAdd 16 p.dberr 1 }
  else (s.setPair q { p with tail := tail % 65536 }).serve q

/-- Statuses that count as success (R278). -/
def isSuccess (st : Nat) : Bool := st = stOK || st = stPartial || st = stFallback

/-- The header's signal at completion (R278). -/
def State.headerSignal (s : State) (c : Cmd) : State :=
  if !c.sig ∨ !s.ownsTl c.vd c.stl then s
  else if c.sigfail && !isSuccess c.status then s.poisonTl c.stl
  else (s.signal c.stl c.sval false).2

/-- A hot-set reference of a completed exec is released; the entry's last use is now (R182). -/
def State.dropHotRef (s : State) (e : Nat) : State :=
  let x := s.hotEntry e
  if x.used then s.setHot e { x with refs := x.refs - 1, lastUse := s.toll } else s

/-- An entry whose fill ends early: a load's entry goes with its reference, a reload's bins are released (R180, R181). -/
def State.dropFill (s : State) (c : Cmd) : State :=
  match c.fill with
  | none => s
  | some e =>
    if c.opc = 0x24 then (s.dropHot e).dropRef (s.hotEntry e).obj
    else
      let s := s.evict e
      s.setHot e { s.hotEntry e with loading := false }

/-- What an EXEC's completion changes in its context: it leaves the queue, and retained inputs come and go (R282). -/
def State.execLeaves (s : State) (c : Cmd) : State :=
  if c.opc ≠ 0x30 then s
  else
    let x := s.ctx c.ctx
    if !x.used then s
    else
      let ph1 := c.fld 0x30 0 64
      let kept := x.retained.filter fun r => r.seq ≠ ph1
      let kept := if c.fld 0x20 8 1 = 1 ∧ isSuccess c.status then kept ++ [c] else kept
      s.setCtx c.ctx { x with queued := x.queued.erase c.seq, retained := kept }

/-- COMMAND_COMPLETE: the effect has ended; the record, the signal, the references and the journal. -/
def execCommandComplete (seq : Nat) (s : State) : Res :=
  let c := s.cmd seq
  .next (if !s.hasCmd seq ∨ c.phase ≠ .ready ∨ s.que.halted then s
    else
      let s := { s with que := { s.que with cmds := sput {} seq {} s.que.cmds } }
      let s := s.headerSignal c
      let s := s.dropFill c
      let s := c.hots.foldl (fun s e => s.dropHotRef e) s
      let s := c.refs.foldl (fun s i => s.dropRef i) s
      let s := s.execLeaves c
      let s := (s.journal c true).postRecord c
      (skeys s.que.pairs).foldl (fun s q => s.serve q) s)

/-! ### Registers of a queue pair (R271) -/

/-- A write reached a reserved field or code through the queue's function (R11, R453). -/
def State.queueRsvw (s : State) (q : Nat) : State :=
  let p := s.pair q
  if p.vd = 0 then s.setRsvw
  else match (s.vd p.vd).vf with
    | some (a, n) => s.setVf a n { s.vf a n with rsvw := true }
    | none => s

/-- A write of QUE_QCTL through function f; a pair of VD 0 belongs to the PF that enabled it last (R271, R461). -/
def State.writeQctl (s : State) (f q n : Nat) : State :=
  let p := s.pair q
  let en := bitOf n 31
  let vecOk (x : Nat) : Bool := if p.vd = 0 then 16 ≤ x else 8 ≤ x && x ≤ 63
  let sq := if bitsOf n 19 16 ≤ 10 then bitsOf n 19 16 else p.sqsz
  let cq := if bitsOf n 15 12 ≤ 10 then bitsOf n 15 12 else p.cqsz
  let vec := if vecOk (bitsOf n 10 0) then bitsOf n 10 0 else p.vec
  let bad := bitsOf n 30 20 ≠ 0 || bitOf n 11 || bitsOf n 19 16 > 10 || bitsOf n 15 12 > 10 || !vecOk (bitsOf n 10 0)
  if !p.assigned then s
    else if p.en ∧ (bitsOf n 19 16 ≠ p.sqsz ∨ bitsOf n 15 12 ≠ p.cqsz ∨ bitsOf n 10 0 ≠ p.vec) then s.queueRsvw q
    else
      let s := if bad then s.queueRsvw q else s
      let p1 := { p with sqsz := sq, cqsz := cq, vec := vec }
      if en ∧ !p.en then
        (s.setPair q { p1 with en := true, pf := if p.vd = 0 then f else p.pf, st := .active, err := 0, head := 0, tail := 0, cqhead := 0, cqtail := 0,
                               phase := true }).writeHeldN q p.held.length
      else if !en then s.setPair q { p1 with en := false, st := .disabled }
      else s.setPair q p1

/-- A write of CQHEAD: software consumes records; held ones are written while there is room (R273). -/
def State.writeCqhead (s : State) (q v : Nat) : State :=
  let p := s.pair q
  (s.setPair q { p with cqhead := v % 65536 }).writeHeldN q p.held.length

/-- QUEUE_ENGINE_TICK: a quiet VD's tick takes at most one slot, round robin over its queues with pending slots (R337);
the queue after the one served last comes first. -/
def execQueueEngineTick (vd : Nat) (s : State) : Res :=
  let qs := (s.que.pairs.filter fun e => e.2.assigned && e.2.vd = vd && e.2.st = .active && e.2.head ≠ e.2.tail).map Prod.fst
  let last := (s.vd vd).lastTick
  .next (if vd = 0 ∨ !(s.vd vd).quiet then s
    else match (qs.find? fun q => last < q).or qs.head? with
      | none => s
      | some q => (s.setVd vd { s.vd vd with lastTick := q }).takeSlot q)

end Sys2Proof.Machine
end

