-- ==== Sys2Proof/Machine/Commands.lean ====
section
/-!
DEFINITION. The meanings of the queue commands: contexts, objects, lists, page-table words, invalidations, LOAD, STORE
and COPY, the hot set, the journal (spec/10 R276, R283–R285, R292, R293; spec/06 R180–R183; spec/14 R394, R395).

A command's effect goes on from the bytes it has moved (`Cmd.pos`) each time its row is taken, until it ends.
-/
namespace Sys2Proof.Machine

/-- A command's row, while no unresolved fault stalls it (R241, R245). -/
def runXCmd (seq opc : Nat) (s : State) (f : Cmd → State → State) : Res :=
  if s.stalled seq then .next s else runCmd seq opc s f

/-- Repeat a step while it goes on, at most n times. -/
def State.loop (f : State → Bool × State) : Nat → State → State
  | 0, s => s
  | n + 1, s => match f s with
    | (true, s) => State.loop f n s
    | (false, s) => s

/-- A command has moved n bytes more. -/
def State.advance (s : State) (seq n : Nat) : State := s.modCmd seq fun c => { c with pos := c.pos + n }

/-- A command meets a status and goes on (R498). -/
def State.meetStatus (s : State) (seq st : Nat) : State := s.modCmd seq fun c => c.meet st 0

/-! ### Contexts (R283) -/

def effNop (c : Cmd) (s : State) : State := s.finish c.seq stOK 0

/-- NOP. -/
def execNopCommand (seq : Nat) (s : State) : Res := runCmd seq 0x00 s effNop

/-- Classes the VD's contexts may name, in force (R323, R341). -/
def State.cmask (s : State) (v : Nat) : Nat := s.effField (baseSch + 0x1000 + 8 * v) 28 16

/-- CTX_CREATE: the lowest free number. -/
def execCtxCreate (seq : Nat) (s : State) : Res :=
  runCmd seq 0x01 s fun c s =>
    let sched := c.fld 0x18 0 8
    if c.vd ≠ 0 ∧ !bitOf (s.cmask c.vd) (sched % 16) then s.finish seq stPermission 0x18
    else match lowestKey (fun n => !(s.ctx n).used) 4096 0 with
      | none => s.finish seq stAdmission 0x31
      | some n =>
        (s.setCtx n { used := true, vd := c.vd, seed := BitVec.ofNat 32 (c.fld 0x10 0 32), save := c.fld 0x14 0 32,
                      sched := sched }).finishR seq stOK 0 n 0

/-- Every EXEC of a context that has not begun completes with ABORTED, DETAIL 0 (R283, R295). -/
def State.abortQueued (s : State) (ctx : Nat) : State :=
  let x := s.ctx ctx
  (x.queued.filter fun q => q ≠ x.cur).foldl (fun s q => s.finish q stAborted 0) s

/-- CTX_DESTROY: L1 teardown; the number is free once its running exec has ended. -/
def execCtxDestroy (seq : Nat) (s : State) : Res :=
  runCmd seq 0x02 s fun c s =>
    let s := (s.abortQueued c.ctx).teardownCtx c.ctx 0x40000001
    if (s.ctx c.ctx).cur ≠ 0 then s else (s.setCtx c.ctx {}).finish seq stOK 0

/-! ### Objects (R284, R285) -/

/-- OBJ_CREATE: the lowest FREE entry not held out of use. -/
def execObjCreate (seq : Nat) (s : State) : Res :=
  runCmd seq 0x03 s fun c s =>
    match lowestKey (fun i => (s.obj i).st = .free && !(s.obj i).dead) (2 ^ 20) 0 with
    | none => s.finish seq stAdmission 0x30
    | some i =>
      let o := s.obj i
      let s := s.setObj i { o with st := .active, vd := c.vd, kind := c.fld 0x20 0 4, va := c.fld 0x10 0 64,
                                   size := c.fld 0x18 0 64, pool := c.fld 0x24 0 32, href := 1, dref := 0, skipped := 0 }
      s.finishR seq stOK 0 (s.handle i) 0

/-- OBJ_REF: HREF changed at acceptance; it completes as it starts. -/
def execObjRef (seq : Nat) (s : State) : Res := runCmd seq 0x04 s fun c s => s.finish c.seq stOK 0

/-- OBJ_FREE: with WAIT and no host reference left, it completes when the object reaches FREE. -/
def execObjFree (seq : Nat) (s : State) : Res :=
  runCmd seq 0x05 s fun c s =>
    match c.waitObj with
    | none => s.finish seq stOK 0
    | some i =>
      let o := s.obj i
      if o.st = .free ∨ o.gen ≠ handleGen (c.fld 0x10 0 32) then s.finish seq stOK 0 else s

/-- A key ID is set to RETIRING; zeroisation is scheduled at the boundary that begins period k + 2 (R218, R399). -/
def State.retireKey (s : State) (k : Nat) : State :=
  s.setKey k { s.key k with st := .retiring, drained := false, zeroAt := some ((s.toll / tollPeriod + 2) * tollPeriod) }

/-- An object reaches FREE; the slot of its weight key retires (R395). -/
def State.objFree (s : State) (i : Nat) : State :=
  let v := (s.obj i).vd
  let s := match s.weightKey v i with
    | some k => s.retireKey k
    | none => s
  s.freeObj i

/-- A scrub's translation of a page: as a write, with host leaves never presented (R241, R285). -/
def State.scrubTrans (s : State) (v va : Nat) : Trans × State :=
  let noAts := { s with host := { s.host with ports := [] } }
  let r := noAts.translate v va true 0 reqQueue 0 0
  (r.1, { r.2 with host := { r.2.host with ports := s.host.ports } })

/-- Zero-fill one page at a VD memory address; false while a move makes it wait. -/
def State.zeroPage (s : State) (v a : Nat) : Bool × State :=
  let g := s.granAt v a
  let key := (s.carve v (bitsOf a 41 40)).key
  (List.range (4096 / g)).foldl (fun (r : Bool × State) i =>
    if r.1 then
      match r.2.mpeWrite v key (a + g * i) false (List.replicate g (some 0#8)) with
      | (.wait, s) => (false, s)
      | (_, s) => (true, s)
    else r) (true, s)

/-- Scrub n pages from a VA; false where it has to wait. -/
def State.scrubPages (v idx : Nat) : Nat → Nat → State → Bool × State
  | 0, _, s => (true, s)
  | n + 1, va, s =>
    match s.scrubTrans v va with
    | (.mem a, t) => (match t.zeroPage v a with
      | (true, t) => State.scrubPages v idx n (va + 4096) t
      | (false, t) => (false, t))
    | (.wait, t) => (false, t)
    | (_, t) =>
      let s := { s with freeCount := t.freeCount }
      let o := s.obj idx
      State.scrubPages v idx n (va + 4096) (s.setObj idx { o with skipped := satAdd 32 o.skipped 1 })

/-- OBJECT_SCRUB_COMPLETE: every page mapped to VD memory holds zeros and the object is FREE. -/
def execObjectScrubComplete (idx : Nat) (s : State) : Res :=
  let o := s.obj idx
  .next (if o.st ≠ .scrubbing then s
    else if o.kind = 4 then s.objFree idx
    else match State.scrubPages o.vd idx (o.size / 4096) o.va s with
      | (true, t) => t.objFree idx
      | (false, _) => s)

/-! ### Lists (R293) and JRN_READ (R292) -/

/-- Write a byte string into the object a command names, from the bytes already written on; then `done`. -/
def State.pushBytes (s : State) (c : Cmd) (hOff oOff : Nat) (bs : List Byte) (done : State → State) : State :=
  let base := (s.obj (handleIdx (c.fld hOff 0 32))).va + c.fld oOff 0 64
  let pf := fnPort (s.qFn c.q)
  State.loop (fun s =>
    let p := (s.cmd c.seq).pos
    if p ≥ bs.length then (false, done s)
    else
      let va := base + p
      let k := min (256 - va % 256) (bs.length - p)
      let r := s.writeVaBlock c.vd va ((bs.drop p).take k) false pf reqQueue c.seq c.ctx
      let m := r.2.meetAns c.seq c.vd r.1
      (m.1, if m.1 then m.2.advance c.seq k else m.2)) (bs.length / 256 + 3) s

/-- Entries of VD_LIST: number and bytes of every entry the VD has of the kind SEL. -/
def State.listEntries (s : State) (v sel : Nat) (tenant : Bool) : List (Nat × List Byte) :=
  match sel with
  | 0 => (s.que.objs.filter fun e => e.2.st ≠ .free && e.2.vd = v).map fun e =>
      let o := e.2
      let st := match o.st with
        | .retiring => 1
        | .scrubbing => 2
        | _ => 0
      (e.1, leBytes 4 (s.handle e.1) ++ leBytes 4 (o.kind + 2 ^ 4 * st) ++ leBytes 8 o.va ++ leBytes 8 o.size ++
        leBytes 4 o.href ++ leBytes 4 o.dref)
  | 1 => (s.que.ctxs.filter fun e => e.2.used && e.2.vd = v).map fun e =>
      (e.1, leBytes 4 e.1 ++ leBytes 4 e.2.seed.toNat ++ leBytes 4 e.2.save ++
        leBytes 4 (e.2.sched + 2 ^ 8 * b2n (e.2.cur ≠ 0)) ++ leBytes 16 0)
  | 2 => (s.que.tls.filter fun e => e.2.used && e.2.vd = v).map fun e =>
      (e.1, leBytes 4 (e.1 + 2 ^ 16 * b2n e.2.poisoned) ++ leBytes 4 0 ++ leBytes 8 e.2.value ++ leBytes 8 e.2.mirror ++
        leBytes 4 (e.2.nonadv + 2 ^ 16 * e.2.wrap) ++ leBytes 4 0)
  | _ => sortBy' ((s.que.pairs.filter fun e => e.2.assigned && e.2.vd = v).map fun e =>
      let st := match e.2.st with
        | .disabled => 0
        | .active => 1
        | .stopped => 2
      (e.2.lq, leBytes 4 (e.2.lq + 2 ^ 8 * (if tenant then 0 else e.1)) ++ leBytes 4 st ++
        leBytes 4 (e.2.head + 2 ^ 16 * e.2.cqtail) ++ leBytes 4 0 ++ leBytes 4 (s.cmdsOf e.1).length ++ leBytes 12 0))
where
  /-- In rising number. -/
  sortBy' (l : List (Nat × List Byte)) : List (Nat × List Byte) :=
    (sortBy id (l.map Prod.fst)).filterMap fun n => l.find? fun e => e.1 = n

def effVdList (c : Cmd) (s : State) : State :=
  let sel := c.fld 0x10 0 2
  let v := if c.fld 0x28 0 7 = 0 then c.vd else c.fld 0x28 0 7
  if c.fld 0x28 0 7 ≠ 0 ∧ sel ≠ 3 then s.finish c.seq stPermission 0
  else
    let all := s.listEntries v sel (c.vd ≠ 0)
    let room := ((s.obj (handleIdx (c.fld 0x14 0 32))).size - c.fld 0x18 0 64) / 32
    let out := (all.filter fun e => c.fld 0x24 0 32 ≤ e.1).take (min room (c.fld 0x20 0 32))
    s.pushBytes c 0x14 0x18 (out.map Prod.snd).flatten fun s => s.finishR c.seq stOK 0 out.length all.length

/-- A VD_LIST row of a given SEL. -/
def runList (seq sel : Nat) (s : State) : Res :=
  if (s.cmd seq).fld 0x10 0 2 = sel then runXCmd seq 0x06 s effVdList else .next s

/-- VD_LIST with SEL 0. -/
def execVdListObjects (seq : Nat) (s : State) : Res := runList seq 0 s
/-- VD_LIST with SEL 1. -/
def execVdListContexts (seq : Nat) (s : State) : Res := runList seq 1 s
/-- VD_LIST with SEL 2. -/
def execVdListTimelines (seq : Nat) (s : State) : Res := runList seq 2 s
/-- VD_LIST with SEL 3. -/
def execVdListQueues (seq : Nat) (s : State) : Res := runList seq 3 s

/-- A record as a reader of its own VD gets it: body in clear, SEALTAG zero; a body whose tag fails reads as zeros with
STATUS INTEGRITY_FAIL (R292). -/
def State.clearRec (s : State) (r : JRec) : List Byte :=
  r.header ++ (match s.openRec r with
    | some b => b
    | none => List.replicate 64 0#8 ++ [0x30#8] ++ List.replicate 15 0#8) ++ List.replicate 16 0#8

def effJrnRead (c : Cmd) (s : State) : State :=
  let mine := (s.que.jrn.filter fun e => e.2.seq ≠ 0 && e.2.vd = c.vd && c.fld 0x20 0 64 ≤ e.2.seq).map Prod.snd
  let order := sortBy id (mine.map (·.seq))
  let room := ((s.obj (handleIdx (c.fld 0x10 0 32))).size - c.fld 0x18 0 64) / 128
  let out := (order.take (min room (c.fld 0x28 0 32))).filterMap fun n => mine.find? fun r => r.seq = n
  let first := order.headD s.que.seq
  let bs := (out.map s.clearRec).flatten
  s.pushBytes c 0x10 0x18 bs fun s => s.finishR c.seq stOK 0 out.length first

/-- JRN_READ: the VD's own records in clear. -/
def execJrnRead (seq : Nat) (s : State) : Res := runXCmd seq 0x40 s effJrnRead

/-! ### Page-table words and invalidations (R228, R237–R239) -/

/-- TBL_WRITE: words through the MPE under the key of the carve-out the address names. -/
def effTblWrite (c : Cmd) (s : State) : State :=
  State.loop (fun s =>
    let i := (s.cmd c.seq).pos
    if i ≥ c.fld 0x18 0 3 then (false, s.finish c.seq stOK 0)
    else
      let a := c.fld 0x10 0 42 + 8 * i
      let g := s.granAt c.vd a
      let w := leBytes 8 (c.fld (0x20 + 8 * i) 0 64)
      let new := List.replicate (a % g) none ++ w.map some ++ List.replicate (g - a % g - 8) none
      match s.mpeWrite c.vd (s.carve c.vd (bitsOf a 41 40)).key (a / g * g) false new with
      | (.ok _, s) => (true, s.advance c.seq 1)
      | (.wait, s) => (false, s)
      | (e, s) => (true, (s.meetStatus c.seq e.status).advance c.seq 1)) 5 s

/-- TBL_WRITE. -/
def execTblWrite (seq : Nat) (s : State) : Res := runXCmd seq 0x13 s effTblWrite

/-- INVALIDATE: it begins or waits behind the one in progress; INVALIDATION_PHASE_DRAIN completes it. -/
def execInvalidate (seq : Nat) (s : State) : Res :=
  runCmd seq 0x14 s fun c s =>
    if c.pos ≠ 0 then s
    else (s.advance seq 1).requestInval c.vd { seq := seq, va := c.fld 0x10 0 64 / 4096 * 4096, n := c.fld 0x18 0 32,
                                               whole := c.fld 0x1C 0 1 = 1 }

/-! ### Seedbank lines of a VD's working bins (R159, R276) -/

/-- Bin and line of a Seedbank byte address; none beyond the working bins. -/
def State.sbTarget (s : State) (v a : Nat) : Option (Nat × Nat) :=
  if a / 64 ≥ 2 ^ 28 then none else ((s.workSlots v false)[slotOf (a / 64)]?).map fun b => (b, lineOf (a / 64))

/-- Byte enables of n bytes from byte o of a line. -/
def lineMask (o n : Nat) : DWord := BitVec.ofNat 64 ((2 ^ n - 1) * 2 ^ o)

/-- A command's request on a line. -/
def State.cmdRequest (s : State) (v b l : Nat) (hot : Bool) (op : SbOp) : SbAns × State :=
  s.sbRequest b l { vd := v, hotOk := hot, newEpoch := true, op := op, ecc := .clean }

/-- Status a refused or failed line calls for. -/
def SbAns.status : SbAns → Nat
  | .refused => stPermission
  | .targetReset => stTargetReset
  | .poisoned => stPoisoned
  | _ => 0

/-- Land bytes on a line for a command: it goes on, or waits. -/
def State.landBytes (s : State) (seq v b l : Nat) (hot : Bool) (o : Nat) (bs : List Byte) (poison : Bool) : Bool × State :=
  let d := BitVec.ofNat 512 (leNat bs * 2 ^ (8 * o))
  match s.cmdRequest v b l hot (.write d (lineMask o bs.length) poison) with
  | (.wait, s) => (false, s)
  | (.done, s) => (true, s.advance seq bs.length)
  | (a, s) => (true, (s.meetStatus seq a.status).advance seq bs.length)

/-! ### Sealed objects (R394, R395) -/

/-- Is a header page well formed, with its pages and tags inside the object? -/
def sealHeaderOk (bs : List Byte) (size : Nat) : Bool :=
  leAt bs 0 4 = 0x4C414553 && leAt bs 4 4 = 1 && 1 ≤ leAt bs 8 8 && ((bs.drop 0x68).all fun b => b = 0#8) &&
    0x1000 + (4096 + 16) * leAt bs 8 8 ≤ size

/-- The lowest EMPTY key ID from 16 on (R392). -/
def State.freeKey (s : State) : Option Nat := lowestKey (fun k => (s.key k).st = .empty && (s.key k).peer = none) (4096 - 16) 16

/-- The key-encryption key of a set (R391). -/
def SetKey.kek (k : SetKey) : BitVec 256 :=
  keyOf (hkdfExpand (hkdfExtract [] (beBytes 32 k.key.toNat)) (asciiBytes "H9 seal" ++ beBytes 48 k.id.toNat) 32)

/-- The weight key of a sealed object: in its slot, or placed there now; none where the command has ended or waits. -/
def State.openSeal (s : State) (c : Cmd) (i : Nat) : Option Nat × State :=
  match s.weightKey c.vd i with
  | some k => (some k, s)
  | none =>
    let o := s.obj i
    let r := s.readAt c.vd o.va 4096 (fnPort (s.qFn c.q)) reqSecurity c.seq c.ctx
    match r.1 with
    | .ok bs 0 =>
      let s := r.2
      let id := BitVec.ofNat 384 (beNat ((bs.drop 0x10).take 48))
      if !sealHeaderOk bs o.size then (none, s.finish c.seq stAborted 0)
      else match (s.vd c.vd).sec.sets.find? fun q => q.id = id with
        | none => (none, s.finish c.seq stPermission 0)
        | some q => match kwUnwrap q.kek ((bs.drop 0x40).take 40) with
          | none => (none, s.finish c.seq stIntegrity 0)
          | some w => match s.freeKey with
            | none => (none, s.finish c.seq stAdmission 0)
            | some k =>
              (some k, s.setKey k { st := .active, vd := c.vd, weight := true, cur := { dataKey := keyOf w }, obj := some i,
                                    npages := leAt bs 8 8, setId := id })
    | .ok _ st => (none, r.2.finish c.seq st 0)
    | a => (none, (r.2.meetAns c.seq c.vd a).2)

/-- Payload page p of a sealed object: its plaintext, or none where it lands as poisoned lines; the first component
tells whether the access answered. -/
def State.sealPage (s : State) (c : Cmd) (i k p : Nat) : (Bool × Option (List Byte)) × State :=
  let sl := s.key k
  let va := (s.obj i).va
  let pf := fnPort (s.qFn c.q)
  let r := s.readAt c.vd (va + 0x1000 + 4096 * p) 4096 pf reqSecurity c.seq c.ctx
  match r.1 with
  | .ok ct st =>
    let t := r.2.readAt c.vd (va + 0x1000 + 4096 * sl.npages + 16 * p) 16 pf reqSecurity c.seq c.ctx
    (match t.1 with
     | .ok tag st' =>
       let st := worseStatus st st'
       let aad := beBytes 48 sl.setId.toNat ++ leBytes 8 sl.npages ++ leBytes 8 p
       (match gcmOpen sl.cur.dataKey p aad ct tag with
        | some pt =>
          if st = 0 then ((true, some pt), t.2) else ((true, none), t.2.meetStatus c.seq st)
        | none => ((true, none), (t.2.meetStatus c.seq st).meetStatus c.seq stIntegrity))
     | a => ((false, none), (t.2.meetAns c.seq c.vd a).2))
  | a => ((false, none), (r.2.meetAns c.seq c.vd a).2)

/-- Bytes [pos, pos + n) of a command's source: of the object, or of a sealed object's payload. A poisoned or failed
source lands poisoned; the data of such a page are open. -/
def State.sourceBytes (s : State) (c : Cmd) (i : Nat) (sk : Option Nat) (off n req : Nat) : Option (List Byte × Bool) × State :=
  match sk with
  | none =>
    let r := s.readAt c.vd ((s.obj i).va + off) n (fnPort (s.qFn c.q)) req c.seq c.ctx
    let m := r.2.meetAns c.seq c.vd r.1
    (match r.1 with
     | .ok bs st => (some (bs, st ≠ 0), m.2)
     | _ => (none, m.2))
  | some k => match s.sealPage c i k (off / 4096) with
    | ((true, some pt), s) => (some ((pt.drop (off % 4096)).take n, false), s)
    | ((true, none), s) =>
      let f := s.takeFree 512
      (some ((leBytes 64 f.1.toNat).take n, true), f.2)
    | ((false, _), s) => (none, s)

/-! ### LOAD, STORE, COPY -/

/-- LOAD goes on line by line of the Seedbank. -/
def State.loadFrom (s : State) (c : Cmd) (sk : Option Nat) : State :=
  let i := handleIdx (c.fld 0x10 0 32)
  let len := c.fld 0x14 0 32
  State.loop (fun s =>
    let p := (s.cmd c.seq).pos
    if p ≥ len then (false, s.finish c.seq stOK 0)
    else
      let a := c.fld 0x20 0 64 + p
      let n := min (64 - a % 64) (len - p)
      match s.sbTarget c.vd a with
      | none => (true, (s.meetStatus c.seq stPermission).advance c.seq n)
      | some (b, l) => match s.sourceBytes c i sk (c.fld 0x18 0 64 + p) n (binPod b) with
        | (none, s) => (false, s)
        | (some (bs, poison), s) => s.landBytes c.seq c.vd b l false (a % 64) bs poison) (len / 64 + 3) s

def effLoad (c : Cmd) (s : State) : State :=
  let i := handleIdx (c.fld 0x10 0 32)
  if (s.obj i).kind = 3 then
    match s.openSeal c i with
    | (some k, s) => s.loadFrom c (some k)
    | (none, s) => s
  else s.loadFrom c none

/-- LOAD. -/
def execLoad (seq : Nat) (s : State) : Res := runXCmd seq 0x20 s effLoad

/-- What n bytes of the Seedbank from a byte address hold. -/
inductive SbRead where
  | ok (bs : List Byte) (poison : Bool)
  | fail (status : Nat)
  | wait
  deriving DecidableEq, Repr

/-- The line an answer carries, with its poison bit. -/
def SbAns.line : SbAns → Option (BitVec 512 × Bool)
  | .data d p => some (d, p)
  | .done | .refused | .targetReset | .poisoned | .wait => none

/-- What an answer gives of the bytes o to o + k of its line. -/
def SbAns.gathered (o k : Nat) (x : SbAns) : SbRead :=
  match x.line with
  | some (d, p) => .ok (lineSlice d o k) p
  | none => if x = .wait then .wait else .fail x.status

/-- Bytes before those that a read gives. -/
def SbRead.after (bs : List Byte) (p : Bool) : SbRead → SbRead
  | .ok cs q => .ok (bs ++ cs) (p || q)
  | r => r

/-- Read bytes of a VD's working bins, line by line. -/
def State.sbGather (v : Nat) : Nat → Nat → Nat → State → SbRead × State
  | 0, _, _, s => (.ok [] false, s)
  | f + 1, a, n, s =>
    if n = 0 then (.ok [] false, s)
    else
      let k := min n (64 - a % 64)
      match s.sbTarget v a with
      | none => (.fail stPermission, s)
      | some (b, l) =>
        let q := s.cmdRequest v b l false .read
        match q.1.gathered (a % 64) k with
        | .ok bs p =>
          let r := State.sbGather v f (a + k) (n - k) q.2
          (r.1.after bs p, r.2)
        | e => (e, q.2)

/-- Bytes of a destination block: a granule of the VD's memory. -/
def destBlock (v : Nat) : Nat := if v = 0 then 256 else 64

/-- Write a block of a command's destination; poisoned data land poisoned. -/
def State.destWrite (s : State) (c : Cmd) (va : Nat) (bs : List Byte) (poison : Bool) (req : Nat) : Bool × State :=
  let s := if poison then s.meetStatus c.seq stPoisoned else s
  let r := s.writeVaBlock c.vd va bs poison (fnPort (s.qFn c.q)) req c.seq c.ctx
  let m := r.2.meetAns c.seq c.vd r.1
  (m.1, if m.1 then m.2.advance c.seq bs.length else m.2)

def effStore (c : Cmd) (s : State) : State :=
  let i := handleIdx (c.fld 0x10 0 32)
  let len := c.fld 0x14 0 32
  State.loop (fun s =>
    let p := (s.cmd c.seq).pos
    if p ≥ len then (false, s.finish c.seq stOK 0)
    else
      let va := (s.obj i).va + c.fld 0x18 0 64 + p
      let g := destBlock c.vd
      let n := min (g - va % g) (len - p)
      let a := c.fld 0x20 0 64 + p
      let req := match s.sbTarget c.vd a with
        | some (b, _) => binPod b
        | none => reqQueue
      match State.sbGather c.vd 6 a n s with
      | (.wait, s) => (false, s)
      | (.fail st, s) => (true, (s.meetStatus c.seq st).advance c.seq n)
      | (.ok bs poison, s) => s.destWrite c va bs poison req) (len / 64 + 3) s

/-- STORE. -/
def execStore (seq : Nat) (s : State) : Res := runXCmd seq 0x21 s effStore

def effCopy (c : Cmd) (s : State) : State :=
  let len := c.fld 0x28 0 64
  State.loop (fun s =>
    let p := (s.cmd c.seq).pos
    if p ≥ len then (false, s.finish c.seq stOK 0)
    else
      let va := (s.obj (handleIdx (c.fld 0x14 0 32))).va + c.fld 0x20 0 64 + p
      let g := destBlock c.vd
      let n := min (g - va % g) (len - p)
      match s.sourceBytes c (handleIdx (c.fld 0x10 0 32)) none (c.fld 0x18 0 64 + p) n reqQueue with
      | (none, s) => (false, s)
      | (some (bs, poison), s) => s.destWrite c va bs poison reqQueue) (len / 64 + 3) s

/-- COPY. -/
def execCopy (seq : Nat) (s : State) : Res := runXCmd seq 0x22 s effCopy

/-! ### The hot set (R180–R183) -/

/-- Bins in CLEARING that will be FREE and that an entry of the VD may take. -/
def State.comingBins (s : State) (v : Nat) : Nat :=
  ((List.range 512).filter fun b => (s.bin b).st = .clearing && !(s.bin b).retire &&
    (!(s.vd v).quiet || (s.podsOf v).contains (binPod b))).length

/-- Quota of a VD's bound shape. -/
def State.hotQuota (s : State) (v : Nat) : Nat := (s.vd v).alt.hotq

/-- Evict own entries until an entry's bins fit the quota and are free or coming; false where no candidate remains. -/
def State.makeRoom (v need : Nat) : Nat → State → Bool × State
  | 0, s => (false, s)
  | n + 1, s =>
    if (s.hotPlacement v (s.vd v).quiet).length + s.comingBins v ≥ need ∧ s.hotBins v + need ≤ s.hotQuota v then (true, s)
    else match s.victim (s.evictable (some v)) with
      | none => (false, s)
      | some e => State.makeRoom v need n (s.evict e)

/-- Bytes of an entry's image: the object, or a sealed object's payload. -/
def State.imageBytes (s : State) (i : Nat) (sk : Option Nat) : Nat :=
  match sk with
  | some k => 4096 * (s.key k).npages
  | none => (s.obj i).size

/-- Bins of an image. -/
def binsFor (bytes : Nat) : Nat := (bytes + 2 ^ 24 - 1) / 2 ^ 24

/-- Fill an entry for a command: bins, then lines from `pos` on; `ready` follows once it is resident. -/
def State.fillHot (s : State) (c : Cmd) (e : Nat) (ready : State → State) : State :=
  let x := s.hotEntry e
  let v := c.vd
  let go (s : State) (sk : Option Nat) : State :=
    let s := s.modCmd c.seq fun c => { c with fill := some e }
    let s := s.setHot e { s.hotEntry e with loading := true }
    let placed : Bool × State :=
      if !x.bins.isEmpty then (true, s)
      else match State.makeRoom v x.need 513 s with
        | (false, s) => (false, s.finish c.seq stAdmission 0)
        | (true, s) =>
          let cand := s.hotPlacement v (s.vd v).quiet
          if cand.length < x.need then (false, s)
          else
            let bins := cand.take x.need
            (true, (s.giveHot v e bins).setHot e { s.hotEntry e with bins := bins })
    if !placed.1 then placed.2
    else
      let s := placed.2
      let bins := (s.hotEntry e).bins
      let len := s.imageBytes x.obj sk
      State.loop (fun s =>
        let p := (s.cmd c.seq).pos
        if p ≥ len then
          let s := s.setHot e { s.hotEntry e with loading := false, resident := true, lastUse := s.toll }
          (false, ready (s.modCmd c.seq fun c => { c with fill := none, pos := 0 }))
        else match s.sourceBytes c x.obj sk p 64 reqQueue with
          | (none, s) => (false, s)
          | (some (bs, poison), s) =>
            s.landBytes c.seq v (bins.getD (p / 2 ^ 24) 0) (p / 64 % 2 ^ 18) true 0 bs poison) (len / 64 + 3) s
  if (s.obj x.obj).kind = 3 then
    match s.openSeal c x.obj with
    | (some k, s) => go s (some k)
    | (none, s) => s
  else go s none

/-- Create a hot-set entry for HOT_LOAD, or reject it. -/
def State.createHot (s : State) (c : Cmd) (sk : Option Nat) : State :=
  let i := handleIdx (c.fld 0x10 0 32)
  let need := binsFor (s.imageBytes i sk)
  let pin : Bool := c.fld 0x14 2 1 = 1
  let q := s.hotQuota c.vd
  if need > 256 ∨ s.hotBins c.vd + need > q ∨ (pin ∧ s.pinnedBins c.vd + need > q) then s.finish c.seq stAdmission 0
  else match s.freeHot with
    | none => s.finish c.seq stAdmission 0
    | some e =>
      let s := (s.takeRef i).setHot e { used := true, vd := c.vd, obj := i, need := need, prio := c.fld 0x14 0 2, pin := pin,
                                        loading := true }
      s.modCmd c.seq fun c => { c with fill := some e, result0 := e }

def effHotLoad (c : Cmd) (s : State) : State :=
  let i := handleIdx (c.fld 0x10 0 32)
  let s := match c.fill with
    | some _ => s
    | none =>
      if (s.obj i).kind = 3 then
        match s.openSeal c i with
        | (some k, s) => s.createHot c (some k)
        | (none, s) => s
      else s.createHot c none
  let c := s.cmd c.seq
  match c.fill with
  | some e => if c.phase = .running then s.fillHot c e fun s => s.finish c.seq stOK 0 else s
  | none => s

/-- HOT_LOAD. -/
def execHotLoad (seq : Nat) (s : State) : Res := runXCmd seq 0x24 s effHotLoad

/-- HOT_SET: priority and pin; a pin beyond the quota is rejected. -/
def execHotSet (seq : Nat) (s : State) : Res :=
  runCmd seq 0x25 s fun c s =>
    let e := c.fld 0x10 0 9
    let x := s.hotEntry e
    let pin : Bool := c.fld 0x14 2 1 = 1
    if pin ∧ !x.pin ∧ s.pinnedBins c.vd + x.need > s.hotQuota c.vd then s.finish seq stAdmission 0
    else (s.setHot e { x with prio := c.fld 0x14 0 2, pin := pin }).finish seq stOK 0

/-- HOT_RELEASE: the entry goes, its bins are cleared and its reference released. -/
def execHotRelease (seq : Nat) (s : State) : Res :=
  runCmd seq 0x26 s fun c s =>
    let e := c.fld 0x10 0 9
    ((s.dropHot e).dropRef (s.hotEntry e).obj).finish seq stOK 0

end Sys2Proof.Machine
end

