-- ==== Sys2Proof/Machine/Fw.lean ====
section
/-!
DEFINITION. Finwin ports and sessions: identity, sending under credits, hop replay, the receive checks, toll frames and
the choice of the toll master (spec/13 R344–R357, R363–R369).
-/
namespace Sys2Proof

/-! ### Payloads (R352, R353) -/

/-- TYPE of a payload. -/
def FrameBody.typ : FrameBody → Nat
  | .data .. => 0 | .ack .. => 1 | .nobuf .. => 2 | .ctrl _ => 3 | .toll _ => 4 | .credit .. => 5 | .disc _ => 6
  | .spdm _ => 7 | .pool _ => 8 | .reserved t => t

/-- Has a payload a SEQ: not TOLL, CREDIT or DISC. -/
def FrameBody.sequenced (b : FrameBody) : Bool := !(b.typ = 4 || b.typ = 5 || b.typ = 6)
/-- Virtual channel 0 carries DATA and POOL. -/
def FrameBody.vc0 (b : FrameBody) : Bool := b.typ = 0 || b.typ = 8

/-- Lines a payload fills. -/
def FrameBody.lines : FrameBody → Nat
  | .data _ l => 1 + l.length
  | .ctrl n => (match n.body with
    | .join .. => 2
    | _ => 1)
  | .spdm _ => 64
  | .disc _ => 4
  | .pool (.page ..) => 66
  | .pool (.write ..) => 66
  | _ => 1

def Notice.isJoin (n : Notice) : Bool := match n.body with
  | .join .. => true
  | _ => false

def Notice.isPrepared (n : Notice) : Bool := match n.body with
  | .prepared .. => true
  | _ => false

end Sys2Proof

namespace Sys2Proof.Machine

/-! ### Identity and configuration (R375–R377) -/

/-- FWL_DEVCFG: DEVNO resets to the strap's number. -/
def State.devCfg (s : State) : Nat :=
  match sget none s.glb.val baseFwlDev with
  | some v => v.toNat
  | none => s.fw.strap * 2 ^ 16
def State.devNo (s : State) : Nat := bitsOf s.devCfg 25 16
def State.domain (s : State) : Nat := s.devCfg % 2 ^ 16

/-- FWL_PCTL and FWL_PQTHR of a port; TOLL_CFG. -/
def pctlAddr (p : Nat) : Nat := baseFwl + 0x4000 * p
def State.portEn (s : State) (p : Nat) : Bool := s.regField (pctlAddr p) 31 31 = 1
def State.portRsv (s : State) (p : Nat) : Bool := s.regField (pctlAddr p) 29 29 = 1
def State.tollPrio (s : State) : Nat := s.regField (baseToll + 0x10) 31 24
def State.lockstep (s : State) : Bool := s.regField (baseToll + 0x10) 1 1 = 1
def State.extEn (s : State) : Bool := s.regField (baseToll + 0x10) 0 0 = 1

def State.fport (s : State) (p : Nat) : FwPort := sget {} s.fw.ports p
def State.setFport (s : State) (p : Nat) (x : FwPort) : State := { s with fw := { s.fw with ports := sput {} p x s.fw.ports } }
/-- A peer by device number; a switch's link session by 1,024 plus its number. -/
def State.peer (s : State) (d : Nat) : Peer := sget {} s.fw.peers d
def State.setPeer (s : State) (d : Nat) (x : Peer) : State := { s with fw := { s.fw with peers := sput {} d x s.fw.peers } }
/-- Every port number. -/
def allPorts : List Nat := List.range 32
/-- Key of a port's partner among the peers. -/
def FwPort.partner (p : FwPort) : Nat := if p.pkind = 2 then 1024 + p.pdev else p.pdev
/-- Is a port ACTIVE? -/
def State.isActive (s : State) (p : Nat) : Bool := (s.fport p).st = .active
/-- ACTIVE ports that reach a device: with it, or a switch, as partner (R357). -/
def State.reaching (s : State) (d : Nat) : List Nat :=
  allPorts.filter fun p => s.isActive p && ((s.fport p).pkind = 2 || (s.fport p).pdev = d)
/-- Direct ports to a device (R376). -/
def State.directPorts (s : State) (d : Nat) : List Nat :=
  allPorts.filter fun p => s.isActive p && (s.fport p).pkind = 1 && (s.fport p).pdev = d

/-- The toll period of a count. -/
def periodOf (t : Nat) : Nat := t / tollPeriod
/-- The next toll boundary after now. -/
def State.nextBoundary (s : State) : Nat := (periodOf s.toll + 1) * tollPeriod

/-! ### Counters (R375) -/

def State.countMalformed (s : State) (p : Nat) : State :=
  let x := s.fport p
  s.setFport p { x with malformed := satAdd 16 x.malformed 1, now := { x.now with malf := x.now.malf + 1 } }
def State.countTagFail (s : State) (p : Nat) : State :=
  let x := s.fport p
  s.setFport p { x with tagFail := satAdd 16 x.tagFail 1, now := { x.now with tagf := x.now.tagf + 1 } }
def State.countLate (s : State) (p : Nat) : State := s.setFport p { s.fport p with late := satAdd 16 (s.fport p).late 1 }
def State.countRateDrop (s : State) (p : Nat) : State := s.setFport p { s.fport p with rateDrop := satAdd 16 (s.fport p).rateDrop 1 }

/-! ### Frames (R352, R353) -/

/-- The largest LEN of a type. -/
def lenLimit : Nat → Nat
  | 0 => 256 | 3 => 2 | 6 => 4 | 7 => 64 | 8 => 256 | _ => 1

/-- A frame leaves a port. -/
def State.emit (s : State) (p : Nat) (f : Frame) : State := { s with fw := { s.fw with sent := (p, f) :: s.fw.sent } }

/-- Put a frame with a SEQ on a port that has the credits for it. -/
def State.launch (s : State) (p key : Nat) (f : Frame) : State :=
  let x := s.fport p
  let q := s.peer key
  let f := { f with seq := q.seqOut, sepoch := q.sepoch, dinc := q.inc }
  let s := s.setPeer key { q with seqOut := (q.seqOut + 1) % 2 ^ 32 }
  let x := if f.body.vc0 then { x with cred0 := x.cred0 - f.len } else { x with cred1 := x.cred1 - f.len }
  let x := { x with replay := x.replay ++ [f], ackAt := if x.replay.isEmpty then s.toll else x.ackAt,
                    dataSent := x.dataSent + b2n (f.body.typ = 0) }
  (s.setFport p x).emit p f

/-- Has a port credits for a frame of its channel, with none waiting before it? -/
def FwPort.hasCredit (x : FwPort) (f : Frame) : Bool :=
  !(x.waiting.any fun w => w.body.vc0 = f.body.vc0) && f.len ≤ (if f.body.vc0 then x.cred0 else x.cred1)

/-- The session a frame runs under: the destination's, or the partner's for one to a switch. -/
def State.sessionKey (s : State) (p : Nat) (f : Frame) : Nat :=
  if (s.fport p).pkind = 2 ∧ f.dst = 0x3FF then 1024 + (s.fport p).pdev else f.dst

/-- Send a frame on a port: now, or when credits return (R356). -/
def State.transmit (s : State) (p : Nat) (f : Frame) : State :=
  let x := s.fport p
  if x.hasCredit f then s.launch p (s.sessionKey p f) f else s.setFport p { x with waiting := x.waiting ++ [f] }

/-- Send the waiting frames that credits now allow, in order on each channel. -/
def State.drainWaiting (s : State) (p : Nat) : State :=
  let l := (s.fport p).waiting
  l.foldl (fun s f => s.transmit p f) (s.setFport p { s.fport p with waiting := [] })

/-- A frame to a device; SEQ, SEPOCH and DINC are set as it leaves. -/
def State.frameTo (s : State) (d keyId dvd cls len : Nat) (b : FrameBody) : Frame :=
  { dst := d, src := s.devNo, sepoch := 0, keyId := keyId, dvd := dvd, cls := cls, len := len, sinc := s.fw.inc,
    dinc := 0, seq := 0, tagOk := true, body := b }

/-- Choose among ports, round robin for a VD (R357). -/
def State.pickPort (s : State) (v : Nat) (l : List Nat) : Option (Nat × State) :=
  let last := sget 0 s.fw.rr v
  ((l.find? fun p => last ≤ p).or l.head?).map fun p =>
    (p, { s with fw := { s.fw with rr := sput 0 v ((p + 1) % 32) s.fw.rr } })

/-- A system frame to a device, under key ID 0, on any port that reaches it. -/
def State.sendSystem (s : State) (d : Nat) (b : FrameBody) : State :=
  if !(s.peer d).session then s
  else match s.pickPort 0 (s.reaching d) with
    | none => s
    | some (p, s) => s.transmit p (s.frameTo d 0 0 15 b.lines b)

/-- The link key of a VD toward a device (R350). -/
def State.linkKey (s : State) (v d : Nat) : Option LinkKey :=
  s.fw.links.find? fun k => k.vd = v && k.peer = d && k.zeroAt.isNone

/-- Ports of a VD's shares that reach a device (R357). -/
def State.sharePorts (s : State) (v d : Nat) : List Nat :=
  (s.reaching d).filter fun p => sget 0 (s.vd v).place.ports p > 0

/-- The VD number on a device that holds a part of a VD (R277, R312). -/
def State.remoteVd (s : State) (v d : Nat) : Nat :=
  match (s.vd v).devs.findIdx? fun x => x = d with
  | some part => bitsOf (sget 0 (s.vd v).peerHandles part) 6 0
  | none => 0

/-- A frame of a VD to a device, under its link key and over its shares; false where none reaches it. -/
def State.sendVd (s : State) (v d cls : Nat) (b : FrameBody) : Bool × State :=
  match s.linkKey v d with
  | none => (false, s)
  | some k => match s.pickPort v (s.sharePorts v d) with
    | none => (false, s)
    | some (p, s) => (true, s.transmit p (s.frameTo d k.label (s.remoteVd v d) cls b.lines b))

/-! ### Notices (R354) -/

/-- Send a new notice; one that waits for an answer is kept. -/
def State.sendNotice (s : State) (d group : Nat) (teardown keep : Bool) (b : NoticeBody) : State :=
  let q := s.peer d
  let n : Notice := { teardown := teardown, nseq := q.nseq + 1, group := group, body := b }
  let s := s.setPeer d { q with nseq := q.nseq + 1, out := if keep then q.out ++ [{ notice := n, since := s.toll }] else q.out }
  s.sendSystem d (.ctrl n)

/-- Answer the notices of a device that satisfy a predicate: a new notice, kept to be sent again on a repeat (R354). -/
def State.sendAnswer (s : State) (d group : Nat) (p : Notice → Bool) (b : NoticeBody) : State :=
  let s := s.sendNotice d group false false b
  let q := s.peer d
  let n : Notice := { teardown := false, nseq := q.nseq, group := group, body := b }
  let acted := q.acted.map fun (e : Acted) => if p e.got && e.got.group = group && e.answer.isNone then { e with answer := some n } else e
  s.setPeer d { q with acted := acted }

/-- A notice has its answer. -/
def State.answered (s : State) (d : Nat) (p : Notice → Bool) : State :=
  let q := s.peer d
  s.setPeer d { q with out := q.out.filter fun x => !p x.notice }

/-! ### Receiving (R353, R355, R356) -/

/-- How a received frame is dealt with before it is acted on. -/
inductive RxAns where
  | ok
  | dropped
  deriving DecidableEq, Repr

/-- Is a frame end to end: everything a switch relays but its own PEERDOWN, and SPDM of the partner itself? -/
def State.endToEnd (s : State) (p : Nat) (f : Frame) : Bool :=
  match f.body with
  | .data .. => true
  | .ack .. => true
  | .nobuf .. => true
  | .pool _ => true
  | .ctrl n => (match n.body with
    | .peerdown .. => false
    | _ => true)
  | .spdm _ => (s.fport p).pkind = 2 && f.dst = s.devNo
  | _ => false

/-- The session a received frame belongs to. -/
def State.rxKey (s : State) (p : Nat) (f : Frame) : Nat :=
  if s.endToEnd p f then f.src else if (s.fport p).pkind = 2 then 1024 + f.src else f.src

/-- Is a frame's SEPOCH one that is accepted now (R349)? -/
def State.sepochOk (s : State) (q : Peer) (e : Nat) : Bool :=
  e = q.sepoch || ((e + 1) % 256 = q.sepoch && q.sepoch ≠ 0 && match q.oldUntil with
    | some t => s.toll ≤ t
    | none => !q.newSeen)

/-- The link key a frame's KEYID names for its sender; the first frame that a link key opens shows the sender's label. -/
def State.rxLink (s : State) (f : Frame) : Option LinkKey :=
  (s.fw.links.find? fun k => k.peer = f.src && k.theirs = some f.keyId).or
    (s.fw.links.find? fun k => k.peer = f.src && k.theirs.isNone && k.vd = f.dvd)

/-- Lines leave the receive buffer; a CREDIT frame returns them once a quarter of a channel is freed (R356). -/
def State.freeLines (s : State) (p : Nat) (f : Frame) : State :=
  let x := s.fport p
  let x := if !f.body.sequenced then x
    else if f.body.vc0 then { x with freed0 := (x.freed0 + f.len) % 2 ^ 32 } else { x with freed1 := (x.freed1 + f.len) % 2 ^ 32 }
  let d (a b : Nat) : Nat := (a + 2 ^ 32 - b) % 2 ^ 32
  if x.st = .active ∧ (d x.freed0 x.ret0 ≥ 3584 ∨ d x.freed1 x.ret1 ≥ 512) ∧ x.credAt + 2048 ≤ s.toll then
    let s := s.setFport p { x with ret0 := x.freed0, ret1 := x.freed1, credAt := s.toll }
    s.emit p { s.frameTo x.pdev 0 0 15 1 (.credit x.freed0 x.freed1 x.got) with
               sepoch := (s.peer x.partner).sepoch, dinc := (s.peer x.partner).inc }
  else s.setFport p x

/-- Hop order: a frame after a lost codeword is discarded until the sender replays, that is until a frame whose SEQ is no
later than the first discarded one's. Taken frames count for HOPACK (R356). -/
def State.hopOrder (s : State) (p : Nat) (f : Frame) : Bool × State :=
  let x := s.fport p
  if !f.body.sequenced then (true, s)
  else if x.discarding then
    match x.firstDrop with
    | some q => if f.seq ≤ q then (true, s.setFport p { x with discarding := false, firstDrop := none, got := (x.got + 1) % 2 ^ 32 })
      else (false, s)
    | none => (false, s.setFport p { x with firstDrop := some f.seq })
  else (true, s.setFport p { x with got := (x.got + 1) % 2 ^ 32 })

/-- The checks of R355 on a frame, in order, with the counts of a frame that fails one. -/
def State.rxCheck (s : State) (p : Nat) (f : Frame) : RxAns × State :=
  let x := s.fport p
  let isDisc : Bool := f.body.typ = 6
  let e2e := s.endToEnd p f
  let key := s.rxKey p f
  let q := s.peer key
  let open_ : Bool := x.st = .unauth && f.body.typ = 7
  if x.st = .disabled ∨ x.st = .training then (.dropped, s)
  else match s.hopOrder p f with
  | (false, s) => (.dropped, s.freeLines p f)
  | (true, s) =>
    let s := s.freeLines p f
    if x.st = .quarantined then (.dropped, s.countMalformed p)
    else if f.body.typ ≥ 9 ∨ f.len > lenLimit f.body.typ ∨ (e2e ∧ f.dst ≠ s.devNo) ∨
        (f.src = s.devNo ∧ !isDisc ∧ (e2e ∨ x.pkind ≠ 2)) then (.dropped, s.countMalformed p)
    else if (x.st = .unauth ∧ f.body.typ ≠ 6 ∧ f.body.typ ≠ 7) ∨ (!isDisc ∧ f.body.typ ≠ 7 ∧ !q.session) then
      (.dropped, s.countMalformed p)
    else if isDisc ∨ open_ ∨ (f.body.typ = 7 ∧ !q.session) then (.ok, s)
    else if f.sinc ≠ q.inc then
      -- an old incarnation of a peer already lost is late; a new one means the peer was reset
      (.dropped, (s.setPeer key { q with losing := true }).countLate p)
    else if f.dinc ≠ s.fw.inc ∨ !s.sepochOk q f.sepoch then (.dropped, s.countLate p)
    else if f.keyId ≠ 0 ∧ !(s.rxLink f).any (fun k => k.vd = f.dvd && !k.zeroAt.any fun t => t ≤ s.toll) then
      (.dropped, s.countLate p)
    else if f.keyId = 0 ∧ f.dvd ≠ 0 ∧ f.body.typ ≤ 2 then (.dropped, s.countLate p)
    else if !f.tagOk then (.dropped, s.countTagFail p)
    else
      let q := { q with seqIn := max q.seqIn f.seq }
      let q := if f.sepoch = q.sepoch ∧ !q.newSeen then
          { q with newSeen := true, oldUntil := some (s.toll + 64000) } else q
      let s := s.setPeer key q
      let s := match s.rxLink f with
        | some k => if f.keyId ≠ 0 ∧ k.theirs.isNone then
            { s with fw := { s.fw with links := s.fw.links.map fun l => if l = k then { l with theirs := some f.keyId } else l } }
          else s
        | none => s
      (.ok, s)

/-- A frame of a kind arrives: it passes the checks, and `act` follows. -/
def State.receive (s : State) (p : Nat) (f : Frame) (act : State → State) : State :=
  match s.rxCheck p f with
  | (.ok, s) => act s
  | (.dropped, s) => s

/-- A notice arrives: acted on once for each sender and NSEQ; a repeat has its earlier answer again (R354). -/
def State.onNotice (s : State) (p : Nat) (f : Frame) (n : Notice) (act : State → State) : State :=
  s.receive p f fun s =>
    let key := s.rxKey p f
    let q := s.peer key
    match q.acted.find? fun e => e.got.nseq = n.nseq with
    | some e => (match e.answer with
      | some b => s.sendSystem f.src (.ctrl b)
      | none => s)
    | none => act (s.setPeer key { q with acted := { got := n } :: q.acted })

/-! ### Credits and acknowledgements (R356, R363) -/

/-- Take the cumulative counts a TOLL or CREDIT frame returns. -/
def State.takeCredits (s : State) (p c0 c1 ack : Nat) : State :=
  let x := s.fport p
  let d (a b : Nat) : Nat := (a + 2 ^ 32 - b) % 2 ^ 32
  let n := d ack x.acked
  let x := { x with cred0 := min 14336 (x.cred0 + d c0 x.seen0), cred1 := min 2048 (x.cred1 + d c1 x.seen1),
                    seen0 := c0, seen1 := c1, replay := if n ≤ x.replay.length then x.replay.drop n else x.replay,
                    acked := if n ≤ x.replay.length then ack else x.acked,
                    ackAt := if 0 < n ∧ n ≤ x.replay.length then s.toll else x.ackAt }
  (s.setFport p x).drainWaiting p

/-! ### The toll master (R364, R365, R367) -/

/-- The ranking key of a master, smaller better. -/
def masterKey (ext : Bool) (prio dev : Nat) : Nat := (if ext then 0 else 1) * 2 ^ 20 + prio * 2 ^ 10 + dev

/-- Ports whose partner advertises a master other than this device, and is not silent. -/
def State.heard (s : State) : List (Nat × Advert) :=
  allPorts.filterMap fun p =>
    let x := s.fport p
    if x.st = .active ∧ (s.toll ≤ x.usableAt + 16384 ∨ s.fw.up = some p) then
      (match x.adv with
       | some a => if a.master = s.devNo then none else some (p, a)
       | none => none)
    else none

/-- The master and the hops, MPRIO and EXTREF this device advertises. -/
def State.masterDev (s : State) : Nat := if s.fw.master then s.devNo else s.fw.mdev
def State.masterPrio (s : State) : Nat := if s.fw.master then s.tollPrio else s.fw.mprio

/-- The best of some adverts. -/
def bestAdv (l : List (Nat × Advert)) : Option (Nat × Advert) :=
  l.foldl (fun b x => match b with
    | none => some x
    | some y =>
      let k (z : Nat × Advert) : Nat := masterKey z.2.extref z.2.mprio z.2.master * 64 + min 63 z.2.hops
      if k x < k y then some x else some y) none

/-- Become the master: the count rises to the largest a follower has shown, in whole microseconds, and the epoch is new. -/
def State.becomeMaster (s : State) : State :=
  let top := (allPorts.filterMap fun p => if s.isActive p then (s.fport p).adv.map (·.count) else none).foldl max 0
  let top := (top + 999) / 1000 * 1000
  { s with toll := max s.toll top,
           fw := { s.fw with master := true, synced := false, holdover := false, hops := 0, up := none, offset := 0,
                             extref := false, epoch := (s.fw.epoch + 1) % 2 ^ 16 } }

/-- Follow the master a port advertises. -/
def State.follow (s : State) (p : Nat) (a : Advert) : State :=
  let same : Bool := !s.fw.master && s.fw.mdev = a.master
  { s with fw := { s.fw with master := false, mdev := a.master, mprio := a.mprio, hops := min 63 (a.hops + 1),
                             extref := a.extref, up := some p, holdover := false,
                             synced := s.fw.synced && same } }

/-- Run the choice of R365 among the candidates heard. -/
def State.elect (s : State) : State :=
  let own := masterKey (s.fw.master && s.fw.extref) s.tollPrio s.devNo
  match bestAdv s.heard with
  | some (p, a) =>
    if s.tollPrio ≠ 255 ∧ !s.pwr.aonRc ∧ own < masterKey a.extref a.mprio a.master then (if s.fw.master then s else s.becomeMaster)
    else s.follow p a
  | none => if s.tollPrio ≠ 255 ∧ !s.pwr.aonRc ∧ !s.fw.master then s.becomeMaster else s

/-- The upstream port is silent: the next port that advertises the same master, or holdover (R367). -/
def State.upstreamLost (s : State) : State :=
  match s.fw.up with
  | none => s
  | some u =>
    match bestAdv (s.heard.filter fun x => x.1 ≠ u && x.2.master = s.fw.mdev) with
    | some (p, a) => { s with fw := { s.fw with up := some p, hops := min 63 (a.hops + 1) } }
    | none => { s with fw := { s.fw with up := none, synced := false, holdover := true, holdAt := s.toll } }

/-- A decision broadcast for a period is taken by a member that is locked and not in holdover (R367, R368). -/
def State.takeDecision (s : State) (code period : Nat) : State :=
  if !s.lockstep ∨ s.fw.holdover ∨ code = 0 ∨ s.fw.next = some (code, period) ∨ period ≤ periodOf s.toll then s
  else { s with fw := { s.fw with next := some (code, period) },
                pwr := { s.pwr with steps := (s.pwr.steps.filter fun x => x.at_ ≠ period * tollPeriod) ++
                                       [({ at_ := period * tollPeriod, north := code, south := code } : Step)] } }

/-- The full period a 32-bit FPERIOD stands for: the one nearest ahead. -/
def fullPeriod (now low : Nat) : Nat := now + (low + 2 ^ 32 - now % 2 ^ 32) % 2 ^ 32

/-- Measure the link delay and the master's count from a TOLL frame (R364): eighths of a nanosecond. -/
def State.tollEstimate (s : State) (p : Nat) (t : TollLine) : Option Int × State :=
  let x := s.fport p
  match x.txs.find? fun t1 => t1 % 2 ^ 32 = t.echo with
  | none => (none, s)
  | some t1 =>
    let d : Int := (((s.toll : Int) - t1) - ((t.txcount : Int) - t.rxcount)) * 4 + 8 * t.corr
    let ds := (d :: x.delays).take 16
    let avg := ds.foldl (· + ·) 0 / (ds.length : Int)
    (some ((t.txcount : Int) * 8 + avg), s.setFport p { x with delays := ds })

/-- The effect of a TOLL frame that has passed its checks. -/
def State.onToll (s : State) (p : Nat) (t : TollLine) : State :=
  let s := s.takeCredits p t.cred0 t.cred1 t.hopack
  let was := (s.fport p).adv
  let r := s.tollEstimate p t
  let s := r.2
  let s := s.setFport p { s.fport p with rxAt := s.toll, rxTx := t.txcount }
  let up : Bool := s.fw.up = some p
  -- an outlier of the upstream port while locked is ignored
  let far : Bool := match r.1 with
    | some e => up && s.fw.synced && t.epoch = s.fw.epoch && decide ((e - (s.toll : Int) * 8 - s.fw.offset).natAbs > 8000)
    | none => false
  if far then
    let s := s.countLate p
    let x := s.fport p
    let s := s.setFport p { x with outliers := x.outliers + 1 }
    if x.outliers + 1 ≥ 3 then s.upstreamLost else s
  else
    let a : Advert := { master := t.master, hops := t.hops, mprio := t.mprio, extref := t.extref, synced := t.synced,
                        epoch := t.epoch, count := max t.txcount ((was.map (·.count)).getD 0) }
    let s := s.setFport p { s.fport p with adv := some a, usableAt := s.toll, outliers := 0 }
    let s := if !s.fw.holdover then s.elect else if t.master = s.fw.mdev then s.follow p a else s
    let s :=
      if s.fw.master then
        -- a follower that came from another cascade: the master merges it
        (if t.master = s.devNo ∧ was.any (fun w => w.master ≠ s.devNo) then s.becomeMaster else s)
      else if s.fw.up ≠ some p then s
      else match r.1 with
        | none => s
        | some e =>
          if s.fw.synced ∧ t.epoch = s.fw.epoch then { s with fw := { s.fw with offset := e - (s.toll : Int) * 8 } }
          else if e ≥ (s.toll : Int) * 8 then
            { s with toll := (e / 8).toNat, fw := { s.fw with epoch := t.epoch, synced := true, offset := 0 } }
          else { s with fw := { s.fw with synced := false } }
    if s.fw.up = some p then s.takeDecision t.fstep (fullPeriod (periodOf s.toll) t.fperiod) else s

/-- TOLL_FRAME_RECEIVE. -/
def execTollFrameReceive (p : Nat) (f : Frame) (s : State) : Res :=
  .next (match f.body with
    | .toll t => s.receive p f fun s => s.onToll p t
    | _ => s)

/-- The TOLL frame of a port (R363). -/
def State.tollLine (s : State) (p : Nat) : TollLine :=
  let x := s.fport p
  let dec := s.fw.next.filter fun n => n.2 > periodOf s.toll
  { txcount := s.toll, rxcount := x.rxAt, echo := x.rxTx % 2 ^ 32, epoch := s.fw.epoch, master := s.masterDev,
    hops := s.fw.hops, mprio := s.masterPrio, extref := s.fw.extref, synced := s.fw.synced,
    fstep := (dec.map Prod.fst).getD 0, fperiod := (dec.map Prod.snd).getD 0 % 2 ^ 32,
    cred0 := x.freed0, cred1 := x.freed1, hopack := x.got, corr := 0 }

/-- TOLL_FRAME_SEND: one TOLL frame on every ACTIVE port. -/
def execTollFrameSend (s : State) : Res :=
  .next ((allPorts.filter s.isActive).foldl (fun s p =>
    let x := s.fport p
    let f := { s.frameTo x.pdev 0 0 15 1 (.toll (s.tollLine p)) with
               sepoch := (s.peer x.partner).sepoch, dinc := (s.peer x.partner).inc }
    (s.setFport p { x with txs := (s.toll :: x.txs).take 64, ret0 := x.freed0, ret1 := x.freed1 }).emit p f) s)

/-- CREDIT_FRAME_RECEIVE. -/
def execCreditFrameReceive (p : Nat) (f : Frame) (s : State) : Res :=
  .next (match f.body with
    | .credit c0 c1 ack => s.receive p f fun s => s.takeCredits p c0 c1 ack
    | _ => s)

/-- HOP_REPLAY: HOPACK has not advanced for 4 µs while frames are unacknowledged: all are sent again (R356). -/
def execHopReplay (p : Nat) (s : State) : Res :=
  let x := s.fport p
  let n := x.replay.length
  .next (if x.st ≠ .active ∨ n = 0 ∨ s.toll < x.ackAt + 4000 then s
    else
      let s := s.setFport p { x with ackAt := s.toll, retry := satAdd 16 x.retry n, now := { x.now with retry := x.now.retry + n },
                                     dataReplayed := x.dataReplayed + (x.replay.filter fun f => f.body.typ = 0).length }
      x.replay.foldl (fun s f => s.emit p f) s)

/-- UNCORRECTABLE_CODEWORD: the frame it lies in is discarded, with every later one until the sender replays
(R356). -/
def execUncorrectableCodeword (p : Nat) (s : State) : Res :=
  let x := s.fport p
  .next (if x.st = .disabled ∨ x.st = .training then s
    else s.setFport p { x with discarding := true,
                               firstDrop := if x.discarding then x.firstDrop else none })

/-- UPSTREAM_SILENCE: no usable TOLL frame on the upstream port for 16 intervals (R367). -/
def execUpstreamSilence (s : State) : Res :=
  .next (match s.fw.up with
    | some u => if (s.fport u).usableAt + 16384 ≤ s.toll ∨ !s.isActive u then s.upstreamLost else s
    | none => s)

/-- HOLDOVER_ELECTION: holdover has lasted a toll period. -/
def execHoldoverElection (s : State) : Res :=
  .next (if s.fw.holdover ∧ s.fw.holdAt + tollPeriod ≤ s.toll then s.elect else s)

/-- TOLL_IN_PULSE (R366): the first pulse aligns the count and starts a new epoch; a later one slews it, or aligns it
again beyond 1 µs; a masked input shows no pulse (R478). -/
def execTollInPulse (s : State) : Res :=
  let sec := 1000000000
  let lock (t : Nat) : State :=
    { s with toll := t, fw := { s.fw with pulse := some t, extref := true, epoch := (s.fw.epoch + 1) % 2 ^ 16, offset := 0 } }
  let x := (sget {} s.side.ins 2 : InPin)
  .next (if !s.extEn ∨ !s.fw.master ∨ x.storm ∨ x.stuck then s
    else match s.fw.pulse with
      | none => lock ((s.toll / sec + 1) * sec)
      | some _ =>
        let near := (s.toll + sec / 2) / sec * sec
        let off : Int := (near : Int) - s.toll
        if off.natAbs ≤ 1000 then
          { s with fw := { s.fw with pulse := some s.toll, extref := true, offset := off * 8 } }
        else lock ((s.toll / sec + 1) * sec))

/-- TOLL_IN_LOSS: no pulse for more than 2 s (R366). -/
def execTollInLoss (s : State) : Res :=
  .next (match s.fw.pulse with
    | some t => if s.fw.extref ∧ s.fw.master ∧ t + 2000000000 < s.toll then { s with fw := { s.fw with extref := false } } else s
    | none => s)

end Sys2Proof.Machine
end

