-- ==== Sys2Proof/Machine/FwRows.lean ====
section
/-!
DEFINITION. Finwin ports and partners: training, discovery, authentication, sessions, lost peers and the notices about
them (spec/13 R344–R349, R354, R362, R368–R370; spec/14 R387).
-/
namespace Sys2Proof.Machine

/-! ### Training and lanes (R344–R346) -/

/-- A port without a partner: its counters, windows and credits' history stay as the registers show them. -/
def FwPort.idle (x : FwPort) (st : PortState) (cause : Nat) : FwPort :=
  { st := st, cause := cause, actLanes := if st = .unauth then x.actLanes else 0, malformed := x.malformed, tagFail := x.tagFail,
    retry := x.retry, credStall := x.credStall, rateDrop := x.rateDrop, late := x.late, now := x.now, past := x.past,
    framesIn := x.framesIn, framesOut := x.framesOut, spdmIn := x.spdmIn, spdmOut := x.spdmOut }

/-- A port's link session with a switch ends when no other port runs on it. -/
def State.endLink (s : State) (p : Nat) : State :=
  let x := s.fport p
  if x.pkind = 2 ∧ !(allPorts.any fun q => q ≠ p && (s.fport q).pkind = 2 && (s.fport q).pdev = x.pdev && s.isActive q) then
    s.setPeer x.partner {}
  else s

/-- A port leaves its partner. -/
def State.portTo (s : State) (p : Nat) (st : PortState) (cause : Nat) : State :=
  let s := s.endLink p
  let s := s.setFport p ((s.fport p).idle st cause)
  if s.fw.up = some p then s.upstreamLost else s

/-- Write FWL_PCTL (R375): EN starts training or disables the port, RELEASE ends a quarantine. -/
def State.writePctl (s : State) (p : Nat) (v : Nat) : State :=
  let a := pctlAddr p
  match regAt a with
  | none => s
  | some r =>
    let was := s.portEn p
    let w := r.write (s.reg a) (v - (if bitOf v 30 then 2 ^ 30 else 0))
    let s := s.setReg a w.1
    let s := if w.2 then s.setRsvw else s
    let s := if bitOf v 30 ∧ (s.fport p).st = .quarantined then s.portTo p .unauth 0 else s
    if !was ∧ s.portEn p then
      let lref := sget {} s.pwr.src 3
      let s := if lref.since.isSome then s
        else { s with pwr := { s.pwr with src := sput {} 3 { lref with since := some s.toll } s.pwr.src } }
      s.portTo p .training 0
    else if was ∧ !s.portEn p then s.portTo p .disabled 0
    else s

/-- PORT_ENABLE: a write of FWL_PCTL. -/
def execPortEnable (p : Nat) (v : Word) (s : State) : Res := .next (if p < 32 then s.writePctl p v.toNat else s)

/-- PORT_RELEASE: RELEASE written, the other fields as they stand. -/
def execPortRelease (p : Nat) (s : State) : Res :=
  .next (if p < 32 then s.writePctl p (s.reg (pctlAddr p) + 2 ^ 30) else s)

/-- Lanes of a width code. -/
def laneCount (code : Nat) : Nat := if code = 0xF then 4 else if code = 3 then 2 else if code = 1 then 1 else 0

/-- PORT_TRAINING_COMPLETE: with LREFCLK stable (R408) the port enters UNAUTH, or resumes with its partner after a narrowing; a failed training is
retried after 1,000 toll periods. -/
def execPortTrainingComplete (p : Nat) (ok : Bool) (lanes : Nat) (s : State) : Res :=
  let x := s.fport p
  let allowed := s.regField (pctlAddr p) 3 0
  let code := if lanes ≥ 4 ∧ allowed = 0xF then 0xF else if lanes ≥ 2 ∧ allowed ≠ 1 then 3 else 1
  .next (if x.st ≠ .training ∨ p ≥ 32 ∨ !(sget {} s.pwr.src 3).stable then s
    else if !ok ∨ lanes = 0 then s.setFport p { x with trainAt := some ((periodOf s.toll + 1000) * tollPeriod) }
    else if x.narrowing then s.setFport p { x with st := .active, narrowing := false, trainAt := none, ackAt := s.toll,
                                                   usableAt := s.toll, rxAt := s.toll }
    else s.setFport p { x with st := .unauth, cause := 0, actLanes := code, trainAt := none })

/-- TRAINING_RETRY. -/
def execTrainingRetry (p : Nat) (s : State) : Res :=
  let x := s.fport p
  .next (if x.st = .training ∧ x.trainAt.any fun t => t ≤ s.toll then s.setFport p { x with trainAt := none } else s)

/-- LANE_DROP: the port retrains at the widest narrower width without the lane and keeps its partner and sessions; lane 0
leaves no width, so the port trains again in full. -/
def execLaneDrop (p lane : Nat) (s : State) : Res :=
  let x := s.fport p
  let width := if lane ≥ 2 ∧ x.actLanes = 0xF then 3 else 1
  .next (if (x.st ≠ .active ∧ x.st ≠ .unauth) ∨ laneCount x.actLanes ≤ lane then s
    else if lane = 0 then s.portTo p .training 0
    else if x.st = .active then s.setFport p { x with st := .training, narrowing := true, actLanes := width }
    else s.setFport p { x with st := .training, actLanes := width })

/-- LOSS_OF_SIGNAL. -/
def execLossOfSignal (p : Nat) (s : State) : Res :=
  let x := s.fport p
  .next (if x.st = .disabled ∨ x.st = .quarantined then s else s.portTo p .training 1)

/-- SIGNAL_DETECTION: a full training begins. -/
def execSignalDetection (p : Nat) (s : State) : Res :=
  let x := s.fport p
  .next (if x.st = .training ∧ s.portEn p then s.setFport p { x with cause := 0, trainAt := none } else s)

/-! ### Discovery and authentication (R347, R348) -/

/-- Send a DISC frame. -/
def State.sendDisc (s : State) (p : Nat) : State :=
  let d : Disc := { kind := 1, domain := s.domain, devno := s.devNo, inc := s.fw.inc, toll := s.toll, epoch := s.fw.epoch,
                    master := s.masterDev }
  s.emit p { s.frameTo 0x3FF 0 0 15 4 (.disc d) with }

/-- Send an SPDM message to a port's partner: at most 64 frames of a period in UNAUTH, two in ACTIVE. -/
def State.sendSpdm (s : State) (p : Nat) (m : SpdmMsg) : State :=
  let x := s.fport p
  let f := s.frameTo x.pdev 0 0 15 64 (.spdm m)
  if x.st = .active then
    if x.spdmOut ≥ 2 then s else (s.setFport p { x with spdmOut := x.spdmOut + 1 }).transmit p f
  else if x.framesOut ≥ 64 then s else (s.setFport p { x with framesOut := x.framesOut + 1 }).emit p f

/-- A message of an authentication, or of a key update. -/
def spdmMessage (update : Bool) : SpdmMsg :=
  { update := update, last := false, ok := true, chainOk := true, m2 := 0#384, m3 := 0#384, m4 := 0#384, dbg := 0 }

/-- The rate limits of R347 on a received frame. -/
def State.rateOk (s : State) (p : Nat) (f : Frame) : Bool × State :=
  let x := s.fport p
  if x.st = .unauth then
    if x.framesIn ≥ 64 then (false, s.countRateDrop p) else (true, s.setFport p { x with framesIn := x.framesIn + 1 })
  else if x.st = .active ∧ f.body.typ = 7 then
    if x.spdmIn ≥ 2 then (false, s.countRateDrop p) else (true, s.setFport p { x with spdmIn := x.spdmIn + 1 })
  else (true, s)

/-- Begin to authenticate a port's partner. -/
def State.beginAuth (s : State) (p : Nat) : State :=
  (s.setFport p { s.fport p with authing := true, authAt := none }).sendSpdm p (spdmMessage false)

/-- What a DISC frame decides. -/
def State.onDisc (s : State) (p : Nat) (d : Disc) : State :=
  let x := s.fport p
  if x.st ≠ .unauth then s
  else
    let q := s.peer d.devno
    let x := { x with pkind := d.kind, pdev := d.devno, pinc := d.inc }
    if d.domain ≠ s.domain then s.setFport p { x with cause := 2, authing := false }
    else if d.kind = 1 ∧ (d.devno = s.devNo ∨ (q.session ∧ q.inc ≠ d.inc ∧ !q.losing)) then
      s.setFport p { x with cause := 3, authing := false }
    else if x.authing ∨ x.authAt.isSome then s.setFport p x
    else (s.setFport p { x with cause := 0 }).beginAuth p

/-- DISC_FRAME_RECEIVE. -/
def execDiscFrameReceive (p : Nat) (f : Frame) (s : State) : Res :=
  .next (match f.body with
    | .disc d =>
      let r := s.rateOk p f
      if r.1 then r.2.receive p f fun s => s.onDisc p d else r.2
    | _ => s)

/-- The peer policy (R387): 0 accepted, 4 the session failed, 5 the policy refuses. -/
def State.judgePartner (s : State) (m : SpdmMsg) : Nat :=
  let own := s.sec.active
  if !m.ok then 4
  else if !m.chainOk ∨ m.dbg ≥ 3 then 5
  else if (m.m2 = own.m2 ∧ m.m3 = own.m3 ∧ m.m4 = own.m4) ∨ s.sec.policy.contains (m.m2, m.m3, m.m4) then 0
  else 5

/-- The session of a peer is in place: shared when it runs already, else new at SEPOCH 0. -/
def State.openSession (s : State) (key inc : Nat) (switched : Bool) (m : SpdmMsg) : State :=
  let q := s.peer key
  if q.session ∧ q.inc = inc ∧ !q.losing then s
  else
    let r := s.takeFree 256
    let keep : Bool := q.inc = inc
    r.2.setPeer key { session := true, inc := inc, switched := switched, secret := r.1, meas := (m.m2, m.m3, m.m4),
                      nseq := if keep then q.nseq else 0, acted := if keep then q.acted else [], served := q.served }

/-- A port becomes ACTIVE with full credits. -/
def State.activate (s : State) (p : Nat) : State :=
  let x := s.fport p
  s.setFport p { x with st := .active, cause := 0, authing := false, authAt := none, cred0 := 14336, cred1 := 2048,
                        freed0 := 0, freed1 := 0, seen0 := 0, seen1 := 0, ret0 := 0, ret1 := 0, replay := [], waiting := [],
                        acked := 0, got := 0, ackAt := s.toll, discarding := false, firstDrop := none, delays := [], txs := [],
                        rxAt := s.toll, rxTx := 0, usableAt := s.toll, outliers := 0, adv := none }

/-- KEY_UPDATE of a session: SEPOCH advances and SEQ starts again at 0; the old epoch lives on (R349). -/
def Peer.nextEpoch (q : Peer) : Peer :=
  { q with sepoch := (q.sepoch + 1) % 256, seqOut := 0, seqIn := 0, newSeen := false, oldUntil := none }

/-- What an SPDM frame does. -/
def State.onSpdm (s : State) (p : Nat) (f : Frame) (m : SpdmMsg) : State :=
  let x := s.fport p
  let key := s.rxKey p f
  if m.update then
    let q := s.peer key
    if q.session then s.setPeer key q.nextEpoch else s
  else if x.st = .active then
    -- a device behind a switch authenticates end to end
    if s.endToEnd p f ∧ !(s.peer f.src).session ∧ m.last ∧ s.judgePartner m = 0 then s.openSession f.src f.sinc true m else s
  else if !x.authing then s
  else if !m.last then s.sendSpdm p (spdmMessage false)
  else match s.judgePartner m with
    | 0 =>
      if x.pkind = 1 ∧ (s.peer x.pdev).session ∧ (s.peer x.pdev).inc ≠ x.pinc ∧ !(s.peer x.pdev).losing then
        s.setFport p { x with cause := 3, authing := false }
      else (s.openSession x.partner x.pinc false m).activate p
    | c => s.setFport p { x with cause := c, authing := false, authAt := some ((periodOf s.toll + 1000) * tollPeriod) }

/-- SPDM_FRAME_RECEIVE. -/
def execSpdmFrameReceive (p : Nat) (f : Frame) (s : State) : Res :=
  .next (match f.body with
    | .spdm m =>
      let r := s.rateOk p f
      if r.1 then r.2.receive p f fun s => s.onSpdm p f m else r.2
    | _ => s)

/-- AUTHENTICATION_RETRY: 1,000 toll periods after a failure or a refusal. -/
def execAuthenticationRetry (p : Nat) (s : State) : Res :=
  let x := s.fport p
  .next (if x.st = .unauth ∧ x.authAt.any fun t => t ≤ s.toll then s.beginAuth p else s)

/-- A port that carries a session. -/
def State.sessionPort (s : State) (key : Nat) : Option Nat :=
  if key ≥ 1024 then allPorts.find? fun p => s.isActive p && (s.fport p).partner = key
  else (s.directPorts key).head?.or (s.reaching key).head?

/-- KEY_UPDATE: SEQ has reached 2^31 in a direction. -/
def execKeyUpdate (key : Nat) (s : State) : Res :=
  let q := s.peer key
  .next (if !q.session ∨ (q.seqOut < 2 ^ 31 ∧ q.seqIn < 2 ^ 31) then s
    else
      let s := match s.sessionPort key with
        | some p => s.transmit p (s.frameTo (if key ≥ 1024 then 0x3FF else key) 0 0 15 64 (.spdm (spdmMessage true)))
        | none => s
      s.setPeer key (s.peer key).nextEpoch)

/-! ### Lost peers and reports (R354, R368, R370) -/

/-- A peer's loss has been detected; it is handled at the next TOLL frame. -/
def State.detectLoss (s : State) (d : Nat) : State :=
  let q := s.peer d
  if q.session then s.setPeer d { q with losing := true } else s

/-- PEER_TOLL_TIMEOUT: no direct port has delivered a TOLL frame of the peer for 16 intervals. -/
def execPeerTollTimeout (d : Nat) (s : State) : Res :=
  .next (if (s.peer d).switched ∨ (s.directPorts d).any fun p => s.toll < (s.fport p).rxAt + 16384 then s else s.detectLoss d)

/-- Do two devices hold parts of one VD of this device? -/
def State.shareVd (s : State) (a b : Nat) : Bool := s.vds.any fun e => e.2.devs.contains a && e.2.devs.contains b

/-- PEERLOST: another device of a shared VD lost a peer. -/
def execPeerlost (p : Nat) (f : Frame) (s : State) : Res :=
  .next (match f.body with
    | .ctrl n => (match n.body with
      | .peerlost d inc => s.onNotice p f n fun s =>
          if s.shareVd f.src d ∧ (s.peer d).inc = inc then s.detectLoss d else s
      | _ => s)
    | _ => s)

/-- PEERDOWN: a switch has lost its last port to a device. -/
def execPeerdown (p : Nat) (f : Frame) (s : State) : Res :=
  .next (match f.body with
    | .ctrl n => (match n.body with
      | .peerdown d inc => if (s.fport p).pkind ≠ 2 then s else s.onNotice p f n fun s =>
          if (s.peer d).inc = inc then s.detectLoss d else s
      | _ => s)
    | _ => s)

/-- LSREPORT: the master keeps each member's latest headroom (R368). -/
def execLsreport (p : Nat) (f : Frame) (s : State) : Res :=
  .next (match f.body with
    | .ctrl n => (match n.body with
      | .lsreport h _ k => s.onNotice p f n fun s => s.setPeer f.src { s.peer f.src with report := some (k, h) }
      | _ => s)
    | _ => s)

/-- A peer's ROLE takes effect: what it serves, and the records that are lost (R319, R374). -/
def State.applyRole (s : State) (d : Nat) : State :=
  let q := s.peer d
  match q.role with
  | none => s
  | some (b, served, dropped) =>
    if s.toll < b then s
    else
      let lost := s.fw.knownRecs.filter fun r => r.1 = d && bitOf dropped (r.2.2.2 % 8)
      let s := s.setPeer d { q with served := served, role := none }
      { s with fw := { s.fw with lostRecs := (s.fw.lostRecs ++ lost.map fun r => (r.1, r.2.1, r.2.2.1)).dedup,
                                 knownRecs := s.fw.knownRecs.filter fun r => !lost.contains r } }

/-- ROLE: a memory-role device's served stacks from B, and the stacks whose records are lost at B. -/
def execRole (p : Nat) (f : Frame) (s : State) : Res :=
  .next (match f.body with
    | .ctrl n => (match n.body with
      | .role served dropped b => s.onNotice p f n fun s =>
          (s.setPeer f.src { s.peer f.src with role := some (b, served, dropped) }).applyRole f.src
      | _ => s)
    | _ => s)

end Sys2Proof.Machine
end

