-- ==== Sys2Proof/Machine/Xfer.lean ====
section
/-!
DEFINITION. Transfers between parts: XFER at its source, inbound transfers at a target, retries and the collective
time-out; and the pool of remote objects (spec/13 R355, R358–R361, R372–R374; spec/10 R280).
-/
namespace Sys2Proof.Machine

/-! ### The target list (R358) -/

/-- The failing byte of a target entry at offset o of the list. -/
def targetFail (nparts : Nat) (bs : List Byte) (o : Nat) : Option Nat :=
  let w (k : Nat) : Nat := leAt bs (o + k) 4
  let sig : Bool := bitOf (w 0) 6
  leastOf (failAt (w 0 % 64 < nparts) o ++ failAt (w 0 / 128 = 0) o ++ failAt (sig || w 8 % 65536 = 0) (o + 8) ++
    failAt (w 8 / 65536 = 0) (o + 10) ++ failAt (w 12 = 0) (o + 12) ++ failAt (leAt bs (o + 0x18) 8 = 0) (o + 0x18))

/-- A target entry. -/
def targetOf (devs : List Nat) (own : Nat) (bs : List Byte) (i : Nat) : XTgt :=
  let w (k : Nat) : Nat := leAt bs (32 * i + k) 4
  let part := w 0 % 64
  { part := part, dev := devs.getD part 0, local_ := part = own, sig := bitOf (w 0) 6, dstLine := w 4, tl := w 8 % 65536,
    sval := leAt bs (32 * i + 0x10) 8 }

def State.xfer (s : State) (seq : Nat) : XferSt := sget {} s.fw.xfers seq
def State.setXfer (s : State) (seq : Nat) (x : XferSt) : State := { s with fw := { s.fw with xfers := sput {} seq x s.fw.xfers } }
/-- Change the targets of an XFER. -/
def State.mapTgts (s : State) (seq : Nat) (f : XTgt → XTgt) : State :=
  s.setXfer seq { s.xfer seq with tgts := (s.xfer seq).tgts.map f }

/-- The class a transfer command is charged to (R276). -/
def State.xferClass (s : State) (c : Cmd) : Nat :=
  if c.ctxv then (s.ctx c.ctx).sched % 16 else s.effField (baseSch + 0x1000 + 8 * c.vd) 3 0

/-- The failed-target record (R280). -/
def failedRecord (l : List XTgt) : BitVec 512 :=
  let bad : List Nat := (List.range l.length).filter fun i => match l[i]? with
    | some t => t.st ≠ .acked
    | none => false
  BitVec.ofNat 512 ((bad.map fun i => 2 ^ i).sum + 2 ^ 64 * (bad.length % 256))

/-- Close an XFER once every target has acknowledged, or set the collective time-out (R361). -/
def State.settleXfer (s : State) (seq : Nat) : State :=
  let x := s.xfer seq
  if x.tgts.isEmpty then s
  else if x.tgts.all fun t => t.st = .acked then (s.setXfer seq {}).finish seq stOK 0
  else if x.timeout.isNone ∧ x.tgts.all (fun t => t.st = .acked || t.st = .failed) then
    s.setXfer seq { x with timeout := some s.nextBoundary }
  else s

/-! ### Sending (R355, R357, R359) -/

/-- Data lines of a full frame; a quiet VD's frames have exactly 64 payload lines. -/
def State.frameLines (s : State) (v : Nat) : Nat := if (s.vd v).quiet then 63 else 255

/-- Choose a port for each remote target of a group; one that no share reaches fails at once. -/
def State.choosePorts (v : Nat) : List XTgt → State → List (XTgt × Nat) × List XTgt × State
  | [], s => ([], [], s)
  | t :: l, s =>
    if t.local_ then State.choosePorts v l s
    else match s.linkKey v t.dev, s.pickPort v (s.sharePorts v t.dev) with
      | some _, some (p, s) =>
        let r := State.choosePorts v l s
        ((t, p) :: r.1, r.2.1, r.2.2)
      | _, _ =>
        let r := State.choosePorts v l s
        (r.1, t :: r.2.1, r.2.2)

/-- Write the lines of a local copy. -/
def State.landLocal (v seq : Nat) : List (BitVec 512) → Nat → State → Bool × State
  | [], _, s => (true, s)
  | d :: l, a, s => match (s.workSlots v false)[slotOf a]? with
    | none => (false, s)
    | some b => match s.cmdRequest v b (lineOf a) false (.write d (BitVec.allOnes 64) false) with
      | (.wait, s) => (false, s)
      | (.done, s) => State.landLocal v seq l (a + 1) s
      | (x, s) => State.landLocal v seq l (a + 1) (s.meetStatus seq x.status)

/-- The lines of a byte string. -/
def byteLines (bs : List Byte) : List (BitVec 512) := (chunksOf 64 bs).map fun l => BitVec.ofNat 512 (leNat l)

/-- Does a store range lie in a VD's working bins? -/
def State.inWork (s : State) (v a n : Nat) : Bool := !storeRangeBad a n (s.workSlots v false).length

/-- One frame of every target that stands at the least line: reserve on every port, read the lines once, send the copies. -/
def State.pumpStep (seq : Nat) (s : State) : Bool × State :=
  let c := s.cmd seq
  let v := c.vd
  let total := c.fld 0x18 0 32 / 64
  let sending := (s.xfer seq).tgts.filter fun t => t.st = .sending
  match (sending.map (·.next)).min? with
  | none => (false, s.settleXfer seq)
  | some n =>
    let group := sending.filter fun t => t.next = n
    let inGroup (t : XTgt) : Bool := t.st = .sending && t.next = n
    if n ≥ total then
      -- a local copy is complete; a remote target is waited for
      let sigs := group.filter fun t => t.local_ && t.sig
      let s := s.mapTgts seq fun t => if inGroup t then { t with st := if t.local_ then .acked else .waiting s.toll } else t
      (true, sigs.foldl (fun s t => (s.signal t.tl t.sval false).2) s)
    else
      let k := min (s.frameLines v) (total - n)
      let r := State.choosePorts v group s
      let gone := r.2.1
      if !gone.isEmpty then (true, r.2.2.mapTgts seq fun t => if gone.contains t then { t with st := .failed } else t)
      else
        let need (p : Nat) : Nat := (1 + k) * (r.1.filter fun e => e.2 = p).length
        match r.1.find? fun e => (s.fport e.2).waiting.any (·.body.vc0) || (s.fport e.2).cred0 < need e.2 with
        | some (_, p) => (false, s.setFport p { s.fport p with blocked := true })
        | none => match State.sbGather v (k + 2) (c.fld 0x10 0 64 + 64 * n) (64 * k) s with
          | (.wait, s) => (false, s)
          | (.fail st, s) => (true, (s.meetStatus seq st).mapTgts seq fun t => if inGroup t then { t with next := n + k } else t)
          | (.ok bs poison, t) =>
            let s := { t with fw := { t.fw with rr := r.2.2.fw.rr } }
            if poison then
              (true, (s.meetStatus seq stPoisoned).mapTgts seq fun t => if inGroup t then { t with next := n + k } else t)
            else
              let ls := byteLines bs
              match (group.filter (·.local_)).foldl (fun (q : Bool × State) t =>
                  if q.1 then State.landLocal v seq ls (t.dstLine + n) q.2 else q) (true, s) with
              | (false, _) => (false, s)
              | (true, s) =>
                let cls := s.xferClass c
                let s := r.1.foldl (fun s e =>
                  let t := e.1
                  let d : DataDesc := { xfer := seq, attempt := t.retries, dstLine := t.dstLine, off := n, total := total,
                                        sig := t.sig, tl := t.tl, sval := t.sval, fill := false }
                  let label := ((s.linkKey v t.dev).map (·.label)).getD 0
                  (s.setFport e.2 { s.fport e.2 with blocked := false }).transmit e.2
                    (s.frameTo t.dev label (s.remoteVd v t.dev) cls (1 + k) (.data d ls))) s
                (true, s.mapTgts seq fun t => if inGroup t then { t with next := n + k } else t)

/-- Send what can be sent of an XFER. -/
def State.pumpXfer (s : State) (seq : Nat) : State :=
  State.loop (State.pumpStep seq) (((s.cmd seq).fld 0x18 0 32 / 64 + 4) * ((s.xfer seq).tgts.length + 1)) s

/-- Go on with every XFER; credits have returned. -/
def State.pumpAll (s : State) : State := (skeys s.fw.xfers).foldl (fun s q => s.pumpXfer q) s

def effXfer (c : Cmd) (s : State) : State :=
  if !(s.xfer c.seq).tgts.isEmpty then s.pumpXfer c.seq
  else
    let v := s.vd c.vd
    let n := c.fld 0x20 0 6 + 1
    let h := c.fld 0x1C 0 32
    let size := (s.obj (handleIdx h)).size
    if 32 * n > size then s.finish c.seq stAborted (0x80000000 + size / 32 * 32)
    else match s.readObj c.seq c.vd (fnPort (s.qFn c.q)) h 0 (32 * n) with
      | (none, s) => s
      | (some bs, s) => match leastOf ((List.range n).filterMap fun i => targetFail v.nparts bs (32 * i)) with
        | some o => s.finish c.seq stAborted (0x80000000 + o)
        | none =>
          let total := c.fld 0x18 0 32 / 64
          let tg := (List.range n).map (targetOf v.devs v.part bs)
          let tg := tg.map fun t =>
            if t.local_ ∧ (!s.inWork c.vd t.dstLine total ∨ (t.sig ∧ !s.ownsTl c.vd t.tl)) then { t with st := .failed } else t
          (s.setXfer c.seq { tgts := tg }).pumpXfer c.seq

/-- XFER. -/
def execXfer (seq : Nat) (s : State) : Res := runXCmd seq 0x38 s effXfer

/-- COLLECTIVE_TIMEOUT: the boundary after the last target has acknowledged or failed. -/
def execCollectiveTimeout (seq : Nat) (s : State) : Res :=
  let x := s.xfer seq
  .next (if !x.timeout.any fun b => b ≤ s.toll then s
    else ((s.modCmd seq fun c => { c with ext := some (failedRecord x.tgts) }).setXfer seq {}).finish seq stPartial 0)

/-- A retry of a target: it sends again from the first line, or has failed after 16 (R361). -/
def XTgt.again (t : XTgt) : XTgt :=
  if t.retries ≥ 16 then { t with st := .failed } else { t with st := .sending, next := 0, retries := t.retries + 1 }

/-- XFER_RETRY: 64 µs after NOBUF or after the last frame of an attempt. -/
def execXferRetry (seq tgt : Nat) (s : State) : Res :=
  .next (match (s.xfer seq).tgts[tgt]? with
    | some t => (match t.st with
      | .waiting since =>
        if s.toll < since + 64000 then s
        else
          let x := s.xfer seq
          let s := s.setXfer seq { x with tgts := x.tgts.set tgt t.again }
          (s.pumpXfer seq).settleXfer seq
      | _ => s)
    | none => s)

/-- ACK_RECEIVE. -/
def execAckReceive (p : Nat) (f : Frame) (s : State) : Res :=
  .next (match f.body with
    | .ack q a => s.receive p f fun s =>
        (s.mapTgts q fun t => if t.dev = f.src ∧ !t.local_ ∧ t.retries = a ∧ t.st ≠ .lost ∧ t.st ≠ .failed
          then { t with st := .acked } else t).settleXfer q
    | _ => s)

/-- NOBUF_RECEIVE: a refusal fails the target at once; otherwise the attempt stops and a retry follows 64 µs later. -/
def execNobufReceive (p : Nat) (f : Frame) (s : State) : Res :=
  .next (match f.body with
    | .nobuf q a refused => s.receive p f fun s =>
        (s.mapTgts q fun t => if t.dev = f.src ∧ !t.local_ ∧ t.retries = a ∧ t.st ≠ .acked ∧ t.st ≠ .lost ∧ t.st ≠ .failed then
            (if refused ∨ t.retries ≥ 16 then { t with st := .failed } else { t with st := .waiting s.toll }) else t).settleXfer q
    | _ => s)

/-! ### Inbound transfers (R360) -/

/-- A shape change of the VD is pending (R310). -/
def State.shapePending (s : State) (v : Nat) : Bool := (s.vd v).changes.any fun c => c.kind = .shape
/-- A context of the VD is in a move's pause (R311). -/
def State.inPause (s : State) (v : Nat) : Bool :=
  (s.vd v).changes.head?.any (fun c => c.kind = .move && c.phase = .committed) && !(s.vd v).passing.isEmpty

/-- Answer an attempt. -/
def State.answerXfer (s : State) (v d : Nat) (b : FrameBody) : State := (s.sendVd v d 15 b).2

/-- Land one line of an inbound transfer; a bin that holds writes keeps it waiting. -/
def State.landInbound (v : Nat) (a off : Nat) (d : BitVec 512) (i : Inbound) (s : State) : Inbound × State :=
  match (s.workSlots v false)[slotOf a]? with
  | none => (i, s)
  | some b => match s.cmdRequest v b (lineOf a) false (.write d (BitVec.allOnes 64) false) with
    | (.wait, s) => ({ i with waits := i.waits ++ [(a, off, d)] }, s)
    | (.done, s) => ({ i with landed := sput false off true i.landed }, s)
    | (_, s) => (i, s)

/-- Is one inbound transfer another's attempt? -/
def Inbound.same (i j : Inbound) : Bool := i.dev = j.dev && i.xfer = j.xfer && i.attempt = j.attempt
def State.putInbound (s : State) (i : Inbound) : State :=
  { s with fw := { s.fw with inbound := s.fw.inbound.map fun j => if j.same i then i else j } }

/-- A transfer whose lines have all landed is signalled and acknowledged. -/
def State.closeInbound (s : State) (i : Inbound) : State :=
  if i.discard ∨ i.landed.length < i.total then s.putInbound i
  else
    let s := { s with fw := { s.fw with inbound := s.fw.inbound.filter fun j => !j.same i } }
    let s := if i.sig then (s.signal i.tl i.sval false).2 else s
    s.answerXfer i.vd i.dev (.ack i.xfer i.attempt)

/-- Lines that waited land once their bins take writes again. -/
def State.landWaiting (s : State) : State :=
  (s.fw.inbound.filter fun i => !i.waits.isEmpty).foldl (fun s i =>
    let r := i.waits.foldl (fun (q : Inbound × State) w => State.landInbound i.vd w.1 w.2.1 w.2.2 q.1 q.2) ({ i with waits := [] }, s)
    r.2.closeInbound r.1) s

/-- The part a device holds of a VD. -/
def State.partOf (s : State) (v d : Nat) : Option Nat := (s.vd v).devs.findIdx? fun x => x = d

/-- The effect of a DATA frame. -/
def State.onData (s : State) (f : Frame) (d : DataDesc) (ls : List (BitVec 512)) : State :=
  let v := f.dvd
  let st := (s.vd v).st
  let new : Inbound := { dev := f.src, xfer := d.xfer, attempt := d.attempt, vd := v, total := d.total, sig := d.sig,
                         tl := d.tl, sval := d.sval }
  let land (s : State) (i : Inbound) : State :=
    let r := (List.range ls.length).foldl (fun (q : Inbound × State) k =>
      State.landInbound v (d.dstLine + d.off + k) (d.off + k) (ls.getD k 0#512) q.1 q.2) (i, s)
    r.2.closeInbound r.1
  if d.fill then s
  else match s.fw.inbound.find? fun j => j.same new with
    | some i => if i.discard then s else land s i
    | none =>
      let s := { s with fw := { s.fw with inbound := s.fw.inbound.filter fun j => !(j.dev = f.src && j.xfer = d.xfer) } }
      let refuse : Bool := st = .none || st = .teardown || !s.inWork v d.dstLine d.total || (d.sig && !s.ownsTl v d.tl)
      let busy : Bool := s.shapePending v || s.inPause v ||
        decide ((s.fw.inbound.filter fun j => j.vd = v && !j.discard).length ≥ 64)
      let add (s : State) (i : Inbound) : State := { s with fw := { s.fw with inbound := s.fw.inbound ++ [i] } }
      let s := match s.partOf v f.src with
        | some p => if d.sig ∧ !refuse then
            { s with fw := { s.fw with feeders := sput 0#64 d.tl (sget 0#64 s.fw.feeders d.tl ||| (1#64 <<< p)) s.fw.feeders } }
          else s
        | none => s
      if refuse then (add s { new with discard := true }).answerXfer v f.src (.nobuf d.xfer d.attempt true)
      else if busy then (add s { new with discard := true }).answerXfer v f.src (.nobuf d.xfer d.attempt false)
      else land (add s new) new

/-- DATA_FRAME_RECEIVE. -/
def execDataFrameReceive (p : Nat) (f : Frame) (s : State) : Res :=
  .next (match f.body with
    | .data d ls => s.receive p f fun s => s.onData f d ls
    | _ => s)

/-! ### The pool (R372–R374) -/

/-- Pool key of a VD (R391). -/
def State.poolKey (s : State) (v : Nat) : Option (BitVec 256) :=
  (s.vd v).sec.group.map fun g =>
    keyOf (hkdfExpand (hkdfExtract [] (beBytes 32 g.toNat)) (asciiBytes "H9 pool" ++ leBytes 8 (s.vd v).limits.group) 32)

/-- Nonce and additional data of a page: the tag binds the record, the page and the version. -/
def poolNonce (page ver : Nat) : Nat := ver * 2 ^ 32 + page
def poolAad (record page ver : Nat) : List Byte := leBytes 8 record ++ leBytes 4 page ++ leBytes 4 ver

/-- The failing byte of a pool descriptor. -/
def poolDescFail (bs : List Byte) : Option Nat :=
  leastOf (failAt (leAt bs 0 2 = 1) 0 ++ failAt (leAt bs 2 2 = 0) 2 ++ failAt (leAt bs 4 4 / 1024 = 0) 5 ++
    failAt (leAt bs 8 8 ≠ 0) 8 ++ failAt ((bs.drop 0x10).all fun b => b = 0#8) 0x10)

/-- How far an exec's pool fetch has come. -/
inductive PoolGo where
  | ready | waiting | lost | ended (status detail : Nat)
  deriving DecidableEq, Repr

/-- Ask for a page of a record. -/
def State.poolAsk (s : State) (c : Cmd) (page : Nat) : State :=
  s.sendSystem c.poolRec.1 (.pool (.fetch (s.vd c.vd).limits.group c.poolRec.2 page))

/-- Has a record been lost (R374)? -/
def State.recLost (s : State) (v d r : Nat) : Bool := s.fw.lostRecs.contains (d, (s.vd v).limits.group, r)

/-- The fetch of an exec that names KVOBJ, before its slot 0. -/
def State.poolFetch (s : State) (c : Cmd) : PoolGo × State :=
  let kv := c.fld 0x24 0 32
  if kv = 0 then (.ready, s)
  else match c.pool with
  | .idle =>
    if (s.vd c.vd).sec.group.isNone then (.ended stPermission 0, s)
    else
      let o := s.obj (handleIdx kv)
      match s.readObj c.seq c.vd (fnPort (s.qFn c.q)) o.pool 0 64 with
      | (none, s) => (.waiting, s)
      | (some bs, s) => match poolDescFail bs with
        | some off => (.ended stAborted (0x80000000 + off), s)
        | none =>
          let d := leAt bs 4 4 % 1024
          let r := leAt bs 8 8
          if s.recLost c.vd d r then (.lost, s)
          else if !(s.peer d).session then (if (s.peer d).lost then (.lost, s) else (.waiting, s))
          else
            let c := { c with pool := .fetching 0, poolRec := (d, r) }
            (.waiting, (s.setCmd c.seq c).poolAsk c 0)
  | .fetching _ => if s.recLost c.vd c.poolRec.1 c.poolRec.2 then (.lost, s) else (.waiting, s)
  | _ => (.ready, s)

/-- Write the staging range back after an exec that succeeded: one page after another, under the next version. -/
def State.poolWriteBack (s : State) (c : Cmd) : State :=
  let kv := c.fld 0x24 0 32
  match s.poolKey c.vd with
  | none => s
  | some key =>
    if kv = 0 ∨ c.poolRec.2 = 0 then s
    else
      let o := s.obj (handleIdx kv)
      let n := o.size / 4096
      let ver := c.poolVer + 1
      let g := (s.vd c.vd).limits.group
      ((List.range n).foldl (fun (q : Bool × State) p =>
        if !q.1 then q
        else match q.2.readAt c.vd (o.va + 4096 * p) 4096 (fnPort (s.qFn c.q)) reqSecurity 0 c.ctx with
          | (.ok bs 0, s) =>
            let x := gcmSeal key (poolNonce p ver) (poolAad c.poolRec.2 p ver) bs
            (true, s.sendSystem c.poolRec.1 (.pool (.write g c.poolRec.2 p n ver x.1 (BitVec.ofNat 128 (leNat x.2)))))
          | (_, s) => (false, s)) (true, s)).2

/-- Pages a served stack holds: 120 GiB, or 116.25 GiB for N3 and S3, at 65 lines a page (R372). -/
def poolPages (stack : Nat) : Nat := (if stack = 3 ∨ stack = 7 then 116 * 2 ^ 30 + 2 ^ 28 else 120 * 2 ^ 30) / (65 * 64)

/-- Pages a stack holds now. -/
def State.poolUsed (s : State) (stack : Nat) : Nat :=
  ((s.fw.pool.filter fun r => r.stack = stack).map fun r => r.pages.length).sum

/-- Serve a write of a page: the record is created or replaced, or refused when the pool is full; an older version is
not taken. -/
def State.poolServe (s : State) (d g r page n ver : Nat) (ct : List Byte) (tag : BitVec 128) : State :=
  match s.fw.pool.find? fun x => x.group = g && x.record = r with
  | some x =>
    if ver < x.version then s
    else
      let x' := { x with version := ver, pages := sput ([], 0#128) page (ct, tag) (if ver > x.version then [] else x.pages) }
      ({ s with fw := { s.fw with pool := s.fw.pool.map fun y => if y = x then x' else y } }).sendSystem d
        (.pool (.written g r page x.stack ver false))
  | none => match (List.range 8).find? fun k => bitOf s.cmp.served k && s.poolUsed k + n ≤ poolPages k with
    | none => s.sendSystem d (.pool (.written g r page 0 ver true))
    | some k =>
      let x : PoolRec := { group := g, record := r, stack := k, version := ver, pages := sput ([], 0#128) page (ct, tag) [] }
      ({ s with fw := { s.fw with pool := s.fw.pool ++ [x] } }).sendSystem d (.pool (.written g r page k ver false))

/-- Remember what is known of a record on a device. -/
def State.knowRec (s : State) (d g r ver stack : Nat) : State :=
  { s with fw := { s.fw with knownRecs := (s.fw.knownRecs.filter fun x => !(x.1 = d && x.2.1 = g && x.2.2.1 = r)) ++
                                            [(d, g, r, 8 * ver + stack)] } }

/-- A page of a record arrives: it lands in the staging range, and the next is asked for. -/
def State.poolLand (s : State) (d g r page n ver stack : Nat) (ct : List Byte) (tag : BitVec 128) : State :=
  match (s.que.cmds.map Prod.snd).find? fun c => c.pool = .fetching page && c.poolRec = (d, r) && (s.vd c.vd).limits.group = g with
  | none => s
  | some c =>
    let o := s.obj (handleIdx (c.fld 0x24 0 32))
    if page > 0 ∧ ver ≠ c.poolVer then
      -- the record was replaced meanwhile: fetch it from its first page
      (s.setCmd c.seq { c with pool := .fetching 0 }).poolAsk c 0
    else match (s.poolKey c.vd).bind fun k => gcmOpen k (poolNonce page ver) (poolAad r page ver) ct (leBytes 16 tag.toNat) with
      | none => s.endExec c.ctx stIntegrity 0 none
      | some pt =>
        let w := s.writeAt c.vd (o.va + 4096 * page) pt (fnPort (s.qFn c.q)) reqSecurity c.seq c.ctx
        match w.1 with
        | .ok _ _ =>
          let s := w.2.knowRec d g r ver stack
          let c := { c with poolVer := ver }
          if page + 1 < n ∧ 4096 * (page + 1) < o.size then
            (s.setCmd c.seq { c with pool := .fetching (page + 1) }).poolAsk c (page + 1)
          else s.setCmd c.seq { c with pool := .fetched }
        | .fail st f =>
          (match f with
            | some f => w.2.addFault c.vd f
            | none => w.2).endExec c.ctx st 0 none
        | a => (w.2.meetAns c.seq c.vd a).2

/-- The effect of a POOL frame. -/
def State.onPool (s : State) (f : Frame) (m : PoolMsg) : State :=
  match m with
  | .fetch g r page =>
    if !s.cmp.memRole then s
    else match s.fw.pool.find? fun x => x.group = g && x.record = r with
      | none => s.sendSystem f.src (.pool (.none g r))
      | some x =>
        let pg := sget ([], 0#128) x.pages page
        s.sendSystem f.src (.pool (.page g r page x.pages.length x.version x.stack pg.1 pg.2))
  | .write g r page n ver ct tag => if s.cmp.memRole then s.poolServe f.src g r page n ver ct tag else s
  | .page g r page n ver stack ct tag => s.poolLand f.src g r page n ver stack ct tag
  | .none g r =>
    match (s.que.cmds.map Prod.snd).find? fun c =>
        c.poolRec = (f.src, r) && (s.vd c.vd).limits.group = g && (match c.pool with
          | .fetching _ => true
          | _ => false) with
    | none => s
    | some c => s.setCmd c.seq { c with pool := .fetched, poolVer := 0 }
  | .written g r _ stack ver refused =>
    if refused then { s with fw := { s.fw with lostRecs := (s.fw.lostRecs ++ [(f.src, g, r)]).dedup } }
    else s.knowRec f.src g r ver stack

/-- POOL_FRAME_RECEIVE. -/
def execPoolFrameReceive (p : Nat) (f : Frame) (s : State) : Res :=
  .next (match f.body with
    | .pool m => s.receive p f fun s => s.onPool f m
    | _ => s)

end Sys2Proof.Machine
end

