-- ==== Sys2Proof/Machine/Exec.lean ====
section
/-!
DEFINITION. Execs on pods: the scheduler's choice, starting a context, its exec list and preloads, completing it,
stopping it at a measure boundary, saving and restoring it, and the deadline monitor (spec/03 R57, R89–R93; spec/05
R141, R142; spec/10 R281, R282; spec/12 R322–R330).
-/
namespace Sys2Proof.Machine

/-! ### The choice (R322–R324) -/

def Ctx.prio (x : Ctx) : Nat := x.sched / 16 % 4
def Ctx.long (x : Ctx) : Bool := bitOf x.sched 6
def Ctx.noSave (x : Ctx) : Bool := bitOf x.sched 7

/-- Has a VD runnable contexts (R322): BOUND, or CHANGING with a move, and no shape change pending? A move's pause runs none
until its commit has passed the context on. -/
def State.vdRuns (s : State) (v : Nat) : Bool :=
  let d := s.vd v
  (d.st = .bound || (d.st = .changing && d.changes.head?.any fun c => c.kind = .move)) && !s.shapePending v && !s.inPause v

/-- The command a context's exec runs: the replayed one while a replay runs (R282). -/
def State.execCmd (s : State) (ctx : Nat) : Cmd :=
  let x := s.ctx ctx
  ((x.retained.find? fun r => x.replay ≠ 0 && r.seq = x.replay)).getD (s.cmd x.cur)

/-- Runnable contexts of a VD with the running one, in rising number. -/
def State.runnable (s : State) (v : Nat) : List Nat :=
  (s.que.ctxs.filter fun e => e.2.used && e.2.vd = v && e.2.cur ≠ 0 && (match e.2.stop with
    | .teardown _ => false
    | .exception => false
    | _ => true)).map Prod.fst

/-- The context to run (R324). -/
def State.choose (s : State) (v : Nat) : Option Nat :=
  if !s.vdRuns v then none
  else
    let r := s.runnable v
    let top := (r.map fun n => (s.ctx n).prio).foldl max 0
    let c := r.filter fun n => (s.ctx n).prio = top
    let dl (n : Nat) : Nat := (s.cmd (s.ctx n).cur).fld 0x28 0 64
    let d := c.filter fun n => dl n ≠ 0
    if d.isEmpty then (c.find? fun n => (s.vd v).lastCtx < n).or c.head?
    else (sortBy dl d).head?

/-- Ask the running context to stop at the first boundary whose slot no front end has accepted (R89, R325). -/
def State.requestStop (s : State) (v ctx : Nat) (switching : Bool) : State :=
  let x := s.ctx ctx
  if x.stop ≠ .none then s
  else
    let l := s.ctxCores ctx
    let mlen := max 1 ((l.head?.map fun c => (s.core c).mlen).getD 1)
    let acc := (l.map fun c => max (s.core c).accepted (s.core c).rbeat).foldl max 0
    let s := s.setCtx ctx { x with stop := .boundary ((acc + mlen - 1) / mlen * mlen) }
    s.setVd v { s.vd v with switching := switching }

/-- A context of higher PRIO than the running one stops it at once. -/
def State.preemptFor (s : State) (v : Nat) : State :=
  match (s.vd v).ctx, s.choose v with
  | some r, some n => if (s.ctx n).prio > (s.ctx r).prio then s.requestStop v r true else s
  | _, _ => s

/-! ### The exec list (R281) -/

/-- A preload entry. -/
structure Preload where
  first : Nat
  ncores : Nat
  pocket : Nat
  sbline : Nat
  lines : Nat
  stride : Nat
  deriving DecidableEq, Repr

/-- Failing fields of the list's header. -/
def listHeadFails (size : Nat) (owns : Nat → Bool) (bs : List Byte) : Option Nat :=
  let w := leAt bs 0 4
  let n := w % 32
  let hot (i : Nat) : Nat := leAt bs (4 + 2 * i) 2
  leastOf (failAt (n ≤ 16) 0 ++ failAt (bitsOf w 15 5 = 0) 0 ++ failAt (64 + 16 * (w / 65536) ≤ size) 2 ++
    ((List.range 16).map fun i =>
      failAt (if i < n then hot i < 512 && owns (hot i) else hot i = 0) (4 + 2 * i)).flatten ++
    failAt ((bs.drop 0x24).all fun b => b = 0#8) 0x24)

/-- A preload entry's words and failing fields. -/
def preloadAt (bs : List Byte) (e : Nat) : Preload :=
  let w (k : Nat) : Nat := leAt bs (16 * e + k) 4
  { first := w 0 % 65536, ncores := w 0 / 65536, pocket := w 4 % 2 ^ 17, sbline := w 8, lines := w 12 % 2 ^ 11 + 1,
    stride := w 12 / 65536 }
def preloadFails (cores : Nat) (bs : List Byte) (e : Nat) : List Nat :=
  let p := preloadAt bs e
  let w (k : Nat) : Nat := leAt bs (16 * e + k) 4
  let o := 0x40 + 16 * e
  failAt (p.first < cores) o ++ failAt (1 ≤ p.ncores && p.first + p.ncores ≤ cores) (o + 2) ++
    failAt (p.pocket % 64 = 0) (o + 4) ++ failAt (w 4 / 2 ^ 17 = 0) (o + 6) ++
    failAt (p.pocket + 64 * p.lines ≤ 0x20000) (o + 12) ++ failAt (bitsOf (w 12) 15 11 = 0) (o + 13)

/-- What reading a list, a set or a program of an exec yields. -/
inductive ExecRead (α : Type) where
  | ok (a : α)
  | stop                       -- stalled, waiting, or ended with the access's status
  | bad (status detail : Nat)

/-- Cores of a VD's whole shape. -/
def State.shapeCores (s : State) (v : Nat) : Nat := (s.vd v).nparts * ((s.vd v).alt.pw * (s.vd v).alt.ph * 64)

/-- Read bytes of an object for an exec. -/
def State.execBytes (s : State) (c : Cmd) (h off n : Nat) : Option (List Byte) × State :=
  s.readObj c.seq c.vd (fnPort (s.qFn c.q)) h off n

/-- Read and check an exec list: hot entries and preloads. -/
def State.readList (s : State) (c : Cmd) (exl : Nat) : ExecRead (List Nat × List Preload) × State :=
  if exl = 0 then (.ok ([], []), s)
  else
    let size := (s.obj (handleIdx exl)).size
    match s.execBytes c exl 0 64 with
    | (none, s) => (.stop, s)
    | (some bs, s) => match listHeadFails size (fun e => s.ownsHot c.vd e) bs with
      | some o => (.bad stAborted (0x80000000 + o), s)
      | none =>
        let n := leAt bs 2 2
        match s.execBytes c exl 64 (16 * n) with
        | (none, s) => (.stop, s)
        | (some ps, s) => match leastOf ((List.range n).map (preloadFails (s.shapeCores c.vd) ps)).flatten with
          | some o => (.bad stAborted (0x80000000 + o), s)
          | none => (.ok ((List.range (leAt bs 0 1 % 32)).map fun i => leAt bs (4 + 2 * i) 2,
                          (List.range n).map (preloadAt ps)), s)

/-! ### Beat-table sets and programs (R143–R148, R57) -/

/-- A reader of a set's bytes. -/
def setReader (bs : List Byte) : SetReader := fun o n => leAt bs o n

/-- Read as much of a set as its directory names, and check it against the placement. -/
def State.readSet (s : State) (c : Cmd) (h : Nat) : ExecRead (SetReader × Variant) × State :=
  let size := (s.obj (handleIdx h)).size
  match s.execBytes c h 0 (min size 64) with
  | (none, s) => (.stop, s)
  | (some hd, s) =>
    let n := leAt hd 2 2
    match s.execBytes c h 0 (min size (0x40 + 32 * n)) with
    | (none, s) => (.stop, s)
    | (some dir, s) =>
      let ext := ((variants (setReader dir)).map fun v => max (v.tabOff + v.ntab * v.tabSize) (v.mapOff + 2 * v.cores)).foldl max (0x40 + 32 * n)
      match s.execBytes c h 0 (min size ext) with
      | (none, s) => (.stop, s)
      | (some bs, s) =>
        let rd := setReader bs
        match setFails size rd with
        | some o => (.bad stAborted o, s)
        | none =>
          let v := s.vd c.vd
          match findVariant rd v.part v.alt.pw v.alt.ph (v.place.cutKind, v.place.cutAt) with
          | none => (.bad stAborted 0x40, s)
          | some x => (.ok (rd, x), s)

/-- Instruction words of a code object. -/
def codeWords (bs : List Byte) : SMap DWord :=
  (List.range ((bs.length + 7) / 8)).foldl (fun m i => sput 0#64 i (BitVec.ofNat 64 (leAt bs (8 * i) 8)) m) []

/-- Shape core number of local core i of a VD's part (R42). -/
def State.shapeNo (s : State) (v i : Nat) : Nat := (s.vd v).part * ((s.vd v).alt.pw * (s.vd v).alt.ph * 64) + i

/-- The physical cores of a VD's part, in shape order. -/
def State.placeCores (s : State) (v : Nat) : List Nat := (List.range (s.partCores v)).map (s.vd v).place.core

/-- A core as an exec starts it (R57, R60): everything zero, the program, its identity and its table. -/
def State.freshCore (s : State) (v ctx i : Nat) (code : SMap DWord) (rd : SetReader) (x : Variant) (pc : Nat) (k : Core) : Core :=
  let d := s.vd v
  let shape := s.shapeNo v i
  let k := { k.cleared with running := true, vd := v, ctx := ctx, shapeCore := shape,
                            shapePods := d.nparts * (d.alt.pw * d.alt.ph), rseed := (s.ctx ctx).seed, istore := code, pc := pc }
  k.loadTable rd x shape

/-- Fill one core's pocket from a preload; the first status met, or a wait. -/
def State.preloadCore (s : State) (c : Nat) (p : Preload) (j : Nat) : SbAns × State :=
  (List.range p.lines).foldl (fun (q : SbAns × State) l =>
    match q.1 with
    | .done =>
      let k := q.2.core c
      (match q.2.coreRequest k (p.sbline + j * p.stride + l) .read .clean with
       | (.data d poison, s) =>
         let w := k.writePocketLine s.freeCount (p.pocket / 64 + l) d poison
         (.done, s.putCore c w)
       | (a, s) => (a, s))
    | _ => q) (.done, s)

/-- Run the preloads that name cores of this part. -/
def State.preloads (s : State) (v : Nat) (ps : List Preload) : SbAns × State :=
  let base := s.shapeNo v 0
  let n := s.partCores v
  ps.foldl (fun q p => (List.range p.ncores).foldl (fun (q : SbAns × State) j =>
    let i := p.first + j
    match q.1 with
    | .done => if base ≤ i ∧ i < base + n then q.2.preloadCore ((q.2.vd v).place.core (i - base)) p j else q
    | _ => q) q) (.done, s)

/-! ### Hot-set entries of an exec (R182, R183) -/

/-- Make the entries an exec names resident; true once all are. -/
def State.reloadHots (s : State) (c : Cmd) (l : List Nat) : Bool × State :=
  let new := l.filter fun e => !c.hots.contains e
  let s := (s.holdHots new.dedup).modCmd c.seq fun c => { c with hots := c.hots ++ new.dedup }
  l.foldl (fun (q : Bool × State) e =>
    if !q.1 ∨ (q.2.hotEntry e).resident then q
    else if (q.2.hotEntry e).loading ∧ (q.2.cmd c.seq).fill ≠ some e then (false, q.2)
    else
      let s := q.2.fillHot (q.2.cmd c.seq) e id
      ((s.hotEntry e).resident && (s.cmd c.seq).phase ≠ .ready, s)) (true, s)

/-- A command of an exec that an access or a reload has ended: the context is idle again. -/
def State.execFellOut (s : State) (ctx : Nat) : State :=
  let c := s.cmd (s.ctx ctx).cur
  if c.phase = .ready then s.endExec ctx c.status c.detail none else s

/-! ### Starting an exec (R57, R282) -/

/-- The remote state of an exec is lost: its first phase is replayed on retained inputs, or it ends STATE_LOST (R282). -/
def State.loseState (s : State) (ctx : Nat) : State :=
  let x := s.ctx ctx
  let c := s.cmd x.cur
  let ph1 := c.fld 0x30 0 64
  let ok (r : Cmd) : Bool := r.seq = ph1 && ([r.execHandles.1, r.execHandles.2.1].all fun h => s.handleCheck r.vd h = 0)
  if c.fld 0x20 9 1 = 1 ∧ x.retained.any ok then s.setCtx ctx { x with replay := ph1, stateLost := true }
  else s.endExec ctx stStateLost 0 none

/-- Start a context's exec on its pods, once its list, entries, set and program are in order. -/
def State.startExec (s0 : State) (v ctx : Nat) : State :=
  let x := s0.ctx ctx
  let c := s0.execCmd ctx
  let fail (s : State) (st d : Nat) : State := s.endExec ctx st d none
  let h := c.execHandles
  -- accesses are the running command's; a replay reads through the exec that waits for it
  let c := { c with seq := x.cur }
  match s0.readList c h.2.2 with
  | (.stop, s) => s.execFellOut ctx
  | (.bad st d, s) => fail s st d
  | (.ok (hots, pres), s) =>
    if !s.saveFits ctx then fail s stAborted 0
    else match (if x.replay ≠ 0 ∨ x.replayed then (PoolGo.ready, s) else s.poolFetch (s.cmd x.cur)) with
    | (.waiting, s) => s.execFellOut ctx
    | (.lost, s) => s.loseState ctx
    | (.ended st d, s) => fail s st d
    | (.ready, s) => match s.reloadHots (s.cmd x.cur) hots with
      | (false, s) => s.execFellOut ctx
      | (true, s) => match s.readSet c h.2.1 with
        | (.stop, s) => s.execFellOut ctx
        | (.bad st d, s) => fail s st d
        | (.ok (rd, var), s) => match s.execBytes c h.1 0 (s.obj (handleIdx h.1)).size with
          | (none, s) => s.execFellOut ctx
          | (some bs, s) =>
            let code := codeWords bs
            let pc := if c.fpos = 0 then c.fld 0x18 0 32 else 0
            let before := s
            let s := s.setCtx ctx { s.ctx ctx with hot := hots, started := true, stop := .none, lastRun := s.toll }
            let s := s.setVd v { s.vd v with ctx := some ctx, lastCtx := ctx, sliceBoundaries := 0, switching := false, holds := [] }
            let cores := s.placeCores v
            let s := (List.range cores.length).foldl (fun s i =>
              let p := cores.getD i 0
              s.setCore p (s.freshCore v ctx i code rd var pc (s.core p))) s
            match s.preloads v pres with
            | (.done, s) => s
            | (.wait, _) => before
            | (a, s) => fail s a.status 0

/-- EXEC: the context's next exec becomes runnable; a higher PRIO stops the running context (R282, R324). -/
def execExec (seq : Nat) (s : State) : Res :=
  runCmd seq 0x30 s fun c s =>
    let x := s.ctx c.ctx
    if (s.vd c.vd).st = .created then s.finish seq stAdmission 0x0E
    else if x.cur ≠ 0 ∨ x.queued.head? ≠ some seq then s
    else (s.setCtx c.ctx { x with cur := seq, started := false, saved := false }).preemptFor c.vd

/-- EXEC_START: no context of the VD runs; the one chosen, if its exec has not started, begins. -/
def execExecStart (v : Nat) (s : State) : Res :=
  .next (if (s.vd v).ctx.isSome then s
    else match s.choose v with
      | none => s
      | some n => if (s.ctx n).saved ∨ s.stalled (s.ctx n).cur then s else s.startExec v n)

/-! ### Completion (R72, R282, R330) -/

/-- EXEC_COMPLETE: every core of the running context has halted with its transfers and signals done. -/
def execExecComplete (v : Nat) (s : State) : Res :=
  .next (match (s.vd v).ctx with
    | none => s
    | some n =>
      let x := s.ctx n
      if !s.execDone n ∨ x.stop = .exception ∨ x.stop = .saving then s
      else if x.replay ≠ 0 then
        (s.leaveCores n).setCtx n { x with replay := 0, replayed := true, started := false, stop := .none, hot := [], measures := 0 }
      else
        let c := s.cmd x.cur
        let d := c.fld 0x28 0 64
        let late : Bool := d ≠ 0 && s.toll > d
        let st := if c.fpos = 0 then (if late then stDeadline else stOK) else stFallback
        let s := if st = stFallback then
            s.modCmd x.cur fun c => { c with result0 := c.fpos + 2 ^ 8 * b2n x.replayed + 2 ^ 9 * b2n late }
          else s
        let s := if isSuccess st then s.poolWriteBack c else s
        s.endExec n st 0 none)

/-- SLICE_EXPIRY: the running context's slice has ended and another of its PRIO or higher is runnable. -/
def execSliceExpiry (v : Nat) (s : State) : Res :=
  .next (match (s.vd v).ctx with
    | none => s
    | some r =>
      let x := s.ctx r
      if x.long ∨ x.noSave ∨ (s.vd v).sliceBoundaries < 4 then s
      else match s.choose v with
        | some n => if n = r ∨ (s.ctx n).prio < x.prio then s else s.requestStop v r true
        | none => s)

/-! ### Stopping and saving (R89–R91, R141, R326) -/

/-- Data on the links of a core's inputs land. -/
def State.landLinks (s : State) (c m : Nat) : State := [0, 1, 2, 3].foldl (fun s p => s.arriveDue c p (m + 12) 64) s

/-- MEASURE_BOUNDARY_STOP: every core has reached the boundary, no hold is in force, and transfers and signals are done. -/
def execMeasureBoundaryStop (v : Nat) (s : State) : Res :=
  .next (match (s.vd v).ctx with
    | none => s
    | some n =>
      let x := s.ctx n
      match x.stop with
      | .boundary m =>
        let l := s.ctxCores n
        let there := l.all fun c =>
          let k := s.core c
          (k.halted || m ≤ k.slot) && m ≤ k.rbeat && k.xfers.isEmpty && k.sigs.isEmpty && k.exc.isNone && k.isld.isNone &&
            k.tlrds.isEmpty
        if !there ∨ !(s.vd v).holds.isEmpty ∨ s.execDone n then s
        else if x.noSave ∧ (s.vd v).switching then s.endExec n stPreempted (b2n (s.ctxWrote n)) none
        else (l.foldl (fun s c => s.landLinks c m) s).setCtx n { s.ctx n with stop := .saving }
      | _ => s)

/-- The control block's words (R91). -/
def Core.control (k : Core) (measures : Nat) : Mem :=
  let k := k.settleAll
  let at_ (m : Mem) (o n v : Nat) : Mem := writeLE m (0x2AC00 + o) n v
  let m := (List.range 32).foldl (fun m i => at_ m (4 * i) 4 (k.getS i).toNat) []
  let m := (List.range 8).foldl (fun m i => at_ m (0x80 + 8 * i) 8 (k.getM i).toNat) m
  let m := at_ m 0xC0 4 k.pc
  let m := at_ m 0xC4 4 k.srcnt.toNat
  let m := at_ m 0xC8 4 k.rollWin
  let m := at_ m 0xCC 4 (k.accInt.toNat + 16 * b2n k.halted)
  let m := (List.range 4).foldl (fun m i => match k.loops[i]? with
    | some e => at_ (at_ (at_ m (0xD0 + 16 * i) 4 e.first) (0xD4 + 16 * i) 4 e.last) (0xD8 + 16 * i) 4 e.count
    | none => m) m
  let m := at_ m 0x118 8 measures
  let e := k.cnt
  let m := ((List.range 9).zip [e.elemSat, e.ovfInf, e.nanOut, e.specBlk, e.sclFloor, e.intSat, e.badTrit, e.chime, e.escal]).foldl
    (fun m p => at_ m (0x120 + 4 * p.1) 4 p.2) m
  let m := at_ (at_ m 0x1A0 4 k.holdReq) 0x1A4 4 k.holdBeats
  (skeys k.poison).foldl (fun m l => writeByte m (0x2AC00 + 0x200 + l / 8) (readByte m (0x2AC00 + 0x200 + l / 8) ||| (1#8 <<< (l % 8)))) m

/-- A datum of logical input p due at beat M + j. -/
def Core.savedDatum (k : Core) (orient p m j : Nat) : Option Datum :=
  (sget [] k.skid (portMap orient p)).find? fun d => d.due = m + j

/-- A line of a core's save record, with its poison (R90, R141). -/
def Core.saveLine (k : Core) (ctl : Mem) (orient m i : Nat) : BitVec 512 × Bool :=
  if i < 2048 then (readLine k.pocket (64 * i), false)
  else if i < 2560 then
    (BitVec.ofNat 512 (leNat (((List.range 16).map fun j => leBytes 4 (sget 0#32 k.acc (16 * (i - 2048) + j)).toNat).flatten)), false)
  else if i < 2688 then (BitVec.ofNat 512 ((k.getV ((i - 2560) / 4)).toNat / 2 ^ (512 * ((i - 2560) % 4))), false)
  else if i < 2736 then
    match k.savedDatum orient ((i - 2688) / 12) m ((i - 2688) % 12) with
    | some d => (d.data, d.poison)
    | none => (0#512, false)
  else (readLine ctl (64 * i), false)

/-- Write lines of core i's save record from line l on; the first answer other than done ends it. -/
def State.saveRows (v : Nat) (new : Bool) (slots : List Nat) (base : Nat) (line : Nat → BitVec 512 × Bool) : Nat → Nat → State → SbAns × State
  | 0, _, s => (.done, s)
  | f + 1, l, s =>
    match slots[slotOf (base + l)]? with
    | none => (.refused, s)
    | some b => match s.sbRequest b (lineOf (base + l))
        { vd := v, hotOk := false, newEpoch := new, op := .write (line l).1 (BitVec.allOnes 64) (line l).2, ecc := .clean } with
      | (.done, t) => State.saveRows v new slots base line f (l + 1) t
      | r => r

/-- Write one core's save record (R90). -/
def State.saveCore (s : State) (v ctx c i m : Nat) : SbAns × State :=
  let k := s.core c
  State.saveRows v (!(s.ctx ctx).oldEpoch) (s.workSlots v (s.ctx ctx).oldEpoch) ((s.ctx ctx).save + saveLines * i)
    (k.saveLine (k.control (m / max 1 k.mlen)) (s.vd v).place.orient m) saveLines 0 s

/-- Write the save record of every core of a context (R90, R142): the first answer other than done, and the state. -/
def State.saveAll (s : State) (v ctx : Nat) : SbAns × State :=
  let m := ((s.ctxCores ctx).map fun c => (s.core c).rbeat).foldl max 0
  (s.ctxCores ctx).foldl (fun (q : SbAns × State) c => match q.1 with
    | .done => q.2.saveCore v ctx c ((s.core c).shapeCore - s.shapeNo v 0) m
    | _ => q) (.done, s)

/-- CONTEXT_SAVE_COMPLETE: every core's record is written and the context leaves its cores. -/
def execContextSaveComplete (v : Nat) (s : State) : Res :=
  .next (match (s.vd v).ctx with
    | none => s
    | some n =>
      let x := s.ctx n
      if x.stop ≠ .saving then s
      else
        let cores := s.ctxCores n
        let m := (cores.map fun c => (s.core c).rbeat).foldl max 0
        let base := s.shapeNo v 0
        match s.saveAll v n with
        | (.done, t) =>
          let ahead := cores.foldl (fun a c => sput 0 ((s.core c).shapeCore - base) ((s.core c).slot - m) a) []
          let t := t.setCtx n { x with saved := true, stop := .none, measures := s.ctxMeasures n, mayWrite := s.ctxWrote n,
                                       ahead := ahead }
          t.leaveCores n
        | (.wait, _) => s
        | (a, t) => t.endExec n a.status 0 none)

/-! ### Restoring (R93, R142) -/

/-- Read lines of a core's save record from line l on; the first line that is not answered ends it. -/
def State.loadRows (v : Nat) (new : Bool) (slots : List Nat) (base : Nat) : Nat → Nat → State →
    Sum SbAns (List (BitVec 512 × Bool)) × State
  | 0, _, s => (.inr [], s)
  | f + 1, l, s =>
    match slots[slotOf (base + l)]? with
    | none => (.inl .refused, s)
    | some b =>
      let q := s.sbRequest b (lineOf (base + l)) { vd := v, hotOk := false, newEpoch := new, op := .read, ecc := .clean }
      match q.1.line with
      | some x =>
        let r := State.loadRows v new slots base f (l + 1) q.2
        (r.1.map id (x :: ·), r.2)
      | none => (.inl q.1, q.2)

/-- Read one core's save record; none where a line is not answered. -/
def State.loadRecord (s : State) (v ctx i : Nat) : Sum SbAns (List (BitVec 512 × Bool)) × State :=
  State.loadRows v (!(s.ctx ctx).oldEpoch) (s.workSlots v (s.ctx ctx).oldEpoch) ((s.ctx ctx).save + saveLines * i) saveLines 0 s

/-- The fields a control block holds (R91). -/
def Core.takeControl (k : Core) (ctl : Mem) : Core :=
  let w (o n : Nat) : Nat := readLE ctl o n
  let k := (List.range 32).foldl (fun k i => k.setS i (BitVec.ofNat 32 (w (4 * i) 4))) k
  let k := (List.range 8).foldl (fun k i => k.setM i (BitVec.ofNat 64 (w (0x80 + 8 * i) 8))) k
  let loops := (List.range 4).filterMap fun i =>
    let o := 0xD0 + 16 * i
    if w (o + 8) 4 = 0 then none else some ({ first := w o 4, last := w (o + 4) 4, count := w (o + 8) 4 } : LoopEnt)
  let e (i : Nat) : Nat := w (0x120 + 4 * i) 4
  { k with pc := w 0xC0 4, srcnt := BitVec.ofNat 32 (w 0xC4 4), rollWin := w 0xC8 4 % 16,
           accInt := BitVec.ofNat 4 (w 0xCC 4), halted := bitOf (w 0xCC 4) 4, feStop := bitOf (w 0xCC 4) 4, loops := loops,
           cnt := { elemSat := e 0, ovfInf := e 1, nanOut := e 2, specBlk := e 3, sclFloor := e 4, intSat := e 5,
                    badTrit := e 6, chime := e 7, escal := e 8 },
           holdReq := w 0x1A0 4, holdBeats := w 0x1A4 4,
           poison := (List.range 2048).foldl (fun p i =>
             sput false i ((readByte ctl (0x200 + i / 8)).getLsbD (i % 8)) p) [] }

/-- A core from its save record: every field of R90 and R91, and the data its restored table consumes. -/
def Core.restored (k : Core) (ls : List (BitVec 512 × Bool)) (orient ahead : Nat) : Core :=
  let line (i : Nat) : BitVec 512 × Bool := ls.getD i (0#512, false)
  let mem (lo n : Nat) : Mem := (List.range n).foldl (fun m i => writeLine m (64 * i) (line (lo + i)).1) []
  let ctl := mem 2736 16
  let m := readLE ctl 0x118 8 * k.mlen
  let acc := (List.range 8192).foldl (fun a i =>
    sput 0#32 i (BitVec.ofNat 32 ((line (2048 + i / 16)).1.toNat / 2 ^ (32 * (i % 16)))) a) []
  let k := k.takeControl ctl
  let k := (List.range 32).foldl (fun k i =>
    k.setV i (BitVec.ofNat 2048 ((List.range 4).foldl (fun a j => a + (line (2560 + 4 * i + j)).1.toNat * 2 ^ (512 * j)) 0))) k
  let skid := (List.range 4).foldl (fun sk p =>
    let ds := (List.range 12).filterMap fun j =>
      if k.consumes (m + j) p then
        let l := line (2688 + 12 * p + j)
        some ({ data := l.1, poison := l.2, due := m + j, vd := k.vd } : Datum)
      else none
    sput [] (portMap orient p) ds sk) []
  { k with pocket := mem 0 2048, acc := acc, slot := m + ahead, rbeat := m, skid := skid }

/-- Read the save record of core i of a placement into that core, after what came before. -/
def State.loadOne (s : State) (v ctx : Nat) (ahead : SMap Nat) (code : SMap DWord) (rd : SetReader) (x : Variant)
    (q : SbAns × State) (i : Nat) : SbAns × State :=
  match q.1 with
  | .done => (match q.2.loadRecord v ctx i with
    | (.inl a, t) => (a, t)
    | (.inr ls, t) =>
      let p := (s.placeCores v).getD i 0
      (.done, t.setCore p ((t.freshCore v ctx i code rd x 0 (t.core p)).restored ls (s.vd v).place.orient (sget 0 ahead i))))
  | _ => q

/-- Read the save record of every core of a context's placement into that core (R93, R142). -/
def State.loadAll (s : State) (v ctx : Nat) (ahead : SMap Nat) (code : SMap DWord) (rd : SetReader) (x : Variant) :
    SbAns × State :=
  (List.range (s.placeCores v).length).foldl (s.loadOne v ctx ahead code rd x) (.done, s)

/-- Restore a saved context on its present placement. -/
def State.restoreCtx (s0 : State) (v ctx : Nat) : State :=
  let x := s0.ctx ctx
  let c := s0.execCmd ctx
  let h := c.execHandles
  let c := { c with seq := x.cur }
  let fail (s : State) (st d : Nat) : State := s.endExec ctx st d none
  match s0.readSet c h.2.1 with
  | (.stop, s) => s.execFellOut ctx
  | (.bad st d, s) => fail s st d
  | (.ok (rd, var), s) => match s.execBytes c h.1 0 (s.obj (handleIdx h.1)).size with
    | (none, s) => s.execFellOut ctx
    | (some bs, s) =>
      match s.loadAll v ctx x.ahead (codeWords bs) rd var with
      | (.done, t) =>
        let t := t.setCtx ctx { t.ctx ctx with saved := false, stop := .none, ahead := [], lastRun := t.toll }
        t.setVd v { t.vd v with ctx := some ctx, lastCtx := ctx, sliceBoundaries := 0, switching := false, holds := [] }
      | (.wait, _) => s0
      | (a, t) => fail t a.status 0

/-- CONTEXT_RESTORE: no context of the VD runs and the one chosen lies in its save area. -/
def execContextRestore (v : Nat) (s : State) : Res :=
  .next (if (s.vd v).ctx.isSome then s
    else match s.choose v with
      | none => s
      | some n => if !(s.ctx n).saved ∨ s.stalled (s.ctx n).cur then s else s.restoreCtx v n)

/-- DEADLINE_CHECK: at a toll boundary the monitor moves the position of every exec that has not started (R329). -/
def execDeadlineCheck (s : State) : Res :=
  .next ((s.que.cmds.filter fun e => e.2.opc = 0x30 && e.2.phase ≠ .ready).foldl (fun s e =>
    let x := s.ctx e.2.ctx
    if x.cur = e.1 ∧ x.started then s else s.setCmd e.1 (s.deadlineStep (s.cmd e.1))) s)

end Sys2Proof.Machine
end

