-- ==== Sys2Proof/Machine/FaultRows.lean ====
section
/-!
DEFINITION. Fault resolution by retry, and the answers of the host's translation agent (spec/08 R235, R236, R245).
-/
namespace Sys2Proof.Machine

/-- The state a meaning leaves. -/
def after (r : Res) (s : State) : State :=
  match r with
  | .next t => t
  | _ => s

/-- A command goes on from the bytes it has moved. -/
def State.resume (s : State) (seq : Nat) : State :=
  let c := s.cmd seq
  match c.opc with
  | 0x06 => after (runXCmd seq 0x06 s effVdList) s
  | 0x08 => after (execTlCreate seq s) s
  | 0x13 => after (execTblWrite seq s) s
  | 0x20 => after (execLoad seq s) s
  | 0x21 => after (execStore seq s) s
  | 0x22 => after (execCopy seq s) s
  | 0x24 => after (execHotLoad seq s) s
  | 0x30 => (match c.pool with
    | .fetching p => s.poolAsk c p
    | _ => s)
  | 0x38 => after (execXfer seq s) s
  | 0x40 => after (execJrnRead seq s) s
  | _ => s

/-- FAULT_RESOLVE_RETRY: a matching SEQ frees the record and every stalled requester walks again; a later fault of theirs
makes a new record (R245). -/
def execFaultResolveRetry (space slot seq : Nat) (s : State) : Res :=
  .next (match sget none (s.space space).ring slot with
    | some r => if r.seqNo ≠ seq % 65536 then s
      else r.stalled.foldl (fun s q => s.resume q) (s.freeFault space slot)
    | none => s)

/-- Mirror writes that waited for a translation are tried again. -/
def State.retryMirrors (s : State) : State :=
  (s.que.tls.filter fun e => e.2.mirrorDue).foldl (fun s e => s.mirror e.1) s

/-- TRANSLATION_COMPLETION: permissions `r` and `w` of a translated page, or a denial; a page that is denied and has PRI is
asked for by a page request (R235, R236). -/
def execTranslationCompletion (f : Nat) (va pa : DWord) (r w ok : Bool) (s : State) : Res :=
  let page := va.toNat / 4096 * 4096
  match s.xlt.atsSent.find? fun a => a.fn = f && a.va = page with
  | none => .next s
  | some a =>
    let s := { s with xlt := { s.xlt with atsSent := s.xlt.atsSent.filter fun x => !(x.fn = f && x.va = page) } }
    if ok ∧ (if a.wr then w else r) then
      .next (s.atcPut { fn := f, va := page, pa := pa.toNat / 4096 * 4096, r := r, w := w }).retryMirrors
    else if a.pri ∧ s.priOn f ∧ a.retried = false ∧ sget false s.xlt.priStop f = false ∧
        (s.xlt.prgSent.filter fun x => x.2.fn = f).length < prgCapacity f then
      .next { s with xlt := { s.xlt with prgSent := s.xlt.prgSent ++ [(s.xlt.prgNext, a)],
                                         prgNext := (s.xlt.prgNext + 1) % 512 } }
    else .next ({ s with xlt := { s.xlt with denied := (f, page) :: s.xlt.denied } } : State).retryMirrors

/-- PRG_RESPONSE: 0 Success asks for the translation once more; 1 Invalid Request and 15 Response Failure deny, and a
failure stops the function's page requests. -/
def execPrgResponse (f idx code : Nat) (s : State) : Res :=
  match s.xlt.prgSent.find? fun x => x.1 = idx && x.2.fn = f with
  | none => .next s
  | some (_, a) =>
    let x := { s.xlt with prgSent := s.xlt.prgSent.filter fun x => !(x.1 = idx && x.2.fn = f) }
    if code = 0 then .next { s with xlt := { x with atsSent := x.atsSent ++ [{ a with retried := true }] } }
    else
      let x := { x with denied := (f, a.va) :: x.denied }
      .next ({ s with xlt := if code = 15 then { x with priStop := sput false f true x.priStop } else x } : State).retryMirrors

end Sys2Proof.Machine
end

