-- ==== Sys2Proof/Machine/Admit.lean ====
section
/-!
DEFINITION. Admission and placement: the limit record, the shape request, the checks of R302 and the choice of pods,
bins, channels and port shares (spec/11 R297–R307, R319; spec/08 R233).
-/
namespace Sys2Proof.Machine

/-! ### The limit record (R297) -/

/-- Failing fields of a limit record. -/
def limitFails (bs : List Byte) : Option Nat :=
  let w (o : Nat) : Nat := leAt bs o 4
  leastOf (failAt (w 0 % 65536 = 1) 0 ++ failAt (w 0 / 65536 = 0) 2 ++ failAt (1 ≤ w 4 % 256 && w 4 % 256 ≤ 128) 4 ++
    failAt (bitsOf (w 4) 15 8 = 0) 5 ++ failAt (bitsOf (w 4) 25 16 ≤ 512) 6 ++ failAt (w 4 / 2 ^ 26 = 0) 7 ++
    failAt (w 8 % 512 ≤ 256) 8 ++ failAt (bitsOf (w 8) 20 11 ≤ 512) 9 ++ failAt (w 8 / 2 ^ 21 = 0) 10 ++
    failAt (w 0x14 % 4 ≠ 3) 0x14 ++ failAt (w 0x14 / 32 = 0) 0x14 ++ failAt ((bs.drop 0x20).all fun b => b = 0#8) 0x20)

/-- A limit record. -/
def limitsOf (bs : List Byte) : Limits :=
  let w (o : Nat) : Nat := leAt bs o 4
  { maxPods := w 4 % 256, maxBins := bitsOf (w 4) 25 16, maxCh := w 8 % 512, sealedOk := bitOf (w 8) 9, treeOk := bitOf (w 8) 10,
    maxHotQ := bitsOf (w 8) 20 11, maxGuar := w 0xC, maxLink := w 0x10, half := w 0x14 % 4, prio := w 0x14 / 4 % 4,
    seamOk := bitOf (w 0x14) 4, group := leAt bs 0x18 8 }

/-! ### The shape request (R298, R299) -/

/-- A shape request as read. -/
structure ShapeReq where
  nalt : Nat
  nparts : Nat
  btset : Nat
  rebindMs : Nat
  joinMs : Nat
  devs : List Nat
  alts : List (List Alt)
  deriving DecidableEq, Repr

/-- Offset of the entry of alternative a and part p. -/
def altOff (nparts a p : Nat) : Nat := 0x40 + 64 * ((nparts + 7) / 8) + 64 * (a * nparts + p)

/-- An alternative entry. -/
def altAt (bs : List Byte) (o : Nat) : Alt :=
  let w (k : Nat) : Nat := leAt bs (o + k) 4
  { pw := w 0 % 8 + 1, ph := bitsOf (w 0) 6 3 + 1, noSeam := bitOf (w 0) 7, near := bitsOf (w 0) 10 8, far := bitsOf (w 0) 25 16,
    hotq := w 4 % 1024,
    carves := (List.range 4).map fun k =>
      let c := w (8 + 8 * k)
      let g := w (12 + 8 * k)
      { ch := c % 512, mode := bitsOf c 10 9, il := bitsOf c 12 11, guar := g % 65536, floor := g / 65536 },
    link := w 0x28, farGbs := w 0x2C, hostGbs := w 0x30 % 65536 }

/-- Failing fields of an alternative entry. -/
def altFails (bs : List Byte) (o : Nat) : List Nat :=
  let w (k : Nat) : Nat := leAt bs (o + k) 4
  let a := altAt bs o
  failAt (a.pw * a.ph ≤ 128) o ++ failAt (a.near ≤ 4) (o + 1) ++ failAt (bitsOf (w 0) 15 11 = 0) (o + 1) ++
    failAt (a.far ≤ 512 && a.near * (a.pw * a.ph) + a.far ≤ 512) (o + 2) ++ failAt (w 0 / 2 ^ 26 = 0) (o + 3) ++
    failAt (a.hotq ≤ 512) (o + 4) ++ failAt (w 4 / 1024 = 0) (o + 5) ++
    ((List.range 4).map fun k =>
      let p := o + 8 + 8 * k
      let c := a.carves.getD k {}
      failAt (c.ch ≤ 256) p ++ failAt (if c.ch = 0 then c.mode = 0 else c.mode = 1 || c.mode = 2) (p + 1) ++
        failAt (w (8 + 8 * k) / 2 ^ 13 = 0) (p + 1) ++ failAt (c.floor ≤ c.guar) (p + 6)).flatten ++
    failAt (a.hostGbs ≤ 128) (o + 0x30) ++ failAt (w 0x30 / 65536 = 0) (o + 0x32) ++
    failAt (((bs.drop (o + 0x34)).take 12).all fun b => b = 0#8) (o + 0x34)

/-- Bytes of a request with its parts and alternatives. -/
def shapeBytes (nalt nparts : Nat) : Nat := altOff nparts nalt 0

/-- Failing fields of a request's header and tables. -/
def shapeFails (btOk : Bool) (bs : List Byte) : Option Nat :=
  let w (o : Nat) : Nat := leAt bs o 4
  let nalt := bitsOf (w 0) 19 16 + 1
  let np := bitsOf (w 0) 25 20 + 1
  leastOf (failAt (w 0 % 65536 = 1) 0 ++ failAt (w 0 / 2 ^ 26 = 0) 3 ++ failAt btOk 4 ++
    failAt (((bs.drop 0xC).take 0x34).all fun b => b = 0#8) 0xC ++
    ((List.range np).map fun p => failAt (np ≠ 1 || leAt bs (0x40 + 8 * p) 2 % 1024 = 0) (0x40 + 8 * p) ++
      failAt (leAt bs (0x40 + 8 * p) 8 / 1024 = 0) (0x41 + 8 * p)).flatten ++
    ((List.range nalt).map fun a => ((List.range np).map fun p => altFails bs (altOff np a p)).flatten).flatten)

/-- A checked request. -/
def shapeOf (bs : List Byte) : ShapeReq :=
  let w (o : Nat) : Nat := leAt bs o 4
  let nalt := bitsOf (w 0) 19 16 + 1
  let np := bitsOf (w 0) 25 20 + 1
  let dflt (n : Nat) : Nat := if n = 0 then 100 else n
  { nalt := nalt, nparts := np, btset := w 4, rebindMs := dflt (w 8 % 65536), joinMs := dflt (w 8 / 65536),
    devs := (List.range np).map fun p => leAt bs (0x40 + 8 * p) 2 % 1024,
    alts := (List.range nalt).map fun a => (List.range np).map fun p => altAt bs (altOff np a p) }

/-! ### Resources a placement may take (R303–R305, R307, R318) -/

/-- Kinds of withheld resources (R318). -/
def wPod : Nat := 0
def wBin : Nat := 1
def wCh : Nat := 2
def wPort : Nat := 3
def wStack : Nat := 4
def State.withheld (s : State) (kind i : Nat) : Bool := s.cmp.withheld.contains (kind * 4096 + i)

/-- Quiet VDs with resources here, other than one. -/
def State.quietOthers (s : State) (v : Nat) : List Nat :=
  (s.vds.filter fun e => e.1 ≠ v && e.2.quiet && !e.2.place.pods.isEmpty).map Prod.fst

/-- What an operator request keeps a move off: a pod, bin, channel, port, stack or half. -/
structure Avoid where
  kind : Nat := 99
  index : Nat := 0
  half : Option Nat := none
  /-- Stacks, bit by index (R319). -/
  stks : Nat := 0
  deriving DecidableEq, Repr

def Avoid.pod (a : Avoid) (p : Nat) : Bool := (a.kind = wPod && a.index = p) || a.half = some (podHalf p)
def Avoid.bin (a : Avoid) (b : Nat) : Bool := (a.kind = wBin && a.index = b) || a.half = some (podHalf (binPod b))
/-- The half of a channel. -/
def chanHalf (g : Nat) : Nat := g / 128
def Avoid.chan (a : Avoid) (g : Nat) : Bool :=
  (a.kind = wCh && a.index = g) || (a.kind = wStack && a.index = g / 32) || bitOf a.stks (g / 32) || a.half = some (chanHalf g)
/-- The half of a Finwin port. -/
def portHalf (p : Nat) : Nat := p / 16
def Avoid.port (a : Avoid) (p : Nat) : Bool := (a.kind = wPort && a.index = p) || a.half = some (portHalf p)

/-- Is a pod, or an erasing channel, promised to another VD's change that is under way (R311)? -/
def State.promised (s : State) (v : Nat) (p : Placement → Bool) : Bool :=
  s.vds.any fun e => e.1 ≠ v && e.2.changes.head?.any fun c => c.phase ≠ .waiting && p c.place

/-- Can a bin be had (R304)? -/
def State.binHad (s : State) (v : Nat) (av : Avoid) (b : Nat) : Bool :=
  let x := s.bin b
  let reserved := (s.quietOthers v).any fun q => (s.vd q).place.pods.contains (binPod b)
  !s.withheld wBin b && !av.bin b && !reserved && !x.retReq && !s.promised v (fun p => p.slots.contains b) &&
    (x.st = .free || (x.st = .owned && x.owner = v) || (x.st = .hot && (s.evictable none).contains x.hotId))

/-- Is a pod available, with its near bins (R303)? -/
def State.podHad (s : State) (v : Nat) (av : Avoid) (near p : Nat) : Bool :=
  let x := (s.pod p).vd
  (x = 0 || x = v) && !s.withheld wPod p && !av.pod p && !s.isDown (64 + p) && !s.promised v (fun q => q.pods.contains p) &&
    (List.range 4).countP (fun i => s.binHad v av (4 * p + i)) ≥ near

/-- FREE channels of a half, without the system's. -/
def State.freeChans (s : State) (h : Nat) : Nat :=
  ((List.range 128).filter fun i => (s.chan (128 * h + i)).st = .free && i ≠ 127).length

/-- A rectangle: its top and left pod and its orientation. -/
structure Rect where
  top : Nat
  left : Nat
  orient : Nat
  deriving DecidableEq, Repr

/-- Preference of R303, smaller better. -/
def State.rectKey (s : State) (pw ph : Nat) (r : Rect) : Nat :=
  let h := if orT r.orient then pw else ph
  let spans := r.top < 8 ∧ 8 < r.top + h
  let half := if r.top ≥ 8 then 1 else 0
  let better := if s.freeChans 1 > s.freeChans 0 then 1 else 0
  ((((if spans then 1 else 0) * 2 + (if half = better then 0 else 1)) * 16 + r.top) * 8 + r.left) * 8 + r.orient

/-- Do the two halves run at the same frequency? -/
def State.sameFreq (s : State) : Bool := (s.half 0).code = (s.half 1).code

/-- Every placement of a part's pods that R303 admits, the preferred first. -/
def State.rects (s : State) (v : Nat) (av : Avoid) (a : Alt) (part : Nat) (noSpan : Bool) (prefer : Option Rect)
    (rd : SetReader) : List Rect :=
  let l := s.vd v
  let all := (List.range 16).flatMap fun t => (List.range 8).flatMap fun x => (List.range 8).map fun o => ({ top := t, left := x, orient := o } : Rect)
  let ok := all.filter fun r =>
    let w := if orT r.orient then a.ph else a.pw
    let h := if orT r.orient then a.pw else a.ph
    let spans : Bool := r.top < 8 && 8 < r.top + h
    r.left + w ≤ 8 && r.top + h ≤ 16 &&
      (l.limits.half = 0 || (l.limits.half = 1 && r.top + h ≤ 8) || (l.limits.half = 2 && 8 ≤ r.top)) &&
      (!spans || (l.limits.seamOk && !a.noSeam && !noSpan)) &&
      (findVariant rd part a.pw a.ph (cutOf r.orient a.pw a.ph r.top)).isSome &&
      (placedPods r.orient a.pw a.ph r.top r.left).all (s.podHad v av a.near)
  match prefer with
  | some r => if ok.contains r then [r] else ok.foldr (fun r acc => insertRect (s.rectKey a.pw a.ph) r acc) []
  | none => ok.foldr (fun r acc => insertRect (s.rectKey a.pw a.ph) r acc) []
where
  /-- Insert a rectangle by its key. -/
  insertRect (key : Rect → Nat) (r : Rect) : List Rect → List Rect
    | [] => [r]
    | x :: l => if key r ≤ key x then r :: x :: l else x :: insertRect key r l

/-- Working bins by slot: near bins in shape-pod order, then far bins in the order of R181 (R159, R304); none where they
cannot be had. A quiet VD's lie beneath its own pods. -/
def State.placeBins (s : State) (v : Nat) (av : Avoid) (a : Alt) (pods : List Nat) (quiet : Bool) : Option (List Nat) :=
  let near := pods.flatMap fun p => (((List.range 4).map (4 * p + ·)).filter (s.binHad v av)).take a.near
  let p0 := pods.foldl min 127
  let cand := (List.range 512).filter fun b => s.binHad v av b && !near.contains b
  let far (h : Nat) : List Nat :=
    sortBy (fun b => podHops p0 (binPod b)) (cand.filter fun b => podHalf (binPod b) = h && (!quiet || pods.contains (binPod b)))
  let fs := (far (podHalf p0) ++ far (1 - podHalf p0)).take a.far
  if near.length = a.near * pods.length ∧ fs.length = a.far then some (near ++ fs) else none

/-- Stacks in the order of R305: the home half first, within a half the most FREE and ERASING channels first. -/
def stackOrder (home : Nat) (count : Nat → Nat) : List Nat :=
  let half (h : Nat) : List Nat := sortBy (fun n => 64 - count n) ((List.range 4).map (4 * h + ·))
  half home ++ half (1 - home)

/-- Channels for one created carve-out; `taken` are granted already. -/
def State.placeChans (s : State) (v : Nat) (av : Avoid) (home n : Nat) (quiet : Bool) (taken : List Nat) : Option (List Nat) :=
  let clean (k : Nat) : Bool := k % 4 ≠ 3 && (List.range 32).all fun i =>
    let c := s.chan (32 * k + i)
    c.st = .free || c.owner = v
  let reserved (k : Nat) : Bool := (s.quietOthers v).any fun q => (List.range 32).any fun i => (s.chan (32 * k + i)).owner = q
  let ok (g : Nat) : Bool :=
    g ≠ 127 && g ≠ 255 && !taken.contains g && !s.withheld wCh g && !s.withheld wStack (g / 32) && !av.chan g &&
      !(s.cmp.roleReq.any fun r => r.role && bitOf r.stks (g / 32)) &&
      (s.stack (g / 32)).trained && !(s.chan g).retReq && !reserved (g / 32) && (!quiet || clean (g / 32))
  let free (k : Nat) : List Nat := ((List.range 32).map (32 * k + ·)).filter fun g => ok g && (s.chan g).st = .free
  let erasing (k : Nat) : List Nat := ((List.range 32).map (32 * k + ·)).filter fun g => ok g && (s.chan g).st = .erasing &&
    !s.promised v (fun p => p.chans.any fun e => e.2.contains g)
  let all := (stackOrder home fun k => (free k).length + (erasing k).length).flatMap fun k => free k ++ erasing k
  if n ≤ all.length then some (all.take n) else none

/-- MB/s of a port granted to VDs other than one. -/
def State.grantedOn (s : State) (v p : Nat) : Nat := (s.vds.map fun e =>
  if e.1 = v then 0 else sget 0 e.2.place.ports p + (match e.2.changes.head? with
    | some c => if c.phase = .committed then 0 else sget 0 c.place.ports p
    | none => 0)).sum

/-- Grant LINK as shares of ports (R305); none where it does not fit. -/
def State.placePorts (s : State) (v : Nat) (av : Avoid) (link home : Nat) (others : List Nat) : Option (SMap Nat) :=
  let cand := allPorts.filter fun p => s.isActive p && !s.portRsv p && !s.withheld wPort p && !av.port p &&
    (others.isEmpty || others.any fun d => (s.reaching d).contains p)
  let order := cand.filter (fun p => portHalf p = home) ++ cand.filter fun p => portHalf p ≠ home
  let room := 1000 * s.regField (baseCmp + 0x04) 22 16
  let r := order.foldl (fun (q : Nat × SMap Nat) p =>
    let g := min q.1 (room - s.grantedOn v p)
    (q.1 - g, sput 0 p g q.2)) (1000 * link, [])
  if r.1 = 0 then some r.2 else none

/-! ### The checks (R302, R306, R307, R233) -/

/-- Does a carve-out number keep its channels from the old alternative to the new (R300)? -/
def carveKept (old new : Alt) (k : Nat) : Bool :=
  let o := old.carves.getD k {}
  let n := new.carves.getD k {}
  o.ch ≠ 0 && o.ch = n.ch && o.mode = n.mode && o.il = n.il

/-- Is a carve-out number created? -/
def carveNew (old new : Alt) (k : Nat) : Bool := (old.carves.getD k {}).ch = 0 && (new.carves.getD k {}).ch ≠ 0

/-- Do resources of a part lie on both halves (R306)? -/
def seamLoaded (pods bins chans : List Nat) : Bool :=
  let hs := pods.map podHalf ++ bins.map (fun b => podHalf (binPod b)) ++ chans.map chanHalf
  hs.contains 0 && hs.contains 1

/-- Halves a quiet VD needs translation resources in, with its ways in each: one for every eight pods. -/
def quietWays (pods chans : List Nat) (h : Nat) : Nat :=
  if pods.any (fun p => podHalf p = h) ∨ chans.any (fun g => chanHalf g = h) then max 1 ((pods.length + 7) / 8) else 0

/-- Does each half keep four ways and eight walkers for shared use (R233)? -/
def State.quietFits (s : State) (v : Nat) (pods chans : List Nat) : Bool :=
  [0, 1].all fun h =>
    let all := (s.quietOthers v).map fun q =>
      quietWays (s.vd q).place.pods ((s.vd q).carves.flatMap fun e => e.2.chans) h
    let mine := quietWays pods chans h
    let users := (all.filter (· ≠ 0)).length + (if mine ≠ 0 then 1 else 0)
    all.sum + mine ≤ 12 && 2 * users ≤ 24

/-- Rounded up quotient. -/
def ceilDiv (a b : Nat) : Nat := (a + b - 1) / max 1 b

/-- Do a quiet VD's shaped flows take at most half of each arbiter they enter at (R336), its host flow with the others' at
most half of the port, and are at most 64 quiet VDs bound (R337)? -/
def State.flowsFit (s : State) (v : Nat) (a : Alt) : Bool :=
  let port (q : Nat) : Nat := ((s.vd q).vf.map Prod.fst).getD 0
  let others := s.quietOthers v
  let host := ((others.filter fun q => port q = port v).map fun q => max 1 (s.vd q).alt.hostGbs).sum
  ceilDiv a.farGbs (a.pw * a.ph) ≤ 32 && (a.carves.all fun c => c.ch = 0 || ceilDiv c.guar c.ch ≤ 32) &&
    host + max 1 a.hostGbs ≤ 64 && others.length < 64

/-- The outcome of testing one alternative on this part. -/
inductive Verdict where
  | ok (p : Placement)
  | fail (reason : Nat)
  deriving DecidableEq, Repr

/-- Check 0x01: the limits. -/
def limitsOk (l : Limits) (a : Alt) (nparts : Nat) : Bool :=
  let chs := (a.carves.map (·.ch)).sum
  a.pw * a.ph ≤ l.maxPods && a.near * (a.pw * a.ph) + a.far ≤ l.maxBins && chs ≤ l.maxCh &&
    (a.carves.all fun c => (c.mode ≠ 1 || l.sealedOk) && (c.mode ≠ 2 || l.treeOk)) && a.hotq ≤ l.maxHotQ &&
    (a.carves.map (·.guar)).sum ≤ l.maxGuar && a.link ≤ l.maxLink && (nparts = 1 || l.group ≠ 0)

/-- Can the binder free the HOT bins of a placement: they are evictable, as `binHad` has it. The quota check of R301. -/
def State.hotqOk (s : State) (v : Nat) (a : Alt) : Bool := s.pinnedBins v ≤ a.hotq

/-- Test an alternative for a VD, `old` its bound alternative (empty for a first bind), in the order of R302. -/
def State.admitAlt (s : State) (v : Nat) (av : Avoid) (old a : Alt) (part nparts : Nat) (devs : List Nat) (noSpan : Bool)
    (prefer : Option Rect) (rd : SetReader) : Verdict :=
  let d := s.vd v
  let quiet := d.quiet
  let created := (List.range 4).filter (carveNew old a)
  let kept := (List.range 4).filter (carveKept old a)
  let keptChans := kept.flatMap fun k => (s.carve v k).chans.filter fun g => !av.chan g && !(s.chan g).retReq && !s.withheld wCh g && !s.withheld wStack (g / 32)
  let others := (List.range devs.length).filterMap fun i => if i = part then none else devs[i]?
  let chansFor (q : Bool) (home : Nat) : Option (SMap (List Nat) × List Nat) :=
    (List.range 4).foldl (fun r k => match r with
      | none => none
      | some (m, taken) =>
        if created.contains k then
          (s.placeChans v av home (a.carves.getD k {}).ch q taken).map fun l => (sput [] k l m, taken ++ l)
        else if kept.contains k then
          -- a kept position keeps its channel, or moves to another
          let now := (s.carve v k).chans
          let bad := now.filter fun g => av.chan g || (s.chan g).retReq || s.withheld wCh g || s.withheld wStack (g / 32)
          (s.placeChans v av home bad.length q taken).map fun l =>
            let pairs := bad.zip l
            (sput [] k (now.map fun g => ((pairs.find? fun p => p.1 = g).map Prod.snd).getD g) m, taken ++ l)
        else some (m, taken)) (some ([], keptChans))
  if !limitsOk d.limits a nparts then .fail 0x01
  else
    let rs := s.rects v av a part noSpan prefer rd
    match rs with
    | [] => .fail 0x02
    | r0 :: _ =>
      let pods (r : Rect) : List Nat := placedPods r.orient a.pw a.ph r.top r.left
      let home (r : Rect) : Nat := podHalf ((pods r).foldl min 127)
      match s.placeBins v av a (pods r0) false with
      | none => .fail 0x03
      | some _ => match chansFor false (home r0) with
        | none => .fail 0x04
        | some _ =>
          if !(a.carves.all fun c => c.ch = 0 || c.guar * 1000 ≤ c.ch * s.deliverable c.mode) then .fail 0x05
          else match s.placePorts v av a.link (home r0) others with
            | none => .fail 0x06
            | some ports =>
              match s.placeBins v av a (pods r0) quiet, chansFor quiet (home r0) with
              | some bins, some (chans, _) =>
                let chl := chans.flatMap Prod.snd
                let spans : Bool := (pods r0).any (fun p => podHalf p = 0) && (pods r0).any fun p => podHalf p = 1
                let load := s.cmp.seamLoad - d.seamShare
                let share := if seamLoaded (pods r0) bins chl then a.farGbs else 0
                if load + share > 160 * s.regField (baseCmp + 0x04) 14 8 ∧ share > 0 then .fail 0x07
                else if spans ∧ (!s.seam.locked ∨ !s.sameFreq) then .fail 0x07
                else if quiet ∧ (a.near * (a.pw * a.ph) + a.far > 4 * (a.pw * a.ph) ∨ !s.quietFits v (pods r0) chl ∨ !s.flowsFit v a) then .fail 0x08
                else if !s.hotqOk v a then .fail 0x09
                else if !(created.all fun k => (sget none d.sec.carve k).isSome) ∨
                    (created.length > 0 ∧ s.freeKey.isNone) then .fail 0x0A
                else if !((List.range 4).all fun k =>
                    (old.carves.getD k {}).ch = 0 || (a.carves.getD k {}).ch = 0 || carveKept old a k) then .fail 0x0C
                else
                  let cut := cutOf r0.orient a.pw a.ph r0.top
                  .ok { pods := pods r0, orient := r0.orient, cutKind := cut.1, cutAt := cut.2, slots := bins, chans := chans,
                        ports := ports }
              | _, _ => .fail 0x08

end Sys2Proof.Machine
end

