-- ==== Sys2Proof/Machine/Binder.lean ====
section
/-!
DEFINITION. Changes of a VD: taking and releasing resources, the prepare phase, the commit at a toll boundary, rebind
points and the drain of the old epoch; creating and binding VDs (spec/11 R296–R316, R321; spec/06 R179; spec/07 R206).
-/
namespace Sys2Proof.Machine

/-! ### A VD's changes -/

/-- The change in progress. -/
def State.change (s : State) (v : Nat) : Option Change := (s.vd v).changes.head?
/-- Replace the change in progress. -/
def State.setChange (s : State) (v : Nat) (c : Change) : State :=
  s.setVd v { s.vd v with changes := c :: (s.vd v).changes.drop 1 }
/-- The change in progress leaves the list. -/
def State.popChange (s : State) (v : Nat) : State :=
  s.setVd v { s.vd v with changes := (s.vd v).changes.drop 1, passing := [] }

/-- The rectangle a VD lies on. -/
def State.rectOf (s : State) (v : Nat) : Option Rect :=
  let p := (s.vd v).place
  match p.pods with
  | [] => none
  | _ => some { top := (p.pods.map (· / 8)).foldl min 15, left := (p.pods.map (· % 8)).foldl min 7, orient := p.orient }

/-- CMP_SEAMLOAD counts a part's FARGBS (R306). -/
def State.setShare (s : State) (v n : Nat) : State :=
  let d := s.vd v
  let s := { s with cmp := { s.cmp with seamLoad := s.cmp.seamLoad + n - d.seamShare } }
  s.setVd v { d with seamShare := n }

/-- What a part counts on a placement. -/
def shareOf (a : Alt) (p : Placement) : Nat := if seamLoaded p.pods p.slots (p.chans.flatMap Prod.snd) then a.farGbs else 0

/-! ### Taking resources (R179, R300, R304, R305, R311) -/

/-- Bins of a placement that are not the VD's yet: FREE ones become INCOMING; the entries of HOT ones are evicted and their
bins follow when they have been cleared. -/
def State.takeBins (s : State) (v : Nat) (p : Placement) : State :=
  let s := p.slots.foldl (fun s b => if (s.bin b).st = .hot then s.evict (s.bin b).hotId else s) s
  p.slots.foldl (fun s b =>
    let x := s.bin b
    if x.st = .free then s.setBin b { x with st := .incoming, owner := v, hotId := 0 } else s) s

/-- Moves from the bin of each kept slot to its new bin where that is now INCOMING. -/
def State.openBinMoves (s : State) (v : Nat) (p : Placement) : State :=
  ((s.vd v).place.slots.zip p.slots).foldl (fun s e =>
    if e.1 ≠ e.2 ∧ (s.bin e.2).st = .incoming ∧ (s.moveTo e.2).isNone then
      { s with sbk := { s.sbk with moves := s.sbk.moves ++ [{ src := e.1, dst := e.2, vd := v }] } }
    else s) s

/-- A carve-out's key: a fresh ID and salt under the provisioned secret (R300, R391, R392). -/
def State.createCarve (s : State) (v k : Nat) (r : CarveReq) : State :=
  match s.freeKey, sget none (s.vd v).sec.carve k with
  | some id, some secret =>
    let f := s.takeFree 256
    let slot : KeySlot := { st := .active, vd := v, cnonce := f.1, secret := secret, carve := k }
    (f.2.setKey id { slot with cur := slot.derive 0 }).setCarve v k { mode := r.mode, il := r.il, key := id }
  | _, _ => s

/-- Channels of a created carve-out: FREE ones begin to format, ERASING ones follow when erased (R206, R305). -/
def State.formatFor (s : State) (v k g : Nat) : State :=
  let c := s.chan g
  let r := s.carve v k
  if c.st = .free then
    s.setChan g { c.bare with st := .formatting, owner := v, carve := k, mode := r.mode, key := r.key }
  else s

/-- Moves of a kept carve-out's channels whose destination is FREE or freshly formatted for the change (R314). -/
def State.openChanMoves (s : State) (v k : Nat) (new : List Nat) : State :=
  let r := s.carve v k
  ((List.range new.length).zip (r.chans.zip new)).foldl (fun s e =>
    let src := e.2.1
    let dst := e.2.2
    let c := s.chan dst
    if src ≠ dst ∧ (s.chMoveTo dst).isNone ∧ (c.st = .free ∨ (c.st = .bound ∧ c.owner = v)) then
      let s := s.setChan dst { c.bare with st := .incoming, owner := v, carve := k, mode := r.mode, key := r.key,
                                           fmtGen := (s.key r.key).gen }
      { s with hbm := { s.hbm with moves := s.hbm.moves ++ [{ src := src, dst := dst, vd := v, carve := k, pos := e.1 }] } }
    else s) s

/-- Start the prepare phase of the change in progress, its placement chosen (R311). -/
def State.beginChange (s : State) (v : Nat) : State :=
  match s.change v with
  | none => s
  | some c =>
    let old := (s.vd v).alt
    let created := (List.range 4).filter (carveNew old c.alt)
    let kept := (List.range 4).filter (carveKept old c.alt)
    let new (k : Nat) : List Nat := sget [] c.place.chans k
    let s := s.setShare v (max (s.vd v).seamShare (shareOf c.alt c.place))
    let s := (s.takeBins v c.place).openBinMoves v c.place
    let s := created.foldl (fun s k => s.createCarve v k (c.alt.carves.getD k {})) s
    let s := created.foldl (fun s k => (new k).foldl (fun s g => s.formatFor v k g) s) s
    let s := kept.foldl (fun s k => s.openChanMoves v k (new k)) s
    let wait := created.flatMap new ++ kept.flatMap fun k => (new k).filter fun g => (s.chan g).st = .erasing
    s.setChange v { c with phase := .preparing, formatting := wait }

/-! ### Giving resources up -/

/-- Remove the copies under way to a set of bins and channels. -/
def State.dropMoves (s : State) (v : Nat) : State :=
  { s with sbk := { s.sbk with moves := s.sbk.moves.filter fun m => m.vd ≠ v }
           hbm := { s.hbm with moves := s.hbm.moves.filter fun m => m.vd ≠ v } }

/-- Release what the change in progress has prepared; the VD keeps what it had (R310, R312, R321). -/
def State.releasePrepared (s : State) (v : Nat) : State :=
  match s.change v with
  | none => s
  | some c =>
    if c.phase = .waiting ∨ c.phase = .committed ∨ c.rejoin then s
    else
      let s := s.dropMoves v
      let s := (c.place.slots.filter fun b => (s.bin b).st = .incoming && (s.bin b).owner = v).foldl (fun s b => s.toClearing b) s
      let mine := (s.vd v).carves.flatMap fun e => e.2.chans
      let s := ((c.place.chans.flatMap Prod.snd).filter fun g => (s.chan g).owner = v && !mine.contains g).foldl
        (fun s g => s.toErasing g) s
      let s := ((List.range 4).filter (carveNew (s.vd v).alt c.alt)).foldl (fun s k =>
        (s.retireKey (s.carve v k).key).setCarve v k {}) s
      s.setShare v (shareOf (s.vd v).alt (s.vd v).place)

/-! ### Results -/

/-- An operator request ends: PF vector 4 (R318, R320). -/
def State.endOp (s : State) (result : Nat) : State :=
  ({ s with cmp := { s.cmp with opReq := none, opState := 2, result := result } } : State).raisePfs 4

/-- A VD's move for the operator request has ended. -/
def State.opProgress (s : State) (v result : Nat) : State :=
  match s.cmp.opReq with
  | none => s
  | some r =>
    let left := r.vds.filter (· ≠ v)
    if result ≠ 0 then s.endOp result
    else if left.isEmpty then s.endOp 0
    else { s with cmp := { s.cmp with opReq := some { r with vds := left } } }

/-- A VD's move off stacks for the role change has ended. -/
def State.roleProgress (s : State) (v : Nat) : State :=
  match s.cmp.roleReq with
  | none => s
  | some r =>
    if r.commitAt.isSome ∨ !r.vds.contains v then s
    else
      let left := r.vds.filter (· ≠ v)
      let b := if left.isEmpty then some ((periodOf s.toll + 2) * tollPeriod) else none
      { s with cmp := { s.cmp with roleReq := some { r with vds := left, commitAt := b } } }

/-- The bound-shape record (R308). -/
def State.boundRecord (s : State) (v : Nat) : BitVec 512 :=
  let d := s.vd v
  let a := d.alt
  let w0 := d.altIdx + 2 ^ 4 * d.epoch + 2 ^ 8 * d.part + 2 ^ 14 * (d.nparts - 1) +
    2 ^ 20 * b2n (d.place.pods.any (fun p => podHalf p = 0) && d.place.pods.any fun p => podHalf p = 1) + 2 ^ 21 * b2n d.quiet
  let w1 := (a.pw - 1) + 2 ^ 3 * (a.ph - 1) + 2 ^ 7 * a.near + 2 ^ 10 * a.far + 2 ^ 20 * d.place.cutKind + 2 ^ 22 * d.place.cutAt
  let w2 := a.hotq + 2 ^ 10 * d.place.slots.length
  let cs := (List.range 4).map fun k =>
    let c := a.carves.getD k {}
    if c.ch = 0 then 0 else c.ch + 2 ^ 9 * c.mode + 2 ^ 11 * c.il + 2 ^ 16 * (s.carve v k).key
  BitVec.ofNat 512 (w0 + 2 ^ 32 * w1 + 2 ^ 64 * w2 + (cs.zip [0, 1, 2, 3]).foldl (fun n e => n + e.1 * 2 ^ (96 + 32 * e.2)) 0 +
    2 ^ 224 * a.link + 2 ^ 256 * d.tcommit)

/-- State of a VD between changes (R296, R371). -/
def State.settleSt (s : State) (v : Nat) : State :=
  let d := s.vd v
  if d.st = .teardown ∨ d.st = .created then s
  else s.setVd v { d with st := if !d.changes.isEmpty then .changing else if d.lostParts.isEmpty then .bound else .held }

/-- The change in progress is abandoned: its BIND completes with a status and DETAIL, its request with NOROOM. -/
def State.abandonChange (s : State) (v status detail : Nat) : State :=
  match s.change v with
  | none => s
  | some c =>
    let s := (s.releasePrepared v).popChange v
    let s := if c.seq ≠ 0 then s.finish c.seq status detail else s
    let s := if c.op then s.opProgress v 1 else s
    s.settleSt v

/-- DETAIL of a refused BIND (R302). -/
def bindDetail (reason alt part : Nat) : Nat := reason + 2 ^ 8 * alt + 2 ^ 16 * part

/-- The change is complete: every context has passed (R311). -/
def State.completeChange (s : State) (v : Nat) : State :=
  match s.change v with
  | none => s
  | some c =>
    if c.phase ≠ .committed ∨ !(s.vd v).passing.isEmpty then s
    else
      let s := if c.seq ≠ 0 then
          (s.modCmd c.seq fun x => { x with ext := some (s.boundRecord v) }).finishR c.seq stOK 0 (s.vdHandle v) 0
        else s
      let s := (s.popChange v).settleSt v
      let s := if c.op then s.opProgress v 0 else s
      s.roleProgress v

/-! ### Copying (R179, R313, R314) -/

/-- Bytes of a range, moved to another place. -/
def copyRange {α : Type} (put : SMap α → Nat → α → SMap α) (m : SMap α) (src dst n : Nat) : SMap α :=
  (m.filter fun e => src ≤ e.1 && e.1 < src + n).foldl (fun r e => put r (e.1 - src + dst) e.2) (clearRange m dst (dst + n))

/-- Copy a line of a bin, with its poison. -/
def State.copyLine (s : State) (m : BinMove) (l : Nat) : State :=
  let d := s.sbLine (physLine m.src l)
  s.sbPut (physLine m.dst l) d.1 d.2

/-- Copy a whole bin but its fresh lines. -/
def State.copyBin (s : State) (m : BinMove) : State :=
  let t := { s with sbk := { s.sbk with
    mem := copyRange writeByte s.sbk.mem (64 * physLine m.src 0) (64 * physLine m.dst 0) (64 * 262144)
    poison := copyRange (fun r k b => sput false k b r) s.sbk.poison (physLine m.src 0) (physLine m.dst 0) 262144 } }
  (skeys m.fresh).foldl (fun t l =>
    let d := s.sbLine (physLine m.dst l)
    t.sbPut (physLine m.dst l) d.1 d.2) t

/-- Copy a page of a channel: read under the key, written under the destination's own counters; poison stays (R314). -/
def State.copyPage (s : State) (m : ChMove) (p : Nat) : State :=
  let mode := (s.chan m.src).mode
  let n := granLines mode
  let s := (List.range (64 / n)).foldl (fun s i =>
    let line := 64 * p + n * i
    let bad (s : State) : State := s.setChan m.dst ((s.chan m.dst).poisonGran line)
    match s.readGranule m.src line .clean with
    | (.ok d, s) => (s.writeGranule m.dst line d).2
    | (.poisoned d, s) => bad (s.writeGranule m.dst line d).2
    | (_, s) => bad s) s
  s.setChMove { m with dirty := sput false p false m.dirty }

/-- Pages of a channel that have been written: counters other than as formatted (R314). -/
def Chan.writtenPages (c : Chan) : List Nat :=
  (skeys c.ctrs).filter fun p => (c.ctr p).major ≠ 0 || (c.ctr p).minors ≠ 0#448

/-- Copy every page that has been written and is not fresh. -/
def State.copyChan (s : State) (m : ChMove) : State :=
  let s := ((s.chan m.src).writtenPages.filter fun p => !sget false m.fresh p).foldl (fun s p =>
    match s.chMoveTo m.dst with
    | some m => s.copyPage m p
    | none => s) s
  match s.chMoveTo m.dst with
  | some m => s.setChMove { m with next := 2 ^ 20, dirty := [] }
  | none => s

/-- Copy what is dirty in every move of a VD. -/
def State.copyDirty (s : State) (v : Nat) : State :=
  let s := (s.sbk.moves.filter fun m => m.vd = v).foldl (fun s m =>
    ((skeys m.dirty).foldl (fun s l => s.copyLine m l) s).setMove { m with dirty := [] }) s
  (s.hbm.moves.filter fun m => m.vd = v).foldl (fun s m => (skeys m.dirty).foldl (fun s p => match s.chMoveTo m.dst with
    | some m => s.copyPage m p
    | none => s) s) s

/-- DIRTY_LINE_COPY: the copy engine copies a dirty line of a bin, or a dirty page of a channel.  `line` below 2^27 is a
physical Seedbank line; above, 2^27 + 2^20 × channel + page. -/
def execDirtyLineCopy (vd line : Nat) (s : State) : Res :=
  .next (if line < 2 ^ 27 then
      match s.moveFrom (line / 262144) with
      | some m =>
        let l := line % 262144
        if m.vd = vd ∧ sget false m.dirty l ∧ !sget false m.fresh l then
          ((s.copyLine m l).setMove { m with dirty := sput false l false m.dirty }).landWaiting
        else s
      | none => s
    else match s.chMoveFrom ((line - 2 ^ 27) / 2 ^ 20) with
      | some m =>
        let p := (line - 2 ^ 27) % 2 ^ 20
        if m.vd = vd ∧ sget false m.dirty p ∧ !sget false m.fresh p then s.copyPage m p else s
      | none => s)

/-- MIGRATION_WRITE_HOLD: the dirty set of a change in its prepare phase has not shrunk over 16 toll periods (R313). -/
def execMigrationWriteHold (vd : Nat) (s : State) : Res :=
  .next (match s.change vd with
    | some c =>
      if c.phase = .preparing ∧ s.toll ≥ c.accepted + 16 * tollPeriod then
        { s with sbk := { s.sbk with moves := s.sbk.moves.map fun m =>
                            if m.vd = vd ∧ !m.dirty.isEmpty then { m with holdWrites := true } else m }
                 hbm := { s.hbm with moves := s.hbm.moves.map fun m =>
                            if m.vd = vd ∧ !m.dirty.isEmpty then { m with holdWrites := true } else m } }
      else s
    | none => s)

/-! ### The end of the prepare phase (R310, R311) -/

/-- Contexts of a VD whose exec has started. -/
def State.startedCtxs (s : State) (v : Nat) : List Nat :=
  (s.que.ctxs.filter fun e => e.2.used && e.2.vd = v && e.2.cur ≠ 0 && e.2.started).map Prod.fst

/-- Has the set that a context's exec names a variant for a placement (R310)? -/
def State.variantFor (s : State) (v ctx : Nat) (p : Placement) : Bool :=
  let c := s.execCmd ctx
  match (s.readSet { c with seq := (s.ctx ctx).cur } c.execHandles.2.1).1 with
  | .ok (rd, _) => (findVariant rd (s.vd v).part (s.vd v).alt.pw (s.vd v).alt.ph (p.cutKind, p.cutAt)).isSome
  | _ => false

/-- Has every resource of the change been had, and its rebind condition reached? -/
def State.prepared (s : State) (v : Nat) (c : Change) : Bool :=
  c.rejoin ||
  ((c.place.slots.all fun b => (s.bin b).owner = v && ((s.bin b).st = .incoming || (s.bin b).st = .owned)) &&
    (c.formatting.all fun g => (s.chan g).owner = v && ((s.chan g).st = .bound || (s.chan g).st = .incoming)) &&
    (match c.kind with
     | .bind => true
     | .shape => (s.vd v).ctx.isNone
     | .move => c.place.pods = (s.vd v).place.pods && c.place.orient = (s.vd v).place.orient ||
       (s.startedCtxs v).all fun n => s.variantFor v n c.place))

/-- Has a destination reached RETREQ, so that another is chosen (R321)? -/
def State.destRetired (s : State) (v : Nat) (c : Change) : Bool :=
  (c.place.slots.any fun b => (s.bin b).st = .incoming && (s.bin b).owner = v && (s.bin b).retReq) ||
    (c.place.chans.flatMap Prod.snd).any fun g => (s.chan g).retReq && !((s.vd v).carves.any fun e => e.2.chans.contains g)

/-- A reader of the beat-table set of a bound shape or a request, where its bytes can be read. -/
def State.btReader (s : State) (v h : Nat) : Option SetReader :=
  match (s.readObj 0 v (match (s.vd v).vf with | some (p, _) => p | none => 0) h 0 (s.obj (handleIdx h)).size).1 with
  | some bs => if (setFails (s.obj (handleIdx h)).size (setReader bs)).isNone then some (setReader bs) else none
  | none => none

/-- Choose a placement again for a change, all else as it is. -/
def State.rechoose (s : State) (v : Nat) (c : Change) : State :=
  match s.btReader v c.btset with
  | none => s
  | some rd =>
    let t := s.releasePrepared v
    match t.admitAlt v {} (t.vd v).alt c.alt c.part c.nparts c.devs false (t.rectOf v) rd with
    | .ok p => (t.setChange v { c with place := p, phase := .waiting }).beginChange v
    | .fail r => if c.kind = .move then t.abandonChange v stAdmission 0
      else t.abandonChange v stAdmission (bindDetail r c.altIdx 0)

/-- The coordinator of a change: the device of part 0, or of the lowest surviving part (R312, R371). -/
def State.coordinator (s : State) (v : Nat) (c : Change) : Nat :=
  match c.coord with
  | some d => d
  | none => if c.rejoin then
    (((List.range c.nparts).filter fun i => !(s.vd v).lostParts.contains i).head?.bind fun i => c.devs[i]?).getD 0
  else c.devs.headD 0

/-- Devices of the other parts of a change. -/
def State.otherDevs (s : State) (c : Change) : List Nat := c.devs.filter (· ≠ s.devNo)

/-- The coordinator broadcasts B once every part is prepared: not in holdover (R312, R367). -/
def State.tryBroadcast (s : State) (v : Nat) : State :=
  match s.change v with
  | none => s
  | some c =>
    let need := if c.rejoin then (s.vd v).lostParts else List.range c.nparts
    if c.phase ≠ .preparing ∨ !c.told ∨ s.coordinator v c ≠ s.devNo ∨ !(need.all c.prepared.contains) ∨ s.fw.holdover then s
    else
      let b := (c.kmax + 2) * tollPeriod
      let s := (s.otherDevs c).foldl (fun s d => s.sendAnswer d (s.vd v).limits.group Notice.isPrepared (.commit c.altIdx b)) s
      s.setChange v { c with phase := .scheduled, schedAt := s.toll, commitAt := some b }

/-- PREPARE_END: everything is copied, formatted and cleared and the rebind condition holds: the commit is scheduled at the
boundary that begins period k + 2, or the coordinator is told. -/
def execPrepareEnd (vd : Nat) (s : State) : Res :=
  .next (match s.change vd with
    | none => s
    | some c =>
      if c.phase ≠ .preparing ∨ (s.vd vd).st = .teardown then s
      else if s.destRetired vd c then s.rechoose vd c
      else
        let s := (s.takeBins vd c.place).openBinMoves vd c.place
        let s := ((List.range 4).filter (carveKept (s.vd vd).alt c.alt)).foldl (fun s k =>
          s.openChanMoves vd k (sget [] c.place.chans k)) s
        if !s.prepared vd c then s
        else if c.prepared.contains c.part then s.tryBroadcast vd
        else
          let s := (s.sbk.moves.filter fun m => m.vd = vd).foldl (fun s m =>
            (s.copyBin m).setMove { m with next := 262144, dirty := [] }) s
          let s := (s.hbm.moves.filter fun m => m.vd = vd).foldl (fun s m => s.copyChan m) s
          let k := periodOf s.toll
          if c.nparts = 1 ∨ c.kind = .move then
            s.setChange vd { c with phase := .scheduled, schedAt := s.toll, commitAt := some ((k + 2) * tollPeriod) }
          else
            let s := s.setChange vd { c with prepared := c.part :: c.prepared, kmax := max c.kmax k }
            if s.coordinator vd c = s.devNo then s.tryBroadcast vd
            else s.sendNotice (s.coordinator vd c) (s.vd vd).limits.group false true (.prepared c.part k))

/-! ### The commit (R149, R301, R309, R311) -/

/-- Set which edges of every pod are open, and whether the seam is (R136, R149). -/
def State.openEdges (s : State) : State :=
  let owner (p : Nat) : Nat := (s.pod p).vd
  let edge (p : Nat) (ok : Bool) (q : Nat) : Bool := ok && owner p ≠ 0 && owner p = owner q
  let s' := (List.range 128).foldl (fun t p =>
    let n := edge p (p ≥ 8) (p - 8)
    let e := edge p (p % 8 < 7) (p + 1)
    let so := edge p (p < 120) (p + 8)
    let w := edge p (p % 8 > 0) (p - 1)
    t.setPod p { t.pod p with openE := BitVec.ofNat 4 (8 * b2n n + 4 * b2n e + 2 * b2n so + b2n w) }) s
  { s' with seam := { s'.seam with isOpen := s.seam.locked && (List.range 8).any fun c => edge (56 + c) true (64 + c) } }

/-- Bind a pod: its configuration, and everything of another VD gone from its cores (R57, R127, R149). -/
def State.configurePod (s : State) (p v orient : Nat) : State :=
  let x := s.pod p
  let s := if x.vd = v then s else s.mapCores (podCores p) fun k => { k with istore := [], skid := [], table := [] }
  s.setPod p { x with vd := v, orient := orient }

/-- Configure the pods of a VD's placement, and unbind the others it holds unless they still run a context. -/
def State.configurePods (s : State) (v : Nat) (keepOld : Bool) : State :=
  let d := s.vd v
  let stay := if keepOld then (s.podsOf v) else []
  let s := (d.place.pods.filter fun p => !stay.contains p).foldl (fun s p => s.configurePod p v d.place.orient) s
  let s := ((s.podsOf v).filter fun p => !d.place.pods.contains p && !stay.contains p).foldl (fun s p => s.configurePod p 0 0) s
  s.openEdges

/-- Own bins that take another slot's contents, or zeros: all at once, from the contents before (R301). -/
def State.permuteBins (s : State) (old new : List Nat) : State :=
  let src (i : Nat) : Option Nat := old[i]?
  ((List.range new.length).zip new).foldl (fun t e =>
    if !old.contains e.2 ∨ src e.1 = some e.2 then t
    else
      let clean := t.zeroBin e.2
      match src e.1 with
      | none => clean
      | some b =>
        let mem := (s.sbk.mem.filter fun x => 64 * physLine b 0 ≤ x.1 && x.1 < 64 * physLine (b + 1) 0).foldl
          (fun m x => writeByte m (x.1 - 64 * physLine b 0 + 64 * physLine e.2 0) x.2) clean.sbk.mem
        let poi := (s.sbk.poison.filter fun x => physLine b 0 ≤ x.1 && x.1 < physLine (b + 1) 0).foldl
          (fun m x => sput false (x.1 - physLine b 0 + physLine e.2 0) x.2 m) clean.sbk.poison
        { clean with sbk := { clean.sbk with mem := mem, poison := poi } }) s

/-- Does a change put a slot's contents into a bin the VD holds already? -/
def permutes (old new : List Nat) : Bool :=
  ((List.range new.length).zip new).any fun e => old.contains e.2 && old[e.1]? ≠ some e.2

/-- Entries above the new quota are evicted (R301). -/
def State.trimHots (v quota : Nat) : Nat → State → State
  | 0, s => s
  | n + 1, s => if s.hotBins v ≤ quota then s
    else match s.victim (s.evictable (some v)) with
      | some e => State.trimHots v quota n (s.evict e)
      | none => s

/-- Link keys toward every other part, from the session and the GROUP secret (R350, R391). A handle that no notice has
carried is open. -/
def State.makeLinks (s : State) (v : Nat) : State :=
  let d := s.vd v
  ((List.range d.nparts).filter (· ≠ d.part)).foldl (fun s i =>
    let dev := (d.devs[i]?).getD 0
    if (s.linkKey v dev).isSome then s
    else match s.freeKey, d.sec.group with
      | some id, some g =>
        let f := s.takeFree 32
        let known := sget 0 (s.vd v).peerHandles i
        let s := if known = 0 then f.2 else s
        let theirs := if known = 0 then f.1.toNat else known
        let s := s.setVd v { s.vd v with peerHandles := sput 0 i theirs (s.vd v).peerHandles }
        let mine := s.vdHandle v
        let low := min s.devNo dev
        let hs := if s.devNo ≤ dev then leBytes 4 mine ++ leBytes 4 theirs else leBytes 4 theirs ++ leBytes 4 mine
        let info := asciiBytes "H9 link" ++ leBytes 8 d.limits.group ++ leBytes 2 low ++ leBytes 2 (max s.devNo dev) ++ hs
        let key := BitVec.ofNat 512 (beNat (hkdfExpand (hkdfExtract (beBytes 32 (s.peer dev).secret.toNat) (beBytes 32 g.toNat)) info 64))
        let s := s.setKey id { s.key id with peer := some dev, vd := v }
        { s with fw := { s.fw with links := s.fw.links ++ [{ vd := v, peer := dev, label := id, key := key }] } }
      | _, _ => s) s

/-- The commit installs the map that names a move's destination. -/
def BinMove.flip (v : Nat) (m : BinMove) : BinMove := if m.vd = v then { m with flipped := true, holdWrites := false } else m
def ChMove.flip (v : Nat) (m : ChMove) : ChMove := if m.vd = v then { m with flipped := true, holdWrites := false } else m

/-- Install a change's maps and advance the epoch. -/
def State.install (s : State) (v : Nat) (c : Change) : State :=
  let d := s.vd v
  let old := d.place
  let first := d.st = .created
  -- bins
  let perm := permutes old.slots c.place.slots
  let s := if perm then s.copyDirty v else s
  let dsts := s.sbk.moves.filterMap fun m => if m.vd = v then some m.dst else none
  let s := (c.place.slots.filter fun b => (s.bin b).st = .incoming && (perm || !dsts.contains b)).foldl
    (fun s b => s.setBin b { s.bin b with st := .owned }) s
  let s := if perm then s.permuteBins old.slots c.place.slots else s
  let bm := (s.sbk.moves.filter fun m => !(perm && m.vd = v)).map (BinMove.flip v)
  let cm := s.hbm.moves.map (ChMove.flip v)
  let s := { s with sbk := { s.sbk with moves := bm }, hbm := { s.hbm with moves := cm } }
  -- carve-outs
  let s := [0, 1, 2, 3].foldl (fun s k =>
    let n := c.alt.carves.getD k {}
    let x := s.carve v k
    if n.ch = 0 then (if x.chans.isEmpty then s else s.setCarve v k { x with old := some x.chans, chans := [] })
    else
      let chans := sget [] c.place.chans k
      s.setCarve v k { x with old := if first then none else some x.chans, chans := chans, guar := n.guar, floor := n.floor }) s
  -- the map, the epoch and the state
  let s := s.setVd v { s.vd v with place := c.place, oldPlace := if first then none else some old, alt := c.alt, altIdx := c.altIdx,
                                   btset := c.btset, part := c.part, nparts := c.nparts, devs := c.devs, digest := c.digest,
                                   epoch := if first then 0 else (d.epoch + 1) % 16, tcommit := s.toll,
                                   st := .changing }
  s.trimHots v c.alt.hotq 512

/-- COMPOSITION_COMMIT at B. -/
def execCompositionCommit (vd : Nat) (s : State) : Res :=
  .next (match s.change vd with
    | none => s
    | some c =>
      if c.phase ≠ .scheduled ∨ !(c.commitAt.any fun b => b ≤ s.toll) ∨ (s.vd vd).st = .teardown then s
      else if c.rejoin then
        let d := s.vd vd
        let s := s.setVd vd { d with epoch := (d.epoch + 1) % 16, tcommit := s.toll, lostParts := [] }
        let s := (s.makeLinks vd).setChange vd { c with phase := .committed }
        (s.completeChange vd).raisePfs 4
      else
        let spans := c.place.pods.any (fun p => podHalf p = 0) && c.place.pods.any fun p => podHalf p = 1
        if spans ∧ !s.seam.locked then s.abandonChange vd stAdmission (bindDetail 0x07 c.altIdx 0)
        else
          let old := (s.vd vd).place
          let perm := permutes old.slots c.place.slots
          let moved : Bool := !(old.pods = c.place.pods && old.orient = c.place.orient)
          let s := (s.install vd c).makeLinks vd
          let s := match (s.vd vd).ctx with
            | some n =>
              let s := s.setCtx n { s.ctx n with oldEpoch := !perm }
              let l := s.ctxCores n
              let mlen := max 1 ((l.head?.map fun k => (s.core k).mlen).getD 1)
              let beat := (l.map fun k => (s.core k).rbeat).foldl max 0
              let s := s.setChange vd { c with phase := .committed, rebindM := (beat + mlen - 1) / mlen * mlen }
              let s := s.setVd vd { s.vd vd with passing := [n] }
              if moved then (s.configurePods vd true).requestStop vd n (s.vd vd).switching else s
            | none => (s.configurePods vd false).setChange vd { c with phase := .committed }
          (s.completeChange vd).raisePfs 4)

/-- REBIND_POINT: a context passes to the new resources, having stopped and been saved, having ended, or, where its pods
stay, having reached the measure boundary (R310, R315). -/
def execRebindPoint (vd : Nat) (s : State) : Res :=
  .next (match s.change vd with
    | none => s
    | some c =>
      if c.phase ≠ .committed then s
      else
        let moved := s.podsOf vd ≠ (s.vd vd).place.pods.mergeSort ∨
          (s.podsOf vd).any fun p => (s.pod p).orient ≠ (s.vd vd).place.orient
        let gone (n : Nat) : Bool := (s.vd vd).ctx ≠ some n ||
          (!moved && (s.ctxCores n).all fun k => c.rebindM ≤ (s.core k).rbeat)
        let pass := (s.vd vd).passing.filter gone
        let s := pass.foldl (fun s n => s.setCtx n { s.ctx n with oldEpoch := false }) s
        let s := s.setVd vd { s.vd vd with passing := (s.vd vd).passing.filter fun n => !pass.contains n }
        if (s.vd vd).passing.isEmpty then (s.configurePods vd false).completeChange vd else s)

/-! ### The drain (R179, R309, R311) -/

/-- Start the change in progress if the epoch before the present one has drained. -/
def State.pumpChange (s : State) (v : Nat) : State :=
  match s.change v with
  | some c => if c.phase = .waiting ∧ c.kind = .move ∧ (s.vd v).oldPlace.isNone then s.beginChange v else s
  | none => s

/-- EPOCH_DRAINED: no request of the old epoch is outstanding and every context has passed: its maps go, and what the new
epoch does not use is released, dirty lines of it first copied. -/
def execEpochDrained (vd : Nat) (s : State) : Res :=
  .next (match (s.vd vd).oldPlace with
    | none => s
    | some old =>
      let d := s.vd vd
      if !d.passing.isEmpty ∨ d.st = .teardown then s
      else
        -- channels: the pages still dirty are copied, then the sources are erased or retired
        let mv := s.hbm.moves.filter fun m => m.vd = vd && m.flipped
        let s := mv.foldl (fun s m => (skeys m.dirty).foldl (fun s p => match s.chMoveTo m.dst with
          | some m => s.copyPage m p
          | none => s) s) s
        let s := mv.foldl (fun s m => s.setChan m.dst { s.chan m.dst with st := .bound }) s
        let s := { s with hbm := { s.hbm with moves := s.hbm.moves.filter fun (m : ChMove) => !(m.vd = vd && m.flipped) } }
        let now := d.carves.flatMap fun e => e.2.chans
        let gone := (d.carves.flatMap fun e => e.2.old.getD []).filter fun g => !now.contains g
        let s := gone.foldl (fun s g => if (s.chan g).retReq then
            s.setChan g { (s.chan g).bare with st := .retired, owner := 0, mode := 0, carve := 0, key := 0 }
          else s.toErasing g) s
        let s := [0, 1, 2, 3].foldl (fun s k =>
          let x := s.carve vd k
          if x.chans.isEmpty ∧ x.old.isSome then (s.retireKey x.key).setCarve vd k {}
          else s.setCarve vd k { x with old := none }) s
        -- bins: sources of moves stay until their flip completes
        let srcs := s.sbk.moves.map BinMove.src
        let s := (old.slots.filter fun b => !d.place.slots.contains b && !srcs.contains b).foldl (fun s b => s.toClearing b) s
        let s := s.setVd vd { s.vd vd with oldPlace := none }
        (s.setShare vd (shareOf d.alt d.place)).pumpChange vd)

/-- BIN_FLIP_COMPLETE: the old epoch has drained and no line is dirty: the destination is OWNED, the source clears. -/
def execBinFlipComplete (vd b : Nat) (s : State) : Res :=
  .next (match s.moveTo b with
    | none => s
    | some m =>
      if m.vd ≠ vd ∨ !m.flipped ∨ (s.vd vd).oldPlace.isSome ∨ !m.dirty.isEmpty then s
      else
        let s := { s with sbk := { s.sbk with moves := s.sbk.moves.filter fun x => x.dst ≠ b } }
        ((s.setBin b { s.bin b with st := .owned }).toClearing m.src).landWaiting)

/-! ### Creating a VD (R296, R297) -/

/-- Is a VF enabled (R252)? -/
def State.vfEnabled (s : State) (p n : Nat) : Bool :=
  (s.port p).vfEnable && 1 ≤ n && n ≤ (s.port p).numVfs && !(s.host.single && p = 1)

/-- Read and check a limit record. -/
def State.readLimits (s : State) (seq h : Nat) : Option (Sum Nat Limits) × State :=
  match s.readObj seq 0 0 h 0 64 with
  | (none, s) => (none, s)
  | (some bs, s) => match limitFails bs with
    | some o => (some (.inl o), s)
    | none => (some (.inr (limitsOf bs)), s)

/-- VD_CREATE. -/
def effVdCreate (c : Cmd) (s : State) : State :=
  match s.readLimits c.seq (c.fld 0x14 0 32) with
  | (none, s) => s
  | (some (.inl o), s) => s.finish c.seq stAborted (2 ^ 31 + o)
  | (some (.inr l), s) =>
    let port := c.fld 0x10 0 1
    let n := c.fld 0x10 8 8
    let nq := c.fld 0x10 16 9
    let pairs := ((List.range (16384 - 256)).map (· + 256)).filter fun q => !(s.pair q).assigned
    match lowestKey (fun v => (s.vd v).st = .none) 127 1 with
    | none => s.finish c.seq stAdmission 0x20
    | some v =>
      -- a level 3 unlock leaves no number to give (R397)
      if s.sec.level3 ∨ s.sec.unlocking then s.finish c.seq stAdmission 0x20
      else if !s.vfEnabled port n ∨ (s.vf port n).vd ≠ 0 then s.finish c.seq stAdmission 0x21
      else if pairs.length < nq then s.finish c.seq stAdmission 0x22
      else
        let f := s.takeFree 256
        let inc := ((s.vd v).inc + 1) % 2 ^ 24
        let s := f.2.setVd v { st := .created, inc := inc, limits := l, quiet := c.fld 0x10 25 1 = 1, vf := some (port, n),
                               jkey := f.1 }
        let s := s.setVf port n { s.vf port n with vd := v }
        let s := ((List.range nq).zip pairs).foldl (fun s e =>
          s.setPair e.2 { assigned := true, vd := v, lq := e.1 }) s
        s.finishR c.seq stOK 0 (s.vdHandle v) 0
def execVdCreate (seq : Nat) (s : State) : Res :=
  runXCmd seq 0x10 s effVdCreate

/-! ### BIND (R298–R302, R310, R312) -/

/-- The shape request of a BIND, checked; the command has ended or waits where there is none. -/
def State.readShape (s : State) (c : Cmd) : Option (ShapeReq × SetReader × BitVec 384) × State :=
  let h := c.fld 0x10 0 32
  let size := (s.obj (handleIdx h)).size
  let pf := fnPort (s.qFn c.q)
  let fail (s : State) (o : Nat) : Option (ShapeReq × SetReader × BitVec 384) × State := (none, s.finish c.seq stAborted (2 ^ 31 + o))
  match s.readObj c.seq c.vd pf h 0 (min size 64) with
  | (none, s) => (none, s)
  | (some hd, s) =>
    let nalt := bitsOf (leAt hd 0 4) 19 16 + 1
    let np := bitsOf (leAt hd 0 4) 25 20 + 1
    if size < 64 then fail s size
    else
      let n := shapeBytes nalt np
      match s.readObj c.seq c.vd pf h 0 (min size n) with
      | (none, s) => (none, s)
      | (some bs, s) =>
        let bt := leAt bs 4 4
        let o := s.obj (handleIdx bt)
        let btOk : Bool := s.handleCheck c.vd bt = 0 && o.kind = 2
        match shapeFails btOk bs with
        | some o => fail s o
        | none =>
          if size < n then fail s size
          else match s.readObj c.seq c.vd pf bt 0 o.size with
            | (none, s) => (none, s)
            | (some st, s) =>
              if (setFails o.size (setReader st)).isSome then fail s 4
              else (some (shapeOf bs, setReader st, BitVec.ofNat 384 (beNat (sha384 bs))), s)

/-- Verdict on each alternative for one part. -/
def State.verdicts (s : State) (v : Nat) (r : ShapeReq) (part : Nat) (rd : SetReader) : List (Alt × Verdict) :=
  r.alts.map fun l =>
    let a := l.getD part {}
    (a, s.admitAlt v {} (s.vd v).alt a part r.nparts r.devs false none rd)

/-- Start a BIND's change: the request is read, checked and admitted; resources are taken, or a JOIN goes out. -/
def State.startBind (s : State) (c : Cmd) (ch : Change) : State :=
  let v := c.vd
  let isChange := c.fld 0x14 0 1 = 1
  let reject (s : State) (reason alt part : Nat) : State := s.abandonChange v stAdmission (bindDetail reason alt part)
  let stateOk := if isChange then (s.vd v).st = .changing ∧ (s.vd v).lostParts.isEmpty else (s.vd v).st = .created
  if !stateOk then reject s 0x0E 0 0
  else match s.readShape c with
    | (none, s) => if (s.cmd c.seq).phase = .ready then (s.popChange v).settleSt v else s
    | (some (r, rd, dg), s) =>
      if r.nparts > 1 ∧ (s.vd v).limits.group = 0 then reject s 0x01 0 0
      else match (if r.nparts = 1 then some 0 else r.devs.findIdx? fun d => d = s.devNo) with
        | none => reject s 0x0D 0 0
        | some part =>
          let vs := s.verdicts v r part rd
          let ch := { ch with btset := r.btset, part := part, nparts := r.nparts, rebindMs := r.rebindMs, joinMs := r.joinMs, nalt := r.nalt,
                              devs := if r.nparts = 1 then [s.devNo] else r.devs, digest := dg, alts := vs.map Prod.fst }
          if r.nparts = 1 then
            match vs.findIdx? fun e => match e.2 with | .ok _ => true | .fail _ => false with
            | some i => (match vs[i]? with
              | some (a, .ok p) => (s.setChange v { ch with altIdx := i, alt := a, place := p }).beginChange v
              | _ => s)
            | none => (match vs.getLast? with
              | some (_, .fail rs) => reject s rs (r.nalt - 1) 0
              | _ => s)
          else if (s.vd v).sec.group.isNone then reject s 0x0D 0 part
          else
            let mask := (vs.zip (List.range vs.length)).foldl (fun m e => match e.1.2 with
              | .ok _ => m + 2 ^ e.2
              | .fail _ => m) 0
            let ch := { ch with mask := mask, joined := if part = 0 then [(0, some (dg, mask))] else [] }
            let s := s.setChange v { ch with told := false, accepted := ch.accepted, mask := mask }
            let group := (s.vd v).limits.group
            -- the coordinator is part 0; a device that holds part 0 may also be returning, to the lowest other part (R371)
            let dest := if part = 0 then (r.devs[1]?).getD 0 else r.devs.headD 0
            s.sendNotice dest group false true (.join part (r.nparts - 1) mask (s.vdHandle v) dg)

/-- BIND: its change joins the VD's changes, and starts once it is the first and the epoch before has drained. -/
def effBind (c : Cmd) (s : State) : State :=
  let v := c.vd
  let d := s.vd v
  let kind : ChangeKind := if c.fld 0x14 0 1 = 1 then .shape else .bind
  let s := if d.changes.any fun x => x.seq = c.seq then s
    else
      let s := s.setVd v { d with changes := d.changes ++ [{ kind := kind, seq := c.seq, accepted := s.toll }] }
      if d.st = .bound then s.settleSt v else s
  match s.change v with
  | some ch => if ch.seq = c.seq ∧ ch.phase = .waiting ∧ ch.digest = 0#384 ∧ (s.vd v).oldPlace.isNone then s.startBind c ch else s
  | none => s
def execBind (seq : Nat) (s : State) : Res := runXCmd seq 0x12 s effBind

/-- REBIND_TIMEOUT: a shape change has not reached its rebind point within REBINDMS (R310). -/
def execRebindTimeout (vd : Nat) (s : State) : Res :=
  .next (match s.change vd with
    | some c =>
      if c.kind = .shape ∧ c.commitAt.isNone ∧ !c.rejoin ∧ c.digest ≠ 0#384 ∧ s.toll ≥ c.accepted + ms c.rebindMs ∧
          (s.vd vd).ctx.isSome ∧ !c.prepared.contains c.part then
        s.abandonChange vd stAdmission (bindDetail 0x0B c.altIdx 0)
      else s
    | none => s)

end Sys2Proof.Machine
end

