-- ==== Sys2Proof/Machine/Cascade.lean ====
section
/-!
DEFINITION. Multi-device binds, peer loss, operator requests and role changes (spec/11 R312, R318–R320; spec/13 R354,
R370–R374).
-/
namespace Sys2Proof.Machine

/-! ### Notices of a multi-device bind (R312, R354) -/

/-- The VD of a GROUP that a part of a bind on this device belongs to. -/
def State.groupVd (s : State) (g : Nat) (p : Nat → Vd → Bool) : Option Nat :=
  if g = 0 then none else (s.vds.find? fun e => e.2.limits.group = g && p e.1 e.2).map Prod.fst

/-- A part of a bind completes with reason MEMBER, or with PEER_LOST. -/
def State.abandonBind (s : State) (v reason part : Nat) : State :=
  match s.change v with
  | none => s
  | some c =>
    let alt := if c.told then c.altIdx else c.nalt - 1
    if reason = 0x40 then s.abandonChange v stPeerLost 0 else s.abandonChange v stAdmission (bindDetail 0x0D alt part)

/-- The coordinator gives a bind up and tells every part that joined. -/
def State.abandonAll (s : State) (v reason part : Nat) : State :=
  match s.change v with
  | none => s
  | some c =>
    let to_ := (c.joined.filterMap fun e => if e.1 = c.part then none else c.devs[e.1]?)
    let s := to_.foldl (fun s d => s.sendAnswer d (s.vd v).limits.group (fun n => n.isJoin || n.isPrepared) (.abandon reason part)) s
    s.abandonBind v reason part

/-- Choose the placement of the alternative the coordinator named, and begin. -/
def State.beginPart (s : State) (v : Nat) : State :=
  match s.change v with
  | none => s
  | some c =>
    if c.phase ≠ .waiting ∨ !c.told then s
    else match s.btReader v c.btset with
      | none => s
      | some rd =>
        let a := c.alts.getD c.altIdx {}
        match s.admitAlt v {} (s.vd v).alt a c.part c.nparts c.devs false none rd with
        | .ok p => (s.setChange v { c with alt := a, place := p }).beginChange v
        | .fail _ => s

/-- The coordinator chooses once every part it needs has joined (R312, R371). -/
def State.chooseAlt (s : State) (v : Nat) : State :=
  match s.change v with
  | none => s
  | some c =>
    let need := if c.rejoin then (s.vd v).lostParts else List.range c.nparts
    if c.told ∨ s.coordinator v c ≠ s.devNo ∨ !(need.all fun i => (sget none c.joined i).isSome) then s
    else
      let got := need.map fun i => (i, (sget none c.joined i).getD (0#384, 0))
      match got.find? fun e => e.2.1 ≠ c.digest with
      | some (i, _) => s.abandonAll v 0x0D i
      | none =>
        let alts := if c.rejoin then [c.altIdx] else List.range c.nalt
        match alts.find? fun a => got.all fun e => bitOf e.2.2 a with
        | none => s.abandonAll v 0x0D (((got.find? fun e => e.2.2 = 0).map Prod.fst).getD 0)
        | some a =>
          let s := s.setChange v { c with told := true, altIdx := a, phase := if c.rejoin then .preparing else c.phase }
          let s := (need.filter (· ≠ c.part)).foldl (fun s i =>
            s.sendAnswer ((c.devs[i]?).getD 0) (s.vd v).limits.group Notice.isJoin (.prepare a)) s
          let s := c.devs.foldl (fun s d => s.answered d fun m => m.group = (s.vd v).limits.group && m.isJoin) s
          if c.rejoin then s else s.beginPart v

/-- Take a JOIN: for the bind this device coordinates, or for a HELD VD whose part returns. -/
def State.takeJoin (s : State) (v part np mask handle src : Nat) (dg : BitVec 384) : State :=
  let d := s.vd v
  let s := if d.st = .held ∧ d.changes.isEmpty then
      s.setVd v { d with changes := [{ kind := .bind, seq := 0, altIdx := d.altIdx, alt := d.alt, place := d.place, accepted := s.toll,
                                       btset := d.btset, part := d.part, nparts := d.nparts, devs := d.devs, digest := d.digest,
                                       nalt := 16, rejoin := true }] }
    else s
  match s.change v with
  | none => s
  | some c =>
    if c.nparts ≠ np + 1 ∨ c.devs[part]? ≠ some src then s
    else
      let s := s.setChange v { c with joined := sput none part (some (dg, mask)) c.joined }
      let d := s.vd v
      let s := s.setVd v { d with peerHandles := sput 0 part handle d.peerHandles }
      s.chooseAlt v

/-- May the VD take a JOIN: it coordinates a bind, or is HELD and is the lowest surviving part, or part 0. -/
def State.joinable (s : State) (v : Nat) (d : Vd) : Bool :=
  match d.changes.head? with
  | some c => c.digest ≠ 0#384 && c.nparts > 1 && c.commitAt.isNone && s.coordinator v c = s.devNo
  | none => d.st = .held &&
      (((List.range d.nparts).filter fun i => !d.lostParts.contains i).head? = some d.part)

/-- JOIN. A mask or part outside its range is malformed; one of another GROUP is not received. -/
def execJoin (p : Nat) (f : Frame) (s : State) : Res :=
  .next (match f.body with
    | .ctrl n => (match n.body with
      | .join part np mask handle dg =>
        match s.groupVd n.group s.joinable with
        | none => s.receive p f fun s => s
        | some v =>
          let nalt := (s.change v).elim 16 (·.nalt)
          if part > np ∨ mask ≥ 2 ^ nalt then s.countMalformed p
          else s.onNotice p f n fun s => s.takeJoin v part np mask handle f.src dg
      | _ => s)
    | _ => s)

/-- The VD whose bind waits for the coordinator's word. -/
def State.partVd (s : State) (g src : Nat) : Option Nat :=
  s.groupVd g fun v d => d.changes.head?.any fun c => c.nparts > 1 && c.digest ≠ 0#384 &&
    (s.coordinator v c = src || c.part = 0) && !c.rejoin


/-- PREPARE: the alternative is chosen and the prepare phase starts. A device of part 0 whose JOIN a survivor answers
follows that survivor. -/
def execPrepare (p : Nat) (f : Frame) (s : State) : Res :=
  .next (match f.body with
    | .ctrl n => (match n.body with
      | .prepare a => s.onNotice p f n fun s =>
          match s.partVd n.group f.src with
          | none => s
          | some v => match s.change v with
            | some c =>
              if c.told then s
              else
                let s := s.answered f.src fun m => m.group = n.group && m.isJoin
                (s.setChange v { c with told := true, altIdx := a, coord := some f.src }).beginPart v
            | none => s
      | _ => s)
    | _ => s)

/-- PREPARED: the coordinator notes k, and broadcasts B after the last report. -/
def execPrepared (p : Nat) (f : Frame) (s : State) : Res :=
  .next (match f.body with
    | .ctrl n => (match n.body with
      | .prepared part k => s.onNotice p f n fun s =>
          match s.groupVd n.group fun v d => d.changes.head?.any fun c => c.told && s.coordinator v c = s.devNo &&
              c.devs[part]? = some f.src with
          | none => s
          | some v => match s.change v with
            | some c =>
              (s.setChange v { c with prepared := (part :: c.prepared).dedup, kmax := max c.kmax k }).tryBroadcast v
            | none => s
      | _ => s)
    | _ => s)

/-- COMMIT: the part commits at B; a HELD survivor takes the returning parts back at B. -/
def execCommit (p : Nat) (f : Frame) (s : State) : Res :=
  .next (match f.body with
    | .ctrl n => (match n.body with
      | .commit _ b => s.onNotice p f n fun s =>
          match s.partVd n.group f.src with
          | some v => (match s.change v with
            | some c =>
              let s := s.answered f.src fun m => m.group = n.group && m.isPrepared
              if c.phase = .preparing then s.setChange v { c with phase := .scheduled, schedAt := s.toll, commitAt := some b } else s
            | none => s)
          | none => match s.groupVd n.group fun _ d => d.st = .held && d.changes.isEmpty && d.devs.contains f.src with
            | some v =>
              let d := s.vd v
              s.setVd v { d with changes := [{ kind := .bind, seq := 0, phase := .scheduled, schedAt := s.toll, altIdx := d.altIdx, alt := d.alt,
                                               place := d.place, accepted := s.toll, btset := d.btset, part := d.part,
                                               nparts := d.nparts, devs := d.devs, digest := d.digest, rejoin := true,
                                               commitAt := some b }] }
            | none => s
      | _ => s)
    | _ => s)

/-- ABANDON: the part releases what it prepared, and its BIND completes with MEMBER or PEER_LOST. -/
def execAbandon (p : Nat) (f : Frame) (s : State) : Res :=
  .next (match f.body with
    | .ctrl n => (match n.body with
      | .abandon reason part => s.onNotice p f n fun s =>
          match s.partVd n.group f.src with
          | some v =>
            if (s.change v).any (fun c => c.commitAt.isSome) then s
            else
              let s := s.answered f.src fun m => m.group = n.group && (m.isJoin || m.isPrepared)
              s.abandonBind v reason part
          | none => s
      | _ => s)
    | _ => s)

/-- JOIN_TIMEOUT: JOINMS have passed and a part is missing, or no answer has come (R312). -/
def execJoinTimeout (vd : Nat) (s : State) : Res :=
  .next (match s.change vd with
    | none => s
    | some c =>
      if c.nparts ≤ 1 ∨ c.digest = 0#384 ∨ c.told ∨ c.rejoin ∨ c.kind = .move ∨ s.toll < c.accepted + ms c.joinMs then s
      else
        let s := c.devs.foldl (fun s d => s.answered d fun m => m.group = (s.vd vd).limits.group && m.isJoin) s
        let missing := ((List.range c.nparts).find? fun i => (sget none c.joined i).isNone).getD 0
        if s.coordinator vd c = s.devNo then s.abandonAll vd 0x0D missing else s.abandonBind vd 0x0D 0)

/-! ### Loss of a peer (R370) -/

/-- A multi-device bind loses a part before B: it is abandoned with PEER_LOST (R312). -/
def State.loseBind (s : State) (v d : Nat) : State :=
  match s.change v with
  | none => s
  | some c =>
    if c.nparts > 1 ∧ c.kind ≠ .move ∧ !c.rejoin ∧ c.devs.contains d ∧ c.commitAt.isNone ∧ c.phase ≠ .committed ∧ c.digest ≠ 0#384 then
      let part := (c.devs.findIdx? fun x => x = d).getD 0
      if s.coordinator v c = s.devNo then s.abandonAll v 0x40 part else s.abandonBind v 0x40 part
    else s

/-- A bound multi-device VD loses a part: HELD, its timelines fed by the part poisoned, the other parts told, its record
written and PF vector 5 raised. -/
def State.loseVd (s : State) (v d : Nat) : State :=
  let x := s.vd v
  match x.devs.findIdx? fun y => y = d with
  | none => s
  | some part =>
    if x.nparts ≤ 1 then s
    else
      let s := s.setVd v { x with lostParts := (part :: x.lostParts).dedup,
                                  st := if x.st = .bound ∨ x.st = .held ∨ (x.st = .changing ∧ x.changes.isEmpty) then .held else x.st }
      let tls := (s.que.tls.filter fun e => e.2.vd = v && (sget 0#64 s.fw.feeders e.1).getLsbD part).map Prod.fst
      let s := tls.foldl (fun s t => s.poisonTl t) s
      let s := ((x.devs.filter fun y => y ≠ d && y ≠ s.devNo)).foldl (fun s y =>
        s.sendNotice y x.limits.group false false (.peerlost d (s.peer d).inc)) s
      (s.vdRingPut { unit := uFinwin, index := part, sev := sevContained, status := stPeerLost, vd := v,
                     det := { index := part } }).raisePfs 5

/-- XFERs with a target on a device complete with PEER_LOST (R361). -/
def State.loseXfers (s : State) (d : Nat) : State :=
  s.fw.xfers.foldl (fun s e =>
    if e.2.tgts.any fun t => t.dev = d && !t.local_ then
      let s := s.mapTgts e.1 fun t => match t.st with
        | .acked => t
        | .failed => t
        | _ => if t.dev = d ∧ !t.local_ then { t with st := .lost } else t
      let l := (s.xfer e.1).tgts
      let s := s.modCmd e.1 fun c => { c with ext := some (failedRecord l) }
      s.finish e.1 stPeerLost 0
    else s) s

/-- PEER_LOST_HANDLING: at the next TOLL frame after detection. -/
def execPeerLostHandling (dev : Nat) (s : State) : Res :=
  let q := s.peer dev
  .next (if !q.losing then s
    else
      let s := s.setPeer dev { q with session := false, losing := false, lost := true, secret := 0#256, out := [], acted := [],
                                      seqOut := 0, seqIn := 0 }
      let links := s.fw.links.map fun (k : LinkKey) => if k.peer = dev then { k with key := 0#512, zeroAt := some s.toll } else k
      let labels := (s.fw.links.filter fun k => k.peer = dev).map LinkKey.label
      let s := { s with fw := { s.fw with links := links } }
      let s := labels.foldl (fun s k => s.setKey k { s.key k with st := .zeroised, zeroAt := some s.toll }) s
      let s := allPorts.foldl (fun s p => if (s.fport p).st = .active ∧ (s.fport p).pkind ≠ 2 ∧ (s.fport p).partner = dev then
        s.portTo p .unauth 10 else s) s
      let s := s.loseXfers dev
      let known := s.fw.knownRecs.filter fun r => r.1 = dev
      let s := { s with fw := { s.fw with lostRecs := (s.fw.lostRecs ++ known.map fun r => (r.1, r.2.1, r.2.2.1)).dedup,
                                          knownRecs := s.fw.knownRecs.filter fun r => r.1 ≠ dev } }
      let s := (skeys s.vds).foldl (fun s v => s.loseBind v dev) s
      (skeys s.vds).foldl (fun s v => s.loseVd v dev) s)

/-! ### Operator requests (R318, R320) -/

/-- Move a VD off what is avoided, keeping its alternative: the change is taken and begun, or none where no placement is
found. -/
def State.moveVd (s : State) (v : Nat) (av : Avoid) (noSpan keepPods op : Bool) : Option State :=
  let d := s.vd v
  match s.btReader v d.btset with
  | none => none
  | some rd =>
    match s.admitAlt v av d.alt d.alt d.part d.nparts d.devs noSpan (if keepPods then s.rectOf v else none) rd with
    | .fail _ => none
    | .ok p =>
      if p = d.place then some s
      else
        let c : Change := { kind := .move, seq := 0, altIdx := d.altIdx, alt := d.alt, place := p, accepted := s.toll, btset := d.btset,
                            part := d.part, nparts := d.nparts, devs := d.devs, digest := d.digest, op := op }
        some ((s.setVd v { d with changes := d.changes ++ [c], st := .changing }).pumpChange v)

/-- Move several VDs, all or none. -/
def State.moveVds (s : State) (l : List Nat) (av : Avoid) (noSpan keepPods op : Bool) : Option State :=
  l.foldl (fun r v => r.bind fun s => s.moveVd v av noSpan keepPods op) (some s)

/-- Carry an operator request out for its VDs. -/
def State.startOp (s : State) (op arg : Nat) (l : List Nat) (av : Avoid) (noSpan keepPods : Bool) (granted : State → State) : State :=
  if l.any fun v => (s.vd v).st ≠ .bound then s.endOp 3
  else
    let t := { s with cmp := { s.cmp with opReq := some { op := op, vd := l.headD 0, arg := arg, vds := l } } }
    match (granted t).moveVds l av noSpan keepPods true with
    | none => s.endOp 1
    | some t =>
      let left := l.filter fun v => !(t.vd v).changes.isEmpty
      if left.isEmpty then t.endOp 0
      else { t with cmp := { t.cmp with opReq := some { op := op, vd := l.headD 0, arg := arg, vds := left } } }

/-- Resources of a kind (R318). -/
def kindCount : Nat → Nat
  | 0 => 128
  | 1 => 512
  | 2 => 256
  | 3 => 32
  | _ => 8

/-- Does a VD hold a resource? -/
def State.holds (s : State) (v kind i : Nat) : Bool :=
  let d := s.vd v
  match kind with
  | 0 => d.place.pods.contains i
  | 1 => d.place.slots.contains i
  | 2 => d.carves.any fun e => e.2.chans.contains i
  | 3 => sget 0 d.place.ports i > 0
  | _ => d.carves.any fun e => e.2.chans.any fun g => g / 32 = i

/-- Is a resource one that requests do not apply to: system channels, SYSTEM bins, reserved ports? -/
def State.notApplied (s : State) (kind i : Nat) : Bool :=
  match kind with
  | 1 => (s.bin i).st = .system
  | 2 => (s.chan i).st = .system
  | 3 => s.portRsv i
  | _ => false

/-- Perform the request of an OP with the VD and the argument as written. -/
def State.perform (s : State) (op : Nat) : State :=
  let v := s.cmp.opVd
  let arg := s.reg (baseCmp + 0x18)
  let s := { s with cmp := { s.cmp with opState := 1, result := 0 } }
  let kind := arg % 8
  let i := bitsOf arg 18 8
  let resOk : Bool := v = 0 && arg / 2 ^ 19 = 0 && bitsOf arg 7 3 = 0 && kind ≤ 4 && i < kindCount kind
  match op with
  | 1 => if v = 0 ∨ arg ≥ 3 then s.endOp 4
    else if (s.vd v).st ≠ .bound then s.endOp (if (s.vd v).st = .none then 4 else 3)
    else s.startOp 1 arg [v] (if arg = 0 then {} else { half := some (arg - 1) }) false (arg ≠ 0) id
  | 2 => if !resOk then s.endOp 4
    else if s.notApplied kind i then s.endOp 0
    else
      let l := (skeys s.vds).filter fun v => s.holds v kind i
      s.startOp 2 arg l { kind := kind, index := i } false true fun t =>
        let t := if kind = 1 ∧ (t.bin i).st = .hot ∧ (t.evictable none).contains (t.bin i).hotId then t.evict (t.bin i).hotId else t
        { t with cmp := { t.cmp with withheld := (t.cmp.withheld ++ [kind * 4096 + i]).dedup } }
  | 3 => if v = 0 ∨ (s.vd v).st = .none then s.endOp 4
    else if (s.vd v).st ≠ .bound then s.endOp 3
    else if arg / 2 ^ 32 ≠ 0 ∨ s.handleCheck 0 arg ≠ 0 ∨ (s.obj (handleIdx arg)).kind ≠ 0 ∨ (s.obj (handleIdx arg)).size < 64 then s.endOp 4
    else match (s.readLimits 0 arg).1 with
      | some (.inr l) => if limitsOk l (s.vd v).alt (s.vd v).nparts then (s.setVd v { s.vd v with limits := l }).endOp 0 else s.endOp 2
      | _ => s.endOp 4
  | 4 => if v = 0 ∨ arg ≠ 0 then s.endOp 4
    else if (s.vd v).st ≠ .bound then s.endOp (if (s.vd v).st = .none then 4 else 3)
    else if !s.spans v then s.endOp 0
    else s.startOp 4 arg [v] {} true true id
  | 5 => if !resOk then s.endOp 4
    else ({ s with cmp := { s.cmp with withheld := s.cmp.withheld.filter (· ≠ kind * 4096 + i) } } : State).endOp 0
  | _ => s

/-- GO of CMP_OPCMD: refused while a request is in progress; a reserved OP starts nothing (R320). -/
def State.operatorGo (s : State) (op : Nat) : State :=
  if s.cmp.opState = 1 then { s with cmp := { s.cmp with refused := true } }
  else if 1 ≤ op ∧ op ≤ 5 then s.perform op
  else s

/-- MOVE. -/
def execMove (s : State) : Res := .next (s.operatorGo 1)
/-- EVACUATE. -/
def execEvacuate (s : State) : Res := .next (s.operatorGo 2)
/-- RELIMIT. -/
def execRelimit (s : State) : Res := .next (s.operatorGo 3)
/-- UNSEAM. -/
def execUnseam (s : State) : Res := .next (s.operatorGo 4)
/-- RELEASE. -/
def execRelease (s : State) : Res := .next (s.operatorGo 5)

/-- At a toll boundary, VDs with a working bin or a channel at RETREQ move off it where a place is found (R175, R215). -/
def State.retireMoves (s : State) : State :=
  (skeys s.vds).foldl (fun s v =>
    let d := s.vd v
    if d.st = .bound ∧ d.changes.isEmpty ∧ (d.place.slots.any (fun b => (s.bin b).retReq) ∨
        d.carves.any fun e => e.2.chans.any fun g => (s.chan g).retReq) then
      (s.moveVd v {} false true false).getD s
    else s) s

/-! ### Role changes (R319, R372) -/

/-- Stacks of a mask. -/
def stksOf (m : Nat) : List Nat := (List.range 8).filter fun n => bitOf m n
/-- Channels of a stack, but the system's. -/
def roleChans (n : Nat) : List Nat := ((List.range 32).map (32 * n + ·)).filter fun g => g ≠ 127 && g ≠ 255

/-- A role change ends. -/
def State.endRole (s : State) (result : Nat) : State :=
  { s with cmp := { s.cmp with roleReq := none, roleState := 0, roleResult := result } }

/-- Bins for the service of the stacks of a mask: the two lowest FREE bins of the stack's half each. -/
def State.roleBinsFor (s : State) (l : List Nat) : Option (SMap (List Nat)) :=
  l.foldl (fun r n => r.bind fun m =>
    let free := s.freeBins.filter fun b => podHalf (binPod b) = n / 4 && !m.any fun e => e.2.contains b
    if free.length < 2 then none else some (sput [] n (free.take 2) m)) (some [])

/-- GO of CMP_ROLECTL (R319, R320). -/
def State.roleGo (s : State) (role : Bool) (stks : Nat) : State :=
  if s.cmp.roleState ≠ 0 then s.setRsvw
  else if !role ∧ stks ≠ 0 then s.endRole 2
  else
    let grown := (stksOf stks).filter fun n => !bitOf s.cmp.served n
    let vds := (skeys s.vds).filter fun v => (s.vd v).carves.any fun e => e.2.chans.any fun g => grown.contains (g / 32)
    match s.roleBinsFor grown with
    | none => s.endRole 1
    | some bins =>
      if vds.any fun v => (s.vd v).st ≠ .bound ∨ !(s.vd v).changes.isEmpty then s.endRole 1
      else
        let mask := grown.foldl (fun m n => m + 2 ^ n) 0
        let t := { s with cmp := { s.cmp with roleState := 1, roleResult := 0,
                                              roleReq := some { role := role, stks := stks, vds := vds } } }
        let t := (bins.flatMap Prod.snd).foldl (fun t b => t.setBin b { t.bin b with st := .incoming, owner := 0 }) t
        match t.moveVds vds { stks := mask } false true false with
        | none => s.endRole 1
        | some t =>
          let left := vds.filter fun v => !(t.vd v).changes.isEmpty
          { t with cmp := { t.cmp with
              roleReq := some { role := role, stks := stks, vds := left,
                                commitAt := if left.isEmpty then some ((periodOf s.toll + 2) * tollPeriod) else none }
              roleBins := bins.foldl (fun m e => sput [] e.1 e.2 m) t.cmp.roleBins } }

/-- ROLE_CHANGE: a value written to CMP_ROLECTL; a GO while a change is in progress is ignored (R319). -/
def execRoleChange (v : Word) (s : State) : Res :=
  let n := v.toNat
  let s1 := s.setReg (baseCmp + 0x30) (n % 512)
  .next (if bitOf n 31 then (if s.cmp.roleState ≠ 0 then s.setRsvw else s1.roleGo (bitOf n 8) (n % 256)) else s1)

/-- The boundary B of a role change: channels pass to VD 0 or are erased, records of dropped stacks go, peers are told. -/
def State.roleCommit (s : State) : State :=
  match s.cmp.roleReq with
  | none => s
  | some r =>
    if !(r.commitAt.any fun b => b ≤ s.toll) then s
    else
      let b := r.commitAt.getD 0
      let grown := (stksOf r.stks).filter fun n => !bitOf s.cmp.served n
      let shrunk := (stksOf s.cmp.served).filter fun n => !bitOf r.stks n
      let dropped := shrunk.foldl (fun m n => m + 2 ^ n) 0
      let s := { s with cmp := { s.cmp with memRole := r.role, served := r.stks, roleReq := none,
                                            roleState := if shrunk.isEmpty then 0 else 2 } }
      let s := (grown.flatMap roleChans).foldl (fun s g =>
        let c := s.chan g
        if c.st = .free then s.setChan g { c.bare with st := .formatting, mode := 3 } else s) s
      let s := (grown.flatMap fun n => sget [] s.cmp.roleBins n).foldl (fun s b => s.setBin b { s.bin b with st := .system, owner := 0 }) s
      let s := (shrunk.flatMap roleChans).foldl (fun s g =>
        if (s.chan g).st = .system ∨ (s.chan g).st = .formatting then s.toErasing g else s) s
      let s := (shrunk.flatMap fun n => sget [] s.cmp.roleBins n).foldl (fun s b => s.toClearing b) s
      let s := { s with cmp := { s.cmp with roleBins := shrunk.foldl (fun m n => sput [] n [] m) s.cmp.roleBins }
                        fw := { s.fw with pool := s.fw.pool.filter fun p => !shrunk.contains p.stack } }
      (skeys s.fw.peers).foldl (fun s d => if (s.peer d).session ∧ d < 1024 then
        s.sendNotice d 0 false false (.role r.stks dropped b) else s) s

/-- A role change whose dropped channels are all erased is done. -/
def State.roleDrained (s : State) : State :=
  if s.cmp.roleState = 2 ∧ ((stksOf (255 - s.cmp.served)).flatMap roleChans).all (fun g => (s.chan g).st ≠ .erasing) then s.endRole 0 else s

end Sys2Proof.Machine
end

