-- ==== Sys2Proof/Machine/Sched.lean ====
section
/-!
DEFINITION. The common arbiter, class regulation, shaped flows, scarcity and the feedback loop (spec/06 R167–R171; spec/12
R331–R340).
-/
namespace Sys2Proof.Machine

/-! ### Classes (R331, R335) -/

def State.classKind (s : State) (c : Nat) : Nat := if c ≥ 14 then 2 else s.effField (baseSch + 4 * c) 31 30
def State.classWeight (s : State) (c : Nat) : Nat :=
  if c = 14 then s.sch.w14 else if c = 15 then s.sch.w15 else s.effField (baseSch + 4 * c) 23 16
def State.classThresh (s : State) (c : Nat) : Nat := s.effField (baseSch + 4 * c) 11 0
def State.classOt (s : State) (c : Nat) : Nat :=
  if c = 14 then s.sch.ot14 else if c = 15 then s.sch.ot15 else s.effField (baseSch + 0x40 + 4 * c) 9 0

/-! ### Tokens (R333) -/

/-- Rate in MB/s of a regulator: a channel's share of its carve-out's allotment, or a port share's allotment. -/
def State.tokenRate (s : State) (key : Nat) : Nat :=
  if key < 256 then
    let c := s.chan key
    sget 0 (s.vd c.owner).allot c.carve / max 1 (s.carve c.owner c.carve).chans.length
  else sget 0 s.sch.portAllot (key - 1024)

/-- Does a request of n lines take its tokens?  The bucket holds thousandths of a byte, and at most 2 µs of its rate. -/
def State.takeToken (s : State) (key n : Nat) : Bool × State :=
  let b := sget {} s.sch.buckets key
  let r := s.tokenRate key
  let level := min (2000 * r) (b.level + (s.toll - b.at_) * r)
  let need := 64000 * n
  let ok := need ≤ level
  (ok, { s with sch := { s.sch with buckets := sput {} key { level := if ok then level - need else level, at_ := s.toll } s.sch.buckets } })

/-- Key of an input's wait counter and profile. -/
def waitKey (i input : Nat) : Nat := 65536 * i + input

/-- Decide a request's profile where it first meets a regulator. -/
def State.profileOf (s : State) (i : Nat) (h : ArbHead) : State :=
  if sget 0 s.sch.profile (waitKey i h.input) ≠ 0 ∨ h.share = 65535 ∨ s.classKind h.cls ≠ 1 then s
  else
    let t := s.takeToken h.share h.lines
    let s := { t.2 with sch := { t.2.sch with profile := sput 0 (waitKey i h.input) (if t.1 then 1 else 2) t.2.sch.profile } }
    if t.1 ∨ h.vd = 0 then s
    else
      let d := s.vd h.vd
      let c := sget {} d.cls h.cls
      s.setVd h.vd { d with cls := sput {} h.cls { c with demoted := satAdd 32 c.demoted 1 } d.cls }

/-! ### The grant of one resource (R169, R334) -/

/-- Is a request of the lower tier: BEST_EFFORT or demoted, at a channel or port in scarcity? -/
def State.lowerTier (s : State) (i : Nat) (h : ArbHead) : Bool :=
  (s.classKind h.cls = 0 || sget 0 s.sch.profile (waitKey i h.input) = 2) &&
    (if h.share < 256 then sget false (s.vd (s.chan h.share).owner).carveScarce (s.chan h.share).carve
     else h.share ≠ 65535 && sget false s.sch.portScarce ((h.share - 1024) / 128))

/-- May a request be granted: both domains up, and fewer lines outstanding than OTLIM? -/
def State.eligible (s : State) (h : ArbHead) : Bool := !s.isDown h.reqDom && !s.isDown h.tgtDom && h.outst < s.classOt h.cls

/-- How a request was chosen. -/
inductive GrantBy where
  | saturated
  | threshold
  | weights
  deriving DecidableEq, Repr

/-- The choice by class weights and round robin. -/
def State.byWeights (s : State) (i res : Nat) (l : List ArbHead) : Option ArbHead × State :=
  let a := 256 * i + res
  let up := l.filter fun h => !s.lowerTier i h
  let tier := if up.isEmpty then 0 else 1
  let l := if up.isEmpty then l else up
  let cs := (List.range 16).filter fun c => l.any fun h => h.cls = c
  let key (c : Nat) : Nat := 32 * a + 16 * tier + c
  let credit (c : Nat) : Int := sget 0 s.sbk.credit (key c) + s.classWeight c
  let best := cs.foldl (fun (b : Option Nat) c => match b with
    | none => some c
    | some x => if credit c > credit x then some c else b) none
  match best with
  | none => (none, s)
  | some c =>
    let sum : Int := (cs.map fun x => (s.classWeight x : Int)).sum
    let m := cs.foldl (fun m x => sput 0 (key x) (if x = c then credit x - sum else credit x) m) s.sbk.credit
    let mine := l.filter fun h => h.cls = c
    let last := sget 0 s.sbk.lastIn (16 * a + c)
    let pick := (sortBy id ((mine.map ArbHead.input).filter fun j => last < j)).head?.or (sortBy id (mine.map ArbHead.input)).head?
    match pick.bind fun j => mine.find? fun h => h.input = j with
    | none => (none, s)
    | some h => (some h, { s with sbk := { s.sbk with credit := m, lastIn := sput 0 (16 * a + c) h.input s.sbk.lastIn } })

/-- The request granted a resource. -/
def State.grantOne (s : State) (i res : Nat) (l : List ArbHead) : Option (ArbHead × GrantBy) × State :=
  let wait (h : ArbHead) : Nat := sget 0 s.sbk.waits (waitKey i h.input)
  let least (l : List ArbHead) : Option ArbHead := l.foldl (fun b h => match b with
    | none => some h
    | some x => if h.input < x.input then some h else b) none
  match least (l.filter fun h => wait h = 4095) with
  | some h => (some (h, .saturated), s)
  | none =>
    let late := l.filter fun h => s.classThresh h.cls ≠ 0 && wait h ≥ s.classThresh h.cls
    let top := (late.map wait).foldl max 0
    match least (late.filter fun h => wait h = top) with
    | some h => (some (h, .threshold), s)
    | none => match s.byWeights i res l with
      | (some h, s) => (some (h, .weights), s)
      | (none, s) => (none, s)

/-- Count a grant in the arbiter, in the feedback loop, in the VD's class counters, and in its shaped flow (R171, R335,
R336, R342). -/
def State.countGrant (s : State) (i : Nat) (h : ArbHead) (by_ : GrantBy) : State :=
  let w := sget 0 s.sbk.waits (waitKey i h.input)
  let k := 16 * i + h.cls
  let a := sget {} s.sbk.stats k
  let a := { a with grants := satAdd 32 a.grants 1, waitSum := satAdd 32 a.waitSum w, waitMax := max a.waitMax w }
  let s := { s with sbk := { s.sbk with stats := sput {} k a s.sbk.stats, waits := sput 0 (waitKey i h.input) 0 s.sbk.waits }
                    sch := { s.sch with profile := sput 0 (waitKey i h.input) 0 s.sch.profile
                                        wmax14 := if h.cls = 14 then max s.sch.wmax14 w else s.sch.wmax14
                                        wmax15 := if h.cls = 15 then max s.sch.wmax15 w else s.sch.wmax15 } }
  if h.vd = 0 then s
  else
    let d := s.vd h.vd
    let c := sget {} d.cls h.cls
    let late := match by_ with
      | .threshold => 1
      | _ => 0
    let s := s.setVd h.vd { d with cls := sput {} h.cls { c with lines := satAdd 32 c.lines h.lines, wmax := max c.wmax w,
                                                                 late := satAdd 32 c.late late } d.cls }
    let flow := if 128 ≤ i ∧ i < 256 then some (i - 128) else if 272 ≤ i ∧ h.share < 256 then some (128 + h.share) else none
    match flow with
    | some f => if d.quiet then { s with sch := { s.sch with flowReal := sput 0 f (sget 0 s.sch.flowReal f + h.lines) s.sch.flowReal } }
      else s
    | none => s

/-- ARBITER_GRANT: one store cycle of an arbiter with the requests at the heads of its inputs: each resource is granted to
one, and the others' wait counters count. -/
def execArbiterGrant (idx : Nat) (heads : List ArbHead) (s : State) : Res :=
  .next (if idx ≥ 280 then s
    else
      let s := heads.foldl (fun s h => s.profileOf idx h) s
      let ress := (heads.map ArbHead.res).dedup
      let r := ress.foldl (fun (q : List Nat × State) res =>
        match q.2.grantOne idx res (heads.filter fun h => h.res = res && q.2.eligible h) with
        | (some (h, by_), t) => (h.input :: q.1, t.countGrant idx h by_)
        | (none, t) => (q.1, t)) ([], s)
      (heads.filter fun h => !r.1.contains h.input).foldl (fun s h =>
        let k := waitKey idx h.input
        { s with sbk := { s.sbk with waits := sput 0 k (min 4095 (sget 0 s.sbk.waits k + 1)) s.sbk.waits } }) r.2)

/-! ### Shaped flows (R336, R337) -/

/-- Lines of a shaped flow in each window, none where the flow is not shaped: 0–127 the injection of a pod's router, 128 + g a
channel's front-end, 1024 + 128 × port + VD a port share, 8192 + VD a host-port DMA engine. -/
def State.flowLines (s : State) (flow : Nat) : Option Nat :=
  if flow < 128 then
    let d := s.vd (s.pod flow).vd
    if d.quiet then some (ceilDiv d.alt.farGbs d.place.pods.length) else none
  else if flow < 384 then
    let c := s.chan (flow - 128)
    let d := s.vd c.owner
    if d.quiet then some (ceilDiv (sget 0 d.allot c.carve) (1000 * max 1 (s.carve c.owner c.carve).chans.length)) else none
  else if 1024 ≤ flow ∧ flow < 8192 then
    if (s.vd ((flow - 1024) % 128)).quiet then some (sget 0 s.sch.portAllot (flow - 1024) / 1000) else none
  else if 8192 ≤ flow then
    let d := s.vd (flow - 8192)
    if d.quiet then some (max 1 d.alt.hostGbs) else none
  else none

/-- A filler frame of a quiet VD's port share: 64 payload lines, FILL set, to a device of another part the port reaches. -/
def State.fillFrame (s : State) (p v : Nat) : State :=
  match (s.vd v).devs.find? fun d => d ≠ s.devNo && (s.reaching d).contains p && (s.linkKey v d).isSome with
  | none => s
  | some d => match s.linkKey v d with
    | none => s
    | some k =>
      let x : DataDesc := { xfer := 0, attempt := 0, dstLine := 0, off := 0, total := 0, sig := false, tl := 0, sval := 0, fill := true }
      s.transmit p (s.frameTo d k.label (s.remoteVd v d) 0 64 (.data x (List.replicate 63 0#512)))

/-- SHAPED_FLOW_WINDOW: a window of 64 store cycles of a flow ends: slots left over are filled. -/
def execShapedFlowWindow (flow : Nat) (s : State) : Res :=
  .next (match s.flowLines flow with
    | none => s
    | some n =>
      let real := sget 0 s.sch.flowReal flow
      let s := { s with sch := { s.sch with flowReal := sput 0 flow 0 s.sch.flowReal
                                            flowFill := sput 0 flow (sget 0 s.sch.flowFill flow + (n - real)) s.sch.flowFill } }
      if 1024 ≤ flow ∧ flow < 8192 ∧ real < n then s.fillFrame ((flow - 1024) / 128) ((flow - 1024) % 128) else s)

/-! ### Scarcity (R338–R340) -/

/-- A claimant: VD, guarantee, floor, weight, its PRIO, its allotment so far, and whether it is degraded. -/
structure Claim where
  vd : Nat
  g : Nat
  f : Nat
  w : Nat
  prio : Nat
  a : Nat := 0
  deg : Bool := false
  deriving DecidableEq, Repr

/-- Degrade claimants, the lowest PRIO and then the highest VD first, until the floors fit. -/
def degrade (r : Int) : Nat → List Claim → List Claim
  | 0, l => l
  | n + 1, l =>
    let live := l.filter fun c => !c.deg
    if ((live.map (·.f)).sum : Int) ≤ r ∨ live.isEmpty then l
    else
      let low := (live.map (·.prio)).foldl min 3
      let v := ((live.filter fun c => c.prio = low).map (·.vd)).foldl max 0
      degrade r n (l.map fun (c : Claim) => if c.vd = v then { c with deg := true } else (c : Claim))

/-- Share what is left by weight, capping at the guarantees. -/
def spread : Nat → Nat → List Claim → List Claim
  | 0, _, l => l
  | n + 1, spare, l =>
    let open_ (c : Claim) : Bool := !c.deg && c.a < c.g
    let os := l.filter open_
    if spare = 0 ∨ os.isEmpty then l
    else
      let sw := (os.map (·.w)).sum
      let s (c : Claim) : Nat := spare * c.w / max 1 sw
      let capped (c : Claim) : Bool := open_ c && c.a + s c ≥ c.g
      if os.any capped then
        spread n (spare - ((l.filter capped).map fun c => c.g - c.a).sum) (l.map fun c => if capped c then { c with a := c.g } else c)
      else
        let left := spare - (os.map s).sum
        let order := sortBy id (os.map (·.vd))
        l.map fun c => if open_ c then
            { c with a := c.a + s c + (if ((order.findIdx? fun v => v = c.vd).getD 0) < left then 1 else 0) }
          else c

/-- The allotments of a resource of capacity c with privileged floors p (R339), and whether it is in scarcity. -/
def allotments (c p : Nat) (l : List Claim) : Bool × List Claim :=
  let r : Int := (c : Int) - p
  if ((l.map (·.g)).sum : Int) ≤ r then (false, l.map fun x => { x with a := x.g })
  else if r ≤ 0 then (true, l.map fun x => { x with deg := true })
  else
    let l := (degrade r l.length l).map fun x => { x with a := if x.deg then 0 else x.f }
    (true, spread (l.length + 1) (r.toNat - (l.map (·.a)).sum) l)

/-- Set SCH_VFEVT bits: a bit that becomes 1 raises VF vector 3. -/
def State.schedEvent (s : State) (v : Nat) (bits : BitVec 4) : State :=
  let d := s.vd v
  let e := d.evt ||| bits
  if e = d.evt then s else (s.setVd v { d with evt := e }).raiseVd v 3

/-- VDs with resources. -/
def State.boundVds (s : State) : List Nat := (skeys s.vds).filter fun v => v ≠ 0 && !(s.vd v).place.pods.isEmpty

/-- ALLOTMENT_RECOMPUTE: every claimant of every resource, and the changes reported (R339, R340). -/
def State.recomputeAllot (s0 : State) : State :=
  let vs := s0.boundVds
  -- carve-outs
  let s := vs.foldl (fun s v => [0, 1, 2, 3].foldl (fun s k =>
    let x := s.carve v k
    let cap := (x.chans.map s.curBudget).sum
    let r := allotments cap 0 (if x.chans.isEmpty then [] else
      [{ vd := v, g := 1000 * x.guar, f := 1000 * x.floor, w := 1, prio := (s.vd v).limits.prio }])
    let d := s.vd v
    s.setVd v { d with allot := sput 0 k ((r.2.head?.map (·.a)).getD 0) d.allot,
                       carveScarce := sput false k r.1 d.carveScarce }) s) s0
  let carveDeg (v : Nat) : Bool := [0, 1, 2, 3].any fun k =>
    sget false (s.vd v).carveScarce k && sget 0 (s.vd v).allot k = 0 && (s.carve v k).guar ≠ 0
  -- ports
  let floors := 1000 * (s0.effField (baseSch + 0x80) 23 16 + s0.effField (baseSch + 0x84) 23 16)
  let lf := s0.effField (baseSch + 0x100) 23 16
  let ps := allPorts.map fun p =>
    let l : List Claim := (vs.filter fun v => sget 0 (s0.vd v).place.ports p > 0).map fun v =>
      let g := sget 0 (s0.vd v).place.ports p
      { vd := v, g := g, f := g * lf / 100, w := s0.effField (baseSch + 0x1000 + 8 * v) 15 8, prio := (s0.vd v).limits.prio }
    (p, if l.isEmpty then (false, []) else allotments (s0.fport p).cap floors l)
  let s := ps.foldl (fun (s : State) e =>
    let m := (List.range 128).foldl (fun m v => sput 0 (128 * e.1 + v) 0 m) s.sch.portAllot
    let m := e.2.2.foldl (fun m (c : Claim) => sput 0 (128 * e.1 + c.vd) c.a m) m
    { s with sch := { s.sch with portAllot := m, portScarce := sput false e.1 e.2.1 s.sch.portScarce } }) s
  -- marks and events
  let entered := (vs.any fun v => [0, 1, 2, 3].any fun k =>
      sget false (s.vd v).carveScarce k ≠ sget false (s0.vd v).carveScarce k) ||
    allPorts.any fun p => sget false s.sch.portScarce p ≠ sget false s0.sch.portScarce p
  let s := vs.foldl (fun s v =>
    let d := s.vd v
    let mine := ps.filter fun e => e.2.2.any fun c => c.vd = v
    let was (p : Nat) : Bool := sget false s0.sch.portScarce p
    let inC := [0, 1, 2, 3].any fun k => sget false d.carveScarce k && !sget false (s0.vd v).carveScarce k
    let outC := [0, 1, 2, 3].any fun k => !sget false d.carveScarce k && sget false (s0.vd v).carveScarce k
    let inP := mine.any fun e => e.2.1 && !was e.1
    let outP := mine.any fun e => !e.2.1 && was e.1
    let deg := carveDeg v || mine.any fun e => e.2.2.any fun c => c.vd = v && c.deg
    let changed := deg ≠ d.degraded
    let s := s.setVd v { d with scarce := ([0, 1, 2, 3].any fun k => sget false d.carveScarce k) || mine.any fun e => e.2.1,
                                degraded := deg }
    let s := if inC || inP then s.schedEvent v 1#4 else s
    let s := if outC || outP then s.schedEvent v 2#4 else s
    if changed then s.raisePfs 4 else s) s
  if entered then s.raisePfs 4 else s

/-- FEEDBACK_ADJUST: one class's weight and limit follow its largest wait (R335). -/
def feedback (wmax target wmin w ot : Nat) : Nat × Nat :=
  if wmax > target then (min 255 (2 * w), min 1023 (2 * ot))
  else if wmax ≤ target / 2 then (max wmin (w - 1), max 64 (ot - 16))
  else (w, ot)

def State.adjustFeedback (s : State) : State :=
  let a := feedback s.sch.wmax14 (s.effField (baseSch + 0x80) 11 0) (s.effField (baseSch + 0x80) 31 24) s.sch.w14 s.sch.ot14
  let b := feedback s.sch.wmax15 (s.effField (baseSch + 0x84) 11 0) (s.effField (baseSch + 0x84) 31 24) s.sch.w15 s.sch.ot15
  { s with sch := { s.sch with w14 := a.1, ot14 := a.2, w15 := b.1, ot15 := b.2, wmax14 := 0, wmax15 := 0 } }

end Sys2Proof.Machine
end

