-- ==== Sys2Proof/Machine/Host.lean ====
section
/-!
DEFINITION. Host ports (spec/09): TDISP states and what leaves RUN, IDE streams, functions' resets and configuration
writes, link changes.
-/
namespace Sys2Proof.Machine

/-! ### Ending commands early -/

/-- A command ends with ABORTED; nothing of its work goes on. -/
def State.abortCmd (s : State) (seq detail : Nat) : State :=
  let s := { s with fw := { s.fw with xfers := sput {} seq {} s.fw.xfers } }
  s.modCmd seq fun c => { c with status := stAborted, detail := detail, ext := none, phase := .ready }

/-- End a command and write its completion. -/
def State.abortNow (s : State) (seq detail : Nat) : State :=
  let s := s.abortCmd seq detail
  after (execCommandComplete seq s) s

/-- Does a command's exec occupy its context's cores, so that it ends by L1? -/
def State.onCores (s : State) (c : Cmd) : Bool :=
  c.opc = 0x30 && (s.ctx c.ctx).cur = c.seq && !(s.ctxCores c.ctx).isEmpty

/-- An exit from RUN: every context of the VD ends by L1, and every outstanding command completes with ABORTED; BIND runs
on (R263, R321).  A command whose effect has ended completes as it ended. -/
def State.leaveRun (s : State) (v : Nat) : State :=
  let ctxs := (s.que.ctxs.filter fun e => e.2.used && e.2.vd = v).map Prod.fst
  let s := ctxs.foldl (fun s x => s.teardownCtx x 0x40000001) s
  (s.que.cmds.filter fun e => e.2.vd = v && e.2.opc ≠ 0x12).foldl (fun s e =>
    let c := s.cmd e.1
    if c.phase = .ready then after (execCommandComplete e.1 s) s
    else if s.onCores c then s
    else s.abortNow e.1 0) s

/-! ### TDISP (R262, R263) -/

/-- The tenant session of a VD closes (R388). -/
def State.closeSession (s : State) (v : Nat) : State :=
  let d := s.vd v
  s.setVd v { d with sec := { d.sec with session := none } }

/-- A TDI takes another state. -/
def State.setTdi (s : State) (p n : Nat) (t : Tdi) : State :=
  let x := s.vf p n
  let s := s.setVf p n { x with tdi := t }
  let s := if x.vd ≠ 0 ∧ (t = .configUnlocked ∨ t = .error) then s.closeSession x.vd else s
  if x.tdi = .run ∧ t ≠ .run then s.leaveRun x.vd else s

/-- A locked or running TDI enters ERROR. -/
def State.tdiError (s : State) (p n : Nat) : State :=
  if (s.vf p n).tdi = .configLocked ∨ (s.vf p n).tdi = .run then s.setTdi p n .error else s

/-- Reply words on the PF's DOE mailbox. -/
def State.doeReply (s : State) (l : List Word) : State := { s with host := { s.host with doe := l } }

/-- TDISP response codes (TDISP 1.0, PRESUMED: the spec names the messages only). -/
def tdispLock : Word := 0x03#32
def tdispReport : Word := 0x04#32
def tdispStart : Word := 0x06#32
def tdispStop : Word := 0x07#32
def tdispError : Word := 0x7F#32

/-- May a VF be locked (R262)? -/
def State.lockable (s : State) (p n : Nat) : Bool :=
  let x := s.vf p n
  s.vfEnabled p n && x.tdi = .configUnlocked && x.vd ≠ 0 && s.secureStream p n && x.bar0 ≠ 0 && x.bar2 ≠ 0 && x.mse

/-- LOCK_INTERFACE. -/
def execLockInterface (p n : Nat) (s : State) : Res :=
  .next (if s.lockable p n then
      let x := s.vf p n
      ((s.setVf p n { x with recBar0 := x.bar0, recBar2 := x.bar2, recNumVfs := (s.port p).numVfs }).setTdi p n
        .configLocked).doeReply [tdispLock]
    else s.doeReply [tdispError])

/-- START_INTERFACE: the queue engine begins accepting the VD's commands. -/
def execStartInterface (p n : Nat) (s : State) : Res :=
  .next (if s.vfEnabled p n ∧ (s.vf p n).tdi = .configLocked then
      let v := (s.vf p n).vd
      let s := (s.setTdi p n .run).doeReply [tdispStart]
      (s.que.pairs.filter fun e => e.2.assigned && e.2.vd = v && v ≠ 0).foldl (fun s e => s.serve e.1) s
    else s.doeReply [tdispError])

/-- STOP_INTERFACE. -/
def execStopInterface (p n : Nat) (s : State) : Res :=
  .next (if s.vfEnabled p n then (s.setTdi p n .configUnlocked).doeReply [tdispStop] else s.doeReply [tdispError])

/-- Two words of a 64-bit address. -/
def addrWords (a : Nat) : List Word := [BitVec.ofNat 32 a, BitVec.ofNat 32 (a / 2 ^ 32)]

/-- GET_DEVICE_INTERFACE_REPORT: VF BAR0 of 512 pages and VF BAR2 of 256 pages, each with its range number and no
attribute set (the range layout is TDISP 1.0's, PRESUMED). -/
def execGetDeviceInterfaceReport (p n : Nat) (s : State) : Res :=
  let x := s.vf p n
  .next (if s.vfEnabled p n ∧ (x.tdi = .configLocked ∨ x.tdi = .run) then
      s.doeReply ([tdispReport, 2#32] ++ addrWords x.recBar0 ++ [512#32, 0#32] ++ addrWords x.recBar2 ++ [256#32, 0x20000#32])
    else s.doeReply [tdispError])

/-! ### IDE streams (R261) -/

/-- IDE_KM object identifiers (PCIe 6.0, PRESUMED). -/
def kpAck : Word := 0x03#32
def kGoStopAck : Word := 0x06#32

def State.stream (s : State) (p i : Nat) : IdeStream := sget {} (s.port p).streams i
def State.setStream (s : State) (p i : Nat) (x : IdeStream) : State :=
  s.setPort p { s.port p with streams := sput {} i x (s.port p).streams }

/-- Is there room for the stream: 129 of them on a port, with IDs 0 to 255? -/
def State.streamOk (s : State) (p i : Nat) : Bool :=
  p < 2 && i < 256 && ((skeys (s.port p).streams).contains i || (s.port p).streams.length < 129)

/-- KEY_PROG: a key of a stream's key set and sub-stream; the stream's RID association names VF `vf`. -/
def execKeyProg (p stream ks sub vf : Nat) (key : BitVec 256) (s : State) : Res :=
  .next (if !s.streamOk p stream ∨ ks > 1 ∨ sub > 2 then s.doeReply [kpAck, 1#32]
    else
      let x := s.stream p stream
      let i := 3 * ks + sub
      (s.setStream p stream { x with vf := if x.secure then x.vf else vf, keys := sput 0#256 i key x.keys,
                                     progd := x.progd ||| (1#6 <<< i) }).doeReply [kpAck, 0#32])

/-- K_SET_GO: a key set whose three keys are programmed becomes active, and the stream Secure. -/
def execKSetGo (p stream ks : Nat) (s : State) : Res :=
  let x := s.stream p stream
  .next (if p < 2 ∧ ks ≤ 1 ∧ (x.progd >>> (3 * ks)) &&& 7#6 = 7#6 then
      (s.setStream p stream { x with secure := true, active := some ks }).doeReply [kGoStopAck]
    else s)

/-- The TDI a stream is bound to enters ERROR. -/
def State.streamTdiError (s : State) (p i : Nat) : State :=
  let n := (s.stream p i).vf
  if n = 0 then s else s.tdiError p n

/-- K_SET_STOP: the key set ends; the bound TDI enters ERROR (R263). -/
def execKSetStop (p stream ks : Nat) (s : State) : Res :=
  let x := s.stream p stream
  .next (if p < 2 ∧ (skeys (s.port p).streams).contains stream then
      let x := { x with progd := x.progd &&& ~~~(7#6 <<< (3 * ks)), keys := x.keys.filter fun e => e.1 / 3 ≠ ks,
                        secure := x.secure && x.active ≠ some ks, active := if x.active = some ks then none else x.active }
      ((s.setStream p stream x).streamTdiError p stream).doeReply [kGoStopAck]
    else s)

/-- A stream enters Insecure, and its TDI ERROR. -/
def State.insecure (s : State) (p i : Nat) : State :=
  (s.setStream p i { s.stream p i with secure := false, active := none }).streamTdiError p i

/-- IDE_CHECK_FAILURE: the failure is counted and the stream enters Insecure. -/
def execIdeCheckFailure (p stream : Nat) (s : State) : Res :=
  .next (if p < 2 ∧ (skeys (s.port p).streams).contains stream then
      let s := s.setPort p { s.port p with ideFail := satAdd 32 (s.port p).ideFail 1 }
      let s := s.setStream p stream { s.stream p stream with fails := satAdd 32 (s.stream p stream).fails 1 }
      s.insecure p stream
    else s)

/-! ### Links (R269, R491) -/

/-- Every TDI on a port leaves RUN as on an Insecure stream. -/
def State.portInsecure (s : State) (p : Nat) : State :=
  let s := (skeys (s.port p).streams).foldl (fun s i => s.insecure p i) s
  (skeys (s.port p).vfs).foldl (fun s n => s.tdiError p n) s

/-- LINK_DOWN. -/
def execLinkDown (p : Nat) (s : State) : Res :=
  .next (if p < 2 then (s.setPort p { s.port p with up := false }).portInsecure p else s)

/-- Key of a port's PERST input in the sideband. -/
def perstPin (p : Nat) : Nat := 4 + p

/-- Does a port exist: port B only in dual mode (R250)? -/
def State.portThere (s : State) (p : Nat) : Bool := p = 0 || (p = 1 && !s.host.single)

/-- LINK_UP: not while PERST is asserted or the device is held in reset, nor with a REFCLK that is not stable (R491). -/
def execLinkUp (p : Nat) (s : State) : Res :=
  .next (if s.portThere p ∧ !s.rst.heldInReset ∧ !(sget {} s.side.ins (perstPin p)).level ∧ !(sget {} s.side.ins 3).level ∧
      (sget {} s.pwr.src (1 + p)).stable then
      s.setPort p { s.port p with up := true }
    else s)

/-! ### Functions (R249, R252, R263, R269) -/

/-- A function's cached translations go, and what it asked of the host (R235). -/
def State.dropAtc (s : State) (f : Nat) : State :=
  { s with xlt := { s.xlt with atc := s.xlt.atc.filter fun e => e.fn ≠ f,
                               atsSent := s.xlt.atsSent.filter fun e => e.fn ≠ f,
                               prgSent := s.xlt.prgSent.filter fun e => e.2.fn ≠ f,
                               priStop := sput false f false s.xlt.priStop } }

/-- What every FLR clears of a function: staged and latched halves (R463), MSI-X state and ATC (PCIe, PRESUMED). -/
def State.flrCommon (s : State) (f : Nat) : State :=
  let s := s.dropAtc f
  { s with glb := { s.glb with staged := sput none f none s.glb.staged, latched := sput none f none s.glb.latched },
           host := { s.host with msixTab := s.host.msixTab.filter fun e => e.1 / 8192 ≠ f,
                                 pba := s.host.pba.filter fun e => e.1 / 2048 ≠ f } }

/-- The queue pairs of VD 0 that belong to a PF. -/
def State.pfPairs (s : State) (f : Nat) : List Nat :=
  (s.que.pairs.filter fun e => e.2.assigned && e.2.vd = 0 && e.2.pf = f).map Prod.fst

/-- A PF's own queues and DMA are reset: its commands complete with ABORTED, their records held (R269, R431). -/
def State.resetPfQueues (s : State) (f : Nat) : State :=
  let qs := s.pfPairs f
  let s := qs.foldl (fun s q =>
    let p := s.pair q
    s.setPair q { assigned := p.assigned, vd := p.vd, lq := p.lq, pf := p.pf }) s
  (s.que.cmds.filter fun e => qs.contains e.2.q).foldl (fun s e => s.abortNow e.1 0) s

/-- The FLR of a function. A PF's BARs and Memory Space Enable clear; a VF's lie in its PF's SR-IOV capability and stay
(PCIe, PRESUMED). -/
def State.flr (s : State) (f : Nat) : State :=
  let p := fnPort f
  if f < 2 then
    let s := (s.flrCommon f).resetPfQueues f
    s.setPort p { s.port p with bar0 := 0, bar2 := 0, mse := false, d3 := false, ats := false, pri := false, msixEn := false }
  else
    let n := fnVf f
    let s := (s.setTdi p n .configUnlocked).flrCommon f
    s.setVf p n { s.vf p n with d3 := false, ats := false, pri := false, msixEn := false }

/-- Does a function exist now? -/
def State.fnThere (s : State) (f : Nat) : Bool :=
  if f < 2 then s.portThere f else f < 258 && s.vfEnabled (fnPort f) (fnVf f)

/-- FUNCTION_LEVEL_RESET. -/
def execFunctionLevelReset (f : Nat) (s : State) : Res := .next (if s.fnThere f then s.flr f else s)

/-- Is a function in D3hot? -/
def State.inD3 (s : State) (f : Nat) : Bool := if f < 2 then (s.port f).d3 else (s.vf (fnPort f) (fnVf f)).d3

/-- RETURN_TO_D0: the return from D3hot performs the function's FLR. -/
def execReturnToD0 (f : Nat) (s : State) : Res := .next (if s.fnThere f ∧ s.inD3 f then s.flr f else s)

/-- TotalVFs of a port. -/
def State.totalVfs (s : State) (p : Nat) : Nat := if s.host.single then (if p = 0 then 128 else 0) else 64

/-- VF Enable and NumVFs take values; VFs that no longer exist lose their configuration, attached ones only their
settings, and they reappear in CONFIG_UNLOCKED (R431). -/
def State.setVfs (s : State) (p : Nat) (vfe : Bool) (n : Nat) : State :=
  let x := s.port p
  let gone (k : Nat) : Bool := !vfe || n < k
  let vfs := (skeys x.vfs).foldl (fun m k =>
    if gone k then sput ({} : Vf) k { vd := (sget ({} : Vf) x.vfs k).vd } m else m) x.vfs
  s.setPort p { x with vfEnable := vfe, numVfs := n, vfs := vfs }

/-- Is any VF of a port attached? -/
def State.anyAttached (s : State) (p : Nat) : Bool := (s.port p).vfs.any fun e => e.2.vd ≠ 0

/-- NUMVFS_WRITE. -/
def execNumvfsWrite (p : Nat) (vfe : Bool) (n : Nat) (s : State) : Res :=
  let x := s.port p
  .next (if !s.portThere p then s
    else if s.anyAttached p then
      if vfe ≠ x.vfEnable ∨ n ≠ x.numVfs then s.setPort p { x with refused := satAdd 16 x.refused 1 } else s
    else s.setVfs p vfe (if n ≤ s.totalVfs p then n else x.numVfs))

/-- Send the pending vectors of a function that may be sent now (PCIe). -/
def State.sendPending (s : State) (f : Nat) : State :=
  ((skeys s.host.pba).filter fun k => k / 2048 = f).foldl (fun s k =>
    ({ s with host := { s.host with pba := sput false k false s.host.pba } }).raise f (k % 2048)) s

/-- A configuration write of a PF. -/
def State.cfgPf (s : State) (f : Nat) (w : CfgWrite) : State :=
  let x := s.port f
  match w with
  | .bar0 v => s.setPort f { x with bar0 := v / 2 ^ 26 % 2 ^ 38 * 2 ^ 26 }
  | .bar2 v => s.setPort f { x with bar2 := v / 2 ^ 26 % 2 ^ 38 * 2 ^ 26 }
  | .mse b => s.setPort f { x with mse := b }
  | .d3 b => if b then s.setPort f { x with d3 := true } else if x.d3 then s.flr f else s
  | .ats b =>
    let s := s.setPort f { x with ats := b }
    if b then s else s.dropAtc f
  | .pri b =>
    let s := s.setPort f { x with pri := b }
    if b then s else { s with xlt := { s.xlt with priStop := sput false f false s.xlt.priStop } }
  | .msix b => (s.setPort f { x with msixEn := b }).sendPending f

/-- A VF whose recorded address or Memory Space Enable changes while it is locked enters ERROR (R263). -/
def State.checkLock (s : State) (p n : Nat) : State :=
  let x := s.vf p n
  if x.bar0 = x.recBar0 ∧ x.bar2 = x.recBar2 ∧ x.mse then s else s.tdiError p n

/-- A configuration write of a VF. -/
def State.cfgVf (s : State) (f : Nat) (w : CfgWrite) : State :=
  let p := fnPort f
  let n := fnVf f
  let x := s.vf p n
  match w with
  | .bar0 v => (s.setVf p n { x with bar0 := v / 2 ^ 21 % 2 ^ 43 * 2 ^ 21 }).checkLock p n
  | .bar2 v => (s.setVf p n { x with bar2 := v / 2 ^ 20 % 2 ^ 44 * 2 ^ 20 }).checkLock p n
  | .mse b => (s.setVf p n { x with mse := b }).checkLock p n
  | .d3 b => if b then s.setVf p n { x with d3 := true } else if x.d3 then s.flr f else s
  | .ats b =>
    let s := s.setVf p n { x with ats := b }
    if b then s else s.dropAtc f
  | .pri b =>
    let s := s.setVf p n { x with pri := b }
    if b then s else { s with xlt := { s.xlt with priStop := sput false f false s.xlt.priStop } }
  | .msix b => (s.setVf p n { x with msixEn := b }).sendPending f

/-- CONFIG_SPACE_WRITE. -/
def execConfigSpaceWrite (f : Nat) (w : CfgWrite) (s : State) : Res :=
  .next (if !s.fnThere f then s else if f < 2 then s.cfgPf f w else s.cfgVf f w)

/-- The conventional reset of a port (R431): its link goes down, its PF's queues and DMA are reset, its VFs leave RUN and
VF Enable clears; attachments survive. -/
def State.portReset (s : State) (p : Nat) : State :=
  let s := (s.setPort p { s.port p with up := false }).portInsecure p
  let s := s.flr p
  let s := s.setVfs p false 0
  s.setPort p { s.port p with streams := [] }

end Sys2Proof.Machine
end

