-- ==== Sys2Proof/Machine/Power.lean ====
section
/-!
DEFINITION. The power manager: telemetry, the cap loop, the safety throttle, droop, headroom, frequency steps, roll, heat and
the telemetry snapshot (spec/15 R413–R426).
-/
namespace Sys2Proof.Machine

/-! ### Fused tables (R413, R425) -/

/-- V(n) of a half's core rail in mV. -/
def vfuse (h n : Nat) : Nat := (Config.fuse (256 + 128 * h + n)).toNat % 65536
/-- PCT_ROLLCAL.ILVL in mA. -/
def ilvl : Nat := (Config.fuse 2).toNat % 65536
/-- Rated code of the part (R24). -/
def ratedCode : Nat := 76

/-! ### Events, the throttle and LAG -/

/-- Set PCT_EVT bits: one that becomes 1 raises PF vector 6 (R425). -/
def State.pctEvt (s : State) (i : Nat) : State :=
  if s.pwr.evt.getLsbD i then s
  else ({ s with pwr := { s.pwr with evt := s.pwr.evt ||| (1#9 <<< i) } } : State).raisePfs 6

/-- Is the safety throttle in force (R419)? -/
def State.safe (s : State) : Bool :=
  (s.half 0).avsLost || (s.half 1).avsLost || s.pwr.critSafe || s.pwr.hbmSafe || s.pwr.throtSafe

/-- The throttle, when a cause starts it, sets g to 48 at once. -/
def State.applySafe (s : State) : State :=
  if s.safe then { s with pwr := { s.pwr with gate := 48, safePeriod := true } } else s

/-- Are the halves at different codes? -/
def State.splitNow (s : State) : Bool := (s.half 0).code ≠ (s.half 1).code && !(s.half 0).onRc && !(s.half 1).onRc

/-- TOLL_STAT.LAG (R368, R411, R414, R418). -/
def State.lag (s : State) : Bool :=
  s.pwr.gate > 0 || (s.half 0).onRc || (s.half 1).onRc || s.pwr.stepLag ||
    (s.lockstep && (s.half 0).code < s.fw.lastStep && s.fw.next.isNone)

/-! ### A stop of the device (R406, R424, R438, R446, R462) -/

/-- STAGE becomes HALTED: READY falls, no command is taken or goes on, and no core issues. -/
def State.haltDevice (s : State) : State :=
  let cores := s.cores.map fun (e : Nat × Core) => if e.2.running then (e.1, { e.2 with stopped := true, feStop := true }) else e
  { s with glb := { s.glb with stage := .halted, ready := false }, que := { s.que with halted := true }, cores := cores }

/-- A junction or stack trip: THERMTRIP_N, and every clock but the always-on clock stops (R424). -/
def State.trip (s : State) : State :=
  if s.pwr.tripped then s
  else (({ s with pwr := { s.pwr with tripped := true } } : State).haltDevice).nmeOne nmeThermTrip

/-- An event input's level after its filter (R478). -/
def State.setIn (s : State) (i : Nat) (level : Bool) : State :=
  let x := sget {} s.side.ins i
  if x.level = level then s
  else { s with side := { s.side with ins := sput {} i { x with level := level, since := s.toll } s.side.ins } }

/-! ### Telemetry (R416, R417) -/

/-- AVSBUS_CURRENT_POLL: a half's core rail current in A, or no valid answer. Three bad polls in a row start the safety
throttle, three valid ones end it. -/
def execAvsbusCurrentPoll (half : Nat) (cur : Option Nat) (s : State) : Res :=
  let x := s.half half
  .next (if half ≥ 2 then s
    else match cur with
      | some a =>
        let good := min 3 (x.avsGood + 1)
        s.setHalf half { x with amps := (a :: x.amps).take 10, ipk := max x.ipk a, avsBad := 0, avsGood := good,
                                avsLost := x.avsLost && good < 3 }
      | none =>
        let bad := min 3 (x.avsBad + 1)
        let s := s.setHalf half { x with avsBad := bad, avsGood := 0, avsLost := x.avsLost || bad ≥ 3 }
        if bad ≥ 3 then (s.pctEvt 3).applySafe else s)

/-- Fault bits of STATUS_WORD (VOUT_OV, IOUT_OC, VIN_UV); every other bit but BUSY, OFF and NONE OF THE ABOVE is a warning. -/
def statusFault (w : Nat) : Bool := bitsOf w 5 3 ≠ 0
def statusWarn (w : Nat) : Bool := bitOf w 1 || bitOf w 2 || bitsOf w 15 8 ≠ 0

/-- Polls of all twelve regulators: for each rail five numbers: answered, VOUT in mV, IOUT in 0.1 A, °C, STATUS_WORD. -/
def State.pmbus (s : State) (r : List Nat) : State :=
  (List.range 12).foldl (fun s i =>
    let g (j : Nat) : Nat := r.getD (5 * i + j) 0
    let x := sget {} s.pwr.rails i
    if g 0 = 0 then
      let n := min 3 (x.fails + 1)
      let s := { s with pwr := { s.pwr with rails := sput {} i { x with fails := n } s.pwr.rails } }
      if n ≥ 3 then s.pctEvt 3 else s
    else
      let w := g 4 % 65536
      let s := { s with pwr := { s.pwr with rails := sput {} i { x with fails := 0, vout := g 1 % 65536, iout := g 2 % 65536,
                                                                        temp := g 3 % 256, status := w } s.pwr.rails } }
      if statusFault w ∨ statusWarn w then s.pctEvt 2 else s) s

/-- PMBUS_POLL. -/
def execPmbusPoll (r : List Nat) (s : State) : Res := .next (s.pmbus r)

/-- PMB_ALERT: a poll at once, unless the input is masked (R472, R478). -/
def execPmbAlert (r : List Nat) (s : State) : Res :=
  let i := sget {} s.side.ins 1
  .next (if i.storm ∨ i.stuck then s else s.pmbus r)

/-! ### The cap loop (R418) -/

/-- CAP_LOOP: `p` is the mean package power of the last 100 µs in W. -/
def execCapLoop (p : Nat) (s : State) : Res :=
  let limit := s.regField (basePct + 0x14) 27 16
  let w := s.pwr
  let g := if s.safe then 48
    else if p > limit then min 48 (w.gate + (64 * (p - limit) + p - 1) / max 1 p)
    else if 100 * p < 97 * limit ∧ w.gate > 0 then w.gate - 1
    else w.gate
  let n := if g = 48 ∧ p > limit then w.over48 + 1 else 0
  let s := [0, 1].foldl (fun s h =>
    let x := s.half h
    let mw := x.amps.sum * vfuse h x.code / max 1 x.amps.length
    s.setHalf h { x with mw := mw, sumMw := x.sumMw + mw }) s
  let core := ((s.half 0).mw + (s.half 1).mw) / 1000
  let s := { s with pwr := { s.pwr with gate := g, capHit := decide (p > limit), over48 := if n ≥ 10 then 0 else n, loopRan := true,
                                        pkg := p % 65536, core := core % 65536, sumPkg := w.sumPkg + p, sumGate := w.sumGate + g,
                                        loops := w.loops + 1, capHits := satAdd 16 w.capHits (b2n (decide (p > limit))),
                                        safePeriod := w.safePeriod || s.safe } }
  .next (if n ≥ 10 then ({ s with pwr := { s.pwr with capViol := satAdd 8 s.pwr.capViol 1 } } : State).pctEvt 5 else s)

/-! ### Droop (R420) -/

/-- DROOP_DETECT: a core rail falls below its level; a stretch begins where none is in force. -/
def execDroopDetect (half : Nat) (s : State) : Res :=
  .next (if half ≥ 2 then s
    else
      let s := s.setHalf half { s.half half with droop := true }
      if s.pwr.stretch then s
      else
        let fresh : Bool := s.toll ≥ s.pwr.droopFrom + 1000000
        let n := if fresh then 1 else s.pwr.droopWin + 1
        let s := { s with pwr := { s.pwr with stretch := true, droops := satAdd 16 s.pwr.droops 1,
                                              droopPeriod := satAdd 16 s.pwr.droopPeriod 1, droopWin := n,
                                              droopFrom := if fresh then s.toll else s.pwr.droopFrom } }
        if n > 1000 then s.pctEvt 4 else s)

/-- DROOP_RECOVERY: the rail has recovered; the stretch ends once every rail has. -/
def execDroopRecovery (half : Nat) (s : State) : Res :=
  .next (if half ≥ 2 then s
    else
      let s := s.setHalf half { s.half half with droop := false }
      { s with pwr := { s.pwr with stretch := (s.half 0).droop || (s.half 1).droop } })

/-! ### Heat (R423, R424) -/

/-- A half's junction reading, in quarters of a degree. -/
def State.sampleHalf (s : State) (h t : Nat) : State :=
  let x := s.half h
  s.setHalf h { x with tj := t / 4 % 256, tjMax := max x.tjMax (t / 4 % 256) }

/-- The TCRIT throttle: it starts at TCRIT, and ends after 1 ms below TCRIT − 5 °C. -/
def State.critical (s : State) (t crit : Nat) : State :=
  if t ≥ 4 * crit then (({ s with pwr := { s.pwr with critSafe := true, critCool := none } } : State).pctEvt 7).applySafe
  else
    let cool := if t < 4 * (crit - 5) then some (s.pwr.critCool.getD s.toll) else none
    let past := cool.any fun a => a + 1000000 ≤ s.toll
    { s with pwr := { s.pwr with critCool := cool, critSafe := s.pwr.critSafe && !past } }

/-- SENSOR_SAMPLE: the hottest junction reading of each half, in quarters of a degree. -/
def execSensorSample (tjn tjs : Nat) (s : State) : Res :=
  let s := (s.sampleHalf 0 tjn).sampleHalf 1 tjs
  let t := max tjn tjs
  let s := if t ≥ 4 * s.effField (basePct + 0x24) 15 8 then s.pctEvt 8 else s
  let s := s.critical t (s.effField (basePct + 0x24) 23 16)
  .next (if t ≥ 432 then s.trip else s)

/-- Hottest stack reading now. -/
def State.hotStack (s : State) : Nat := (List.range 8).foldl (fun m n => max m (s.stack n).temp) 0

/-- The stack throttle: from 100 °C until every stack is below 95 °C. -/
def State.stackThrottle (s : State) (temp : Nat) : State :=
  let on := decide (100 ≤ temp) || (s.pwr.hbmSafe && decide (95 ≤ s.hotStack))
  let w := { s.pwr with hbmSafe := on, hbmMax := max s.pwr.hbmMax (temp % 256) }
  ({ s with pwr := w } : State).applySafe

/-- HBM_TEMPERATURE_POLL: refresh, HOT, the stack throttle and the stack trip (R213, R423). -/
def execHbmTemperaturePoll (stack temp : Nat) (s : State) : Res :=
  let t := (s.stackTemp stack temp).stackThrottle temp
  let t := if 95 ≤ temp then t.pctEvt 6 else t
  .next (if 8 ≤ stack then s else if 105 ≤ temp then t.trip else t)

/-- THROT_N is taken as asserted: the throttle starts, and the headroom is 32 while it lasts. -/
def State.throtOn (s : State) : State :=
  if s.pwr.throt then s
  else
    let at32 : Bool := (s.half 0).code = 32 && (s.half 1).code = 32
    (({ s with pwr := { s.pwr with throt := true, throtSafe := !at32, throtAt := s.toll } } : State).pctEvt 1).applySafe
def State.throtOff (s : State) : State := { s with pwr := { s.pwr with throt := false, throtSafe := false } }

/-- THROT_N_ASSERT. -/
def execThrotNAssert (s : State) : Res := .next (s.throtOn.setIn 0 true)
/-- THROT_N_DEASSERT: while the input is masked for a storm it stays asserted. -/
def execThrotNDeassert (s : State) : Res :=
  let s := s.setIn 0 false
  .next (if (sget {} s.side.ins 0).storm then s else s.throtOff)
/-- THROT_N_HELD_MARK: a second has passed with the input asserted. -/
def execThrotNHeldMark (s : State) : Res :=
  .next (if s.pwr.throt ∧ s.toll ≥ s.pwr.throtAt + 1000000000 then
      ({ s with pwr := { s.pwr with throtAt := s.pwr.throtAt + 1000000000 } } : State).pctEvt 1
    else s)

/-! ### Headroom (R421) -/

/-- The largest code from 32 to the top for which a limit holds; 0 where none. -/
def topWhere (p : Nat → Bool) : Nat := ((List.range (topCode + 1)).filter fun n => 32 ≤ n && p n).foldl max 0

/-- The regulator term. -/
def State.regTerm (s : State) (nc : Nat) : Nat :=
  let rs := (List.range 12).map fun i => sget {} s.pwr.rails i
  if rs.any fun r => statusFault r.status then 32
  else if rs.any fun r => statusWarn r.status || r.fails ≥ 3 then nc - 1
  else topCode

/-- HC, HP, HT, HR and the headroom of a half over the period just ended. -/
def State.headroom (s : State) (h : Nat) : Nat × Nat × Nat × Nat × Nat :=
  let x := s.half h
  let w := s.pwr
  let nc := x.code
  let v := vfuse h
  let L := max 1 w.loops
  let G := if w.loops = 0 then 0 else w.sumGate
  -- k(n) = num n / den
  let num (n : Nat) : Nat := n * v n * 64 * L
  let den := nc * v nc * (64 * L - G)
  let icc := if h = 0 then s.effField (basePct + 0x18) 15 0 else s.effField (basePct + 0x18) 31 16
  let limit := s.regField (basePct + 0x14) 27 16
  let cores := ((s.half 0).sumMw + (s.half 1).sumMw) / L
  let rest := (1000 * (w.sumPkg / L) - cores) / 2
  let pc := x.sumMw / L
  let hc := topWhere fun n => 100 * x.ipk * num n ≤ 95 * icc * den
  let hp := topWhere fun n => rest * den * v nc + pc * num n * v n ≤ 1000 * limit * den * v nc
  let thr := s.effField (basePct + 0x24) 15 8
  let hbm := ((List.range 4).map fun i => (s.stack (4 * h + i)).temp).foldl max 0
  let ht := if x.tjMax ≥ thr ∨ hbm ≥ 95 then nc - 2 else if x.tjMax + 3 ≥ thr then nc else topCode
  let hr := s.regTerm nc
  let fmax := s.effField (basePct + 0x10) 23 16
  let forced := s.safe || w.throt || ((List.range 12).any fun i => statusFault (sget {} w.rails i).status)
  let head := if forced then 32 else max 32 (min hc (min hp (min ht (min hr fmax))))
  (hc, hp, ht, hr, head)

/-- HEADROOM_COMPUTE: the halves' headrooms, and the device's, for reports and decisions. -/
def State.computeHead (s : State) : State :=
  let n := s.headroom 0
  let t := s.headroom 1
  let low := if n.2.2.2.2 ≤ t.2.2.2.2 then n else t
  let cap (x : Nat) : Nat := match s.pwr.headCap with
    | some c => min x c
    | none => x
  let hn := cap n.2.2.2.2
  let hs := cap t.2.2.2.2
  let dev := if (s.half 0).onRc ∧ (s.half 1).onRc then 32 else if (s.half 0).onRc then hs else if (s.half 1).onRc then hn else min hn hs
  { s with pwr := { s.pwr with hc := low.1, hp := low.2.1, ht := low.2.2.1, hr := low.2.2.2.1, headN := hn, headS := hs,
                               headCap := none }
           fw := { s.fw with head := dev } }

/-! ### Frequency decisions and steps (R317, R368, R414, R415) -/

/-- Rise by at most 4 codes, fall by any. -/
def riseBy4 (old new : Nat) : Nat := min new (old + 4)

/-- VDs that span the seam. -/
def State.spanVds (s : State) : List Nat := (skeys s.vds).filter fun v => v ≠ 0 && s.spans v

/-- SEAM_STEP_PROPOSAL: may the halves be put at different codes? Under MIGRATE the spanning VDs are first moved off. -/
def State.proposeSplit (s : State) : Bool × State :=
  let vs := s.spanVds
  if vs.isEmpty then (true, s)
  else if s.regField (baseCmp + 0x04) 1 0 = 1 then
    let s := vs.foldl (fun s v =>
      if (s.vd v).st = .bound ∧ (s.vd v).changes.isEmpty then (s.moveVd v {} true true false).getD s else s) s
    (vs.all fun v => (s.vd v).changes.any fun c => c.kind = .move && c.place.cutKind = 0, s)
  else (false, s)

/-- Schedule a step at a boundary, in place of one already there. -/
def State.scheduleStep (s : State) (at_ n t : Nat) : State :=
  { s with pwr := { s.pwr with steps := (s.pwr.steps.filter fun x => x.at_ ≠ at_) ++ [({ at_ := at_, north := n, south := t } : Step)] } }

/-- LOCKSTEP_DECISION and the decision of a device on its own, at the boundary of period k for that of k + 2. -/
def State.decideStep (s : State) : State :=
  let k := periodOf s.toll
  let at_ := (k + 2) * tollPeriod
  if s.fw.holdover then s
  else if s.lockstep then
    if !s.fw.master then
      s.sendNotice s.masterDev 0 false false (.lsreport s.fw.head s.lag (k - 1))
    else
      let heads := s.fw.head :: (s.fw.peers.filterMap fun e => if e.2.session ∧ !e.2.lost then e.2.report.map Prod.snd else none)
      let old := if s.fw.lastStep = 0 then (s.half 0).code else s.fw.lastStep
      let d := riseBy4 old (heads.foldl min 255)
      let s := { s with fw := { s.fw with lastStep := d, next := some (d, k + 2) } }
      s.scheduleStep at_ d d
  else
    let last := s.pwr.steps.getLast?
    let on := (last.map (·.north)).getD (s.half 0).code
    let os := (last.map (·.south)).getD (s.half 1).code
    let both := riseBy4 (min on os) s.fw.head
    if s.effField (basePct + 0x10) 0 0 = 1 then
      let n0 := riseBy4 on s.pwr.headN
      let t0 := riseBy4 os s.pwr.headS
      let n := min n0 (2 * t0)
      let t := min t0 (2 * n0)
      if n = t then s.scheduleStep at_ n t
      else match s.proposeSplit with
        | (true, s) => s.scheduleStep at_ n t
        | (false, s) => (s.scheduleStep at_ (min n t) (min n t)).pctEvt 0
    else s.scheduleStep at_ both both

/-- VOLTAGE_SETTLE_DEADLINE: 100 µs before a rise's boundary. -/
def execVoltageSettleDeadline (settled : Bool) (s : State) : Res :=
  .next (match s.pwr.steps with
    | [] => s
    | x :: rest =>
      if s.toll + 100000 < x.at_ then s
      else if settled then { s with pwr := { s.pwr with steps := { x with settled := true } :: rest } }
      else if (s.half 0).code < x.north ∨ (s.half 1).code < x.south then
        { s with pwr := { s.pwr with steps := rest, stepLag := true, headCap := some (min (s.half 0).code (s.half 1).code) } }
      else s)

/-- Put both halves at their codes; codes that now differ unlock the seam (R136). -/
def State.setCodes (s : State) (n t : Nat) : State :=
  let s := (s.setHalf 0 { s.half 0 with code := n }).setHalf 1 { s.half 1 with code := t }
  let s := if n ≠ t ∧ s.seam.locked then s.unlockSeam else s
  if s.pwr.throtSafe ∧ n = 32 ∧ t = 32 then { s with pwr := { s.pwr with throtSafe := false } } else s

/-- Apply the step due: a rise whose voltage has not settled is not taken; a split with a VD still spanning takes the lower
code, or waits where that VD's move has not yet committed. -/
def State.frequencyStep (s : State) : State :=
  match s.pwr.steps with
  | [] => s
  | x :: rest =>
    if s.toll < x.at_ then s
    else
      let s := { s with pwr := { s.pwr with steps := rest }
                        fw := { s.fw with next := s.fw.next.filter fun n => x.at_ < n.2 * tollPeriod } }
      let rise : Bool := (s.half 0).code < x.north || (s.half 1).code < x.south
      if rise && !x.settled then
        { s with pwr := { s.pwr with stepLag := true, headCap := some (min (s.half 0).code (s.half 1).code) } }
      else
        let s := { s with pwr := { s.pwr with stepLag := false } }
        if x.north ≠ x.south ∧ !s.spanVds.isEmpty then
          if s.spanVds.all fun v => !(s.vd v).changes.isEmpty then
            { s with pwr := { s.pwr with steps := { x with at_ := x.at_ + tollPeriod } :: rest } }
          else (s.setCodes (min x.north x.south) (min x.north x.south)).pctEvt 0
        else s.setCodes x.north x.south

/-- FREQUENCY_STEP. -/
def execFrequencyStep (s : State) : Res := .next s.frequencyStep

/-- SEAM_RELOCK: the halves run at one frequency and the clock aligner reports them in phase: the seam locks, and opens where
a VD spans it. -/
def execSeamRelock (s : State) : Res :=
  .next (if s.sameFreq ∧ !(s.half 0).onRc ∧ !(s.half 1).onRc then ({ s with seam := { s.seam with locked := true } } : State).openEdges else s)

/-! ### Roll (R422) -/

/-- D of a half for the profile and the code in force. -/
def State.rollDecay (s : State) (h : Nat) : Nat :=
  let nc := (s.half h).code
  let ramp := s.effField (basePct + 0x2C) 28 16
  let num := 128 * ilvl * (nc * vfuse h nc) * (nc * 25)
  let den := ratedCode * vfuse h ratedCode * (1000 * ramp)
  (num + den - 1) / max 1 den

/-- The roll profile written takes effect, and D is computed. -/
def State.rollProfile (s : State) : State :=
  let a := basePct + 0x2C
  let s := { s with glb := { s.glb with eff := sput none a (some (BitVec.ofNat 64 (s.reg a))) s.glb.eff } }
  [0, 1].foldl (fun s h => s.setHalf h { s.half h with rollD := s.rollDecay h }) s

/-- ROLL_PROFILE_CHANGE, at a toll boundary. -/
def execRollProfileChange (s : State) : Res := .next (if s.toll % tollPeriod = 0 then s.rollProfile else s)

/-! ### The snapshot (R426) -/

/-- The snapshot's words at this boundary. -/
def State.snapWords (s : State) : List Word :=
  let w := s.pwr
  let L := max 1 w.loops
  let b (n : Nat) : Word := BitVec.ofNat 32 n
  let cores := ((s.half 0).sumMw + (s.half 1).sumMw) / L / 1000
  [b s.toll, b (s.toll / 2 ^ 32),
   b ((s.half 0).code * 2 ^ 24 + (s.half 1).code * 2 ^ 16 + w.sumGate / L * 2 ^ 10 + b2n w.safePeriod * 2 ^ 9 + b2n s.lag * 2 ^ 8 + s.fw.head),
   b (w.sumPkg / L * 2 ^ 16 + cores % 65536),
   b ((s.half 1).ipk % 65536 * 2 ^ 16 + (s.half 0).ipk % 65536),
   b (w.hbmMax * 2 ^ 24 + (s.half 1).tjMax * 2 ^ 16 + (s.half 0).tjMax * 2 ^ 8),
   b (w.capHits * 2 ^ 16 + w.droopPeriod)]

/-- Take the snapshot of this boundary once, and start the next period's readings. -/
def State.snapshot (s : State) : State :=
  let same : Bool := s.pwr.snap.take 2 = s.snapWords.take 2
  if s.toll % tollPeriod ≠ 0 ∨ !s.pwr.loopRan ∨ same then s
  else
    let words := s.snapWords
    let s := [0, 1].foldl (fun s h => let x := s.half h; s.setHalf h { x with ipk := 0, tjMax := x.tj, sumMw := 0 }) s
    { s with pwr := { s.pwr with snap := words, sumPkg := 0, sumGate := 0, loops := 0, capHits := 0, droopPeriod := 0,
                                 safePeriod := s.safe, hbmMax := s.hotStack } }

/-- TELEMETRY_SNAPSHOT. -/
def execTelemetrySnapshot (s : State) : Res := .next s.snapshot

end Sys2Proof.Machine
end

