-- ==== Sys2Proof/Machine/Reset.lean ====
section
/-!
DEFINITION. Resets and recoveries (spec/16 R428–R438, R444–R446), the supplies' sequence (spec/15 R403–R406), clock sources
and the clock monitor (spec/15 R407–R411), and entry to L6 (R431).
-/
namespace Sys2Proof.Machine

/-! ### Compute resets L2 to L4 (R429) -/

/-- The running exec of a context ends by a reset; one that carries an exception record keeps its status (R86). -/
def State.resetExec (s : State) (ctx detail : Nat) : State :=
  let x := s.ctx ctx
  match x.stop, x.exc with
  | .exception, some (_, e, _) =>
    let s := s.setCtx ctx { x with mayWrite := s.ctxWrote ctx }
    s.endExec ctx e.cause.status 0 (some (s.excRecord ctx))
  | _, _ => if x.cur = 0 then s.leaveCores ctx else s.abortExec ctx detail

/-- The domain-generation key of a pod (R170). -/
def podKey (p : Nat) : Nat := 64 + p

/-- A domain's generation increments modulo 16 (R170). -/
def State.nextGen (s : State) (k : Nat) : State :=
  { s with rst := { s.rst with gen := sput 0 k ((sget 0 s.rst.gen k + 1) % 16) s.rst.gen } }

/-- The state of R57 and R127 of the pods' cores is zeroed; the number of the next transfer is kept, so that a late
response names no new transfer. -/
def State.zeroPods (s : State) (pods : List Nat) : State :=
  let cs := (skeys s.cores).filter fun c => pods.contains (corePod c)
  let s := cs.foldl (fun s c => s.setCore c { nextXid := (s.core c).nextXid }) s
  pods.foldl (fun s p => s.nextGen (podKey p)) s

/-- Reset the pods given, with the running context of each VD given. -/
def State.computeReset (s : State) (vds pods : List Nat) (detail : Nat) : State :=
  let s := vds.foldl (fun s v => match (s.vd v).ctx with
    | some x => s.resetExec x detail
    | none => s.setVd v { s.vd v with holds := [], switching := false }) s
  s.zeroPods pods

/-- The VDs with a pod among some. -/
def State.vdsOn (s : State) (pods : List Nat) : List Nat :=
  ((pods.map fun p => (s.pod p).vd).filter (· ≠ 0)).dedup

/-- DETAIL of a command that a reset of a level ended (R429). -/
def resetDetail (level : Nat) (hang : Bool) : Nat := 0x40000000 + level + 0x100 * b2n hang

/-- The running recovery's work is done. -/
def State.performedNow (s : State) : State :=
  { s with rst := { s.rst with running := s.rst.running.map fun r => { r with performed := true } } }

/-- Every outstanding command of a VD completes: one whose effect has ended as it ended, any other with ABORTED. -/
def State.abortVd (s : State) (v : Nat) : State :=
  (s.que.cmds.filter fun e => e.2.vd = v).foldl (fun s e =>
    if (s.cmd e.1).phase = .ready then after (execCommandComplete e.1 s) s else s.abortNow e.1 0) s

/-- The teardown of a VD enters a phase. -/
def State.setTear (s : State) (v : Nat) (t : Option Teardown) : State :=
  let d := s.vd v
  s.setVd v { d with sec := { d.sec with tear := t } }

/-- L2_VD_COMPUTE_RESET: the running recovery, or the force phase of a teardown, after which every outstanding command
of the VD completes (R399). -/
def execL2VdComputeReset (vd : Nat) (s : State) : Res :=
  let mine : Bool := s.rst.running.any fun r => r.level = 2 && r.dom = .vd vd && !r.performed
  let hang : Bool := s.rst.running.any fun r => r.hang
  let forced := (s.vd vd).sec.tear.filter fun t => t.phase = .force
  .next (match forced with
    | some t =>
      let s := ((s.computeReset [vd] (s.podsOf vd) (resetDetail 2 false)).abortVd vd).setTear vd (some { t with phase := .retire })
      if mine then s.performedNow else s
    | none => if mine then (s.computeReset [vd] (s.podsOf vd) (resetDetail 2 hang)).performedNow else s)

/-- The pods of a half. -/
def halfPods (h : Nat) : List Nat := (List.range 64).map (64 * h + ·)

/-- L3_HALF_COMPUTE_RESET. -/
def execL3HalfComputeReset (half : Nat) (s : State) : Res :=
  .next (match s.rst.running with
    | some r =>
      if r.level = 3 ∧ r.dom = .half half ∧ !r.performed then
        (s.computeReset (s.vdsOn (halfPods half)) (halfPods half) (resetDetail 3 r.hang)).performedNow
      else s
    | none => s)

/-- L4_COMPUTE_PART_RESET. -/
def execL4ComputePartReset (s : State) : Res :=
  .next (match s.rst.running with
    | some r =>
      if r.level = 4 ∧ r.dom = .compute ∧ !r.performed then
        (s.computeReset (s.vdsOn (List.range 128)) (List.range 128) (resetDetail 4 r.hang)).performedNow
      else s
    | none => s)

/-! ### Unit resets (R433, R434) -/

/-- A store domain's reset: its lines are kept, its scrub passes start again, and copies of its bins restart (R321). -/
def State.storeReset (s : State) (d : Nat) : State :=
  let s := ((List.range 32).map (32 * d + ·)).foldl (fun s p => s.setRegion p { s.region p with scrubPos := 0 }) s
  let moves := s.sbk.moves.map fun (m : BinMove) =>
    if !m.flipped ∧ (binDomain m.src = d ∨ binDomain m.dst = d) then { m with next := 0 } else m
  { s with sbk := { s.sbk with moves := moves } }

/-- A counter block the cache held dirty is lost: what HBM holds fails its check (R434). -/
def Chan.loseDirty (c : Chan) (g : Nat) (kp : KeyPair) : Chan :=
  let c' := (skeys c.dirtyMeta).foldl (fun (x : Chan) p =>
    let b := x.ctr p
    x.setCtr p { b with check := some (~~~ ctrCheck kp.tagKey g p (x.ver 0 p) b) }) c
  { c' with dirtyMeta := [] }

/-- An HBM controller's reset: DRAM contents are kept; dirty metadata is lost; copies restart. -/
def State.hbmReset (s : State) (n : Nat) : State :=
  let s := ((List.range 32).map (32 * n + ·)).foldl (fun s g =>
    if (s.chan g).dirtyMeta.isEmpty then s else s.setChan g ((s.chan g).loseDirty g ((s.pairs g 0).2.getD {}))) s
  let moves := s.hbm.moves.map fun (m : ChMove) => if !m.flipped ∧ (m.src / 32 = n ∨ m.dst / 32 = n) then { m with next := 0 } else m
  { s with hbm := { s.hbm with moves := moves } }

/-- The unit domain of a UNIT code and index. -/
def unitDom (unit idx : Nat) : Option RecDom :=
  if unit = uStore ∧ idx < 4 then some (.store idx)
  else if unit = uHbmctl ∧ idx < 8 then some (.hbmctl idx)
  else if unit = uFinwin ∧ idx < 32 then some (.fwport idx)
  else none

/-- What a unit's reset does to its domain. -/
def State.resetUnit (s : State) : RecDom → State
  | .store d => s.storeReset d
  | .hbmctl n => s.hbmReset n
  | .fwport p => if (s.fport p).st = .disabled ∨ (s.fport p).st = .quarantined then s else s.portTo p .training 0
  | _ => s

/-- UNIT_RESET: the running recovery's unit is reset, its generation increments and it comes up again; a host port takes
its conventional reset (R433). -/
def execUnitReset (unit idx : Nat) (s : State) : Res :=
  .next (match unitDom unit idx with
    | none => if unit = uHost ∧ idx < 2 then s.portReset idx else s
    | some d => match s.rst.running, downKey d with
      | some r, some k =>
        if r.level = 6 ∧ r.dom = d ∧ !r.performed then
          let s := ((s.resetUnit d).nextGen k).performedNow
          { s with rst := { s.rst with down := sput false k false s.rst.down } }
        else s
      | _, _ => s)

/-! ### The queue of recoveries (R444, R445) -/

/-- The running recovery is an L1: its context is told to end. -/
def State.beginL1 (s : State) : State :=
  match s.rst.running with
  | some r => (match r.dom with
    | .ctx _ c => if r.level = 1 ∧ !r.performed then (s.teardownCtx c (resetDetail 1 r.hang)).performedNow else s
    | _ => s)
  | none => s

/-- Has the running recovery ended? -/
def State.recoveryDone (s : State) (r : Recovery) : Bool :=
  r.performed && (match r.dom with
    | .ctx _ c => match (s.ctx c).stop with
      | .teardown _ => false
      | _ => true
    | _ => true)

/-- RECOVERY_COMPLETE: the next waiting recovery starts. -/
def execRecoveryComplete (s : State) : Res :=
  .next (match s.rst.running with
    | none => s
    | some r =>
      if !s.recoveryDone r then s
      else match s.rst.waiting with
        | [] => { s with rst := { s.rst with running := none } }
        | w :: rest => ({ s with rst := { s.rst with running := some { w with start := s.toll }, waiting := rest } } : State).beginL1)

/-- The limit of a recovery in ns (R428, R433). -/
def recoveryLimit (r : Recovery) : Nat :=
  match r.dom with
  | .ctx _ _ => ms 1
  | .vd _ => ms 20
  | .half _ => ms 150
  | .compute => ms 300
  | .store _ => ms 2
  | .hbmctl _ => ms 60
  | .fwport _ => ms 500

/-- RECOVERY_LIMIT_OVERRUN: the running recovery has not ended within its limit. -/
def execRecoveryLimitOverrun (s : State) : Res :=
  .next (match s.rst.running with
    | some r => if s.toll ≥ r.start + recoveryLimit r then s.escalate r else s
    | none => s)

/-! ### Requests (R432) -/

/-- A requested L2 to L4: a record with UNIT REQUEST, and a recovery. -/
def State.requestReset (s : State) (level vd : Nat) (d : RecDom) : State :=
  s.logRecovery { unit := uRequest, index := level, sev := sevContained, vd := vd, status := stAborted } level d false

/-- RESET_REQUEST_L2: nothing for a VD with no pod on this device. -/
def execResetRequestL2 (vd : Nat) (s : State) : Res :=
  .next (if vd = 0 ∨ (s.podsOf vd).isEmpty then s else s.requestReset 2 vd (.vd vd))

/-- RESET_REQUEST_L3. -/
def execResetRequestL3 (half : Nat) (s : State) : Res := .next (if half < 2 then s.requestReset 3 0 (.half half) else s)

/-- RESET_REQUEST_L4. -/
def execResetRequestL4 (s : State) : Res := .next (s.requestReset 4 0 .compute)

/-- RESET_REQUEST_L5: it pre-empts what runs and waits. -/
def execResetRequestL5 (s : State) : Res :=
  .next ((s.record { unit := uRequest, index := 5, sev := sevContained, action := 5 }).dueL5 .request uRequest)

/-! ### Hangs (R436–R438) -/

/-- Detail of a record that names a core of a running context: the context, the shape pod, the shape core and a pc. -/
def coreDetail (k : Core) (pc : Nat) : VdDetail :=
  { ctx := some k.ctx, index := k.shapeCore / 64, akind := 4, addr := k.shapeCore, addr2 := pc }

/-- The core of some with the lowest shape core number that passes a test. -/
def State.firstCore (s : State) (l : List Nat) (p : Core → Bool) : Option Nat :=
  (l.filter fun c => p (s.core c)).foldl (fun b c => match b with
    | none => some c
    | some d => if (s.core c).shapeCore < (s.core d).shapeCore then some c else some d) none

/-- The pc of the slot a core's front end could not accept. -/
def State.refusedPc (s : State) (c : Nat) : Nat :=
  match s.frontView c ((s.core c).wall + 12) with
  | some v => (v.core c).pc
  | none => (s.core c).pc

/-- HOLD_WATCHDOG: a hold has stayed in force for HOLDMS: L1 of the running context. -/
def execHoldWatchdog (vd : Nat) (s : State) : Res :=
  let limit := s.regField (baseErr + 0x20) 31 16
  .next (match (s.vd vd).holds with
    | [] => s
    | h :: _ =>
      if !h.eff ∨ limit = 0 ∨ s.toll < h.since + ms limit then s
      else match (s.vd vd).ctx, s.firstCore (s.coresOf vd) fun k => k.feWait with
        | some x, some c =>
          let k := s.core c
          (s.logRecovery { unit := uCore, index := corePod c, sev := sevContained, vd := vd, status := stAborted,
                           det := coreDetail k (s.refusedPc c) } 1 (.ctx vd x) true).beginL1
        | _, _ => s)

/-- POD_BEAT_WATCHDOG: a pod of a running context has advanced no beat for BEATMS while its VD is not held. -/
def execPodBeatWatchdog (pod : Nat) (s : State) : Res :=
  let v := (s.pod pod).vd
  .next (if v = 0 ∨ s.held v then s
    else match s.firstCore ((podCores pod).filter fun c => (s.core c).running) fun k => !k.halted with
      | some c =>
        s.logRecovery { unit := uCore, index := pod, sev := sevContained, vd := v, status := stAborted,
                        det := coreDetail (s.core c) (s.core c).pc } 2 (.vd v) true
      | none => s)

/-- UNIT_REQUEST_WATCHDOG: a unit has not answered an accepted request within 10 ms. -/
def execUnitRequestWatchdog (unit idx : Nat) (s : State) : Res :=
  .next (match unitDom unit idx with
    | some d => s.logRecovery { unit := unit, index := idx, sev := sevContained, status := stTargetReset } 6 d true
    | none => s)

/-- HEARTBEAT_MISSED: the queue engine (0), the binder (1) or the scheduler (2) has missed three reports. -/
def execHeartbeatMissed (which : Nat) (s : State) : Res :=
  let unit := [uQueue, uBinder, uSched].getD which 0
  .next (if which < 3 then s.logErr { unit := unit, index := 0, sev := sevFatal } else s)

/-- Every key of the device's slots, sessions and links is destroyed (R438). -/
def State.destroyKeys (s : State) : State :=
  let keys := s.hbm.keys.map fun (e : Nat × KeySlot) => (e.1, { e.2 with st := .zeroised, cur := {}, prev := {}, secret := 0#256 })
  let peers := s.fw.peers.map fun (e : Nat × Peer) => (e.1, { e.2 with session := false, secret := 0#256 })
  let links := s.fw.links.map fun (k : LinkKey) => { k with key := 0#512 }
  { s with hbm := { s.hbm with keys := keys }, fw := { s.fw with peers := peers.filter fun e => e.2 ≠ {}, links := links } }

/-- Every domain but the always-on domain is held in reset until L6. -/
def State.holdInReset (s : State) : State :=
  let s := s.haltDevice
  { s with rst := { s.rst with heldInReset := true } }

/-- SECURITY_CONTROLLER_SILENT. -/
def execSecurityControllerSilent (s : State) : Res := .next ((s.destroyKeys.holdInReset).nmeOne nmeSecHang)

/-! ### L6 (R431) -/

/-- Entry to L6: everything but what R428 and R463 keep takes its reset value; the firmware store, the fuses, the
contacts' levels and what lies outside the device stay. -/
def State.coldReset (s : State) (cause : Nat) : State :=
  let f := s.takeFree 16
  let r := State.reset
  let ins := s.side.ins.map fun (e : Nat × InPin) => (e.1, { e.2 with since := 0 })
  let rails := (s.pwr.rails.map fun (e : Nat × Rail) => (e.1, ({ pg := e.2.pg } : Rail))).filter fun e => e.2 ≠ {}
  { r with pending := s.pending, freeCount := f.2.freeCount, rdata := s.rdata,
           host := { r.host with single := s.host.single, mem := s.host.mem, sent := s.host.sent },
           fw := { r.fw with inc := f.1.toNat % 65535 + 1, strap := s.fw.strap, sent := s.fw.sent },
           pwr := { r.pwr with rails := rails, ooo := s.pwr.ooo, loss := s.pwr.loss, rail := s.pwr.rail, upSeq := s.pwr.upSeq,
                               seqDone := s.pwr.seqDone },
           sec := { r.sec with active := s.sec.active, activeOk := s.sec.activeOk, staged := s.sec.staged,
                               rollback := s.sec.rollback },
           side := { s.side with ins := ins.filter fun e => e.2 ≠ {} },
           rst := { r.rst with coldA := s.rst.coldA, coldB := s.rst.coldB, count5 := s.rst.count5, lastLevel := 6,
                               lastCause := cause } }

/-- VDD_AON comes or goes: the always-on domain's state is lost too; no rail is up (R403, R428, R452, R482, R484). -/
def State.aonLost (s : State) : State :=
  let c := s.coldReset 1
  let pins := s.side.ins.map fun (e : Nat × InPin) => (e.1, ({ level := e.2.level } : InPin))
  { c with pwr := { c.pwr with rails := (List.range 12).map fun i => (i, { pg := false }), ooo := false, loss := false, rail := 0,
                               upSeq := false, seqDone := 0 },
           side := { ins := pins.filter fun e => e.2 ≠ {} },
           rst := {} }

/-- VDD_AON_RISE. -/
def execVddAonRise (s : State) : Res := .next s.aonLost

/-- VDD_AON_FALL. -/
def execVddAonFall (s : State) : Res :=
  let s := s.aonLost
  .next { s with rst := { s.rst with heldInReset := true } }

/-- Key of DEVRST_N. -/
def devrstPin : Nat := 3

/-- DEVRST_N_ASSERT: the device stays in reset. -/
def execDevrstNAssert (s : State) : Res :=
  let last := (s.rst.lastLevel, s.rst.lastCause)
  let s := (s.setIn devrstPin true).coldReset 2
  .next { s with rst := { s.rst with heldInReset := true, lastLevel := last.1, lastCause := last.2 } }

/-- May a reset input release: one in storm only after 10 ms without an edge (R479). -/
def State.releases (s : State) (i : Nat) : Bool :=
  let x := sget {} s.side.ins i
  !x.storm || s.toll ≥ x.since + ms 10

/-- A reset input is deasserted, and out of storm. -/
def State.dropIn (s : State) (i : Nat) : State :=
  let x := sget {} s.side.ins i
  { s with side := { s.side with ins := sput {} i { x with level := false, since := s.toll, storm := false, calm := 0 } s.side.ins } }

/-- DEVRST_N_RELEASE. -/
def execDevrstNRelease (s : State) : Res :=
  .next (if (sget {} s.side.ins devrstPin).level ∧ s.releases devrstPin then (s.dropIn devrstPin).coldReset 2 else s)

/-- Is a port's PERST release set to start L6? -/
def State.coldBit (s : State) (p : Nat) : Bool := if p = 0 then s.rst.coldA else s.rst.coldB

/-- PERST_ASSERT: the port's link goes down, its PF is reset and its VFs leave RUN. -/
def execPerstAssert (p : Nat) (s : State) : Res := .next (if p < 2 then (s.setIn (perstPin p) true).portReset p else s)

/-- PERST_RELEASE: L6 when the cold bit is set; otherwise the port may train. -/
def execPerstRelease (p : Nat) (s : State) : Res :=
  .next (if p < 2 ∧ (sget {} s.side.ins (perstPin p)).level ∧ s.releases (perstPin p) then
      let s := s.dropIn (perstPin p)
      if s.coldBit p ∧ !(sget {} s.side.ins devrstPin).level ∧ !(s.rst.heldInReset && s.pwr.seqDone = 0) then s.coldReset (3 + p) else s
    else s)

/-! ### Supplies (R403–R406) -/

/-- Set a power-good input's level. -/
def State.setPg (s : State) (i : Nat) (b : Bool) : State :=
  { s with pwr := { s.pwr with rails := sput {} i { sget {} s.pwr.rails i with pg := b } s.pwr.rails } }

/-- Is the assertion of a rail in order: its predecessor is up and asserted at least 50 µs ago? -/
def State.railInOrder (s : State) (i : Nat) : Bool :=
  let pred := if i ≥ 10 then 9 else i - 1
  (sget {} s.pwr.rails pred).pg && s.toll ≥ s.pwr.pgAt + 50000

/-- POWER_GOOD_ASSERT. -/
def execPowerGoodAssert (i : Nat) (s : State) : Res :=
  let w := s.pwr
  .next (if i ≥ 12 ∨ w.ooo ∨ (sget {} w.rails i).pg then s
    else if i = 0 then
      let s := s.setPg 0 true
      { s with pwr := { s.pwr with pgAt := s.toll, seqDone := max 1 w.seqDone } }
    else if s.railInOrder i then
      let n := if w.seqDone = i ∨ (i = 10 ∧ w.seqDone = 11) ∨ (i = 11 ∧ w.seqDone = 10) then w.seqDone + 1 else w.seqDone
      let s := s.setPg i true
      { s with pwr := { s.pwr with pgAt := if i ≤ 9 then s.toll else w.pgAt, seqDone := n, upSeq := w.upSeq || n = 12 } }
    else
      let s := s.setPg i true
      { s with pwr := { s.pwr with ooo := true, rail := i } })

/-- POWER_GOOD_LOSS: after the sequence has completed the device stops; only a full sequence and an L6 restart it. -/
def execPowerGoodLoss (i : Nat) (s : State) : Res :=
  let w := s.pwr
  .next (if i = 0 ∨ i ≥ 12 ∨ !(sget {} w.rails i).pg then s
    else
      let s := s.setPg i false
      if w.upSeq then
        let s : State := { s with pwr := { s.pwr with loss := true, rail := i, upSeq := false, seqDone := 1 } }
        (s.holdInReset).nmeOne nmePgLoss
      else { s with pwr := { s.pwr with seqDone := min i w.seqDone } })

/-! ### Clock sources (R407, R408) -/

def State.judge (s : State) (i : Nat) : Judge := sget {} s.pwr.src i
def State.setJudge (s : State) (i : Nat) (j : Judge) : State := { s with pwr := { s.pwr with src := sput {} i j s.pwr.src } }

/-- CLOCK_STABILITY_WINDOW: eight windows in a row inside the band make a source stable; XTAL is judged first. -/
def execClockStabilityWindow (src : Nat) (inBand : Bool) (s : State) : Res :=
  let j := s.judge src
  .next (if src ≥ 5 ∨ j.stable ∨ (src ≠ 0 ∧ !(s.judge 0).stable) then s
    else
      let n := if inBand then j.good + 1 else 0
      s.setJudge src { j with good := n, stable := n ≥ 8 })

/-- Is a source required (R407)? -/
def State.required (s : State) (src : Nat) : Bool :=
  match src with
  | 0 => true
  | 1 => true
  | 2 => !s.host.single
  | 3 => allPorts.any fun p => s.portEn p
  | _ => false

/-- NME bits of the sources (R464). -/
def srcNme : Nat → Nat
  | 0 => 5
  | 1 => 7
  | 2 => 8
  | _ => 9

/-- CLOCK_STABILITY_TIMEOUT: a required source is not stable 100 ms after it was required; without XTAL the device stops
(R462). -/
def execClockStabilityTimeout (src : Nat) (s : State) : Res :=
  let j := s.judge src
  .next (if !s.required src ∨ j.stable ∨ s.toll < j.since.getD 0 + ms 100 then s
    else
      let s := s.nmeOne (srcNme src)
      if src = 0 then s.haltDevice else s)

/-! ### The clock monitor (R410, R411) -/

/-- NME bit of a failed source or PLL: 0 XTAL, 1 REFCLK_A, 2 REFCLK_B, 3 LREFCLK, 5 RC, 6 and 7 core or store PLL of the
north and south half, 8 and 9 HBM PLL; 4, TOLL_IN's 10 MHz, has none. -/
def failNme : Nat → Option Nat
  | 0 => some 5
  | 1 => some 7
  | 2 => some 8
  | 3 => some 9
  | 5 => some 6
  | 6 => some 10
  | 7 => some 11
  | 8 => some 12
  | 9 => some 13
  | _ => none

/-- Does a VD hold resources on both halves (R411)? -/
def State.onBothHalves (s : State) (v : Nat) : Bool :=
  let d := s.vd v
  let hs := (s.podsOf v).map podHalf ++ d.place.slots.map (fun b => podHalf (binPod b)) ++
    (d.carves.flatMap fun e => e.2.chans).map chanHalf
  hs.contains 0 && hs.contains 1

/-- A half's core and store clocks switch to RC: the seam unlocks, its store bridges are fenced and every VD with
resources on both halves gets a CONTAINED record. -/
def State.halfToRc (s : State) (h : Nat) : State :=
  let both := (skeys s.vds).filter fun v => v ≠ 0 && s.onBothHalves v
  let s := s.setHalf h { s.half h with onRc := true }
  let s := s.unlockSeam
  both.foldl (fun s v => s.record { unit := uClock, index := 0, sev := sevContained, vd := v, status := stTargetReset }) s

/-- What the failure of one source or PLL does. -/
def State.sourceFails (s : State) (i : Nat) : State :=
  match i with
  | 0 =>
    let s := s.setJudge 0 {}
    let s : State := { s with pwr := { s.pwr with aonRc := true }, fw := { s.fw with holdover := true, holdAt := s.toll } }
    s.logErr { unit := uClock, index := 0, sev := sevFatal }
  | 1 => after (execLinkDown 0 (s.setJudge 1 {})) s
  | 2 => after (execLinkDown 1 (s.setJudge 2 {})) s
  | 3 =>
    let s := s.setJudge 3 { since := (s.judge 3).since }
    let s := (skeys s.fw.peers).foldl (fun s d => s.detectLoss d) s
    (allPorts.filter fun p => (s.fport p).st ≠ .disabled && (s.fport p).st ≠ .quarantined).foldl
      (fun s p => s.portTo p .training 0) s
  | 4 => ({ s with fw := { s.fw with extref := false } } : State).setJudge 4 {} |>.raisePfs 6
  | 5 => { s with pwr := { s.pwr with rcFail := true } }
  | 6 => s.halfToRc 0
  | 7 => s.halfToRc 1
  | 8 => (s.setHalf 0 { s.half 0 with hbmFail := true }).logErr { unit := uClock, index := 0, sev := sevFatal }
  | 9 => (s.setHalf 1 { s.half 1 with hbmFail := true }).logErr { unit := uClock, index := 0, sev := sevFatal }
  | _ => s

/-- Has a source or PLL failed over already? -/
def State.failedOver (s : State) (i : Nat) : Bool :=
  match i with
  | 0 => s.pwr.aonRc
  | 5 => s.pwr.rcFail
  | 6 => (s.half 0).onRc
  | 7 => (s.half 1).onRc
  | 8 => (s.half 0).hbmFail
  | 9 => (s.half 1).hbmFail
  | _ => !(s.judge i).stable

/-- CLOCK_MONITOR_WINDOW: the sources and PLLs that fail in this window, whose causes are recorded together. -/
def execClockMonitorWindow (failed : List Nat) (s : State) : Res :=
  let l := failed.filter fun i => i < 10 && !s.failedOver i
  let bits := l.foldl (fun (b : BitVec 15) i => match failNme i with
    | some n => b ||| (1#15 <<< n)
    | none => b) 0#15
  .next (l.foldl (fun s i => s.sourceFails i) (s.nme bits))

end Sys2Proof.Machine
end

