-- ==== Sys2Proof/Machine/Security.lean ====
section
/-!
DEFINITION. The security controller (spec/14): its mailboxes, identity and evidence, tenant secrets and sets, subtree
reset, debug grants and levels, and SPDM answers to the host.
-/
namespace Sys2Proof.Machine

/-! ### Mailboxes (R383, R384) -/

/-- Numbers of the tenant's and the operator's messages. -/
def tenantMsgs : List Nat := [0x01, 0x02, 0x03, 0x10, 0x11, 0x12, 0x18, 0x20, 0x21, 0x28]
def operatorMsgs : List Nat := [0x40, 0x41, 0x42, 0x48, 0x49, 0x4A, 0x4B]

/-- RESULT codes. -/
def rOk : Nat := 0
def rBadMsg : Nat := 1
def rBadState : Nat := 2
def rNoSession : Nat := 3
def rTagFail : Nat := 4
def rBadSeq : Nat := 5
def rRefused : Nat := 6
def rNoSpace : Nat := 7

/-- The reply lies in a mailbox's buffer and DONE is set. -/
def Mbox.answer (m : Mbox) (result : Nat) (bs : List Byte) : Mbox :=
  { m with rep := writeBytes [] 0 bs, busy := false, done := true, result := result, rlen := bs.length }

/-- Bytes of the request in progress. -/
def Mbox.bytes (m : Mbox) : List Byte := readBytes m.req 0 m.len
/-- MSG of the request in progress. -/
def Mbox.msg (m : Mbox) : Nat := readLE m.req 0 2

/-- Are the header's zero fields zero? -/
def headerZero (bs : List Byte) : Bool := leAt bs 2 2 = 0 && leAt bs 12 4 = 0

/-- A message header. -/
def msgHeader (msg seq num : Nat) : List Byte := leBytes 4 msg ++ leBytes 4 seq ++ leBytes 4 num ++ leBytes 4 0

def State.setVdSec (s : State) (v : Nat) (x : VdSec) : State := s.setVd v { s.vd v with sec := x }

/-- A tenant reply as it is: VF vector 2. -/
def State.vdReply (s : State) (v result : Nat) (bs : List Byte) : State :=
  (s.setVdSec v { (s.vd v).sec with mb := (s.vd v).sec.mb.answer result bs }).raiseVd v 2

/-- The operator's reply: PF vector 3. -/
def State.pfReply (s : State) (result : Nat) (body : List Byte) : State :=
  let bs := s.sec.mb.bytes
  let out := if result = rOk then msgHeader s.sec.mb.msg (leAt bs 4 4) 0 ++ body else []
  ({ s with sec := { s.sec with mb := s.sec.mb.answer result out } } : State).raisePfs 3

/-- Is a VD's mailbox served: its TDI locked or running (R383)? -/
def State.mailboxServed (s : State) (v : Nat) : Bool :=
  match (s.vd v).vf with
  | some (p, n) => (s.vf p n).tdi = .configLocked || (s.vf p n).tdi = .run
  | none => false

/-- GO of the tenant mailbox: a message that is not the tenant's is answered at once. -/
def State.tenantGo (s : State) (v len : Nat) : State :=
  let m := (s.vd v).sec.mb
  if m.busy then s
  else
    let m := { m with busy := true, done := false, len := len }
    let s := s.setVdSec v { (s.vd v).sec with mb := m }
    if tenantMsgs.contains m.msg then s else s.vdReply v rBadMsg []

/-- GO of the operator mailbox. -/
def State.operatorMail (s : State) (len : Nat) : State :=
  if s.sec.mb.busy then s
  else
    let m := { s.sec.mb with busy := true, done := false, len := len }
    let s := { s with sec := { s.sec with mb := m } }
    if operatorMsgs.contains m.msg then s else s.pfReply rBadMsg []

/-- The reply to an authenticated message: sealed under the session's key, with the next SEQ of each direction; plain and
empty where the session has ended meanwhile. -/
def State.sealReply (s : State) (v result : Nat) (body : List Byte) : State :=
  match (s.vd v).sec.session with
  | none => s.vdReply v result []
  | some x =>
    let q := x.seqOut + 1
    let h := msgHeader (s.vd v).sec.mb.msg q x.num
    let e := gcmSeal x.keyOut (2 ^ 32 + q) h body
    let s := s.setVdSec v { (s.vd v).sec with session := some { x with seqIn := x.seqIn + 1, seqOut := q } }
    s.vdReply v result (h ++ e.1 ++ e.2)

/-- Does a row act: is its message the one in progress? -/
def State.tenantAsked (s : State) (v msg : Nat) : Bool :=
  v ≠ 0 && (s.vd v).sec.mb.busy && (s.vd v).sec.mb.msg = msg && s.mailboxServed v

/-- A message that an open session must carry (R384): `f` has its body, and gives RESULT and the reply's body, or none
while the answer is still to come. -/
def runTenant (v msg : Nat) (s : State) (f : List Byte → State → Option (Nat × List Byte) × State) : Res :=
  let bs := (s.vd v).sec.mb.bytes
  .next (if !s.tenantAsked v msg then s
    else if (s.vd v).st = .teardown then s.vdReply v rBadState []
    else if !headerZero bs then s.vdReply v rBadMsg []
    else match (s.vd v).sec.session with
    | none => s.vdReply v rNoSession []
    | some x =>
      if leAt bs 8 4 ≠ x.num then s.vdReply v rNoSession []
      else if leAt bs 4 4 ≠ x.seqIn + 1 then s.vdReply v rBadSeq []
      else if bs.length < 32 then s.vdReply v rBadMsg []
      else
        let ct := (bs.drop 16).take (bs.length - 32)
        match gcmOpen x.keyIn (x.seqIn + 1) (bs.take 16) ct (bs.drop (bs.length - 16)) with
        | none => (s.closeSession v).vdReply v rTagFail []
        | some body => match f body s with
          | (some (r, out), s) => s.sealReply v r out
          | (none, s) => s)

/-- An operator message: `f` has the bytes after the header. -/
def runOperator (msg : Nat) (s : State) (f : List Byte → State → Option (Nat × List Byte) × State) : Res :=
  let bs := s.sec.mb.bytes
  .next (if !s.sec.mb.busy ∨ s.sec.mb.msg ≠ msg then s
    else if !headerZero bs ∨ leAt bs 8 4 ≠ 0 then s.pfReply rBadMsg []
    else match f (bs.drop 16) s with
    | (some (r, out), s) => s.pfReply r out
    | (none, s) => s)

/-! ### Identity and measurements (R385, R386) -/

/-- The UDS, as 32 bytes: fused (assumption 3). -/
def uds : List Byte := beBytes 32 (Config.fuse 3).toNat
/-- The DeviceID private number: derived from the UDS in a way the spec does not give (assumption 3). -/
def deviceScalar : Nat := (Config.fuse 7).toNat % (p384n - 1) + 1

/-- An uncompressed public key. -/
def pubBytes (p : EcPoint) : List Byte :=
  match p with
  | some (x, y) => 4#8 :: (beBytes 48 x ++ beBytes 48 y)
  | none => List.replicate 97 0#8

/-- The digest of the DeviceID public key. -/
def deviceIdHash : List Byte := sha384 (pubBytes (ecBase deviceScalar))

/-- CDI₂ of a firmware set. -/
def FwSet.cdi2 (f : FwSet) : List Byte :=
  hmac384 (hmac384 uds (beBytes 48 f.m2.toNat)) (beBytes 48 f.m3.toNat ++ beBytes 48 f.m4.toNat)

/-- The Alias private number: derived from CDI₂ in a way the spec does not give (assumption 3). -/
def FwSet.aliasScalar (f : FwSet) : Nat := (Config.fuse (2 ^ 400 + beNat f.cdi2)).toNat % (p384n - 1) + 1

/-- Measurement 1, the ROM's digest (assumption 3). -/
def romMeasure : List Byte := beBytes 48 (Config.fuse 5).toNat

/-- Measurement 5: part, stepping, HPMODE, CASCHINT, one byte each (the layout is the model's). -/
def State.measure5 (s : State) : List Byte :=
  [0#8, 0xB0#8, BitVec.ofNat 8 (b2n s.host.single), BitVec.ofNat 8 s.fw.strap] ++ List.replicate 12 0#8

/-- DBG: the highest open level (R397). -/
def State.dbgLevel (s : State) : Nat :=
  if s.sec.level3 then 3 else if s.sec.level2.isSome then 2 else if s.sec.level1 then 1 else 0

/-- Grants active on the device. -/
def State.grantCount (s : State) : Nat := min 255 ((s.vds.map fun e => e.2.sec.grants.length).sum)

/-- Measurement 6: DBG, JTAG, grants, FWSTAGED, one byte each (the layout is the model's). -/
def State.measure6 (s : State) : List Byte :=
  [BitVec.ofNat 8 s.dbgLevel, BitVec.ofNat 8 (b2n s.sec.jtag), BitVec.ofNat 8 s.grantCount,
   BitVec.ofNat 8 (b2n s.sec.staged.isSome)]

/-- A byte of the certificate chain: fixed for the device, the firmware set and the straps (assumption 3). -/
def State.chainByte (s : State) (i : Nat) : Byte :=
  let a := s.sec.active
  let boot := ((a.m2.toNat * 2 ^ 384 + a.m3.toNat) * 2 ^ 384 + a.m4.toNat) * 2 ^ 16 + s.fw.strap % 2 ^ 15 * 2 + b2n s.host.single
  (Config.fuse ((boot + 1) * 2 ^ 512 + i)).setWidth 8
/-- Bytes of the chain. -/
def chainLength : Nat := (Config.fuse 4).toNat % 65536
/-- n bytes of the chain from an offset. -/
def State.chainBytes (s : State) (off n : Nat) : List Byte :=
  (List.range (min n (chainLength - off))).map fun i => s.chainByte (off + i)

/-! ### Evidence and sessions (R388, R389) -/

/-- TDI code of the evidence. -/
def tdiCode : Tdi → Nat
  | .configUnlocked => 0
  | .configLocked => 1
  | .run => 2
  | .error => 3

/-- Bytes 0x000 to 0x1D7 of the evidence record of VD v, or of the device for v = 0. -/
def State.evidenceBody (s : State) (v : Nat) (nonce pub : List Byte) : List Byte :=
  let d := s.vd v
  let f := s.sec.active
  let vdWord := match d.vf with
    | some (p, n) => p + 2 * n + 2 ^ 9 * tdiCode (s.vf p n).tdi + 2 ^ 11 * b2n d.quiet + 2 ^ 12 * b2n (!d.sec.grants.isEmpty)
    | none => 0
  let word := (if v = 0 then 0 else vdWord) + 2 ^ 13 * s.dbgLevel + 2 ^ 15 * b2n s.sec.staged.isSome
  leBytes 4 (1 + 2 ^ 16 * 568) ++ leBytes 4 (if v = 0 then 0 else s.vdHandle v) ++ leBytes 4 (s.fw.inc + 2 ^ 16 * s.devNo) ++
    leBytes 4 word ++ leBytes 8 (if v = 0 then 0 else d.limits.group) ++ leBytes 8 s.toll ++ nonce ++
    romMeasure ++ beBytes 48 f.m2.toNat ++ beBytes 48 f.m3.toNat ++ beBytes 48 f.m4.toNat ++ beBytes 48 s.sec.policyDigest.toNat ++
    s.measure5 ++ deviceIdHash ++ pub ++ List.replicate 7 0#8

/-- The evidence record, signed by the Alias key; the signer's secret number is open. -/
def State.evidence (s : State) (v : Nat) (nonce pub tenant : List Byte) : List Byte × State :=
  let body := s.evidenceBody v nonce pub
  let k := s.takeFree 384
  (body ++ ecdsaSign s.sec.active.aliasScalar (k.1.toNat % (p384n - 1) + 1) (sha384 (body ++ tenant)), k.2)

/-- TS_CERTS: a chunk of the chain, sealed where the message comes under the open session, in chunks of 2,016 bytes then. -/
def execTsCerts (vd : Nat) (s : State) : Res :=
  let bs := (s.vd vd).sec.mb.bytes
  if (s.vd vd).sec.session.isSome ∧ leAt bs 8 4 ≠ 0 then
    runTenant vd 0x01 s fun body s =>
      (some (if body.length < 2 then (rBadMsg, []) else (rOk, s.chainBytes (2016 * leAt body 0 2) 2016)), s)
  else
    .next (if !s.tenantAsked vd 0x01 then s
      else if (s.vd vd).st = .teardown then s.vdReply vd rBadState []
      else if !headerZero bs ∨ leAt bs 8 4 ≠ 0 ∨ bs.length < 18 then s.vdReply vd rBadMsg []
      else s.vdReply vd rOk (msgHeader 0x01 (leAt bs 4 4) 0 ++ s.chainBytes (2032 * leAt bs 16 2) 2032))

/-- A session key of TS_OPEN, by direction. -/
def State.sessionSecret (s : State) (v : Nat) (nonce z : List Byte) (dir : Nat) : BitVec 256 :=
  keyOf (hkdfExpand (hkdfExtract nonce z) (asciiBytes "H9 TS" ++ leBytes 4 (s.vdHandle v) ++ [BitVec.ofNat 8 dir]) 32)

/-- TS_OPEN: an ephemeral key, the shared secret, the two session keys and the evidence; an earlier session closes. -/
def execTsOpen (vd : Nat) (s : State) : Res :=
  let bs := (s.vd vd).sec.mb.bytes
  let pub := (bs.drop 16).take 97
  let nonce := (bs.drop 113).take 32
  .next (if !s.tenantAsked vd 0x02 then s
    else if (s.vd vd).st = .teardown then s.vdReply vd rBadState []
    else if !headerZero bs ∨ bs.length < 145 ∨ pub.headD 0#8 ≠ 4#8 then s.vdReply vd rBadMsg []
    else
      let e := s.takeFree 384
      let d := e.1.toNat % (p384n - 1) + 1
      match ecdh d (beNat ((pub.drop 1).take 48)) (beNat (pub.drop 49)) with
      | none => s.vdReply vd rBadMsg []
      | some z =>
        let num := s.sec.nextSession
        let ev := e.2.evidence vd nonce (pubBytes (ecBase d)) pub
        let s := ev.2
        let s := { s with sec := { s.sec with nextSession := num % (2 ^ 32 - 1) + 1 } }
        let x : Session := { num := num, keyIn := s.sessionSecret vd nonce z 0, keyOut := s.sessionSecret vd nonce z 1 }
        let s := s.setVdSec vd { (s.vd vd).sec with session := some x }
        s.vdReply vd rOk (msgHeader 0x02 (leAt bs 4 4) 0 ++ leBytes 4 num ++ ev.1))

/-- TS_CLOSE: the reply is the session's last. -/
def execTsClose (vd : Nat) (s : State) : Res :=
  match runTenant vd 0x03 s fun _ s => (some (rOk, []), s) with
  | .next t => .next (if s.tenantAsked vd 0x03 ∧ (t.vd vd).sec.mb.result = rOk then t.closeSession vd else t)
  | r => r

/-! ### Secrets and sets (R390, R393) -/

/-- A provisioned secret's number. -/
def secretOf (bs : List Byte) : BitVec 256 := BitVec.ofNat 256 (beNat (bs.take 32))

/-- KEY_PROVISION. -/
def execKeyProvision (vd : Nat) (s : State) : Res :=
  runTenant vd 0x10 s fun b s =>
    let x := (s.vd vd).sec
    let k := leAt b 1 1
    let z := secretOf (b.drop 16)
    if b.length < 48 ∨ k > 3 ∨ leAt b 2 14 ≠ 0 then (some (rBadMsg, []), s)
    else match leAt b 0 1 with
      | 1 => (some (rOk, []), s.setVdSec vd { x with carve := sput none k (some z) x.carve })
      | 2 =>
        if (s.vd vd).nparts > 1 ∧ (s.vd vd).st ≠ .created then (some (rBadState, []), s)
        else (some (rOk, []), s.setVdSec vd { x with group := some z })
      | 3 => (some (rOk, []), s.setVdSec vd { x with capsule := some z })
      | _ => (some (rBadMsg, []), s)

/-- Are 48-byte entries in increasing byte order? -/
def listSorted (l : List (List Byte)) : Bool := (l.zip (l.drop 1)).all fun e => beNat e.1 < beNat e.2

/-- SET_PROVISION: the member list is read through the VD's translations; a walk that faults or waits leaves the mailbox
BUSY until the row is taken again. -/
def execSetProvision (vd : Nat) (s : State) : Res :=
  runTenant vd 0x11 s fun b s =>
    let h := leAt b 0 4
    let n := leAt b 4 4
    let o := s.obj (handleIdx h)
    let pf := (s.vd vd).vf.elim 0 Prod.fst
    if b.length < 48 ∨ n < 1 ∨ n > 1024 then (some (rBadMsg, []), s)
    else if s.handleCheck vd h ≠ 0 ∨ o.kind ≠ 0 ∨ o.size < 48 * n then (some (rRefused, []), s)
    else match s.readAt vd o.va (48 * n) pf reqSecurity 0 0 with
      | (.ok l 0, s) =>
        let ids := chunksOf 48 l
        let id := BitVec.ofNat 384 (beNat (sha384 l))
        let x := (s.vd vd).sec
        let others := x.sets.filter fun q => q.id ≠ id
        if !listSorted ids ∨ !ids.contains deviceIdHash then (some (rRefused, []), s)
        else if others.length ≥ 8 then (some (rNoSpace, []), s)
        else (some (rOk, beBytes 48 id.toNat),
              s.setVdSec vd { x with sets := others ++ [{ id := id, key := secretOf (b.drop 16) }] })
      | (.ok _ _, s) => (some (rRefused, []), s)
      | (.fail _ _, s) => (some (rRefused, []), s)
      | (.fault f, s) => (none, s.addFault vd f)
      | (.wait, s) => (none, s)

/-- SET_DROP: a SETID the VD does not hold is refused. -/
def execSetDrop (vd : Nat) (s : State) : Res :=
  runTenant vd 0x12 s fun b s =>
    let x := (s.vd vd).sec
    let id := BitVec.ofNat 384 (beNat (b.take 48))
    if b.length < 48 then (some (rBadMsg, []), s)
    else if x.sets.all fun q => q.id ≠ id then (some (rRefused, []), s)
    else (some (rOk, []), s.setVdSec vd { x with sets := x.sets.filter fun q => q.id ≠ id })

/-! ### Subtree reset (R212, R396) -/

/-- Is the counter block or node of a level over a page poisoned: all its pages in one poisoned subtree, or the root lost? -/
def Chan.nodeBad (c : Chan) (level p : Nat) : Bool :=
  let lo := p / 8 ^ level * 8 ^ level
  (c.rootBadA && c.rootBadB) || c.badSub.any fun r => r.1 ≤ lo && lo + 8 ^ level ≤ r.2

/-- SUBTREE_RESET: the MPE starts; the reply follows SUBTREE_RESET_COMPLETE. -/
def execSubtreeReset (vd : Nat) (s : State) : Res :=
  runTenant vd 0x18 s fun b s =>
    let w := leAt b 0 4
    let k := w % 4
    let level := bitsOf w 10 8
    let off := leAt b 8 8
    let cv := s.carve vd k
    let n := cv.chans.length
    let x := (s.vd vd).sec
    let at_ := chanOf cv.mode cv.il n off
    let g := cv.chans.getD at_.1 0
    if x.sub.isSome then (none, s)
    else if b.length < 16 ∨ level > 6 ∨ bitsOf w 7 2 ≠ 0 ∨ w / 2 ^ 11 ≠ 0 ∨ leAt b 4 4 ≠ 0 then (some (rBadMsg, []), s)
    else if n = 0 ∨ off ≥ n * chanData cv.mode ∨ (cv.mode ≠ 2 ∧ level ≠ 0) ∨ !(s.chan g).nodeBad level (at_.2 / 4096) then
      (some (rRefused, []), s)
    else (none, s.setVdSec vd { x with sub := some (g, level, at_.2 / 4096 / 8 ^ level * 8 ^ level) })

/-- A range taken out of a list of ranges. -/
def cutRange (lo hi : Nat) (l : List (Nat × Nat)) : List (Nat × Nat) :=
  l.flatMap fun r => ([(r.1, min r.2 lo), (max r.1 hi, r.2)] : List (Nat × Nat)).filter fun q => q.1 < q.2

/-- The lines and counters of pages [lo, lo + 8^level) become encryptions of zero under one new major, the nodes above the
counter blocks are rewritten, and the parent's version increments. -/
def Chan.resetSub (c : Chan) (g level lo gen major : Nat) (kp : KeyPair) : Chan :=
  let n := granLines c.mode
  let pages := (List.range (8 ^ level)).map (lo + ·)
  let bad := if c.rootBadA && c.rootBadB then [(0, 2 ^ 20)] else c.badSub
  let c := { c with rootBadA := false, rootBadB := false, badSub := cutRange lo (lo + 8 ^ level) bad }
  let c := pages.foldl (fun (c : Chan) p =>
    let c := (List.range (64 / n)).foldl (fun (c : Chan) i =>
      c.putGranule g kp (64 * p + n * i) gen major 0 (List.replicate n 0#512)) c
    { c.setCtr p { gen := gen, major := major } with
        dirtyMeta := sput false p true c.dirtyMeta, flaw := sput Ecc.clean ((ctrBase c.mode + 64 * p) / 64) Ecc.clean c.flaw }) c
  let c := (List.range level).foldl (fun (c : Chan) i =>
    let k := i + 1
    ((List.range (8 ^ (level - k))).map (lo / 8 ^ k + ·)).foldl (fun (c : Chan) j =>
      { c with nodeTags := sput none (nodeKey k j) none c.nodeTags,
               flaw := sput Ecc.clean (nodeAddr k j / 64) Ecc.clean c.flaw }) c) c
  let key := nodeKey level (lo / 8 ^ level)
  { c with maxMajor := max c.maxMajor major,
           vers := if c.mode = 2 then sput 0 key (sget 0 c.vers key + 1) c.vers else c.vers }

/-- SUBTREE_RESET_COMPLETE: where the next major would pass 0xFF_FFFF, a key roll comes first, or the running sweep's end
is awaited (R212). -/
def execSubtreeResetComplete (vd : Nat) (s : State) : Res :=
  .next (match (s.vd vd).sec.sub with
    | none => s
    | some (g, level, lo) =>
      let k := (s.chan g).key
      let full : Bool := (s.chan g).maxMajor ≥ 0xFFFFFF
      if full ∧ (s.key k).st = .rolling then s.setKey k { s.key k with rollWaits := true }
      else
        let s := if full then s.rollKey k else s
        let sl := s.key k
        let s := s.setChan g ((s.chan g).resetSub g level lo sl.gen ((s.chan g).maxMajor + 1) sl.cur)
        (s.setVdSec vd { (s.vd vd).sec with sub := none }).sealReply vd rOk [])

/-! ### Debug (R397, R398) -/

/-- DEBUG_GRANT: it ends at the boundary at which its duration ends. -/
def execDebugGrant (vd : Nat) (s : State) : Res :=
  runTenant vd 0x20 s fun b s =>
    let x := (s.vd vd).sec
    let d := leAt b 4 4
    let num := s.sec.nextGrant
    if b.length < 8 ∨ leAt b 0 4 ≥ 16 ∨ d < 1 ∨ d > 3600000 then (some (rBadMsg, []), s)
    else
      let g : Grant := { num := num, scope := BitVec.ofNat 4 (leAt b 0 4),
                         ends := (s.toll + d * tollPeriod + tollPeriod - 1) / tollPeriod * tollPeriod }
      let s := { s with sec := { s.sec with nextGrant := num % 65535 + 1 } }
      (some (rOk, leBytes 4 num), s.setVdSec vd { x with grants := x.grants ++ [g] })

/-- A grant ends; level 2 opened under it closes. -/
def State.dropGrant (s : State) (v g : Nat) : State :=
  let x := (s.vd v).sec
  let s := s.setVdSec v { x with grants := x.grants.filter fun q => q.num ≠ g }
  if s.sec.level2 = some (v, g) then { s with sec := { s.sec with level2 := none } } else s

/-- DEBUG_REVOKE. -/
def execDebugRevoke (vd : Nat) (s : State) : Res :=
  runTenant vd 0x21 s fun b s =>
    if b.length < 4 then (some (rBadMsg, []), s)
    else if (s.vd vd).sec.grants.all fun q => q.num ≠ leAt b 0 4 then (some (rRefused, []), s)
    else (some (rOk, []), s.dropGrant vd (leAt b 0 4))

/-- DEBUG_GRANT_EXPIRY: at the boundary at which the duration ends. -/
def execDebugGrantExpiry (vd g : Nat) (s : State) : Res :=
  .next (if (s.vd vd).sec.grants.any fun q => q.num = g && q.ends ≤ s.toll then s.dropGrant vd g else s)

/-- DEBUG_OPEN. -/
def execDebugOpen (s : State) : Res :=
  runOperator 0x48 s fun b s =>
    let w := leAt b 0 4
    let g := leAt b 4 4
    if b.length < 4 ∨ w > 1 ∨ (w = 1 ∧ b.length < 8) then (some (rBadMsg, []), s)
    else if w = 0 then (some (rOk, []), { s with sec := { s.sec with level1 := true } })
    else match s.vds.find? fun e => e.2.sec.grants.any fun q => q.num = g with
      | some e => (some (rOk, []), { s with sec := { s.sec with level2 := some (e.1, g) } })
      | none => (some (rRefused, []), s)

/-- The live grant that level 2 is open under. -/
def State.liveGrant (s : State) : Option (Nat × Grant) :=
  s.sec.level2.bind fun vg => ((s.vd vg.1).sec.grants.find? fun q => q.num = vg.2).map fun q => (vg.1, q)

/-- The SYSTEM bins, in rising number: the bin slots of VD 0. -/
def State.systemBins (s : State) : List Nat := (List.range 512).filter fun b => (s.bin b).st = .system

/-- Cores of a VD by shape core number (R60). -/
def State.shapeCoreOf (s : State) (v i : Nat) : Option Nat := (s.coresOf v).find? fun c => (s.core c).shapeCore = i

/-- Does the open level and scope reach a target (R397, R398)? -/
def State.debugReach (s : State) (m : DebugMap) : Bool :=
  let sys : Bool := s.sec.level1 || s.sec.level3
  match m.kind with
  | 0 => sys && m.index = 0
  | 1 => sys && m.index < s.systemBins.length
  | 2 => sys && m.index < 8192 && ((s.pod (corePod m.index)).vd = 0 || s.sec.level3)
  | 3 => s.liveGrant.any fun g => g.2.scope.getLsbD 0 && m.index < 4 && !(s.carve g.1 m.index).chans.isEmpty
  | 4 => s.liveGrant.any fun g => g.2.scope.getLsbD 1 && m.index < (s.vd g.1).place.slots.length
  | 5 => s.liveGrant.any fun g => g.2.scope.getLsbD 2 && m.index < 64 * (s.vd g.1).place.pods.length
  | _ => false

/-- DEBUG_MAP. -/
def execDebugMap (s : State) : Res :=
  runOperator 0x49 s fun b s =>
    let m : DebugMap := { kind := leAt b 0 4, index := leAt b 4 4, off := leAt b 8 8 }
    if b.length < 16 ∨ m.kind > 5 then (some (rBadMsg, []), s)
    else if !s.debugReach m then (some (rRefused, []), s)
    else (some (rOk, []), { s with sec := { s.sec with dmap := some m } })

/-- DEBUG_CLOSE. -/
def execDebugClose (s : State) : Res :=
  runOperator 0x4A s fun _ s =>
    (some (rOk, []), { s with sec := { s.sec with level1 := false, level2 := none, jtag := false } })

/-! ### Operator messages (R386, R387, R389) -/

/-- DEV_ATTEST. -/
def execDevAttest (s : State) : Res :=
  runOperator 0x40 s fun b s =>
    if b.length < 32 then (some (rBadMsg, []), s)
    else
      let e := s.evidence 0 (b.take 32) (List.replicate 97 0#8) []
      (some (rOk, e.1), e.2)

/-- Does the peer policy accept measurements (R387)? -/
def State.policyTakes (s : State) (m : BitVec 384 × BitVec 384 × BitVec 384) : Bool :=
  m = (s.sec.active.m2, s.sec.active.m3, s.sec.active.m4) || s.sec.policy.contains m

/-- PEER_POLICY: sessions the new policy does not accept end at once, and their peers are lost (R402). -/
def execPeerPolicy (s : State) : Res :=
  runOperator 0x41 s fun b s =>
    let n := b.length / 144
    if b.length % 144 ≠ 0 ∨ n > 32 then (some (rBadMsg, []), s)
    else
      let at_ (i : Nat) : BitVec 384 := BitVec.ofNat 384 (beNat ((b.drop (48 * i)).take 48))
      let l := (List.range n).map fun i => (at_ (3 * i), at_ (3 * i + 1), at_ (3 * i + 2))
      let s := { s with sec := { s.sec with policy := l, policyDigest := BitVec.ofNat 384 (beNat (sha384 b)) } }
      (some (rOk, []), (skeys s.fw.peers).foldl (fun s d =>
        let q := s.peer d
        if q.session ∧ !s.policyTakes q.meas then s.setPeer d { q with session := false, secret := 0#256, losing := true } else s) s)

/-- FW_STAGE: `img` is what the image of the object shows; it is refused where its signature fails or its version lies
below the fuses. -/
def execFwStage (img : FwImage) (s : State) : Res :=
  runOperator 0x42 s fun b s =>
    let h := leAt b 0 4
    if b.length < 4 then (some (rBadMsg, []), s)
    else if s.handleCheck 0 h ≠ 0 ∨ (s.obj (handleIdx h)).kind ≠ 0 ∨ !img.ok ∨ img.version < s.sec.rollback then
      (some (rRefused, []), s)
    else
      let f : FwSet := { m2 := img.m2, m3 := img.m3, m4 := img.m4, version := img.version,
                         devfw := img.devfw, phyfw := img.phyfw }
      (some (rOk, []), { s with sec := { s.sec with staged := some f } })

/-- Pack bytes into words, little-endian. -/
def wordsOf (l : List Byte) : List Word := (chunksOf 4 l).map fun c => BitVec.ofNat 32 (leNat c)

/-- SPDM_REQUEST of the host TSM on a port's DOE mailbox. Request and response codes are SPDM 1.3's (PRESUMED); what a
response carries beyond the certificate chain and the measurements is open. -/
def execSpdmRequest (port : Nat) (req : SpdmReq) (s : State) : Res :=
  .next (if !s.portThere port then s
    else match req.code with
    | 0x81 => s.doeReply (0x01#32 :: wordsOf (sha384 (s.chainBytes 0 chainLength)))
    | 0x82 =>
      let w := (req.body.headD 0#32).toNat
      let bs := s.chainBytes (w % 65536) (w / 65536)
      s.doeReply ([0x02#32, BitVec.ofNat 32 (bs.length + 65536 * (chainLength - (w % 65536 + bs.length)))] ++ wordsOf bs)
    | 0x84 => s.doeReply [0x04#32, 0x1300#32]
    | 0xE0 =>
      let f := s.sec.active
      s.doeReply (0x60#32 :: wordsOf (romMeasure ++ beBytes 48 f.m2.toNat ++ beBytes 48 f.m3.toNat ++ beBytes 48 f.m4.toNat ++
        s.measure5 ++ s.measure6 ++ beBytes 48 s.sec.policyDigest.toNat))
    | n =>
      if n < 0x80 ∨ n > 0xFF then s.doeReply [0x7F#32]
      else
        let f := s.takeFree 512
        f.2.doeReply (BitVec.ofNat 32 (n - 0x80) :: wordsOf (leBytes 64 f.1.toNat)))

end Sys2Proof.Machine
end

