-- ==== Sys2Proof/Machine/Teardown.lean ====
section
/-!
DEFINITION. Teardown of a tenant (spec/14 R399–R402), the notices KEYRET and KEYDRAIN (spec/13 R350, R354; spec/14 R400),
and the level 3 unlock that waits for every teardown (R397).
-/
namespace Sys2Proof.Machine

/-! ### Accept and quiesce -/

/-- Every change of a VD stops; its BINDs complete with ABORTED, and the resources of both sides stay until zeroisation
(R321, R399). -/
def State.stopChanges (s : State) (v : Nat) : State :=
  let l := (s.vd v).changes
  let s := s.setVd v { s.vd v with changes := [], passing := [] }
  let s := l.foldl (fun s (c : Change) =>
    let s := if c.seq ≠ 0 then s.finish c.seq stAborted 0 else s
    if c.op then s.opProgress v 1 else s) s
  (s.dropMoves v).roleProgress v

/-- The VD's fault records are discarded, and the commands they stall complete with ABORTED (R245, R399). -/
def State.dropFaults (s : State) (v : Nat) : State :=
  let x := s.space v
  let recs := (x.ring.filterMap fun e => e.2) ++ x.waiting
  let s := s.setSpace v { x with ring := [], waiting := [] }
  (recs.flatMap FaultRec.stalled).foldl (fun s q => s.finish q stAborted 0) s

/-- Phases 1 and 2 of a teardown: accepted at once, quiesce of `quiesce` ms (0 means 50). -/
def State.beginTeardown (s : State) (v quiesce seq : Nat) : State :=
  let d := s.vd v
  let s := s.setVd v { d with st := .teardown,
                              sec := { d.sec with session := none, tear := some { deadline := s.toll + ms (if quiesce = 0 then 50 else quiesce), seq := seq } } }
  let s := if d.sec.mb.busy then s.vdReply v rBadState [] else s
  (s.stopChanges v).dropFaults v

/-- VD_DESTROY: accepted, and completed at zeroisation. One that meets a teardown already begun completes with it, or
with ABORTED where another VD_DESTROY does. -/
def execVdDestroy (seq : Nat) (s : State) : Res :=
  runXCmd seq 0x11 s fun c s =>
    let v := bitsOf (c.fld 0x10 0 32) 6 0
    match (s.vd v).sec.tear with
    | some t =>
      if t.seq = seq then s
      else if t.seq = 0 then s.setTear v (some { t with seq := seq })
      else s.finish seq stAborted 0
    | none =>
      -- the VD it names is gone where an earlier command destroyed it
      if (s.vdOfHandle (c.fld 0x10 0 32)).isNone then s.finish seq stAborted 0
      else s.beginTeardown v (c.fld 0x14 0 16) seq

/-- SELF_DESTROY: QUIESCE of 50 ms and PF vector 4; the reply is the session's last. -/
def execSelfDestroy (vd : Nat) (s : State) : Res :=
  let before := (s.vd vd).sec.mb.busy
  match runTenant vd 0x28 s fun _ s => (some (rOk, []), s) with
  | .next t =>
    .next (if before ∧ s.tenantAsked vd 0x28 ∧ (t.vd vd).sec.mb.result = rOk ∧ (t.vd vd).st ≠ .teardown then
      (t.beginTeardown vd 50 0).raisePfs 4
    else t)
  | r => r

/-- TEARDOWN_QUIESCE_END: no command of the VD is outstanding, or QUIESCE has passed: the force phase, an L2, begins. -/
def execTeardownQuiesceEnd (vd : Nat) (s : State) : Res :=
  .next (match (s.vd vd).sec.tear with
    | some t =>
      if t.phase = .quiesce ∧ (t.deadline ≤ s.toll ∨ !s.que.cmds.any fun e => e.2.vd = vd) then
        s.setTear vd (some { t with phase := .force })
      else s
    | none => s)

/-! ### Retire -/

/-- The link keys of a VD retire: no frame more is sent under them, and each peer is told the boundary (R350). -/
def State.retireLinks (s : State) (v b : Nat) : State :=
  (s.fw.links.filter fun k => k.vd = v && k.zeroAt.isNone).foldl (fun s (k : LinkKey) =>
    let links := s.fw.links.map fun (x : LinkKey) => if x.vd = v && x.peer = k.peer then { x with zeroAt := some b } else x
    ({ s with fw := { s.fw with links := links } } : State).sendNotice k.peer (s.vd v).limits.group true true
      (.keyret k.label b)) s

/-- Key IDs of a VD that have still to retire. -/
def State.liveKeys (s : State) (v : Nat) : List Nat :=
  (s.hbm.keys.filter fun e => e.1 ≠ 0 && e.2.vd = v &&
    (e.2.st = .active || e.2.st = .rolling || (e.2.st = .empty && e.2.peer.isSome))).map Prod.fst

/-- TEARDOWN_RETIRE: every key ID enters RETIRING and KEYRET is sent; zeroisation is set at the boundary that begins
period k + 2. -/
def execTeardownRetire (vd : Nat) (s : State) : Res :=
  .next (match (s.vd vd).sec.tear with
    | some t =>
      if t.phase = .retire ∧ t.boundary.isNone then
        let b := (periodOf s.toll + 2) * tollPeriod
        let s := (s.liveKeys vd).foldl (fun s k => s.retireKey k) s
        (s.retireLinks vd b).setTear vd (some { t with boundary := some b })
      else s
    | none => s)

/-- KEYRET: the link key retires on this side too; a teardown's takes the part as lost, for that VD only; KEYDRAIN
answers. -/
def State.takeKeyret (s : State) (n : Notice) (keyId b src : Nat) : State :=
  let same (m : Notice) : Bool := m.body = n.body
  let answer (s : State) : State := s.sendAnswer src n.group same (.keydrain keyId b)
  match s.groupVd n.group fun _ d => d.devs.contains src && d.nparts > 1 with
  | none => answer s
  | some v =>
    let mine := (s.fw.links.filter fun k => k.vd = v && k.peer = src).map LinkKey.label
    let links := s.fw.links.map fun (k : LinkKey) => if k.vd = v && k.peer = src then { k with zeroAt := some b } else k
    let s := { s with fw := { s.fw with links := links } }
    let s := mine.foldl (fun s k => s.setKey k { s.key k with st := .retiring, drained := true, zeroAt := some b }) s
    let s := if !n.teardown then s
      else
        let d := s.vd v
        let part := (d.devs.findIdx? fun x => x = src).getD 0
        let s := (s.fw.xfers.filter fun e => (s.cmd e.1).vd = v && e.2.tgts.any fun t => t.part = part && !t.local_).foldl (fun s e =>
          let s := s.mapTgts e.1 fun t => if t.part = part ∧ t.st ≠ .acked ∧ t.st ≠ .failed then { t with st := .lost } else t
          let l := (s.xfer e.1).tgts
          (s.modCmd e.1 fun c => { c with ext := some (failedRecord l) }).finish e.1 stPeerLost 0) s
        let tls := (s.que.tls.filter fun e => e.2.vd = v && (sget 0#64 s.fw.feeders e.1).getLsbD part).map Prod.fst
        let s := tls.foldl (fun s t => s.poisonTl t) s
        let d := s.vd v
        s.setVd v { d with lostParts := (part :: d.lostParts).dedup,
                           st := if d.st = .bound ∨ (d.st = .changing ∧ d.changes.isEmpty) then .held else d.st }
    answer s

/-- KEYRET arrives. -/
def execKeyret (p : Nat) (f : Frame) (s : State) : Res :=
  .next (match f.body with
    | .ctrl n => (match n.body with
      | .keyret k b => s.onNotice p f n fun s => s.takeKeyret n k b f.src
      | _ => s)
    | _ => s)

/-- KEYDRAIN: the key ID has its peer's confirmation; a zeroised one is released. -/
def execKeydrain (p : Nat) (f : Frame) (s : State) : Res :=
  .next (match f.body with
    | .ctrl n => (match n.body with
      | .keydrain k b => s.onNotice p f n fun s =>
          let s := s.answered f.src fun m => m.body = .keyret k b
          let sl := s.key k
          if sl.peer ≠ some f.src then s
          else if sl.st = .zeroised then s.setKey k {}
          else if sl.st = .retiring then s.setKey k { sl with peer := none }
          else s
      | _ => s)
    | _ => s)

/-! ### Zeroise -/

/-- Write bytes into the system carve-out under key ID 0. -/
def State.writeSystem (s : State) (addr : Nat) (bs : List Byte) : State :=
  ((chunksOf 256 bs).zipIdx).foldl (fun s e => (s.mpeWrite 0 0 (addr + 256 * e.2) false (e.1.map some)).2) s

/-- VD memory address of the crash capsule. -/
def State.capsuleBase (s : State) : Nat := bitsOf (s.reg (baseErr + 0x28)) 41 21 * 2 ^ 21

/-- The tenant part of a VD in the capsule is zeroised (R451). -/
def State.dropCapsule (s : State) (v : Nat) : State :=
  let s := { s with rst := { s.rst with capTenant := clearRange s.rst.capTenant (8192 * (v - 1)) (8192 * v) } }
  if s.rst.capValid then s.writeSystem (s.capsuleBase + 0x100000 + 0x2000 * (v - 1)) (List.replicate 8192 0#8) else s

/-- The level 3 unlock follows the last zeroisation (R402). -/
def State.checkUnlock (s : State) : State :=
  if s.sec.unlocking ∧ (skeys s.vds).all fun v => v = 0 || (s.vd v).st = .none then
    ({ s with sec := { s.sec with unlocking := false, level3 := true } } : State).pfReply rOk []
  else s

/-- The objects, contexts and timelines of a VD are free. -/
def State.freeTenant (s : State) (v : Nat) : State :=
  let s := ((s.que.objs.filter fun e => e.2.vd = v && e.2.st ≠ .free).map Prod.fst).foldl (fun s i => s.freeObj i) s
  let s := ((s.que.ctxs.filter fun e => e.2.used && e.2.vd = v).map Prod.fst).foldl (fun s n => s.setCtx n {}) s
  ((s.que.tls.filter fun e => e.2.used && e.2.vd = v).map Prod.fst).foldl (fun s t =>
    ({ s with fw := { s.fw with feeders := sput 0#64 t 0#64 s.fw.feeders } } : State).setTimeline t {}) s

/-- The bins, channels, pods and hot-set entries of a VD go to clearing, erasing and no VD. -/
def State.releaseTenant (s : State) (v : Nat) : State :=
  let s := ((s.sbk.hot.filter fun e => e.2.used && e.2.vd = v).map Prod.fst).foldl (fun s e => s.setHot e {}) s
  let s := ((s.sbk.bins.filter fun e => e.2.owner = v && (e.2.st = .owned || e.2.st = .incoming || e.2.st = .hot)).map Prod.fst).foldl
    (fun s b => s.toClearing b) s
  let s := ((s.hbm.chans.filter fun e => e.2.owner = v && e.2.st ≠ .retired && e.2.st ≠ .erasing).map Prod.fst).foldl
    (fun s g => s.toErasing g) s
  let s := (s.podsOf v).foldl (fun s p => s.setPod p { s.pod p with vd := 0, openE := 0#4, orient := 0 }) s
  let s := (s.openEdges).dropMoves v
  let port := s.sch.portAllot.filter fun e => e.1 % 128 ≠ v
  let buckets := s.sch.buckets.filter fun e => e.1 < 1024 || e.1 % 128 ≠ v
  let links := s.fw.links.filter fun k => k.vd ≠ v
  let inb := s.fw.inbound.filter fun i => i.vd ≠ v
  { s with sch := { s.sch with portAllot := port, buckets := buckets },
           fw := { s.fw with links := links, inbound := inb, rr := sput 0 v 0 s.fw.rr } }

/-- Phase 5 of a teardown: keys and secrets are destroyed, everything the VD held is released, its VF is detached and its
VD_DESTROY completes. -/
def State.zeroiseVd (s : State) (v : Nat) (t : Teardown) : State :=
  let ks := (s.hbm.keys.filter fun e => e.1 ≠ 0 && e.2.vd = v && e.2.st = .retiring).map Prod.fst
  let s := ks.foldl (fun s k => s.zeroiseKey k) s
  let s := (s.setShare v 0).dropCapsule v
  let s := ((s.freeTenant v).releaseTenant v).dropSpace v
  let s := ((s.que.pairs.filter fun e => e.2.assigned && e.2.vd = v).map Prod.fst).foldl (fun s q => s.setPair q {}) s
  let s := match (s.vd v).vf with
    | some (p, n) => (s.setVf p n { s.vf p n with vd := 0, tdi := .configUnlocked }).dropAtc (vfFn p n)
    | none => s
  let s := if s.sec.level2.any fun g => g.1 = v then { s with sec := { s.sec with level2 := none } } else s
  let rs := s.rst.waiting.filter fun r => r.dom ≠ .vd v
  let run := s.rst.running.map fun r => if r.dom = .vd v then { r with performed := true } else r
  let s := { s with rst := { s.rst with waiting := rs, running := run } }
  let s := s.setVd v { inc := (s.vd v).inc }
  let s := if t.seq ≠ 0 then s.finish t.seq stOK 0 else s
  s.checkUnlock

/-- Teardowns whose boundary has come and whose key IDs have all drained are zeroised, in the order of their VDs. -/
def State.finishTeardowns (s : State) : State :=
  (skeys s.vds).foldl (fun s v => match (s.vd v).sec.tear with
    | some t =>
      if t.boundary.any (fun b => b ≤ s.toll) ∧ (s.hbm.keys.all fun e => !(e.1 ≠ 0 && e.2.vd = v && e.2.st = .retiring && !e.2.drained)) then
        s.zeroiseVd v t
      else s
    | none => s) s

/-- JTAG_UNLOCK: level 1 at once; level 3, where the token passes its check (`valid`), once every tenant VD is torn down
with QUIESCE 1 ms. -/
def execJtagUnlock (valid : Bool) (s : State) : Res :=
  if s.sec.unlocking then .next s
  else runOperator 0x4B s fun b s =>
    let level := leAt b 0 4
    if b.length < 4 ∨ (level ≠ 1 ∧ level ≠ 3) then (some (rBadMsg, []), s)
    else if level = 1 then (some (rOk, []), { s with sec := { s.sec with level1 := true, jtag := true } })
    else if !valid then (some (rRefused, []), s)
    else
      let l := (skeys s.vds).filter fun v => v ≠ 0 && (s.vd v).st ≠ .none
      if l.isEmpty then (some (rOk, []), { s with sec := { s.sec with level3 := true } })
      else
        let s := { s with sec := { s.sec with unlocking := true } }
        (none, l.foldl (fun s v => if (s.vd v).st = .teardown then s else s.beginTeardown v 1 0) s)

end Sys2Proof.Machine
end

