-- ==== Sys2Proof/Machine/Boundary.lean ====
section
/-!
DEFINITION. The toll boundary (spec/01 R28, R29): the events of R29 in their order, then the recomputations of every unit
that runs once in a toll period; and the nanosecond that passes when no command waits.
-/
namespace Sys2Proof.Machine

/-! ### 1. Key zeroisation (R218, R350, R399) -/

/-- Keys due are zeroised, link keys go, teardowns whose boundary it is are finished, and key IDs whose horizon has passed
are released. -/
def State.boundaryKeys (s : State) : State :=
  let due := (s.hbm.keys.filter fun e => e.2.st = .retiring && e.2.drained && e.2.zeroAt.any fun t => t ≤ s.toll).map Prod.fst
  let s := due.foldl (fun s k => s.zeroiseKey k) s
  let links := s.fw.links.filter fun k => !k.zeroAt.any fun t => t ≤ s.toll
  let s := ({ s with fw := { s.fw with links := links } } : State).finishTeardowns
  (skeys s.hbm.keys).foldl (fun s k => after (execKeyIdRelease k s) s) s

/-! ### 2. Commits (R29, R311, R319) -/

/-- Commits due, in the order in which they were scheduled. -/
def State.boundaryCommits (s : State) : State :=
  let due := (skeys s.vds).filter fun v => (s.change v).any fun c => c.phase = .scheduled && c.commitAt.any fun b => b ≤ s.toll
  let s := (sortBy (fun v => (s.change v).elim 0 (·.schedAt)) due).foldl (fun s v => after (execCompositionCommit v s) s) s
  (skeys s.fw.peers).foldl (fun s d => s.applyRole d) s.roleCommit

/-! ### 4. Values that take effect at a boundary (R323, R422, R426) -/

/-- The register values written take effect. -/
def State.boundaryValues (s : State) : State := { s.rollProfile with glb := { s.rollProfile.glb with eff := s.glb.val } }

/-! ### 6. Collective time-outs (R361) -/

def State.boundaryTimeouts (s : State) : State :=
  (skeys s.fw.xfers).foldl (fun s q => after (execCollectiveTimeout q s) s) s

/-! ### Finwin ports (R345, R347, R354, R362) -/

/-- Capacity of a port for the period just ended. -/
def FwPort.capacity (x : FwPort) : Nat :=
  if x.st ≠ .active then 0
  else if x.dataSent = 0 then 25000 * laneCount x.actLanes
  else 25000 * laneCount x.actLanes * (x.dataSent - x.dataReplayed) / x.dataSent

/-- The quantity of a port's last 16 periods that exceeds its threshold: its CAUSE. -/
def State.overThreshold (s : State) (p : Nat) : Option Nat :=
  let x := s.fport p
  let thr := s.reg (pctlAddr p + 0x20)
  let sum (f : Window → Nat) : Nat := ((x.now :: x.past).map f).sum
  let exceeds (n hi lo : Nat) : Bool := bitsOf thr hi lo ≠ 0 && n > bitsOf thr hi lo
  if exceeds (sum (·.malf)) 31 24 then some 6
  else if exceeds (sum (·.tagf)) 23 16 then some 7
  else if exceeds (sum (·.retry) / 1024) 15 8 then some 8
  else if exceeds (sum (·.stall) / 1000) 7 0 then some 9
  else none

/-- A port is quarantined: its replay buffer goes, and its partner's session ends where no other port carries it. -/
def State.quarantine (s : State) (p cause : Nat) : State :=
  let x := s.fport p
  let d := x.pdev
  let s := s.portTo p .quarantined cause
  let s := if x.st = .active ∧ x.pkind = 1 ∧ (s.reaching d).isEmpty ∧ (s.peer d).session then
      s.setPeer d { s.peer d with session := false, secret := 0#256, losing := true }
    else s
  s.raisePfs 5

/-- A port at the boundary: capacity, quarantine, the period's counts and a DISC frame. -/
def State.boundaryPort (s : State) (p : Nat) : State :=
  let s := s.setFport p { s.fport p with cap := (s.fport p).capacity }
  let s : State := match s.overThreshold p with
    | some c => if (s.fport p).st = PortState.active ∨ (s.fport p).st = PortState.unauth then s.quarantine p c else s
    | none => s
  let x := s.fport p
  let s := s.setFport p { x with past := if x.st = PortState.disabled then x.past else (x.now :: x.past).take 15, now := {},
                                 framesIn := 0, framesOut := 0, spdmIn := 0, spdmOut := 0, dataSent := 0, dataReplayed := 0 }
  match x.st with
  | .unauth => (s.setFport p { s.fport p with framesOut := 1 }).sendDisc p
  | .active => s.sendDisc p
  | .quarantined => s.sendDisc p
  | _ => s

/-- Is a notice without its answer still sent again: a JOIN until JOINMS has passed, a KEYRET for the horizon of R350? -/
def State.stillSent (s : State) (x : Sent) : Bool :=
  match x.notice.body with
  | .join .. => match s.groupVd x.notice.group fun _ d => !d.changes.isEmpty with
    | some v => s.toll ≤ x.since + ms ((s.change v).elim 100 (·.joinMs))
    | none => false
  | .keyret _ b => s.toll < b + 4 * tollPeriod
  | _ => true

/-- Notices that wait for an answer are sent again (R354). -/
def State.resendNotices (s : State) : State :=
  (skeys s.fw.peers).foldl (fun s d =>
    let q := s.peer d
    let left := q.out.filter s.stillSent
    left.foldl (fun s x => s.sendSystem d (.ctrl x.notice)) (s.setPeer d { q with out := left })) s

/-! ### The other units -/

/-- HBM refresh rates switch and channel budgets are computed again (R213, R217). -/
def State.boundaryHbm (s : State) : State :=
  let s := (List.range 8).foldl (fun s n => s.setStack n { s.stack n with refr2 := (s.stack n).refrNext }) s
  (skeys s.hbm.chans).foldl (fun s g => s.rebudget g) s

/-- Slices, debug grants and unresolved faults whose time has come (R245, R324, R398). -/
def State.boundaryTimers (s : State) : State :=
  let vs := skeys s.vds
  let s := vs.foldl (fun s v => s.setVd v { s.vd v with sliceBoundaries := (s.vd v).sliceBoundaries + b2n (s.vd v).ctx.isSome }) s
  let s := vs.foldl (fun s v => after (execSliceExpiry v s) s) s
  let s := vs.foldl (fun s v => ((s.vd v).sec.grants.filter fun g => g.ends ≤ s.toll).foldl (fun s g => s.dropGrant v g.num) s) s
  (skeys s.xlt.spaces).foldl (fun s v => (List.range 32).foldl (fun s i => after (execFaultTimeout v i s) s) s) s

/-- Everything a toll boundary does at the present count. -/
def State.boundary (s : State) : State :=
  let run : Bool := s.glb.stage = .run
  let s := { s with fw := { s.fw with lastBound := s.toll } }
  let s := s.boundaryKeys.boundaryCommits
  let s := if run then s.computeHead else s
  let s := s.frequencyStep.boundaryValues
  let s := (after (execDeadlineCheck s) s).boundaryTimeouts.snapshot
  let s := s.boundaryHbm
  let s := allPorts.foldl (fun s p => s.boundaryPort p) s
  let s := (s.recomputeAllot.adjustFeedback.resendNotices).boundaryTimers
  let s := if run then s.decideStep else s
  s.retireMoves.roleDrained

/-- TOLL_BOUNDARY: the boundary the count stands at; where it stands at none that has not been performed, the time to the
next one passes first. A device held in reset has none. -/
def execTollBoundary (s : State) : Res :=
  let fresh : Bool := s.toll % tollPeriod = 0 && s.fw.lastBound ≠ s.toll
  .next (if s.rst.heldInReset ∨ s.pwr.tripped then s
    else (if fresh then s else { s with toll := s.nextBoundary }).boundary)

/-! ### Time passing -/

/-- The count after one nanosecond: a count that slews gains or holds back one nanosecond in each 10,000 (R364, R366). -/
def State.countUp (s : State) : State :=
  if s.toll % 10000 ≠ 5000 then { s with toll := s.toll + 1 }
  else if s.fw.offset ≥ 8 then { s with toll := s.toll + 2, fw := { s.fw with offset := s.fw.offset - 8 } }
  else if s.fw.offset ≤ -8 ∧ !s.fw.slewHeld then { s with fw := { s.fw with offset := s.fw.offset + 8, slewHeld := true } }
  else { s with toll := s.toll + 1, fw := { s.fw with slewHeld := false } }

/-- Ports at which a frame waits without credit count a microsecond (R356). -/
def State.countStalls (s : State) : State :=
  allPorts.foldl (fun s p =>
    let x := s.fport p
    if x.st = .active ∧ (!x.waiting.isEmpty ∨ x.blocked) then
      s.setFport p { x with credStall := satAdd 16 x.credStall 1, now := { x.now with stall := x.now.stall + 1 } }
    else s) s

/-- One nanosecond passes: no command waits. Transfers under way send what credits allow. -/
def State.tick (s : State) : State :=
  if s.rst.heldInReset ∨ s.pwr.tripped then s
  else
    let s := s.countUp
    (if s.toll % 1000 = 0 then s.countStalls else s).pumpAll

end Sys2Proof.Machine
end

