-- ==== Sys2Proof/Machine/RegRead.lean ====
section
/-!
DEFINITION. Reading the register space (spec/17 R454–R466 and the register tables of the other chapters): which registers
exist and which of their bits are defined, the ranges that answer, the value every register shows, the records, and the
capability table.
-/
namespace Sys2Proof.Machine

/-! ### The registers and their defined bits -/

/-- A register, or an array of `count` by `count2` registers: its place, its width and the bits that lie in some field. -/
structure RegSpan where
  base : Nat
  wide : Bool := false
  count : Nat := 1
  stride : Nat := 4
  count2 : Nat := 1
  stride2 : Nat := 1
  mask : Nat := 0xFFFFFFFF

/-- All bits of a 64-bit register. -/
def ones64 : Nat := 2 ^ 64 - 1

/-- GLB (R464). -/
def spansGlb : List RegSpan := [
  { base := 0x00 }, { base := 0x04, mask := 0xFFFF }, { base := 0x08, mask := 0x0700001F }, { base := 0x0C, mask := 0x1FF },
  { base := 0x10, mask := 0x7FFF }, { base := 0x14, mask := 0x8000001F }, { base := 0x18, wide := true, mask := ones64 },
  { base := 0x20 }, { base := 0x24 }, { base := 0x30, count := 2 }, { base := 0x40, count := 2, stride := 0x10 },
  { base := 0x44, count := 2, stride := 0x10 }, { base := 0x48, count := 2, stride := 0x10 },
  { base := 0x4C, count := 2, stride := 0x10, mask := 0xFFFF }]

/-- PCT (R425, R426). -/
def spansPct : List RegSpan := [
  { base := basePct, mask := 0xFFFFFFF0 }, { base := basePct + 0x04, mask := 0xCF000FFF },
  { base := basePct + 0x08, mask := 0x003F001F }, { base := basePct + 0x0C, mask := 0x00FFFF03 },
  { base := basePct + 0x10, mask := 0x00FF0001 }, { base := basePct + 0x14, mask := 0x0FFF00FF },
  { base := basePct + 0x18, count := 3 }, { base := basePct + 0x24, mask := 0x00FFFF00 },
  { base := basePct + 0x28, mask := 0xFFFFFF00 }, { base := basePct + 0x2C, mask := 0x1FFF3FFF },
  { base := basePct + 0x30, mask := 0xFFFF }, { base := basePct + 0x34, mask := 0x1FF },
  { base := basePct + 0x38, mask := 0xFFFF003F }, { base := basePct + 0x40, count := 5 },
  { base := basePct + 0x54, mask := 0xFFFFFF00 }, { base := basePct + 0x58 },
  { base := basePct + 0x100, count := 12, stride := 8 },
  { base := basePct + 0x104, count := 12, stride := 8, mask := 0xFFFF00FF }, { base := basePct + 0x200, count := topCode - 31 }]

/-- ERR (R452). -/
def spansErr : List RegSpan := [
  { base := baseErr, mask := 0xF0FF0003 }, { base := baseErr + 0x04, mask := 0x1FF }, { base := baseErr + 0x08, mask := 0x1FF },
  { base := baseErr + 0x0C, mask := 0x0FFFFFFF }, { base := baseErr + 0x10, mask := 0x807F0107 },
  { base := baseErr + 0x14, mask := 0x3 }, { base := baseErr + 0x18, mask := 0xFFFFFF07 },
  { base := baseErr + 0x20, mask := 0xFFFF00FF }, { base := baseErr + 0x28, wide := true, mask := 0x3FFFFE00001 },
  { base := baseErr + 0x30, mask := 0x8000FFFF }]

/-- The mailbox registers at the start of SEC and of a tenant's mailbox page (R383). -/
def spansMbox (b : Nat) : List RegSpan := [
  { base := b, mask := 0x80000FFF }, { base := b + 4, mask := 0xC0FF0FFF }, { base := b + 8, mask := 0x1FF07 }]

/-- CMP (R320). -/
def spansCmp : List RegSpan := [
  { base := baseCmp, mask := 0xFF03 }, { base := baseCmp + 0x04, mask := 0x007F7FF7 },
  { base := baseCmp + 0x08, mask := 0xFFFF007F }, { base := baseCmp + 0x0C, mask := 0x3FFF },
  { base := baseCmp + 0x10, mask := 0x807F000F }, { base := baseCmp + 0x18, wide := true, mask := ones64 },
  { base := baseCmp + 0x20, mask := 0x1F3 }, { base := baseCmp + 0x30, mask := 0x800001FF },
  { base := baseCmp + 0x34, mask := 0x00FFF301 },
  { base := baseCmp + 0x108, wide := true, count := 127, stride := 8, mask := 0x0FFFE3FFFFFFFFFF }]

/-- SCH (R341). -/
def spansSch : List RegSpan := [
  { base := baseSch, count := 16, mask := 0xC0FF0FFF }, { base := baseSch + 0x40, count := 16, mask := 0x3FF },
  { base := baseSch + 0x80, count := 2, mask := 0xFFFF0FFF }, { base := baseSch + 0x100, mask := 0x00FFFFFF },
  { base := baseSch + 0x1008, count := 127, stride := 8, mask := 0x1FFFFF0F },
  { base := baseSch + 0x100C, count := 127, stride := 8, mask := 0x00FFF007 }]

/-- The queue registers of 256 local queues from b (R271). -/
def spansLq (b : Nat) : List RegSpan := [
  { base := b, count := 256, stride := 0x40, mask := 0x800FF7FF },
  { base := b + 0x08, wide := true, count := 256, stride := 0x40, mask := 0xFFFFFFFFFFFFF000 },
  { base := b + 0x10, wide := true, count := 256, stride := 0x40, mask := 0xFFFFFFFFFFFFF000 },
  { base := b + 0x18, count := 256, stride := 0x40, mask := 0xFFFF }, { base := b + 0x1C, count := 256, stride := 0x40 },
  { base := b + 0x20, count := 256, stride := 0x40, mask := 0xFFFF00FF }]

/-- QUE (R271, R292). -/
def spansQue : List RegSpan := spansLq baseQue ++ [
  { base := baseQue + 0x9000, wide := true, mask := ones64 }, { base := baseQue + 0x9008, mask := 0x7FFFF },
  { base := baseQue + 0xA000, count := 16384, mask := 0xFFFF }]

/-- The registers of an XLT page at b (R247). -/
def spansXltPage (b : Nat) : List RegSpan := [
  { base := b, wide := true, mask := 0x3FFFFFF0003 }, { base := b + 0x10 }, { base := b + 0x14, mask := 0xFFFF031F }]

/-- XLT. -/
def spansXlt : List RegSpan := spansXltPage baseXlt ++ [
  { base := baseXlt + 0x08, mask := 0xFFFF }, { base := baseXlt + 0x104, count := 127, mask := 0x3F }]

/-- HBM and MPE (R222). -/
def spansHbm : List RegSpan := [
  { base := baseHbm, count := 8, stride := 0x10000, mask := 0x00FF0F03 },
  { base := baseHbm + 0x10, count := 8, stride := 0x10000, mask := 0x800003FF },
  { base := baseHbm + 0x100, count := 8, stride := 0x10000, count2 := 32, stride2 := 0x10, mask := 0x07FFE000 },
  { base := baseHbm + 0x104, count := 8, stride := 0x10000, count2 := 32, stride2 := 0x10 },
  { base := baseHbm + 0x108, count := 8, stride := 0x10000, count2 := 32, stride2 := 0x10 },
  { base := baseHbm + 0x10C, count := 8, stride := 0x10000, count2 := 32, stride2 := 0x10, mask := 0x03FF007F },
  { base := baseMpe + 0x1000, count := 4096, mask := 0x7FFFF }]

/-- SBK (R184). -/
def spansSbk : List RegSpan := [
  { base := baseSbk, count := 512, mask := 0x07FFFFE7 }, { base := baseSbk + 0x1000, count := 128, stride := 0x10 },
  { base := baseSbk + 0x1004, count := 128, stride := 0x10 }, { base := baseSbk + 0x2000, mask := 0x8000FFFF },
  { base := baseSbk + 0x2004 }, { base := baseSbk + 0x2008, mask := 0x3FF }, { base := baseSbk + 0x3000, mask := 0x1FFF },
  { base := baseSbk + 0x3004, count := 2 }, { base := baseSbk + 0x300C, mask := 0xFFF }]

/-- The registers of 128 pods from b (R152). -/
def spansPod (b : Nat) : List RegSpan := [
  { base := b, count := 128, stride := 0x40, mask := 0x007F0F07 }, { base := b + 4, count := 128, stride := 0x40 },
  { base := b + 8, count := 128, stride := 0x40 }, { base := b + 12, count := 128, stride := 0x40 }]

/-- DRL. -/
def spansDrl : List RegSpan := [{ base := baseDrl, mask := 7 }, { base := baseDrl + 4 }] ++ spansPod (baseDrl + 0x1000)

/-- FWL (R375, R376). -/
def spansFwl : List RegSpan := [
  { base := baseFwl, count := 32, stride := 0x4000, mask := 0xE000000F },
  { base := baseFwl + 0x04, count := 32, stride := 0x4000, mask := 0x0FFF0FFF },
  { base := baseFwl + 0x08, count := 32, stride := 0x4000, mask := 0xFFFF },
  { base := baseFwl + 0x0C, count := 32, stride := 0x4000, count2 := 4, stride2 := 4 },
  { base := baseFwl + 0x20, count := 32, stride := 0x4000 },
  { base := baseFwlDev, mask := 0x03FFFFFF }, { base := baseFwlDev + 0x04, mask := 0xFFFF07FF },
  { base := baseFwlDev + 0x10, mask := 0x3FF }, { base := baseFwlDev + 0x14, mask := 0xFFC1FFFF }, { base := baseFwlDev + 0x18 }]

/-- TOLL (R377). -/
def spansToll : List RegSpan := [
  { base := baseToll, count := 2 }, { base := baseToll + 0x08, mask := 0xFFFFF83F }, { base := baseToll + 0x0C, mask := 0x03FFFF3F },
  { base := baseToll + 0x10, mask := 0xFF000007 }, { base := baseToll + 0x14, mask := 0x00FFFFFF },
  { base := baseToll + 0x18, count := 2 }]

/-- Every register of PF BAR0. -/
def pfSpans : List RegSpan := spansGlb ++ spansPct ++ spansErr ++ spansMbox baseSec ++ spansCmp ++ spansSch ++ spansQue ++
  spansXlt ++ spansHbm ++ spansSbk ++ spansDrl ++ spansFwl ++ spansToll

/-- Every register of VF BAR0 (R256, R342, R383, R453, R466). -/
def vfSpans : List RegSpan := [
  { base := 0x00 }, { base := 0x04, mask := 0x8001FF7F }, { base := 0x08, mask := 0x33 }, { base := 0x10, count := 2 },
  { base := 0x18, mask := 0xFFFF }] ++ spansLq 0x10000 ++ spansXltPage 0x20000 ++ [
  { base := 0x30000, mask := 3 }, { base := 0x30004, count := 2, mask := 0x3F }, { base := 0x3000C }] ++ spansMbox 0x40000 ++ [
  { base := 0x50000 }, { base := 0x50004, mask := 7 }, { base := 0x50008, mask := 0xF }, { base := 0x50010, count := 5 },
  { base := 0x50100, count := 16, stride := 0x10 }, { base := 0x50104, count := 16, stride := 0x10 },
  { base := 0x50108, count := 16, stride := 0x10, mask := 0xFFF }, { base := 0x5010C, count := 16, stride := 0x10 }] ++
  spansPod 0x80000 ++ [
  { base := 0x90000, count := 128, stride := 0x10 },
  { base := 0xA0004, count := 4, stride := 0x1000, count2 := 256, stride2 := 0x10 },
  { base := 0xA0008, count := 4, stride := 0x1000, count2 := 256, stride2 := 0x10 },
  { base := 0xA000C, count := 4, stride := 0x1000, count2 := 256, stride2 := 0x10, mask := 0x03FF007F }]

/-- Does a register of the span start at address a? -/
def RegSpan.starts (r : RegSpan) (a : Nat) : Bool :=
  let d := a - r.base
  let e := d % r.stride
  if r.base ≤ a ∧ d / r.stride < r.count then
    (if r.count2 = 1 then e = 0 else e % r.stride2 = 0 && e / r.stride2 < r.count2)
  else false

/-- The register a DWORD address lies in: its address, its span and which half the DWORD is. -/
def findReg (l : List RegSpan) (a : Nat) : Option (Nat × RegSpan × Bool) :=
  match l.find? fun r => r.starts a with
  | some r => some (a, r, false)
  | none => if a < 4 then none
    else (l.find? fun r => r.wide && r.starts (a - 4)).map fun r => (a - 4, r, true)

/-! ### Codes -/

def stageCode : Stage → Nat
  | .secboot => 0
  | .clocks => 1
  | .train => 2
  | .clear => 3
  | .system => 4
  | .run => 5
  | .warm => 6
  | .halted => 7

def binCode : BinState → Nat
  | .free => 0
  | .owned => 1
  | .incoming => 2
  | .hot => 3
  | .system => 4
  | .clearing => 5
  | .retired => 6

def chCode : ChState → Nat
  | .free => 0
  | .formatting => 1
  | .bound => 2
  | .incoming => 3
  | .system => 4
  | .erasing => 5
  | .retired => 6

def keyCode : KeyState → Nat
  | .empty => 0
  | .active => 1
  | .rolling => 2
  | .retiring => 3
  | .zeroised => 4

def portCode : PortState → Nat
  | .disabled => 0
  | .training => 1
  | .unauth => 2
  | .active => 3
  | .quarantined => 4

def queueCode : QState → Nat
  | .disabled => 0
  | .active => 1
  | .stopped => 2

def vdCode : VdState → Nat
  | .none => 0
  | .created => 1
  | .bound => 2
  | .changing => 3
  | .held => 4
  | .teardown => 5

/-! ### Records as bytes (R243, R441, R443) -/

def ErrRec.bytes (r : ErrRec) : List Byte :=
  leBytes 4 (r.unit + 2 ^ 8 * r.sev + 2 ^ 16 * r.status + 2 ^ 24 * r.action) ++ leBytes 4 r.count ++ leBytes 8 r.tfirst ++
    leBytes 8 r.tlast ++ leBytes 4 (r.vd + 2 ^ 16 * r.seq) ++ leBytes 4 r.index ++ leBytes 16 r.info.toNat ++ leBytes 16 0

def VdErrRec.bytes (r : VdErrRec) : List Byte :=
  let b := r.base
  leBytes 4 (b.unit + 2 ^ 8 * b.sev + 2 ^ 16 * b.status + 2 ^ 24 * b.action) ++ leBytes 4 b.count ++ leBytes 8 b.tfirst ++
    leBytes 8 b.tlast ++ leBytes 4 (r.det.ctx.getD 0 + 2 ^ 12 * b2n r.det.ctx.isSome + 2 ^ 16 * b.seq) ++
    leBytes 4 (r.det.index + 2 ^ 16 * r.det.akind) ++ leBytes 8 r.det.addr ++ leBytes 8 r.det.addr2 ++ leBytes 16 0

def walkCode : WalkCause → Nat
  | .notPresent => 1
  | .readDenied => 2
  | .writeDenied => 3
  | .malformed => 4
  | .hostDenied => 5
  | .tableRead => 6

def FaultRec.bytes (r : FaultRec) : List Byte :=
  let f := r.first
  leBytes 4 (walkCode f.cause + 2 ^ 8 * b2n r.wr + 2 ^ 9 * b2n f.host + 2 ^ 10 * f.level + 2 ^ 16 * r.seqNo) ++
    leBytes 4 r.count ++ leBytes 8 f.va ++ leBytes 32 r.reqs.toNat ++ leBytes 8 f.toll ++ leBytes 4 f.ctx ++ leBytes 4 0

/-- The record at an index of the error ring; one never written reads as zero. -/
def State.errBytes (s : State) (i : Nat) : List Byte :=
  if (sget ({} : ErrRec) s.rst.ring i) = {} then List.replicate 64 0#8 else (sget {} s.rst.ring i).bytes

def State.vdErrBytes (s : State) (v i : Nat) : List Byte :=
  if (sget ({} : VdErrRec) (s.vd v).ring i) = {} then List.replicate 64 0#8 else (sget ({} : VdErrRec) (s.vd v).ring i).bytes

/-- A slot of a space's fault ring as its registers show it. -/
def State.faultBytes (s : State) (v i : Nat) : List Byte :=
  match sget none (s.space v).ring i with
  | some r => r.bytes
  | none => List.replicate 64 0#8

/-! ### The capability table (R264–R268) -/

/-- An entry: its ID and the words after its header. -/
def capEntry (id : Nat) (ws : List Nat) : List Nat := [0x10000 + id, 8 + 4 * ws.length] ++ ws

/-- A word from its two halves. -/
def hw (hi lo : Nat) : Nat := hi * 65536 + lo

/-- The entries both views hold, but for DEVID. -/
def State.capCommon (s : State) (devid : Nat) : List Nat :=
  capEntry 1 [hw devid 0x1D9E, 0xB000, hw 2700 1900, hw 2100 800, 25, 0] ++
  capEntry 2 [hw 8192 128, hw 32 128, hw 12 4096, hw 16 (6 * 256 + 12), hw 16 256, 0] ++
  capEntry 3 [0x0FFF, hw 256 64, hw 1024 256, hw 1024 1024, hw 2048 1024, hw 2048 1024, hw 4096 4096, 0] ++
  capEntry 4 [hw 16 512, hw 256 512, 4, 0] ++
  capEntry 5 [hw 4 (32 * 256 + 8), hw 4 (3 * 256 + s.hbm.rate), hw 90 (72 * 256 + 82), hw 16 4096, 0, 0] ++
  capEntry 6 [hw 64 (7 * 256 + 52), hw 16384 512, hw 4096 32, hw 32 512] ++
  capEntry 7 [hw 4096 16384, 1048576, 65536, 524288, hw 256 64, 0] ++
  capEntry 8 [(if s.host.single then 1 else 2) * 256 + b2n s.host.single,
              hw (if s.host.single then 0 else 64) (if s.host.single then 128 else 64), hw 64 2048, 129, 0x1013, 0] ++
  capEntry 9 [hw 100 (4 * 256 + 32), hw 1024 33, 1024, 20] ++
  capEntry 10 [16 * 256 + 127, 0]

/-- The table of a PF. -/
def State.capPf (s : State) : List Nat :=
  [0x54433948, hw 11 1, 336, 0] ++ s.capCommon 0xA9D0 ++
    capEntry 0x10 [0xF000 + s.fw.strap % 256, 0xFFFF0000, 2, 0] ++ [0x1FFFF, 8]

/-- Local queues of a VD. -/
def State.queuesOf (s : State) (v : Nat) : Nat := (s.que.pairs.filter fun e => e.2.assigned && e.2.vd = v).length

/-- The table of VF n of a port. -/
def State.capVf (s : State) (p n : Nat) : List Nat :=
  let v := (s.vf p n).vd
  [0x54433948, hw 11 1, 328, 0] ++ s.capCommon 0xA9D1 ++
    capEntry 0x20 [hw n (p * 256 + v), if v = 0 then 0 else s.queuesOf v] ++ [0x1FFFF, 8]

/-- A word of a table that is built before READY. -/
def State.capWord (s : State) (l : List Nat) (off : Nat) : Nat := if s.glb.capv then l.getD (off / 4) 0 else 0

/-! ### Values of the block registers -/

/-- A word of a byte list. -/
def wordAt (bs : List Byte) (off : Nat) : Nat := leNat ((bs.drop off).take 4)

def State.glbValue (s : State) (o : Nat) : Nat :=
  let g := s.glb
  if o = 0x00 then 0xA9D01D9E
  else if o = 0x04 then 0xB000
  else if o = 0x08 then stageCode g.stage * 2 ^ 24 + b2n (g.nme ≠ 0#15) * 2 ^ 4 + b2n g.capv * 2 ^ 3 + b2n g.spareClkmon * 2 ^ 2 +
    b2n g.spareToll * 2 + b2n g.ready
  else if o = 0x0C then b2n s.host.single * 2 ^ 8 + s.fw.strap % 256
  else if o = 0x10 then g.nme.toNat
  else if o = 0x14 then b2n g.nmeValid * 2 ^ 31 + g.nmeBit
  else if o = 0x18 then g.nmeTime
  else if o = 0x20 then hw (s.sec.active.version % 65536) (s.sec.active.devfw % 65536)
  else if o = 0x24 then hw (s.sec.rollback % 65536) (s.sec.active.phyfw % 65536)
  else if o < 0x40 then s.reg o
  else
    let p := (o - 0x40) / 0x10
    let x := s.port p
    if p = 1 ∧ s.host.single then 0
    else match (o - 0x40) % 0x10 with
      | 0 => x.hdbDrop
      | 4 => x.ur
      | 8 => x.ideFail
      | _ => x.refused

/-- A word of the snapshot as a function sees it: the one it latched, or the latest (R426). -/
def State.snapWord (s : State) (f i : Nat) : Nat :=
  ((sget none s.pwr.snapLatch f).getD s.pwr.snap).getD i 0#32 |>.toNat

def State.pctValue (s : State) (f o : Nat) : Nat :=
  let w := s.pwr
  let j (i : Nat) : Nat := b2n (sget {} w.src i).stable
  if o = 0x00 then (s.half 0).code * 2 ^ 24 + (s.half 1).code * 2 ^ 16 + w.gate * 2 ^ 10 + b2n w.stretch * 2 ^ 9 + b2n s.safe * 2 ^ 8 +
    b2n w.throt * 2 ^ 7 + b2n (sget {} s.side.ins 0).storm * 2 ^ 6 + b2n w.capHit * 2 ^ 5 + b2n s.splitNow * 2 ^ 4
  else if o = 0x04 then b2n w.ooo * 2 ^ 31 + b2n w.loss * 2 ^ 30 + w.rail * 2 ^ 24 +
    ((List.range 12).map fun i => b2n (sget {} w.rails i).pg * 2 ^ i).sum
  else if o = 0x08 then j 4 * 2 ^ 21 + j 3 * 2 ^ 20 + j 2 * 2 ^ 19 + j 1 * 2 ^ 18 + j 0 * 2 ^ 17 + b2n (!w.rcFail) * 2 ^ 16 +
    b2n w.aonRc * 2 ^ 4 + b2n (s.half 1).hbmFail * 2 ^ 3 + b2n (s.half 0).hbmFail * 2 ^ 2 + b2n (s.half 1).onRc * 2 + b2n (s.half 0).onRc
  else if o = 0x14 then s.reg (basePct + o) + w.capViol
  else if o = 0x1C then hw (w.pkg % 65536) (w.core % 65536)
  else if o = 0x20 then w.hc * 2 ^ 24 + w.hp * 2 ^ 16 + w.ht * 2 ^ 8 + w.hr
  else if o = 0x28 then s.hotStack * 2 ^ 24 + (s.half 1).tj * 2 ^ 16 + (s.half 0).tj * 2 ^ 8
  else if o = 0x30 then ilvl
  else if o = 0x34 then w.evt.toNat
  else if o = 0x38 then s.reg (basePct + o) + w.droops * 2 ^ 16
  else if o < 0x40 then s.reg (basePct + o)
  else if o = 0x40 then (s.pwr.snap.getD 0 0#32).toNat
  else if o < 0x100 then s.snapWord f ((o - 0x40) / 4)
  else if o < 0x200 then
    let r := (sget {} w.rails ((o - 0x100) / 8) : Rail)
    if o % 8 = 0 then hw (r.iout % 65536) (r.vout % 65536) else hw (r.status % 65536) (r.temp % 256)
  else
    let n := 32 + (o - 0x200) / 4
    hw (vfuse 1 n) (vfuse 0 n)

def State.errValue (s : State) (o : Nat) : Nat :=
  let r := s.rst
  if o = 0x00 then b2n r.running.isSome * 2 ^ 31 + (r.running.elim 0 (·.level)) * 2 ^ 28 + r.waiting.length * 2 ^ 16 +
    b2n ((r.head + 1) % 512 = r.tail) * 2 + b2n r.rsvw
  else if o = 0x04 then r.head
  else if o = 0x08 then r.tail
  else if o = 0x0C then r.maxSev * 2 ^ 26 + r.lost
  else if o = 0x14 then b2n r.coldB * 2 + b2n r.coldA
  else if o = 0x18 then r.count5 * 2 ^ 16 + r.lastCause * 2 ^ 8 + r.lastLevel
  else if o = 0x30 then b2n r.capValid * 2 ^ 31 + r.capSeq
  else if o = 0x10 then 0
  else s.reg (baseErr + o)

/-- SEC_MBDOOR, SEC_MBSTAT and SEC_STATE of a mailbox (R383). -/
def State.mboxValue (s : State) (m : Mbox) (grants o : Nat) : Nat :=
  if o = 4 then b2n m.busy * 2 ^ 31 + b2n m.done * 2 ^ 30 + m.result * 2 ^ 16 + m.rlen
  else if o = 8 then b2n s.sec.staged.isSome * 2 ^ 16 + grants * 2 ^ 8 + b2n s.sec.jtag * 2 ^ 2 + s.dbgLevel
  else 0

/-- A word of a mailbox's buffers. -/
def Mbox.bufWord (m : Mbox) (o : Nat) : Nat :=
  if 0x1000 ≤ o ∧ o < 0x1800 then readLE m.req (o - 0x1000) 4
  else if 0x2000 ≤ o ∧ o < 0x2800 then readLE m.rep (o - 0x2000) 4
  else 0

/-- CMP_VDSTAT. -/
def State.vdStat (s : State) (v : Nat) : Nat :=
  let d := s.vd v
  let cs := d.carves.map Prod.snd
  d.altIdx * 2 ^ 56 + d.epoch * 2 ^ 52 + b2n (d.oldPlace.isSome || cs.any fun c => c.old.isSome) * 2 ^ 51 + b2n d.degraded * 2 ^ 50 +
    b2n d.quiet * 2 ^ 49 + b2n (s.spans v) * 2 ^ 48 + vdCode d.st * 2 ^ 45 + d.place.slots.length * 2 ^ 32 +
    (s.podsOf v).length * 2 ^ 24 + (cs.map fun c => c.chans.length).sum * 2 ^ 15 + (cs.map fun c => c.guar).sum % 2 ^ 15

def State.cmpValue (s : State) (o : Nat) : Nat :=
  let c := s.cmp
  if o = 0x00 then (s.vds.filter fun e => !e.2.changes.isEmpty).length * 2 ^ 8 + b2n (c.roleState ≠ 0) * 2 + b2n (c.opState = 1)
  else if o = 0x0C then c.seamLoad % 2 ^ 14
  else if o = 0x10 then 0
  else if o = 0x20 then b2n c.refused * 2 ^ 8 + c.result * 2 ^ 4 + c.opState
  else if o = 0x34 then c.served * 2 ^ 16 + c.roleResult * 2 ^ 12 + c.roleState * 2 ^ 8 + b2n c.memRole
  else if o ≥ 0x100 then s.vdStat ((o - 0x100) / 8)
  else s.reg (baseCmp + o)

/-- SCH registers: classes 14 and 15 show KIND FEEDBACK and what feedback has set (R331, R335). -/
def State.schValue (s : State) (o : Nat) : Nat :=
  let r := s.reg (baseSch + o)
  if o = 0x38 then 2 * 2 ^ 30 + s.sch.w14 * 2 ^ 16 + r % 4096
  else if o = 0x3C then 2 * 2 ^ 30 + s.sch.w15 * 2 ^ 16 + r % 4096
  else if o = 0x78 then s.sch.ot14
  else if o = 0x7C then s.sch.ot15
  else if o ≥ 0x1000 ∧ o % 8 = 4 then
    let d := s.vd ((o - 0x1000) / 8)
    (d.ctx.getD 0) * 2 ^ 12 + b2n d.ctx.isSome * 4 + b2n d.scarce * 2 + b2n d.degraded
  else r

/-- A register of a queue pair. -/
def QueuePair.value (p : QueuePair) (o : Nat) : Nat :=
  if o = 0x00 then b2n p.en * 2 ^ 31 + p.sqsz * 2 ^ 16 + p.cqsz * 2 ^ 12 + p.vec
  else if o = 0x08 then p.sqbase
  else if o = 0x10 then p.cqbase
  else if o = 0x18 then p.head
  else if o = 0x1C then hw p.cqhead p.cqtail
  else p.dberr * 2 ^ 16 + p.err * 2 ^ 4 + queueCode p.st

/-- The queue pair of a VD's local queue. -/
def State.lqPair (s : State) (v lq : Nat) : Option Nat :=
  (s.que.pairs.find? fun e => e.2.assigned && e.2.vd = v && e.2.lq = lq).map Prod.fst

/-- A register of a VD's local queue. -/
def State.lqValue (s : State) (v o : Nat) : Nat :=
  match s.lqPair v (o / 0x40) with
  | some q => (s.pair q).value (o % 0x40)
  | none => 0

def State.queValue (s : State) (o : Nat) : Nat :=
  if o < 0x4000 then s.lqValue 0 o
  else if o = 0x9000 then s.que.seq
  else if o = 0x9008 then s.reg (baseQue + o)
  else
    let p := s.pair ((o - 0xA000) / 4)
    if p.assigned then 2 ^ 15 + p.vd * 2 ^ 8 + p.lq else 0

/-- XLT_SYSROOT or XLT_VDROOT, and XLT_FSTAT, of a space. -/
def State.xltValue (s : State) (v o : Nat) : Nat :=
  let x := s.space v
  if o = 0 then x.root.toNat + b2n x.busy * 2
  else if o = 0x10 then ((List.range 32).map fun i => b2n (sget none x.ring i).isSome * 2 ^ i).sum
  else if o = 0x08 then s.reg (baseXlt + 8)
  else if o ≥ 0x100 then ((s.space ((o - 0x100) / 4)).ring.filter fun e => e.2.isSome).length
  else 0

/-- HBM_CHECC, HBM_CHINTEG and HBM_CHBUD of a channel: the PF's copies, or the VF's. -/
def Chan.value (c : Chan) (vf : Bool) (o : Nat) : Nat :=
  if o = 0 then c.owner * 2 ^ 20 + chCode c.st * 2 ^ 16 + c.mode * 2 ^ 14 + b2n c.retReq * 2 ^ 13
  else if o = 4 then (if vf then hw c.uncorrVf c.corrVf else hw c.uncorr c.corr)
  else if o = 8 then (if vf then c.tagFailVf * 2 ^ 16 + c.rmwFailVf * 2 ^ 8 + c.keyRefVf
    else c.tagFail * 2 ^ 16 + c.rmwFail * 2 ^ 8 + c.keyRef)
  else hw c.metam c.budget

def State.hbmValue (s : State) (o : Nat) : Nat :=
  let n := o / 0x10000
  let w := o % 0x10000
  let k := s.stack n
  if w = 0 then k.temp * 2 ^ 16 + b2n k.refr2 * 2 ^ 10 + s.hbm.rate * 2 ^ 8 + b2n k.hot * 2 + b2n k.trained
  else if w = 0x10 then s.reg (baseHbm + o)
  else (s.chan (32 * n + (w - 0x100) / 0x10)).value false (w % 0x10)

def State.mpeValue (s : State) (o : Nat) : Nat :=
  let k := s.key ((o - 0x1000) / 4)
  b2n k.weight * 2 ^ 18 + k.vd * 2 ^ 11 + k.gen * 2 ^ 3 + keyCode k.st

def Bin.value (b : Bin) : Nat :=
  let owned : Bool := b.st = .owned || b.st = .incoming || b.st = .hot
  (if b.st = .hot then b.hotId * 2 ^ 18 else 0) + (if owned then b.owner * 2 ^ 11 else 0) + b2n b.retReq * 2 ^ 10 + b.unc * 2 ^ 5 +
    binCode b.st

/-- Passes completed by the slowest pod region (R184). -/
def State.slowestPasses (s : State) : Nat :=
  (List.range 128).foldl (fun m p => min m (s.region p).passes) 65535

def State.sbkValue (s : State) (o : Nat) : Nat :=
  if o < 0x800 then (s.bin (o / 4)).value
  else if o < 0x2000 then
    let r := s.region ((o - 0x1000) / 0x10)
    if o % 0x10 = 0 then hw r.uncorr r.corr else r.fail
  else if o = 0x2004 then hw s.sbk.late (s.slowestPasses % 65536)
  else if o = 0x2008 then s.clearPending
  else if o = 0x3000 then s.sbk.arbSel
  else if o = 0x3004 then s.sbk.latched.grants
  else if o = 0x3008 then s.sbk.latched.waitSum
  else if o = 0x300C then s.sbk.latched.waitMax
  else s.reg (baseSbk + o)

/-- DRL_PODCFG to DRL_PODECC of a pod. -/
def Pod.value (p : Pod) (vf : Bool) (o : Nat) : Nat :=
  if o = 0 then p.vd * 2 ^ 16 + p.openE.toNat * 2 ^ 8 + p.orient
  else if o = 4 then (if vf then p.bndVf else p.bnd)
  else if o = 8 then (if vf then hw p.unclaimedVf p.emptyVf else hw p.unclaimed p.empty)
  else if vf then hw p.uncorrVf p.corrVf else hw p.uncorr p.corr

def State.drlValue (s : State) (o : Nat) : Nat :=
  if o = 0 then b2n ((skeys s.vds).any fun v => s.spans v) * 4 + b2n s.seam.locked * 2 + b2n s.seam.isOpen
  else if o = 4 then s.seam.drop
  else (s.pod ((o - 0x1000) / 0x40)).value false (o % 0x40)

def State.fwlValue (s : State) (o : Nat) : Nat :=
  if o < 0x80000 then
    let p := o / 0x4000
    let x := s.fport p
    match o % 0x4000 with
    | 0x04 => portCode x.st * 2 ^ 24 + x.cause * 2 ^ 20 + x.actLanes * 2 ^ 16 + x.pkind * 2 ^ 10 + x.pdev
    | 0x08 => x.pinc
    | 0x0C => x.cap
    | 0x10 => hw x.malformed x.tagFail
    | 0x14 => hw x.retry x.credStall
    | 0x18 => hw x.rateDrop x.late
    | _ => s.reg (baseFwl + o)
  else
    let d := s.reg (baseFwlDev + 0x10)
    let q := s.peer d
    match o - 0x80000 with
    | 0x00 => s.devCfg
    | 0x04 => hw s.fw.inc ((s.fw.peers.filter fun e => e.1 < 1024 && e.2.session).length)
    | 0x14 => (if q.session then 1 else if q.lost then 2 else 0) * 2 ^ 30 + q.sepoch * 2 ^ 22 + b2n q.switched * 2 ^ 16 + q.inc
    | 0x18 => ((s.directPorts d).map fun p => 2 ^ p).sum
    | _ => s.reg (baseFwl + o)

def State.tollValue (s : State) (f o : Nat) : Nat :=
  let w := s.fw
  match o with
  | 0x00 => s.toll % 2 ^ 32
  | 0x04 => (sget 0#32 s.glb.tollHi f).toNat
  | 0x08 => w.epoch * 2 ^ 16 + b2n w.synced * 2 ^ 15 + b2n w.holdover * 2 ^ 14 + b2n w.master * 2 ^ 13 + b2n w.extref * 2 ^ 12 +
      b2n s.lag * 2 ^ 11 + w.hops
  | 0x0C => s.masterDev * 2 ^ 16 + s.masterPrio * 2 ^ 8 + b2n w.up.isNone * 2 ^ 5 + w.up.getD 0
  | 0x14 => (s.half 0).code * 2 ^ 16 + (w.next.elim 0 Prod.fst) * 2 ^ 8 + w.head
  | 0x18 => (w.next.elim 0 Prod.snd) % 2 ^ 32
  | 0x1C => (w.offset % 2 ^ 32).toNat
  | _ => s.reg (baseToll + o)

/-- The value of the PF register that starts at address a, as function f sees it. -/
def State.pfValue (s : State) (f a : Nat) : Nat :=
  if a < basePct then s.glbValue a
  else if a < baseErr then s.pctValue f (a - basePct)
  else if a < baseSec then s.errValue (a - baseErr)
  else if a < baseCmp then s.mboxValue s.sec.mb s.grantCount (a - baseSec)
  else if a < baseSch then s.cmpValue (a - baseCmp)
  else if a < baseQue then s.schValue (a - baseSch)
  else if a < baseXlt then s.queValue (a - baseQue)
  else if a < baseMpe then s.xltValue 0 (a - baseXlt)
  else if a < baseHbm then s.mpeValue (a - baseMpe)
  else if a < baseSbk then s.hbmValue (a - baseHbm)
  else if a < baseDrl then s.sbkValue (a - baseSbk)
  else if a < baseFwl then s.drlValue (a - baseDrl)
  else if a < baseToll then s.fwlValue (a - baseFwl)
  else s.tollValue f (a - baseToll)

/-! ### MSI-X structures (R255, R256) -/

/-- A word of a function's Pending Bit Array. -/
def State.pbaWord (s : State) (f o : Nat) : Nat :=
  ((List.range 32).map fun i => b2n (sget false s.host.pba (2048 * f + 8 * o + i)) * 2 ^ i).sum

/-- A word of an MSI-X table with n entries or of its Pending Bit Array, o bytes from the table. -/
def State.msixDword (s : State) (f n o : Nat) : Nat :=
  if o < 16 * n then (s.msixWord f (o / 4)).toNat
  else if 0x8000 ≤ o ∧ o < 0x8000 + n / 8 then s.pbaWord f (o - 0x8000)
  else 0

/-! ### The journal window (R292, R459) -/

/-- The 128 bytes of the record a window slot shows. -/
def State.journalSlot (s : State) (slot : Nat) : List Byte :=
  let r := s.jrec ((s.reg (baseQue + 0x9008) + slot) % journalSize)
  if r.seq = 0 then List.replicate 128 0#8
  else if r.vd = 0 then s.clearRec r
  else r.header ++ leBytes 80 r.body.toNat ++ leBytes 16 r.tag.toNat

/-! ### The debug aperture (R397, R398) -/

/-- Bytes of a core's save record, the layout the aperture shows a core in (assumption 12). -/
def State.coreWord (s : State) (c off : Nat) : DWord :=
  let k := s.core c
  let l := k.saveLine (k.control 0) (s.pod (corePod c)).orient k.rbeat (off / 64)
  BitVec.ofNat 64 (l.1.toNat / 2 ^ (8 * (off % 64)))

/-- Change 8 bytes of a core's save record in the core itself. -/
def Core.poke (k : Core) (orient off : Nat) (v : DWord) : Core :=
  if off < 0x20000 then { k with pocket := writeLE k.pocket off 8 v.toNat }
  else if off < 0x28000 then
    let i := (off - 0x20000) / 4
    { k with acc := sput 0#32 (i + 1) (BitVec.ofNat 32 (v.toNat / 2 ^ 32)) (sput 0#32 i (BitVec.ofNat 32 v.toNat) k.acc) }
  else if off < 0x2A000 then
    let r := (off - 0x28000) / 256
    let b := 8 * ((off - 0x28000) % 256)
    let x := k.getV r
    k.setV r ((x &&& ~~~(BitVec.ofNat 2048 (2 ^ 64 - 1) <<< b)) ||| (BitVec.ofNat 2048 v.toNat <<< b))
  else if off < 0x2AC00 then
    let i := (off - 0x2A000) / 64
    let b := 8 * (off % 64)
    let p := portMap orient (i / 12)
    let l := (sget [] k.skid p).map fun (d : Datum) =>
      if d.due = k.rbeat + i % 12 then
        { d with data := (d.data &&& ~~~(BitVec.ofNat 512 (2 ^ 64 - 1) <<< b)) ||| (BitVec.ofNat 512 v.toNat <<< b) }
      else d
    { k with skid := sput [] p l k.skid }
  else
    let k := k.settleAll
    let ctl := (k.control 0).map fun (e : Nat × Byte) => (e.1 - 0x2AC00, e.2)
    k.takeControl (writeLE ctl (off - 0x2AC00) 8 v.toNat)

/-- Bytes of a mapped target. -/
def State.debugSize (s : State) (m : DebugMap) : Nat :=
  match m.kind with
  | 0 => 2 ^ 40
  | 1 => 2 ^ 24
  | 2 => 64 * saveLines
  | 3 => (s.carve (s.liveGrant.elim 0 Prod.fst) m.index).chans.length * chanData (s.carve (s.liveGrant.elim 0 Prod.fst) m.index).mode
  | 4 => 2 ^ 24
  | _ => 64 * saveLines

/-- The core a mapping names. -/
def State.debugCore (s : State) (m : DebugMap) : Option Nat :=
  if m.kind = 2 then some m.index else s.liveGrant.bind fun g => s.shapeCoreOf g.1 m.index

/-- The VD, key ID and VD memory address of an HBM target. -/
def State.debugHbm (s : State) (m : DebugMap) (off : Nat) : Nat × Nat × Nat :=
  if m.kind = 0 then (0, 0, off)
  else
    let v := s.liveGrant.elim 0 Prod.fst
    (v, (s.carve v m.index).key, m.index * 2 ^ 40 + off)

/-- The bin a mapping names. -/
def State.debugBin (s : State) (m : DebugMap) : Nat :=
  if m.kind = 1 then s.systemBins.getD m.index 0 else (s.vd (s.liveGrant.elim 0 Prod.fst)).place.slots.getD m.index 0

/-- The target and offset that an aperture offset reaches, none outside it. -/
def State.debugTarget (s : State) (off : Nat) : Option (DebugMap × Nat) :=
  s.sec.dmap.bind fun m =>
    let o := (m.off + off) / 8 * 8
    if s.debugReach m && o + 8 ≤ s.debugSize m then some (m, o) else none

/-- Read 8 bytes through the aperture: zero outside the target, and where the target's line fails its checks. -/
def State.debugRead (s : State) (off : Nat) : DWord × State :=
  match s.debugTarget off with
  | none => (0#64, s)
  | some (m, o) => match m.kind with
    | 0 => let h := s.debugHbm m o
      (match s.mpeRead h.1 h.2.1 h.2.2 false .clean with
      | (.ok d, s) => (lineWord (d.getD 0 0#512) h.2.2, s)
      | (_, s) => (0#64, s))
    | 3 => let h := s.debugHbm m o
      (match s.mpeRead h.1 h.2.1 h.2.2 false .clean with
      | (.ok d, s) => (lineWord (d.getD 0 0#512) h.2.2, s)
      | (_, s) => (0#64, s))
    | 2 => (s.coreWord m.index o, s)
    | 5 => (match s.debugCore m with
      | some c => (s.coreWord c o, s)
      | none => (0#64, s))
    | _ => (match s.sbPerform (s.debugBin m) (o / 64) .read .clean with
      | (.data d _, s) => (lineWord d o, s)
      | (_, s) => (0#64, s))

/-- Write 8 bytes through the aperture; a granted target needs WRITE. -/
def State.debugWrite (s : State) (off : Nat) (v : DWord) : State :=
  match s.debugTarget off with
  | none => s
  | some (m, o) =>
    if m.kind ≥ 3 ∧ !(s.liveGrant.any fun g => g.2.scope.getLsbD 3) then s
    else match m.kind with
    | 1 => (s.sbPerform (s.debugBin m) (o / 64) (.write (BitVec.ofNat 512 v.toNat <<< (8 * (o % 64)))
        (BitVec.ofNat 64 0xFF <<< (o % 64)) false) .clean).2
    | 4 => (s.sbPerform (s.debugBin m) (o / 64) (.write (BitVec.ofNat 512 v.toNat <<< (8 * (o % 64)))
        (BitVec.ofNat 64 0xFF <<< (o % 64)) false) .clean).2
    | 2 => s.setCore m.index ((s.core m.index).poke (s.pod (corePod m.index)).orient o v)
    | 5 => (match s.debugCore m with
      | some c => s.setCore c ((s.core c).poke (s.pod (corePod c)).orient o v)
      | none => s)
    | _ =>
      let h := s.debugHbm m o
      let g := s.granAt h.1 h.2.2
      let base := h.2.2 / g * g
      let bs := leBytes 8 v.toNat
      (s.mpeWrite h.1 h.2.1 base false ((List.range g).map fun i =>
        if base + i < h.2.2 then none else bs[base + i - h.2.2]?)).2

/-! ### A DWORD of PF BAR0 (R454–R462) -/

/-- Does an address of PF BAR0 answer in the present stage (R462)? -/
def State.pfAnswers (s : State) (a : Nat) : Bool :=
  let early : Bool := a < basePct || (baseErr ≤ a && a < baseSec)
  let msix : Bool := baseMsix ≤ a && a < basePba + 0x100
  match s.glb.stage with
  | .run => true
  | .halted => early
  | _ => early || msix

/-- A DWORD of PF BAR0 that lies in no register: records, buffers, the capability table, MSI-X, the journal window. -/
def State.pfPlain (s : State) (f a : Nat) : Nat :=
  if 0x1000 ≤ a ∧ a < 0x2000 then s.capWord s.capPf (a - 0x1000)
  else if baseErr + 0x8000 ≤ a ∧ a < baseErr + 0x10000 then
    wordAt (s.errBytes ((a - (baseErr + 0x8000)) / 0x40)) (a % 0x40)
  else if baseSec ≤ a ∧ a < baseCmp then s.sec.mb.bufWord (a - baseSec)
  else if baseXlt + 0x1000 ≤ a ∧ a < baseXlt + 0x1800 then
    wordAt (s.faultBytes 0 ((a - (baseXlt + 0x1000)) / 0x40)) (a % 0x40)
  else if baseMsix ≤ a ∧ a < baseJrn then s.msixDword (if f < 2 then f else 0) 2048 (a - baseMsix)
  else if baseJrn ≤ a ∧ a < baseDbg then wordAt (s.journalSlot ((a - baseJrn) / 128)) (a % 128)
  else 0

/-- A DWORD of PF BAR0 as function f reads it, without the effects of the read and outside the debug aperture. -/
def State.pfPeek (s : State) (f a : Nat) : Nat :=
  match findReg pfSpans a with
  | some (b, r, hi) =>
    let v := s.pfValue f b
    if hi then v / 2 ^ 32 else if r.wide then v % 2 ^ 32 else v
  | none => s.pfPlain f a

/-! ### A DWORD of VF BAR0 (R256, R263, R466) -/

/-- The identity page (R466). -/
def State.vfidValue (s : State) (p n o : Nat) : Nat :=
  let x := s.vf p n
  match o with
  | 0x00 => 0xA9D11D9E
  | 0x04 => b2n (x.vd ≠ 0) * 2 ^ 31 + p * 2 ^ 16 + n * 2 ^ 8 + x.vd
  | 0x08 => b2n (s.glb.stage = .warm) * 2 ^ 5 + b2n s.glb.ready * 2 ^ 4 + tdiCode x.tdi
  | 0x10 => s.toll % 2 ^ 32
  | 0x14 => (sget 0#32 s.glb.vfTollHi (vfFn p n)).toNat
  | _ => s.fw.epoch

/-- Global pod of shape pod q of a VD, and the channel at a position of a carve-out. -/
def State.podAt (s : State) (v q : Nat) : Option Nat := (s.vd v).place.pods[q]?
def State.chanAt (s : State) (v k j : Nat) : Option Nat := (s.carve v k).chans[j]?

/-- The registers of the VF control window of VD v beyond the identity page. -/
def State.vdValue (s : State) (v a : Nat) : Nat :=
  let d := s.vd v
  if a < 0x20000 then s.lqValue v (a - 0x10000)
  else if a < 0x30000 then s.xltValue v (a - 0x20000)
  else if a < 0x40000 then
    (match a - 0x30000 with
     | 0 => b2n ((d.errHead + 1) % 64 = d.errTail) * 2 + b2n (d.vf.elim false fun q => (s.vf q.1 q.2).rsvw)
     | 4 => d.errHead
     | 8 => d.errTail
     | _ => d.errLost)
  else if a < 0x50000 then s.mboxValue d.sec.mb (min 255 d.sec.grants.length) (a - 0x40000)
  else if a < 0x80000 then
    let o := a - 0x50000
    if o = 0 then d.fbt
    else if o = 4 then b2n d.quiet * 4 + b2n d.scarce * 2 + b2n d.degraded
    else if o = 8 then d.evt.toNat
    else if o < 0x20 then sget 0 d.allot ((o - 0x10) / 4)
    else if o = 0x20 then ((List.range 32).map fun p => sget 0 s.sch.portAllot (128 * p + v)).sum
    else
      let c := (sget {} d.cls ((o - 0x100) / 0x10) : ClassCnt)
      (match o % 0x10 with
       | 0 => c.lines
       | 4 => c.demoted
       | 8 => c.wmax
       | _ => c.late)
  else if a < 0x90000 then
    (match s.podAt v ((a - 0x80000) / 0x40) with
     | some p => (s.pod p).value true (a % 0x40)
     | none => 0)
  else if a < 0xA0000 then
    (match s.podAt v ((a - 0x90000) / 0x10) with
     | some p => hw (s.region p).uncorrVf (s.region p).corrVf
     | none => 0)
  else match s.chanAt v ((a - 0xA0000) / 0x1000) (a % 0x1000 / 0x10) with
    | some g => (s.chan g).value true (a % 0x10)
    | none => 0

/-- A byte range of the VF window that holds no register. -/
def State.vdPlain (s : State) (f v a : Nat) : Nat :=
  let d := s.vd v
  if 0x21000 ≤ a ∧ a < 0x21800 then wordAt (s.faultBytes v ((a - 0x21000) / 0x40)) (a % 0x40)
  else if 0x31000 ≤ a ∧ a < 0x32000 then wordAt (s.vdErrBytes v ((a - 0x31000) / 0x40)) (a % 0x40)
  else if 0x32000 ≤ a ∧ a < 0x34000 then
    (if s.rst.capValid then readLE s.rst.capTenant (8192 * (v - 1) + (a - 0x32000)) 4 else 0)
  else if 0x40000 ≤ a ∧ a < 0x50000 then d.sec.mb.bufWord (a - 0x40000)
  else if 0x100000 ≤ a ∧ a < 0x110000 then s.msixDword f 64 (a - 0x100000)
  else 0

/-- A DWORD of the VF window of VF n of a port attached to VD v. -/
def State.vfPeek (s : State) (p n v a : Nat) : Nat :=
  if a < 0x10000 then
    (if 0x1000 ≤ a ∧ a < 0x2000 then s.capWord (s.capVf p n) (a - 0x1000)
     else if (findReg vfSpans a).isSome then s.vfidValue p n a else 0)
  else match findReg vfSpans a with
    | some (b, r, hi) =>
      let x := s.vdValue v b
      if hi then x / 2 ^ 32 else if r.wide then x % 2 ^ 32 else x
    | none => s.vdPlain (vfFn p n) v a

end Sys2Proof.Machine
end

