-- ==== Sys2Proof/Machine/Regs.lean ====
section
/-!
DEFINITION. Accesses to the register space (spec/17 R455–R467): reads with their side effects, writes with R10 and R11,
the staging of 64-bit registers, doorbells, and the rows of the host's register accesses.
-/
namespace Sys2Proof.Machine

/-! ### Who may reach what (R253, R263, R462, R466) -/

/-- How an access is met: it reaches its target, it hits an unused range, or it gets Unsupported Request. -/
inductive Gate where
  | pass
  | dead
  | ur
  deriving DecidableEq, Repr

/-- Can a host port carry requests? -/
def State.portLive (s : State) (p : Nat) : Bool :=
  s.portThere p && (s.port p).up && !s.rst.heldInReset && !s.pwr.tripped

/-- An access of a PF to its BAR0. -/
def State.pfGate (s : State) (f a : Nat) : Gate :=
  if f < 2 ∧ s.portLive f ∧ !s.inD3 f ∧ s.pfAnswers a then .pass else .dead

/-- An access of a VF: its identity page answers in every TDI state, to a bound TDI's own stream in CONFIG_LOCKED and RUN;
the rest answers only then (assumption 13). -/
def State.vfGate (s : State) (a : Access) (off : Nat) : Gate :=
  let p := fnPort a.fn
  let n := fnVf a.fn
  let x := s.vf p n
  let page : Bool := off < 0x10000
  if !s.portLive p ∨ !s.fnThere a.fn ∨ s.inD3 a.fn then .dead
  else match s.glb.stage with
    | .run => (match x.tdi with
      | .configUnlocked => if page then .pass else .dead
      | .error => if page then .pass else .ur
      | _ => if !a.tee then .ur else if page ∨ x.vd ≠ 0 then .pass else .dead)
    | .warm => if page then .pass else .dead
    | .halted => if off < 0x1000 then .pass else .dead
    | _ => .dead

/-- A request answered with Unsupported Request is counted (R263). -/
def State.countUr (s : State) (f : Nat) : State :=
  s.setPort (fnPort f) { s.port (fnPort f) with ur := satAdd 32 (s.port (fnPort f)).ur 1 }

/-- A doorbell write that is dropped is counted (R255, R461). -/
def State.countDrop (s : State) (p : Nat) : State := s.setPort p { s.port p with hdbDrop := satAdd 32 (s.port p).hdbDrop 1 }

/-! ### Clearing on read (R10, R460) -/

/-- The RC fields of a PF register are cleared. -/
def State.pfClear (s : State) (b : Nat) : State :=
  if b < basePct then
    if 0x40 ≤ b ∧ b < 0x60 then
      let p := (b - 0x40) / 0x10
      let x := s.port p
      if !s.portThere p then s
      else match b % 0x10 with
        | 0 => s.setPort p { x with hdbDrop := 0 }
        | 4 => s.setPort p { x with ur := 0 }
        | 8 => s.setPort p { x with ideFail := 0 }
        | _ => s.setPort p { x with refused := 0 }
    else s
  else if b = basePct + 0x14 then { s with pwr := { s.pwr with capViol := 0 } }
  else if b = basePct + 0x38 then { s with pwr := { s.pwr with droops := 0 } }
  else if b = baseErr + 0x0C then { s with rst := { s.rst with lost := 0, maxSev := 0 } }
  else if baseQue ≤ b ∧ b < baseQue + 0x4000 ∧ b % 0x40 = 0x20 then
    match s.lqPair 0 ((b - baseQue) / 0x40) with
    | some q => s.setPair q { s.pair q with dberr := 0 }
    | none => s
  else if baseHbm ≤ b ∧ b < baseSbk then
    let w := (b - baseHbm) % 0x10000
    let g := 32 * ((b - baseHbm) / 0x10000) + (w - 0x100) / 0x10
    if w < 0x100 then s
    else if w % 0x10 = 4 then s.setChan g { s.chan g with uncorr := 0, corr := 0 }
    else if w % 0x10 = 8 then s.setChan g { s.chan g with tagFail := 0, rmwFail := 0, keyRef := 0 }
    else s
  else if baseSbk + 0x1000 ≤ b ∧ b < baseSbk + 0x2000 then
    let p := (b - (baseSbk + 0x1000)) / 0x10
    if b % 0x10 = 0 then s.setRegion p { s.region p with uncorr := 0, corr := 0 }
    else s.setRegion p { s.region p with fail := 0 }
  else if b = baseSbk + 0x2004 then { s with sbk := { s.sbk with late := 0 } }
  else if b = baseDrl + 4 then { s with seam := { s.seam with drop := 0 } }
  else if baseDrl + 0x1000 ≤ b ∧ b < baseFwl then
    let p := (b - (baseDrl + 0x1000)) / 0x40
    match b % 0x40 with
    | 0 => s
    | 4 => s.setPod p { s.pod p with bnd := 0 }
    | 8 => s.setPod p { s.pod p with unclaimed := 0, empty := 0 }
    | _ => s.setPod p { s.pod p with uncorr := 0, corr := 0 }
  else if baseFwl ≤ b ∧ b < baseFwlDev then
    let p := (b - baseFwl) / 0x4000
    let x := s.fport p
    match (b - baseFwl) % 0x4000 with
    | 0x10 => s.setFport p { x with malformed := 0, tagFail := 0 }
    | 0x14 => s.setFport p { x with retry := 0, credStall := 0 }
    | 0x18 => s.setFport p { x with rateDrop := 0, late := 0 }
    | _ => s
  else s

/-- The RC fields of a register in VD v's window are cleared: the VF's own copies (R152, R184, R222). -/
def State.vdClear (s : State) (v b : Nat) : State :=
  let d := s.vd v
  if b < 0x10000 then s
  else if b < 0x20000 then
    if b % 0x40 ≠ 0x20 then s
    else match s.lqPair v ((b - 0x10000) / 0x40) with
      | some q => s.setPair q { s.pair q with dberr := 0 }
      | none => s
  else if b = 0x3000C then s.setVd v { d with errLost := 0 }
  else if 0x50100 ≤ b ∧ b < 0x60000 then
    let c := (b - 0x50100) / 0x10
    let x := (sget {} d.cls c : ClassCnt)
    let y : ClassCnt := match b % 0x10 with
      | 0 => { x with lines := 0 }
      | 4 => { x with demoted := 0 }
      | 8 => { x with wmax := 0 }
      | _ => { x with late := 0 }
    s.setVd v { d with cls := sput {} c y d.cls }
  else if 0x80000 ≤ b ∧ b < 0x90000 then
    match s.podAt v ((b - 0x80000) / 0x40) with
    | none => s
    | some p => (match b % 0x40 with
      | 0 => s
      | 4 => s.setPod p { s.pod p with bndVf := 0 }
      | 8 => s.setPod p { s.pod p with unclaimedVf := 0, emptyVf := 0 }
      | _ => s.setPod p { s.pod p with uncorrVf := 0, corrVf := 0 })
  else if 0x90000 ≤ b ∧ b < 0xA0000 then
    match s.podAt v ((b - 0x90000) / 0x10) with
    | none => s
    | some p => s.setRegion p { s.region p with uncorrVf := 0, corrVf := 0 }
  else if 0xA0000 ≤ b ∧ b < 0xB0000 then
    match s.chanAt v ((b - 0xA0000) / 0x1000) (b % 0x1000 / 0x10) with
    | none => s
    | some g =>
      if b % 0x10 = 4 then s.setChan g { s.chan g with uncorrVf := 0, corrVf := 0 }
      else if b % 0x10 = 8 then s.setChan g { s.chan g with tagFailVf := 0, rmwFailVf := 0, keyRefVf := 0 }
      else s
  else s

/-! ### Reads (R456, R457) -/

/-- The high half a function sees of a 64-bit register: the one it latched, or the present one (R457). -/
def State.highHalf (s : State) (f b v : Nat) : Nat :=
  match sget none s.glb.latched f with
  | some (b', h) => if b' = b then h.toNat else v / 2 ^ 32
  | none => v / 2 ^ 32

/-- A low read of a 64-bit register latches its high half. -/
def State.latchHigh (s : State) (f b v : Nat) : State :=
  { s with glb := { s.glb with latched := sput none f (some (b, BitVec.ofNat 32 (v / 2 ^ 32))) s.glb.latched } }

/-- The latches of TOLL_CNTHI and of the snapshot (R377, R426). -/
def State.latchRead (s : State) (f b : Nat) : State :=
  if b = baseToll then
    { s with glb := { s.glb with tollHi := sput 0#32 f (BitVec.ofNat 32 (s.toll / 2 ^ 32)) s.glb.tollHi } }
  else if b = basePct + 0x40 then
    { s with pwr := { s.pwr with snapLatch := sput none f (some s.pwr.snap) s.pwr.snapLatch } }
  else s

/-- A DWORD read of PF BAR0 by function f, with its side effects. -/
def State.pfRead (s : State) (f a : Nat) : Nat × State :=
  if a ≥ baseDbg then
    let r := s.debugRead (a - baseDbg)
    (if a % 8 = 0 then r.1.toNat % 2 ^ 32 else r.1.toNat / 2 ^ 32, r.2)
  else match findReg pfSpans a with
    | none => (s.pfPlain f a, s)
    | some (b, r, hi) =>
      let v := s.pfValue f b
      if hi then (s.highHalf f b v, s)
      else if r.wide then (v % 2 ^ 32, s.latchHigh f b v)
      else (v, (s.latchRead f b).pfClear b)

/-- A DWORD read of the window of a VF. -/
def State.vfRead (s : State) (f a : Nat) : Nat × State :=
  let p := fnPort f
  let n := fnVf f
  let v := (s.vf p n).vd
  if a < 0x10000 then
    let s' := if a = 0x10 then
        { s with glb := { s.glb with vfTollHi := sput 0#32 f (BitVec.ofNat 32 (s.toll / 2 ^ 32)) s.glb.vfTollHi } }
      else s
    (s.vfPeek p n v a, s')
  else match findReg vfSpans a with
    | none => (s.vfPeek p n v a, s)
    | some (b, r, hi) =>
      let x := s.vdValue v b
      if hi then (s.highHalf f b x, s)
      else if r.wide then (x % 2 ^ 32, s.latchHigh f b x)
      else (x, s.vdClear v b)

/-- A host's DWORD read at a DWORD-aligned address: what it returns is in `rdata`, nothing for Unsupported Request; byte
enables change nothing (R456). -/
def State.hostRead (s : State) (a : Access) (addr : Nat) : State :=
  let addr := addr / 4 * 4
  let g := if a.fn < 2 then s.pfGate a.fn addr else s.vfGate a addr
  match g with
  | .ur => (s.countUr a.fn).reply []
  | .dead => s.reply [0#64]
  | .pass =>
    let r := if a.fn < 2 then s.pfRead a.fn addr else s.vfRead a.fn addr
    r.2.reply [BitVec.ofNat 64 r.1]

/-! ### Registers with effects of their own -/

/-- A W1C write of GLB_NMECAUSE (R465). -/
def State.clearNme (s : State) (v : Nat) : State :=
  let n := s.glb.nme &&& ~~~(BitVec.ofNat 15 v)
  { s with glb := { s.glb with nme := n, nmeValid := s.glb.nmeValid && n ≠ 0#15 } }

/-- GO of ERR_RSTCTL (R432, R452). -/
def State.resetGo (s : State) (v : Nat) : State :=
  let level := v % 8
  if level < 2 ∨ level > 5 then s.setRsvw
  else if !bitOf v 31 then s
  else match level with
    | 2 => after (execResetRequestL2 (bitsOf v 22 16) s) s
    | 3 => after (execResetRequestL3 (bitsOf v 8 8) s) s
    | 4 => after (execResetRequestL4 s) s
    | _ => after (execResetRequestL5 s) s

/-- CMP_OPCMD (R318, R320). -/
def State.opcmdWrite (s : State) (v : Nat) : State :=
  let op := v % 16
  let s : State := { s with cmp := { s.cmp with opVd := bitsOf v 22 16 } }
  if op = 0 ∨ 5 < op then s.setRsvw else if bitOf v 31 then s.operatorGo op else s

/-- XLT_FRESOLVE of a space: whether the code was reserved, and the state (R245, R247). -/
def State.fresolve (s : State) (space v : Nat) : Bool × State :=
  match bitsOf v 9 8 with
  | 0 => (false, after (execFaultResolveRetry space (v % 32) (v / 2 ^ 16) s) s)
  | 1 => (false, after (execFaultResolveInvalid space (v % 32) (v / 2 ^ 16) s) s)
  | _ => (true, s)

/-- A register of a queue pair written through function f: its RSVW is set by R271. -/
def State.queWrite (s : State) (f q o v : Nat) : State :=
  let p := s.pair q
  if o = 0 then s.writeQctl f q v
  else if o = 0x1C then s.writeCqhead q (v / 2 ^ 16)
  else if o ≠ 8 ∧ o ≠ 0x10 then s
  else if p.en then s.queueRsvw q
  else if o = 8 then s.setPair q { p with sqbase := v / 4096 * 4096 }
  else s.setPair q { p with cqbase := v / 4096 * 4096 }

/-- Limits between the fields of one register: THERM's thresholds, and a VD's default class (R341, R425). -/
def fieldsAgree (b v : Nat) : Bool :=
  if b = basePct + 0x24 then bitsOf v 15 8 < bitsOf v 23 16
  else if baseSch + 0x1000 ≤ b then bitOf v (16 + v % 16)
  else true

/-- A write of the RW fields of a configuration register (R10, R11): a code that the other fields make reserved leaves
its field unchanged. -/
def State.cfgWrite (s : State) (b v : Nat) : State :=
  match regAt b with
  | none => s
  | some d =>
    let old := s.reg b
    let w := d.write old (d.covered v)
    let s := if w.2 then s.setRsvw else s
    if b / 0x10000 * 0x10000 = basePct ∨ b / 0x40000 * 0x40000 = baseSch then
      if fieldsAgree b w.1 then s.setReg b w.1
      else if b = basePct + 0x24 then s.setRsvw
      else (s.setRsvw).setReg b (w.1 / 16 * 16 + old % 16)
    else s.setReg b w.1

/-- FWL_DEVCFG (R376). -/
def State.devcfgWrite (s : State) (v : Nat) : State :=
  if allPorts.any fun p => s.portEn p then s.setRsvw else s.setReg baseFwlDev (v % 2 ^ 26)

/-- GO of a mailbox: a LEN outside 16 to 2,048 is a reserved code and sends nothing (R383). -/
def doorLen (v : Nat) : Option Nat := if 16 ≤ v % 4096 ∧ v % 4096 ≤ 2048 then some (v % 4096) else none

/-- A full write of the PF register that starts at b, by function f: `v` has no reserved bit set. -/
def State.pfSet (s : State) (f b v : Nat) : State :=
  if b = 0x10 then s.clearNme v
  else if b = basePct + 0x04 then
    { s with pwr := { s.pwr with ooo := s.pwr.ooo && !bitOf v 31, loss := s.pwr.loss && !bitOf v 30 } }
  else if b = basePct + 0x34 then { s with pwr := { s.pwr with evt := s.pwr.evt &&& ~~~(BitVec.ofNat 9 v) } }
  else if b = baseErr then (if bitOf v 0 then { s with rst := { s.rst with rsvw := false } } else s)
  else if b = baseErr + 0x08 then { s with rst := { s.rst with tail := v % 512 } }
  else if b = baseErr + 0x10 then s.resetGo v
  else if b = baseErr + 0x14 then { s with rst := { s.rst with coldA := bitOf v 0, coldB := bitOf v 1 } }
  else if b = baseSec then
    (match doorLen v with
     | none => s.setRsvw
     | some n => if bitOf v 31 then s.operatorMail n else s)
  else if b = baseSec + 4 then
    (if bitOf v 30 then { s with sec := { s.sec with mb := { s.sec.mb with done := false } } } else s)
  else if b = baseCmp + 0x10 then s.opcmdWrite v
  else if b = baseCmp + 0x20 then (if bitOf v 8 then { s with cmp := { s.cmp with refused := false } } else s)
  else if b = baseCmp + 0x30 then after (execRoleChange (BitVec.ofNat 32 v) s) s
  else if baseQue ≤ b ∧ b < baseQue + 0x4000 then
    (match s.lqPair 0 ((b - baseQue) / 0x40) with
     | some q => s.queWrite (if s.host.single ∨ 2 ≤ f then 0 else f) q (b % 0x40) v
     | none => s)
  else if b = baseXlt then after (execRootWrite 0 (BitVec.ofNat 64 v) s) s
  else if b = baseXlt + 0x14 then
    let r := s.fresolve 0 v
    if r.1 then r.2.setRsvw else r.2
  else if b = baseSbk + 0x3000 then after (execSbkArbselWrite (BitVec.ofNat 32 v) s) s
  else if baseFwl ≤ b ∧ b < baseFwlDev ∧ (b - baseFwl) % 0x4000 = 0 then s.writePctl ((b - baseFwl) / 0x4000) v
  else if b = baseFwlDev then s.devcfgWrite v
  else s.cfgWrite b v

/-- A write reached a reserved field or code through a VF (R453). -/
def State.vfRsvw (s : State) (f : Nat) : State :=
  s.setVf (fnPort f) (fnVf f) { s.vf (fnPort f) (fnVf f) with rsvw := true }

/-- A full write of the register at b in the window of function f, attached to VD v. -/
def State.vdSet (s : State) (f v b x : Nat) : State :=
  let d := s.vd v
  if 0x10000 ≤ b ∧ b < 0x20000 then
    match s.lqPair v ((b - 0x10000) / 0x40) with
    | some q => s.queWrite f q (b % 0x40) x
    | none => s
  else if b = 0x20000 then after (execRootWrite v (BitVec.ofNat 64 x) s) s
  else if b = 0x20014 then
    let r := s.fresolve v x
    if r.1 then r.2.vfRsvw f else r.2
  else if b = 0x30000 then
    (if bitOf x 0 then s.setVf (fnPort f) (fnVf f) { s.vf (fnPort f) (fnVf f) with rsvw := false } else s)
  else if b = 0x30008 then s.setVd v { d with errTail := x % 64 }
  else if b = 0x40000 then
    (match doorLen x with
     | none => s.vfRsvw f
     | some n => if bitOf x 31 ∧ s.mailboxServed v then s.tenantGo v n else s)
  else if b = 0x40004 then
    (if bitOf x 30 then s.setVdSec v { d.sec with mb := { d.sec.mb with done := false } } else s)
  else if b = 0x50000 then s.setVd v { d with fbt := x % 2 ^ 32 }
  else if b = 0x50008 then s.setVd v { d with evt := d.evt &&& ~~~(BitVec.ofNat 4 x) }
  else s

/-! ### Writes (R11, R455–R458) -/

/-- A write of a word of a function's MSI-X table: pending vectors may now be sent (PCIe). -/
def State.msixWrite (s : State) (f n o v : Nat) : State :=
  if o < 16 * n then
    let w := o / 4
    let x : Word := if w % 4 = 3 then BitVec.ofNat 32 (v % 2) else BitVec.ofNat 32 v
    let x : Option Word := if x = (if w % 4 = 3 then 1#32 else 0#32) then none else some x
    ({ s with host := { s.host with msixTab := sput none (8192 * f + w) x s.host.msixTab } } : State).sendPending f
  else s

/-- A write of a mailbox's request buffer, ignored while BUSY. -/
def Mbox.write (m : Mbox) (o v : Nat) : Mbox :=
  if 0x1000 ≤ o ∧ o < 0x1800 ∧ !m.busy then { m with req := writeLE m.req (o - 0x1000) 4 v } else m

/-- A DWORD write of PF BAR0 that hits no register. -/
def State.pfPlainWrite (s : State) (f a v : Nat) : State :=
  if a ≥ baseDbg then
    let off := a - baseDbg
    let old := s.debugRead off
    let n := old.1.toNat
    let x := if a % 8 = 0 then n / 2 ^ 32 * 2 ^ 32 + v else v * 2 ^ 32 + n % 2 ^ 32
    old.2.debugWrite off (BitVec.ofNat 64 x)
  else if baseSec ≤ a ∧ a < baseCmp then { s with sec := { s.sec with mb := s.sec.mb.write (a - baseSec) v } }
  else if baseMsix ≤ a ∧ a < baseJrn then s.msixWrite (if f < 2 then f else 0) 2048 (a - baseMsix) v
  else s

/-- A DWORD write of a VF's window that hits no register. -/
def State.vdPlainWrite (s : State) (f v a x : Nat) : State :=
  let d := s.vd v
  if 0x40000 ≤ a ∧ a < 0x50000 then s.setVdSec v { d.sec with mb := d.sec.mb.write (a - 0x40000) x }
  else if 0x100000 ≤ a ∧ a < 0x110000 then s.msixWrite f 64 (a - 0x100000) x
  else s

/-- Stage the low half of a 64-bit register (R457). -/
def State.stageLow (s : State) (f b v : Nat) : State :=
  { s with glb := { s.glb with staged := sput none f (some (b, BitVec.ofNat 32 v)) s.glb.staged } }

/-- The low half that a high write commits: the one staged for the register, or the present one; it is staged no more. -/
def State.takeStaged (s : State) (f b cur : Nat) : Nat × State :=
  match sget none s.glb.staged f with
  | some (b', w) => if b' = b then (w.toNat, { s with glb := { s.glb with staged := sput none f none s.glb.staged } })
    else (cur % 2 ^ 32, s)
  | none => (cur % 2 ^ 32, s)

/-- A write of a whole PF register, with RSVW for reserved bits. -/
def State.pfSetR (s : State) (f b : Nat) (r : RegSpan) (v : Nat) : State :=
  let s := s.pfSet f b (v &&& r.mask)
  if v &&& r.mask = v then s else s.setRsvw

/-- A write of a whole register of a VF's window. -/
def State.vdSetR (s : State) (f v b : Nat) (r : RegSpan) (x : Nat) : State :=
  let s := s.vdSet f v b (x &&& r.mask)
  if x &&& r.mask = x then s else s.vfRsvw f

/-- A DWORD write of PF BAR0. -/
def State.pfWrite (s : State) (f a v : Nat) : State :=
  if a ≥ baseDbg then s.pfPlainWrite f a v
  else match findReg pfSpans a with
    | none => s.pfPlainWrite f a v
    | some (b, r, hi) =>
      if hi then
        let l := s.takeStaged f b (s.pfValue f b)
        l.2.pfSetR f b r (v * 2 ^ 32 + l.1)
      else if r.wide then s.stageLow f b v
      else s.pfSetR f b r v

/-- A DWORD write of a VF's window. -/
def State.vfWrite (s : State) (f a x : Nat) : State :=
  let v := (s.vf (fnPort f) (fnVf f)).vd
  match findReg vfSpans a with
  | none => s.vdPlainWrite f v a x
  | some (b, r, hi) =>
    if hi then
      let l := s.takeStaged f b (s.vdValue v b)
      l.2.vdSetR f v b r (x * 2 ^ 32 + l.1)
    else if r.wide then s.stageLow f b x
    else s.vdSetR f v b r x

/-- A write that reaches its target: `act` performs it; one with byte enables clear is ignored and reported (R456). -/
def State.hostWrite (s : State) (a : Access) (addr : Nat) (act : State → State) : State :=
  let g := if a.fn < 2 then s.pfGate a.fn addr else s.vfGate a addr
  match g with
  | .ur => s.countUr a.fn
  | .dead => s
  | .pass => if a.full then act s else if a.fn < 2 then s.setRsvw else s.vfRsvw a.fn

/-- A host's DWORD write. -/
def State.hostWrite32 (s : State) (a : Access) (addr v : Nat) : State :=
  let addr := addr / 4 * 4
  s.hostWrite a addr fun s => if a.fn < 2 then s.pfWrite a.fn addr (v % 2 ^ 32) else s.vfWrite a.fn addr (v % 2 ^ 32)

/-- A host's QWORD write of a 64-bit register. -/
def State.hostWrite64 (s : State) (a : Access) (b : Nat) (r : RegSpan) (v : Nat) : State :=
  s.hostWrite a b fun s =>
    if a.fn < 2 then s.pfSetR a.fn b r v else s.vdSetR a.fn (s.vf (fnPort a.fn) (fnVf a.fn)).vd b r v

/-! ### Rows: reads -/

/-- RC_REGISTER_READ: a DWORD read of any register; an RC register is returned and cleared. -/
def execRcRegisterRead (a : Access) (addr : Nat) (s : State) : Res := .next (s.hostRead a addr)

/-- LOW_DWORD_READ: a DWORD read; of the low half of a 64-bit register it latches the high half. -/
def execLowDwordRead (a : Access) (addr : Nat) (s : State) : Res := .next (s.hostRead a addr)

/-- TOLL_CNTLO_READ by PF f. -/
def execTollCntloRead (f : Nat) (s : State) : Res :=
  .next (if f < 2 then s.hostRead { fn := f, tee := false, full := true } baseToll else s)

/-- PCT_SNAPLO_READ by PF f. -/
def execPctSnaploRead (f : Nat) (s : State) : Res :=
  .next (if f < 2 then s.hostRead { fn := f, tee := false, full := true } (basePct + 0x40) else s)

/-- VFID_TOLLLO_READ. -/
def execVfidTollloRead (a : Access) (s : State) : Res := .next (if a.fn < 2 then s else s.hostRead a 0x10)

/-- JOURNAL_WINDOW_READ: from a byte of the window to the end of its record, in QWORDs, at least one. -/
def execJournalWindowRead (off : Nat) (s : State) : Res :=
  let o := off / 8 * 8
  .next (if s.glb.stage = .run ∧ o < 0x1000000 then
      s.reply ((chunksOf 8 ((s.journalSlot (o / 128)).drop (o % 128))).map fun c => BitVec.ofNat 64 (leNat c))
    else s.reply [0#64])

/-- DEBUG_APERTURE_ACCESS: a QWORD read or write. -/
def execDebugApertureAccess (off : Nat) (wr : Bool) (v : DWord) (s : State) : Res :=
  .next (if s.glb.stage ≠ .run ∨ off ≥ 0x2000000 then (if wr then s else s.reply [0#64])
    else if wr then s.debugWrite off v
    else
      let r := s.debugRead off
      r.2.reply [r.1])

/-! ### Rows: writes -/

/-- LOW_DWORD_WRITE: a DWORD write; of the low half of a 64-bit register it is staged. -/
def execLowDwordWrite (a : Access) (addr : Nat) (v : Word) (s : State) : Res := .next (s.hostWrite32 a addr v.toNat)

/-- HIGH_DWORD_WRITE: a DWORD write; of the high half of a 64-bit register it commits both halves. -/
def execHighDwordWrite (a : Access) (addr : Nat) (v : Word) (s : State) : Res := .next (s.hostWrite32 a addr v.toNat)

/-- REGISTER_WRITE: a QWORD access where a 64-bit register starts, else a DWORD access of the low 32 bits. -/
def execRegisterWrite (a : Access) (addr : Nat) (v : DWord) (s : State) : Res :=
  let spans := if a.fn < 2 then pfSpans else vfSpans
  .next (match findReg spans addr with
    | some (b, r, false) => if r.wide then s.hostWrite64 a b r v.toNat else s.hostWrite32 a addr v.toNat
    | _ => s.hostWrite32 a addr v.toNat)

/-- NMECAUSE_CLEAR: a W1C write of GLB_NMECAUSE by a PF. -/
def execNmecauseClear (v : Word) (s : State) : Res :=
  let n := v.toNat
  .next (let t := s.clearNme (n % 2 ^ 15); if n < 2 ^ 15 then t else t.setRsvw)

/-- QUE_QCTL_WRITE: by a PF for a queue of VD 0, by a VF for a local queue of its VD. -/
def execQueQctlWrite (a : Access) (lq : Nat) (v : Word) (s : State) : Res :=
  .next (if lq ≥ 256 then s
    else if a.fn < 2 then s.hostWrite32 a (baseQue + 0x40 * lq) v.toNat
    else s.hostWrite32 a (0x10000 + 0x40 * lq) v.toNat)

/-- CQHEAD_WRITE. -/
def execCqheadWrite (a : Access) (lq v : Nat) (s : State) : Res :=
  let w := v % 65536 * 65536
  .next (if lq ≥ 256 then s
    else if a.fn < 2 then s.hostWrite32 a (baseQue + 0x40 * lq + 0x1C) w
    else s.hostWrite32 a (0x10000 + 0x40 * lq + 0x1C) w)

/-! ### Doorbells (R254, R255, R257, R461) -/

/-- A doorbell write that reaches queue pair q through function f: a partial one is ignored and counted in DBERR. -/
def State.doorbell (s : State) (a : Access) (q tail : Nat) : State :=
  if a.full then
    let s := if tail < 65536 then s else if a.fn < 2 then s.setRsvw else s.vfRsvw a.fn
    s.ringDoorbell q tail
  else s.setPair q { s.pair q with dberr := satAdd 16 (s.pair q).dberr 1 }

/-- DOORBELL_WRITE: page `page` of the function's BAR2. -/
def execDoorbellWrite (a : Access) (page tail : Nat) (s : State) : Res :=
  .next (if s.glb.stage ≠ .run then s
    else if a.fn < 2 then
      (if page ≥ 16384 ∨ s.pfGate a.fn 0 ≠ .pass then s
       else
         let p := s.pair page
         let owner := if s.host.single then 0 else p.pf
         if p.assigned ∧ p.vd = 0 ∧ owner = a.fn then s.doorbell a page tail else s.countDrop a.fn)
    else if page ≥ 256 then s
    else match s.vfGate a 0x10000 with
      | .ur => s.countUr a.fn
      | .dead => s
      | .pass => match s.lqPair (s.vf (fnPort a.fn) (fnVf a.fn)).vd page with
        | some q => s.doorbell a q tail
        | none => s.countDrop (fnPort a.fn))

end Sys2Proof.Machine
end

