-- ==== Sys2Proof/Machine/Sideband.lean ====
section
/-!
DEFINITION. The sideband (spec/18 R472–R484): storms and stuck inputs, the board management controller's target, and the
test access port.
-/
namespace Sys2Proof.Machine

/-! ### Event inputs (R478, R479) -/

def State.pin (s : State) (i : Nat) : InPin := sget {} s.side.ins i
def State.setPin (s : State) (i : Nat) (x : InPin) : State := { s with side := { s.side with ins := sput {} i x s.side.ins } }

/-- A mask begins: in I3C mode an in-band interrupt goes to the board management controller. -/
def State.maskBegins (s : State) : State :=
  if s.side.i3c.isSome then { s with side := { s.side with ibi := s.side.ibi + 1 } } else s

/-- What entering storm does beside its mask: THROT_N and the reset inputs are treated as asserted. -/
def State.stormEffect (s : State) (i : Nat) : State :=
  match i with
  | 0 => s.throtOn
  | 3 => after (execDevrstNAssert s) s
  | 4 => after (execPerstAssert 0 s) s
  | 5 => after (execPerstAssert 1 s) s
  | _ => s

/-- INPUT_STORM_WINDOW: a 1 ms window of input i ends in which `edges` edges passed its filter. -/
def execInputStormWindow (i edges : Nat) (s : State) : Res :=
  let x := s.pin i
  let since := if 3 ≤ i ∧ 0 < edges then s.toll else x.since
  .next (if i ≥ 6 then s
    else if edges > 1000 then
      (if x.storm then s.setPin i { x with calm := 0, since := since }
       else
         let s := s.setPin i { x with storm := true, calm := 0, stormSeen := i < 3 }
         let s := if i < 3 then s.maskBegins else s
         let s := s.stormEffect i
         if i < 3 then s else s.setPin i { s.pin i with storm := true, calm := 0, since := since })
    else if !x.storm then s
    else if edges ≤ 10 then
      (if x.calm + 1 ≥ 1000 then
         let s := s.setPin i { x with storm := false, calm := 0, since := since }
         if i = 0 ∧ !x.level then s.throtOff else s
       else s.setPin i { x with calm := x.calm + 1, since := since })
    else s.setPin i { x with calm := 0, since := since })

/-- STUCK_INPUT_TIMEOUT: PMB_ALERT_N or TOLL_IN_PPS has stayed asserted for 100 ms; the other inputs are never masked as
stuck. -/
def execStuckInputTimeout (i : Nat) (s : State) : Res :=
  let x := s.pin i
  .next (if (i = 1 ∨ i = 2) ∧ !x.stuck then
      (s.setPin i { x with level := true, stuck := true, stuckSeen := true }).maskBegins
    else s)

/-- STUCK_INPUT_DEASSERT. -/
def execStuckInputDeassert (i : Nat) (s : State) : Res :=
  let x := s.pin i
  .next (if x.stuck then s.setPin i { x with level := false, stuck := false, since := s.toll } else s)

/-! ### The board management controller (R475, R482, R483) -/

/-- Does the target answer: over SMBus while VDD_AON is up, over I3C while VDD_IOS is up too? -/
def State.bmcAnswers (s : State) : Bool :=
  let up (i : Nat) : Bool := (sget {} s.pwr.rails i).pg
  up 0 && (s.side.i3c.isNone || up 5)

/-- A read of the target: the register's value, and nothing where it does not answer. -/
def State.bmcRead (s : State) (v : Nat) : State := s.reply (if s.bmcAnswers then [BitVec.ofNat 64 v] else [])

/-- BMC_ADDRESS_ASSIGN: the target answers I3C from now on. -/
def execBmcAddressAssign (a : Nat) (s : State) : Res :=
  let up (i : Nat) : Bool := (sget {} s.pwr.rails i).pg
  .next (if up 0 && up 5 then { s with side := { s.side with i3c := some (a % 128) } } else s)

def execBmcGlbId (s : State) : Res := .next (s.bmcRead (s.glbValue 0x00))
def execBmcGlbStatus (s : State) : Res := .next (s.bmcRead (s.glbValue 0x08))
/-- A BMC read does not clear the register. -/
def execBmcGlbNmecause (s : State) : Res := .next (s.bmcRead (s.glbValue 0x10))
def execBmcGlbNmefirst (s : State) : Res := .next (s.bmcRead (s.glbValue 0x14))
def execBmcGlbNmetime (s : State) : Res := .next (s.bmcRead (s.glbValue 0x18))
/-- A BMC read does not clear OOO and LOSS. -/
def execBmcPctPgstat (s : State) : Res := .next (s.bmcRead (s.pctValue 0 0x04))
def execBmcErrRstlast (s : State) : Res := .next (s.bmcRead (s.errValue 0x18))
def execBmcPctTemp (s : State) : Res := .next (s.bmcRead (s.pctValue 0 0x28))
def execBmcPctPower (s : State) : Res := .next (s.bmcRead (s.pctValue 0 0x1C))

/-- SB_INSTAT. -/
def State.sbInstat (s : State) : Nat :=
  let x := s.pin
  b2n (x 0).stormSeen * 2 ^ 12 + b2n (x 2).stuckSeen * 2 ^ 11 + b2n (x 2).stormSeen * 2 ^ 10 + b2n (x 1).stuckSeen * 2 ^ 9 +
    b2n (x 1).stormSeen * 2 ^ 8 + b2n (x 0).storm * 2 ^ 4 + b2n (x 2).stuck * 2 ^ 3 + b2n (x 2).storm * 2 ^ 2 + b2n (x 1).stuck * 2 +
    b2n (x 1).storm

/-- BMC_SB_INSTAT: its RC bits are cleared. -/
def execBmcSbInstat (s : State) : Res :=
  let t := s.bmcRead s.sbInstat
  .next (if !s.bmcAnswers then t
    else [0, 1, 2].foldl (fun t i => t.setPin i { t.pin i with stormSeen := false, stuckSeen := false }) t)

/-! ### The test access port (R484) -/

/-- Number under which DBGACC stages and latches halves of 64-bit registers. -/
def dbgFn : Nat := 258

/-- Does DBGACC act: level 1 opened through JTAG, else it is BYPASS? -/
def State.dbgacc (s : State) : Bool := s.sec.jtag && !s.rst.heldInReset && !s.pwr.tripped

/-- DBGACC_READ: performed at Update-DR; its result is captured at the next Capture-DR. -/
def execDbgaccRead (off : Nat) (s : State) : Res :=
  .next (if !s.dbgacc then s
    else
      let a := off / 4 * 4
      let r := if s.pfAnswers a then s.pfRead dbgFn a else (0, s)
      let d := 1 + a % 2 ^ 32 * 2 ^ 2 + r.1 % 2 ^ 32 * 2 ^ 34
      ({ r.2 with side := { r.2.side with ir := 0x10#8, dr := BitVec.ofNat 66 d } } : State).reply [BitVec.ofNat 64 r.1])

/-- DBGACC_WRITE. -/
def execDbgaccWrite (off : Nat) (v : Word) (s : State) : Res :=
  .next (if !s.dbgacc then s
    else
      let a := off / 4 * 4
      let t := if s.pfAnswers a then s.pfWrite dbgFn a v.toNat else s
      let d := 2 + a % 2 ^ 32 * 2 ^ 2 + v.toNat * 2 ^ 34
      { t with side := { t.side with ir := 0x10#8, dr := BitVec.ofNat 66 d } })

/-- TAP_RESET: the instruction register loads IDCODE. -/
def execTapReset (s : State) : Res := .next { s with side := { s.side with ir := 1#8 } }

end Sys2Proof.Machine
end

