-- ==== Sys2Proof/Machine/Warm.lean ====
section
/-!
DEFINITION. The device warm reset L5 in its eight steps (spec/16 R430, R446), the crash capsule it writes (spec/16 R449–R451)
and what the registers of each block keep across it (spec/17 R463).
-/
namespace Sys2Proof.Machine

/-! ### The crash capsule (R449–R451) -/

/-- ERR_RSTLAST.CAUSE of an L5 (R452). -/
def L5Cause.code : L5Cause → Nat
  | .request => 5
  | .fatal => 6
  | .escalation => 7

/-- Is the controller of a system channel usable: the channel is SYSTEM, its controller up and its PLL running? -/
def State.sysChanUsable (s : State) (g : Nat) : Bool :=
  (s.chan g).st = .system && !s.isDown (8 + g / 32) && !(s.half (chanHalf g)).hbmFail

/-- Is a capsule written (R449)? -/
def State.capsuleDue (s : State) : Bool :=
  s.regField (baseErr + 0x28) 0 0 = 1 && s.sysChanUsable 127 && s.sysChanUsable 255

/-- The header of a capsule (R450). -/
def State.capsuleHeader (s : State) (seq : Nat) (cause unit : Nat) : List Byte :=
  leBytes 4 0x50433948 ++ leBytes 4 1 ++ leBytes 4 (seq + 2 ^ 16 * s.fw.inc) ++ leBytes 4 (cause + 2 ^ 8 * unit) ++
    leBytes 8 s.toll ++ leBytes 4 s.fw.epoch ++ leBytes 4 s.rst.head ++ List.replicate 32 0#8

/-- The function number the capsule reads registers as: one that has latched nothing. -/
def capsuleFn : Nat := 259

/-- Bytes 0x0000 to 0xFFFF of a block of PF BAR0, RC fields not cleared. -/
def State.blockBytes (s : State) (b : Nat) : List Byte :=
  (List.range 16384).flatMap fun i => leBytes 4 (s.pfPeek capsuleFn (b + 4 * i))

/-- The blocks a capsule holds, in order (R450). -/
def capsuleBlocks : List Nat := [0, basePct, baseErr, baseCmp, baseSch, baseDrl, baseSbk, baseToll]

/-- Unconsumed records of a VD, oldest first. -/
def State.vdUnconsumed (s : State) (v : Nat) : List Nat := unconsumed 64 (s.vd v).errTail (s.vd v).errHead

/-- The clear header of a VD's tenant part (R451). -/
def State.tenantHeader (s : State) (v : Nat) : List Byte :=
  let d := s.vd v
  let sevs := (s.vdUnconsumed v).map fun i => (sget ({} : VdErrRec) d.ring i).base.sev
  leBytes 4 (if d.st = .none then 0 else s.vdHandle v) ++ leBytes 4 (vdCode d.st + 2 ^ 4 * b2n d.sec.capsule.isSome) ++
    leBytes 4 (sevs.foldl max 0 + 2 ^ 2 * b2n (!sevs.isEmpty)) ++ leBytes 4 0 ++ leBytes 4 s.fw.inc ++ List.replicate 44 0#8

/-- The capsule key (R391). -/
def State.capsuleKey (s : State) (v : Nat) (secret : BitVec 256) : BitVec 256 :=
  keyOf (hkdfExpand (hkdfExtract [] (beBytes 32 secret.toNat)) (asciiBytes "H9 capsule" ++ leBytes 4 (s.vdHandle v) ++ leBytes 2 s.fw.inc) 32)

/-- Contexts of a VD that carry an exception record. -/
def State.excContexts (s : State) (v : Nat) : List Nat :=
  (s.que.ctxs.filter fun e => e.2.used && e.2.vd = v && e.2.exc.isSome).map Prod.fst

/-- The plaintext of a tenant part: running context, records and exception records (R451). -/
def State.tenantPlain (s : State) (v : Nat) : List Byte :=
  let run := (s.vd v).ctx
  let first := leBytes 8 (run.elim 0 (fun c => c + 2 ^ 12)) ++ leBytes 8 (run.elim 0 fun c => (s.ctx c).cur) ++
    leBytes 8 (run.elim 0 s.ctxMeasures)
  let recs := ((s.vdUnconsumed v).take 62).flatMap (s.vdErrBytes v)
  let excs := ((s.excContexts v).take 63).flatMap fun c => lineBytes (s.excRecord c)
  padTo 8064 (padTo 0xFC0 (padTo 0x40 first ++ recs) ++ excs)

/-- A tenant part, 8 KiB (R451). -/
def State.tenantPart (s : State) (seq v : Nat) : List Byte :=
  let h := s.tenantHeader v
  match (s.vd v).sec.capsule with
  | none => padTo 8192 h
  | some secret =>
    let x := gcmSeal (s.capsuleKey v secret) seq h (s.tenantPlain v)
    padTo 8192 (h ++ x.1 ++ x.2)

/-- Write the capsule; it replaces the one before. -/
def State.writeCapsule (s : State) (cause unit : Nat) : State :=
  if !s.capsuleDue then s
  else
    let seq := (s.rst.capSeq + 1) % 65536
    let ring := (List.range 512).flatMap s.errBytes
    let blocks := capsuleBlocks.flatMap s.blockBytes
    let parts := (List.range 127).flatMap fun i => s.tenantPart seq (i + 1)
    let bytes := padTo 0x1000 (s.capsuleHeader seq cause unit) ++ ring ++ blocks
    let s := s.writeSystem s.capsuleBase (padTo 0x200000 (padTo 0x100000 bytes ++ parts))
    { s with rst := { s.rst with capValid := true, capSeq := seq, capTenant := writeBytes [] 0 parts } }

/-! ### Commands and queues (R430 steps 2 and 6) -/

/-- Every assigned queue pair is STOPPED with ERR 0; records it held are not written to a ring. -/
def State.stopQueues (s : State) : State :=
  let pairs := s.que.pairs.map fun (e : Nat × QueuePair) =>
    if e.2.assigned then (e.1, { e.2 with st := .stopped, err := 0, dberr := 0, held := [] }) else e
  { s with que := { s.que with pairs := pairs.filter fun e => e.2 ≠ {}, halted := true } }

/-- A command outstanding at an L5 ends: its journal record says ABORTED, and no record goes to a ring. -/
def State.endByL5 (s : State) (seq : Nat) : State :=
  let c := s.cmd seq
  let wrote : Bool := c.opc = 0x30 && (s.ctx c.ctx).cur = seq && s.ctxWrote c.ctx
  let c := { c with status := stAborted, detail := 0x40000005 + 2 ^ 16 * b2n wrote, ext := none }
  let s := { s with que := { s.que with cmds := sput {} seq {} s.que.cmds } }
  let s := s.headerSignal c
  let s := s.dropFill c
  let s := c.hots.foldl (fun s e => s.dropHotRef e) s
  let s := c.refs.foldl (fun s i => s.dropRef i) s
  let s := s.execLeaves c
  s.journal c true

/-- Every outstanding command ends, in the order of acceptance. -/
def State.endCommands (s : State) : State := (skeys s.que.cmds).foldl (fun s q => s.endByL5 q) s

/-- Every context is idle: nothing runs, no saved state and no retained inputs are left, since the Seedbank is cleared. -/
def State.idleContexts (s : State) : State :=
  let ctxs := s.que.ctxs.map fun (e : Nat × Ctx) =>
    (e.1, { used := e.2.used, vd := e.2.vd, seed := e.2.seed, save := e.2.save, sched := e.2.sched, tls := e.2.tls : Ctx })
  let vds := s.vds.map fun (e : Nat × Vd) => (e.1, { e.2 with ctx := none, holds := [], switching := false, sliceBoundaries := 0 })
  { s with que := { s.que with ctxs := ctxs.filter fun e => e.2 ≠ {} }, vds := vds }

/-! ### The cascade's part (R346, R363, R369, R430 steps 4, 5 and 7) -/

/-- The incarnation after this one, 0 skipped (R369). -/
def nextInc (n : Nat) : Nat := if n % 65536 = 65535 then 1 else n % 65536 + 1

/-- The other devices a VD has parts on. -/
def State.otherParts (s : State) (v : Nat) : List Nat :=
  if (s.vd v).nparts ≤ 1 then [] else (s.vd v).devs.filter (· ≠ s.devNo)

/-- Ports, sessions, link keys and transfers are gone; every VD with a part on another device is HELD; the ports whose EN
is 1 train again, and the device is its own master until it joins again. -/
def State.cascadeReset (s : State) : State :=
  let labels := s.fw.links.map LinkKey.label
  let s := labels.foldl (fun s k => s.setKey k { s.key k with st := .zeroised, cur := {}, prev := {}, zeroAt := some s.toll }) s
  let known := s.fw.knownRecs.map fun r => (r.1, r.2.1, r.2.2.1)
  let w := s.fw
  let links := w.links.map fun (k : LinkKey) => { k with key := 0#512, zeroAt := some s.toll }
  let s := { s with fw := { w with ports := [], peers := [], links := links, xfers := [], inbound := [], rr := [], inc := nextInc w.inc,
                                   synced := false, up := none, master := true, holdover := false, offset := 0, slewHeld := false,
                                   extref := false, hops := 0, mdev := 0, mprio := 128, next := none, head := 0, lastStep := 0, pulse := none,
                                   knownRecs := [], lostRecs := (w.lostRecs ++ known).dedup } }
  let s := (skeys s.vds).foldl (fun s v => (s.otherParts v).foldl (fun s d => s.loseVd v d) s) s
  (allPorts.filter fun p => s.portEn p).foldl (fun s p => s.setFport p { s.fport p with st := .training }) s

/-! ### The domains (R428, R430 step 4, R463) -/

/-- RO status and RC counters of the power manager return to their reset values; PCT_EVT, OOO and LOSS are W1C or survive,
and a thermal or supply condition that holds the throttle is sampled again. -/
def Power.warm (w : Power) : Power :=
  let halves := w.halves.map fun (e : Nat × HalfPwr) => (e.1, ({} : HalfPwr))
  { w with halves := halves.filter fun e => e.2 ≠ {}, aonRc := false, gate := 0, capHit := false, over48 := 0, capViol := 0,
           loopRan := false, pkg := 0, core := 0, sumPkg := 0, sumGate := 0, loops := 0, capHits := 0, safePeriod := false, hbmMax := 0,
           critSafe := false, critCool := none, hbmSafe := false, throtSafe := false, stretch := false, droops := 0, droopWin := 0,
           droopFrom := 0, droopPeriod := 0, hc := 0, hp := 0, ht := 0, hr := 0, headN := 32, headS := 32, headCap := none,
           stepLag := false, steps := [], snap := [], snapLatch := [] }

/-- A channel after L5: its contents, state and counts since L6 stay (R215, R220), its RC counters are zero. -/
def Chan.warm (c : Chan) : Chan :=
  { c with uncorr := 0, corr := 0, tagFail := 0, rmwFail := 0, keyRef := 0, uncorrVf := 0, corrVf := 0, tagFailVf := 0,
           rmwFailVf := 0, keyRefVf := 0, idlePeriods := 16 }

/-- The Seedbank after L5: cleared, every bin with its state and owner (R178); counts since L6 stay. -/
def Sbk.warm (b : Sbk) : Sbk :=
  { bins := b.bins, hot := b.hot, arbSel := b.arbSel }

/-- Pods after L5: bound as they were, counters zero. -/
def Pod.warm (p : Pod) : Pod := { vd := p.vd, openE := p.openE, orient := p.orient }

/-- A space after L5: its root and rings' numbering stay, no fault waits and no invalidation runs. -/
def Space.warm (x : Space) : Space := { root := x.root, phase := x.phase, nextSeq := x.nextSeq }

/-- The keys of the generations an L5 advances: store domains, HBM controllers, Finwin ports and pods (R170). -/
def warmDomains : List Nat := List.range 4 ++ (List.range 8).map (8 + ·) ++ (List.range 32).map (16 + ·)

/-- Every domain but the always-on domain and the host ports is reset. -/
def State.resetDomains (s : State) : State :=
  let s := s.zeroPods (List.range 128)
  let s := warmDomains.foldl (fun s k => s.nextGen k) s
  let pods := s.pods.map fun (e : Nat × Pod) => (e.1, e.2.warm)
  let chans := s.hbm.chans.map fun (e : Nat × Chan) => (e.1, e.2.warm)
  let stk := s.hbm.stk.map fun (e : Nat × Stack) => (e.1, ({ trained := e.2.trained } : Stack))
  let spaces := s.xlt.spaces.map fun (e : Nat × Space) => (e.1, e.2.warm)
  let vds := s.vds.map fun (e : Nat × Vd) => (e.1, { e.2 with cls := [], allot := [], carveScarce := [], scarce := false, degraded := false })
  let c := s.cmp
  let s := { s with pods := pods.filter fun e => e.2 ≠ {}, seam := {}, sbk := s.sbk.warm, pwr := s.pwr.warm, vds := vds,
                    hbm := { s.hbm with chans := chans.filter fun e => e.2 ≠ {}, stk := stk.filter fun e => e.2 ≠ {}, moves := [],
                                        rate := s.regField (basePct + 0x0C) 1 0 },
                    xlt := { s.xlt with spaces := spaces.filter fun e => e.2 ≠ {}, cache := [] },
                    cmp := { withheld := c.withheld, memRole := c.memRole, served := c.served, roleBins := c.roleBins, opVd := c.opVd },
                    sch := {}, rst := { s.rst with down := [] },
                    glb := { s.glb with eff := s.glb.val, staged := [], latched := [], tollHi := [], vfTollHi := [] } }
  (skeys s.hbm.chans).foldl (fun s g => s.rebudget g) s

/-! ### Compositions (R430 step 6) -/

/-- Abandon the uncommitted changes of a VD, and finish a committed one: nothing is left that could still use the old
epoch. -/
def State.settleChanges (s : State) (v : Nat) : State :=
  let s : State := match s.change v with
    | some c =>
      if c.phase ≠ ChangePhase.committed then s
      else
        let moves := s.sbk.moves.map fun (m : BinMove) => if m.vd = v then { m with dirty := [] } else m
        let s : State := { s with sbk := { s.sbk with moves := moves } }
        let s := s.setVd v { s.vd v with passing := [] }
        let s := after (execRebindPoint v s) s
        let s := after (execEpochDrained v s) s
        (moves.filter fun (m : BinMove) => m.vd = v && m.flipped).foldl (fun s (m : BinMove) => after (execBinFlipComplete v m.dst s) s) s
    | none => after (execEpochDrained v s) s
  let s := (List.range (s.vd v).changes.length).foldl (fun s _ => s.abandonChange v stAborted 0) s
  s.dropMoves v

/-- Sessions of the tenants close; the security controller's own domain is always on. -/
def State.closeSessions (s : State) : State := (skeys s.vds).foldl (fun s v => s.closeSession v) s

/-- The seam locks again when both halves run their own clocks (R136). -/
def State.lockSeam (s : State) : State := ({ s with seam := { s.seam with locked := true } } : State).openEdges

/-! ### L5 -/

/-- Count the L5 in the run of 600 s; is it the fourth (R446)? -/
def State.countL5 (s : State) (cause : Nat) : Bool × State :=
  let run := match s.rst.l5Times with
    | [] => [s.toll]
    | t :: l => if s.toll < t + ms 600000 then t :: l ++ [s.toll] else [s.toll]
  (run.length ≥ 4,
   { s with rst := { s.rst with l5Times := run, count5 := satAdd 16 s.rst.count5 1, lastLevel := 5, lastCause := cause } })

/-- Steps 1 to 8 of R430. -/
def State.warmReset (s : State) (cause unit : Nat) : State :=
  let s := s.writeCapsule cause unit
  let s := s.stopQueues
  let s := (skeys s.vds).foldl (fun s v => s.settleChanges v) s
  let s := s.endCommands
  let s := (skeys s.hbm.chans).foldl (fun s g => s.flushChan g) s
  let s := (s.idleContexts.resetDomains).cascadeReset
  let s := s.closeSessions
  let s := ((s.sbk.hot.filter fun e => e.2.used).map Prod.fst).foldl (fun s e =>
    let s := s.evict e
    s.setHot e { s.hotEntry e with loading := false, refs := 0 }) s
  let s := s.lockSeam
  { s with rst := { s.rst with l5Due := none, running := none, waiting := [] }, que := { s.que with halted := false },
           glb := { s.glb with stage := .run, ready := true } }

/-- L5_DEVICE_WARM_RESET: the L5 that is due. Without a stable XTAL it waits in WARM (R411); the fourth of a run holds the
device in reset. -/
def execL5DeviceWarmReset (s : State) : Res :=
  .next (match s.rst.l5Due with
    | none => s
    | some (c, unit) =>
      if s.glb.stage ≠ .run ∧ s.glb.stage ≠ .warm then s
      else if s.pwr.aonRc ∧ !(s.judge 0).stable then
        { s with glb := { s.glb with stage := .warm, ready := false }, que := { s.que with halted := true } }
      else
        let r := s.countL5 c.code
        if r.1 then
          (({ r.2 with rst := { r.2.rst with l5Due := none, running := none, waiting := [] } } : State).holdInReset).nmeOne nmeL5Loop
        else r.2.warmReset c.code unit)

end Sys2Proof.Machine
end

