-- ==== Sys2Proof/Machine/Startup.lean ====
section
/-!
DEFINITION. L6 start-up: the stages from the release of the reset cause to READY (spec/19 R490–R494, spec/01 R16, spec/06
R160 and R178, spec/07 R189 and R219, spec/11, spec/18 R476).
-/
namespace Sys2Proof.Machine

/-! ### Stage 0, SECBOOT (R16, R476, R494) -/

/-- Both copies of an always-on unit fail their self-test: unit 0 the toll timekeeper, unit 1 the clock monitor. -/
def bothDead (x : StartupIn) : Bool :=
  (x.failed.contains 0 && x.failed.contains 1) || (x.failed.contains 2 && x.failed.contains 3)

/-- A south copy takes over for a north unit that fails its self-test (R16). -/
def State.selfTest (s : State) (x : StartupIn) : State :=
  { s with glb := { s.glb with spareToll := x.failed.contains 0, spareClkmon := x.failed.contains 2 } }

/-- Straps are sampled (R476). -/
def State.sampleStraps (s : State) (x : StartupIn) : State :=
  { s with host := { s.host with single := x.hpmode }, fw := { s.fw with strap := x.hint % 256 } }

/-- The staged firmware set is verified: it becomes the active set and the fuses are blown up to its version, or it is
erased with a record (R386, R494). -/
def State.verifyStaged (s : State) : State :=
  match s.sec.staged with
  | none => s
  | some f =>
    if f.version ≥ s.sec.rollback then
      { s with sec := { s.sec with active := f, activeOk := true, staged := none, rollback := max s.sec.rollback f.version } }
    else
      ({ s with sec := { s.sec with staged := none } } : State).logErr { unit := uSecurity, index := 0, sev := sevCorrected }

/-- The security controller's stage ends: straps, firmware and measurements. -/
def State.secBoot (s : State) : State :=
  let s := s.verifyStaged
  let s : State := { s with sec := { s.sec with policyDigest := BitVec.ofNat 384 (beNat (sha384 [])) } }
  if s.sec.activeOk then { s with glb := { s.glb with stage := .clocks } }
  else s.logErr { unit := uSecurity, index := 0, sev := sevFatal }

/-! ### Stages 1 to 3: CLOCKS, TRAIN, CLEAR -/

/-- Both halves run at code 40 (R491). -/
def State.startClocks (s : State) : State :=
  let s := (s.setHalf 0 { s.half 0 with code := 40 }).setHalf 1 { s.half 1 with code := 40 }
  { s with glb := { s.glb with stage := .train } }

/-- A stack that has not trained: its channels are retired until the next L6, with a record (R492). -/
def State.lostStack (s : State) (n : Nat) : State :=
  let s := ((List.range 32).map (32 * n + ·)).foldl (fun s g => s.setChan g { s.chan g with st := .retired }) s
  s.logErr { unit := uHbmctl, index := n, sev := sevDeferred, action := actRetire }

/-- The stacks are trained at HBMRATE; without N3 or S3 the system carve-out cannot form. -/
def State.trainStacks (s : State) (lost : List Nat) : State :=
  if lost.contains 3 ∨ lost.contains 7 then
    s.logErr { unit := uHbmctl, index := if lost.contains 3 then 3 else 7, sev := sevFatal }
  else
    let s := (List.range 8).foldl (fun s n => s.setStack n { s.stack n with trained := !lost.contains n }) s
    let s := ((List.range 8).filter lost.contains).foldl (fun s n => s.lostStack n) s
    { s with hbm := { s.hbm with rate := s.regField (basePct + 0x0C) 1 0 }, glb := { s.glb with stage := .clear } }

/-! ### Stage 4, SYSTEM (R160, R189, R491) -/

/-- A system channel, formatted under key ID 0. -/
def State.systemChan (s : State) (g : Nat) : State :=
  s.setChan g { (s.chan g).bare with st := .system, owner := 0, mode := 3, carve := 0, key := 0, fmtGen := 0 }

/-- Key ID 0 and the system journal key are drawn; the system carve-out and the SYSTEM bins exist; the seam is locked. -/
def State.startSystem (s : State) : State :=
  let k := s.randomPair
  let j := k.2.takeFree 256
  let s := j.2.setKey 0 { j.2.key 0 with st := .active, vd := 0, cur := k.1 }
  let s := s.setVd 0 { s.vd 0 with jkey := j.1 }
  let s := (s.systemChan 127).systemChan 255
  let s := s.setCarve 0 0 { chans := [127, 255], mode := 3, il := 1, key := 0 }
  let s := [254, 255, 510, 511].foldl (fun s b => s.setBin b { s.bin b with st := .system }) s
  let s := (s.rebudget 127).rebudget 255
  let s := s.lockSeam
  { s with glb := { s.glb with stage := .run, ready := true, capv := true } }

/-! ### STARTUP_STAGE -/

/-- The unit a passed deadline names, by stage (R492). -/
def stageUnit : Stage → Nat
  | .secboot => uSecurity
  | .clocks => uClock
  | .train => uHbmctl
  | .clear => uStore
  | _ => uBinder

/-- Does start-up go on: the supplies' sequence has completed, no reset input that starts L6 is asserted, and nothing has
stopped the device (R405, R431, R492)? -/
def State.starting (s : State) : Bool :=
  s.pwr.upSeq && !s.pwr.ooo && !s.rst.heldInReset && !s.rst.bootStop && !s.pwr.tripped && !(sget {} s.side.ins devrstPin).level &&
    !((sget {} s.side.ins (perstPin 0)).level && s.coldBit 0) && !((sget {} s.side.ins (perstPin 1)).level && s.coldBit 1)

/-- STARTUP_STAGE: the running stage ends and the next begins, or a fault keeps the device in its stage (R492). -/
def execStartupStage (x : StartupIn) (s : State) : Res :=
  .next (if !s.starting then s
    else if x.late then
      match s.glb.stage with
      | .run => s
      | .warm => s
      | .halted => s
      | st => s.logErr { unit := stageUnit st, index := 0, sev := sevFatal }
    else match s.glb.stage with
    | .secboot =>
      if !(s.judge 0).stable then s
      else if bothDead x then (s.haltDevice).nmeOne nmeSpareFail
      else ((s.selfTest x).sampleStraps x).secBoot
    | .clocks => s.startClocks
    | .train => s.trainStacks x.untrained
    | .clear => { s with glb := { s.glb with stage := .system } }
    | .system => s.startSystem
    | .run => s
    | .warm => s
    | .halted => s)

end Sys2Proof.Machine
end

