-- ==== Sys2Proof/Machine/Dispatch.lean ====
section
/-!
DEFINITION. The one match on commands: each arm is one direct call of that command's meaning.
-/
namespace Sys2Proof.Machine

/-- The effect of a command on everything but the queue of waiting commands. -/
def exec (i : Instr) (s : State) : Host.Outcome State Fault Refusal :=
  match i with
  | .nop c => Sys2Proof.Machine.execNop c s
  | .waitb c imm => Sys2Proof.Machine.execWaitb c imm s
  | .halt c => Sys2Proof.Machine.execHalt c s
  | .brk c imm => Sys2Proof.Machine.execBrk c imm s
  | .csrr c rd imm => Sys2Proof.Machine.execCsrr c rd imm s
  | .csrw c rs1 imm => Sys2Proof.Machine.execCsrw c rs1 imm s
  | .scalarAlu c op rd rs1 rs2 rs3 => Sys2Proof.Machine.execScalarAlu c op rd rs1 rs2 rs3 s
  | .scalarAluImmediate c op rd rs1 imm => Sys2Proof.Machine.execScalarAluImmediate c op rd rs1 imm s
  | .branch c cond rs1 rs2 off => Sys2Proof.Machine.execBranch c cond rs1 rs2 off s
  | .jal c rd imm => Sys2Proof.Machine.execJal c rd imm s
  | .jalr c rd rs1 imm => Sys2Proof.Machine.execJalr c rd rs1 imm s
  | .loop c rs1 off => Sys2Proof.Machine.execLoop c rs1 off s
  | .scalarLoad c k rd rs1 imm => Sys2Proof.Machine.execScalarLoad c k rd rs1 imm s
  | .scalarStore c k sd rs1 imm => Sys2Proof.Machine.execScalarStore c k sd rs1 imm s
  | .vld c vd rs1 mk imm => Sys2Proof.Machine.execVld c vd rs1 mk imm s
  | .vst c vd rs1 mk imm => Sys2Proof.Machine.execVst c vd rs1 mk imm s
  | .accld c acc rs1 ty imm => Sys2Proof.Machine.execAccld c acc rs1 ty imm s
  | .accst c acc rs1 imm => Sys2Proof.Machine.execAccst c acc rs1 imm s
  | .sbld c rp rl tag n => Sys2Proof.Machine.execSbld c rp rl tag n s
  | .sbst c rp rl tag n => Sys2Proof.Machine.execSbst c rp rl tag n s
  | .sbwait c tag => Sys2Proof.Machine.execSbwait c tag s
  | .isld c rp rl n => Sys2Proof.Machine.execIsld c rp rl n s
  | .tlsig c sn slot => Sys2Proof.Machine.execTlsig c sn slot s
  | .tlwait c sn slot => Sys2Proof.Machine.execTlwait c sn slot s
  | .tlrd c sn slot => Sys2Proof.Machine.execTlrd c sn slot s
  | .vectorFpArithmetic c op d a b c3 mk => Sys2Proof.Machine.execVectorFpArithmetic c op d a b c3 mk s
  | .vectorInteger c op d a b mk imm => Sys2Proof.Machine.execVectorInteger c op d a b mk imm s
  | .vectorCompare c op d a b mk => Sys2Proof.Machine.execVectorCompare c op d a b mk s
  | .maskLogic c op d a b => Sys2Proof.Machine.execMaskLogic c op d a b s
  | .vbcast c d a mk => Sys2Proof.Machine.execVbcast c d a mk s
  | .vmvs c d a lane => Sys2Proof.Machine.execVmvs c d a lane s
  | .vmvsl c d a lane => Sys2Proof.Machine.execVmvsl c d a lane s
  | .vperm c d a b mk => Sys2Proof.Machine.execVperm c d a b mk s
  | .vsel c d a b mk => Sys2Proof.Machine.execVsel c d a b mk s
  | .viota c d mk => Sys2Proof.Machine.execViota c d mk s
  | .vaccr c d a b => Sys2Proof.Machine.execVaccr c d a b s
  | .vaccw c d a b => Sys2Proof.Machine.execVaccw c d a b s
  | .mpop c d a => Sys2Proof.Machine.execMpop c d a s
  | .mtos c d a => Sys2Proof.Machine.execMtos c d a s
  | .stom c d a => Sys2Proof.Machine.execStom c d a s
  | .vectorReduction c op d a mk => Sys2Proof.Machine.execVectorReduction c op d a mk s
  | .mma c x => Sys2Proof.Machine.execMma c x s
  | .mmae c x => Sys2Proof.Machine.execMmae c x s
  | .cvt c x => Sys2Proof.Machine.execCvt c x s
  | .vqnt c x => Sys2Proof.Machine.execVqnt c x s
  | .vdqnt c x => Sys2Proof.Machine.execVdqnt c x s
  | .frontEndAccept c t => Sys2Proof.Machine.execFrontEndAccept c t s
  | .holdTakesEffect vd => Sys2Proof.Machine.execHoldTakesEffect vd s
  | .holdResume vd => Sys2Proof.Machine.execHoldResume vd s
  | .rollLevelDecay c => Sys2Proof.Machine.execRollLevelDecay c s
  | .routerBeat c => Sys2Proof.Machine.execRouterBeat c s
  | .drumlineDatumArrival c port ecc => Sys2Proof.Machine.execDrumlineDatumArrival c port ecc s
  | .seamUnlock => Sys2Proof.Machine.execSeamUnlock s
  | .transferResponse c xid line ecc => Sys2Proof.Machine.execTransferResponse c xid line ecc s
  | .isldCopyComplete c => Sys2Proof.Machine.execIsldCopyComplete c s
  | .tlrdReply c => Sys2Proof.Machine.execTlrdReply c s
  | .exceptionTakesEffect c => Sys2Proof.Machine.execExceptionTakesEffect c s
  | .l1ContextTeardown ctx => Sys2Proof.Machine.execL1ContextTeardown ctx s
  | .execStart vd => Sys2Proof.Machine.execExecStart vd s
  | .execComplete vd => Sys2Proof.Machine.execExecComplete vd s
  | .sliceExpiry vd => Sys2Proof.Machine.execSliceExpiry vd s
  | .measureBoundaryStop vd => Sys2Proof.Machine.execMeasureBoundaryStop vd s
  | .contextSaveComplete vd => Sys2Proof.Machine.execContextSaveComplete vd s
  | .contextRestore vd => Sys2Proof.Machine.execContextRestore vd s
  | .doorbellWrite a page tail => Sys2Proof.Machine.execDoorbellWrite a page tail s
  | .queQctlWrite a lq v => Sys2Proof.Machine.execQueQctlWrite a lq v s
  | .cqheadWrite a lq v => Sys2Proof.Machine.execCqheadWrite a lq v s
  | .nopCommand seq => Sys2Proof.Machine.execNopCommand seq s
  | .ctxCreate seq => Sys2Proof.Machine.execCtxCreate seq s
  | .ctxDestroy seq => Sys2Proof.Machine.execCtxDestroy seq s
  | .objCreate seq => Sys2Proof.Machine.execObjCreate seq s
  | .objRef seq => Sys2Proof.Machine.execObjRef seq s
  | .objFree seq => Sys2Proof.Machine.execObjFree seq s
  | .vdListObjects seq => Sys2Proof.Machine.execVdListObjects seq s
  | .vdListContexts seq => Sys2Proof.Machine.execVdListContexts seq s
  | .vdListTimelines seq => Sys2Proof.Machine.execVdListTimelines seq s
  | .vdListQueues seq => Sys2Proof.Machine.execVdListQueues seq s
  | .tlCreate seq => Sys2Proof.Machine.execTlCreate seq s
  | .tlDestroy seq => Sys2Proof.Machine.execTlDestroy seq s
  | .tlBind seq => Sys2Proof.Machine.execTlBind seq s
  | .tlSignal seq => Sys2Proof.Machine.execTlSignal seq s
  | .tlWait seq => Sys2Proof.Machine.execTlWait seq s
  | .tlWaitSatisfied seq => Sys2Proof.Machine.execTlWaitSatisfied seq s
  | .vdCreate seq => Sys2Proof.Machine.execVdCreate seq s
  | .vdDestroy seq => Sys2Proof.Machine.execVdDestroy seq s
  | .bind seq => Sys2Proof.Machine.execBind seq s
  | .tblWrite seq => Sys2Proof.Machine.execTblWrite seq s
  | .invalidate seq => Sys2Proof.Machine.execInvalidate seq s
  | .load seq => Sys2Proof.Machine.execLoad seq s
  | .store seq => Sys2Proof.Machine.execStore seq s
  | .copy seq => Sys2Proof.Machine.execCopy seq s
  | .hotLoad seq => Sys2Proof.Machine.execHotLoad seq s
  | .hotSet seq => Sys2Proof.Machine.execHotSet seq s
  | .hotRelease seq => Sys2Proof.Machine.execHotRelease seq s
  | .exec seq => Sys2Proof.Machine.execExec seq s
  | .xfer seq => Sys2Proof.Machine.execXfer seq s
  | .jrnRead seq => Sys2Proof.Machine.execJrnRead seq s
  | .commandComplete seq => Sys2Proof.Machine.execCommandComplete seq s
  | .objectScrubComplete idx => Sys2Proof.Machine.execObjectScrubComplete idx s
  | .tsCerts vd => Sys2Proof.Machine.execTsCerts vd s
  | .tsOpen vd => Sys2Proof.Machine.execTsOpen vd s
  | .tsClose vd => Sys2Proof.Machine.execTsClose vd s
  | .keyProvision vd => Sys2Proof.Machine.execKeyProvision vd s
  | .setProvision vd => Sys2Proof.Machine.execSetProvision vd s
  | .setDrop vd => Sys2Proof.Machine.execSetDrop vd s
  | .subtreeReset vd => Sys2Proof.Machine.execSubtreeReset vd s
  | .debugGrant vd => Sys2Proof.Machine.execDebugGrant vd s
  | .debugRevoke vd => Sys2Proof.Machine.execDebugRevoke vd s
  | .selfDestroy vd => Sys2Proof.Machine.execSelfDestroy vd s
  | .devAttest => Sys2Proof.Machine.execDevAttest s
  | .peerPolicy => Sys2Proof.Machine.execPeerPolicy s
  | .fwStage img => Sys2Proof.Machine.execFwStage img s
  | .debugOpen => Sys2Proof.Machine.execDebugOpen s
  | .debugMap => Sys2Proof.Machine.execDebugMap s
  | .debugClose => Sys2Proof.Machine.execDebugClose s
  | .jtagUnlock valid => Sys2Proof.Machine.execJtagUnlock valid s
  | .debugGrantExpiry vd g => Sys2Proof.Machine.execDebugGrantExpiry vd g s
  | .move => Sys2Proof.Machine.execMove s
  | .evacuate => Sys2Proof.Machine.execEvacuate s
  | .relimit => Sys2Proof.Machine.execRelimit s
  | .unseam => Sys2Proof.Machine.execUnseam s
  | .release => Sys2Proof.Machine.execRelease s
  | .roleChange v => Sys2Proof.Machine.execRoleChange v s
  | .resetRequestL2 vd => Sys2Proof.Machine.execResetRequestL2 vd s
  | .resetRequestL3 half => Sys2Proof.Machine.execResetRequestL3 half s
  | .resetRequestL4 => Sys2Proof.Machine.execResetRequestL4 s
  | .resetRequestL5 => Sys2Proof.Machine.execResetRequestL5 s
  | .rootWrite space v => Sys2Proof.Machine.execRootWrite space v s
  | .faultResolveRetry space slot seq => Sys2Proof.Machine.execFaultResolveRetry space slot seq s
  | .faultResolveInvalid space slot seq => Sys2Proof.Machine.execFaultResolveInvalid space slot seq s
  | .faultTimeout space slot => Sys2Proof.Machine.execFaultTimeout space slot s
  | .sbkArbselWrite v => Sys2Proof.Machine.execSbkArbselWrite v s
  | .rcRegisterRead a addr => Sys2Proof.Machine.execRcRegisterRead a addr s
  | .lowDwordRead a addr => Sys2Proof.Machine.execLowDwordRead a addr s
  | .lowDwordWrite a addr v => Sys2Proof.Machine.execLowDwordWrite a addr v s
  | .highDwordWrite a addr v => Sys2Proof.Machine.execHighDwordWrite a addr v s
  | .tollCntloRead f => Sys2Proof.Machine.execTollCntloRead f s
  | .vfidTollloRead a => Sys2Proof.Machine.execVfidTollloRead a s
  | .pctSnaploRead f => Sys2Proof.Machine.execPctSnaploRead f s
  | .nmecauseClear v => Sys2Proof.Machine.execNmecauseClear v s
  | .journalWindowRead off => Sys2Proof.Machine.execJournalWindowRead off s
  | .debugApertureAccess off wr v => Sys2Proof.Machine.execDebugApertureAccess off wr v s
  | .portEnable p v => Sys2Proof.Machine.execPortEnable p v s
  | .portRelease p => Sys2Proof.Machine.execPortRelease p s
  | .registerWrite a addr v => Sys2Proof.Machine.execRegisterWrite a addr v s
  | .functionLevelReset f => Sys2Proof.Machine.execFunctionLevelReset f s
  | .returnToD0 f => Sys2Proof.Machine.execReturnToD0 f s
  | .numvfsWrite port vfe n => Sys2Proof.Machine.execNumvfsWrite port vfe n s
  | .lockInterface port vf => Sys2Proof.Machine.execLockInterface port vf s
  | .startInterface port vf => Sys2Proof.Machine.execStartInterface port vf s
  | .stopInterface port vf => Sys2Proof.Machine.execStopInterface port vf s
  | .getDeviceInterfaceReport port vf => Sys2Proof.Machine.execGetDeviceInterfaceReport port vf s
  | .keyProg port stream ks sub vf key => Sys2Proof.Machine.execKeyProg port stream ks sub vf key s
  | .kSetGo port stream ks => Sys2Proof.Machine.execKSetGo port stream ks s
  | .kSetStop port stream ks => Sys2Proof.Machine.execKSetStop port stream ks s
  | .ideCheckFailure port stream => Sys2Proof.Machine.execIdeCheckFailure port stream s
  | .linkDown port => Sys2Proof.Machine.execLinkDown port s
  | .spdmRequest port req => Sys2Proof.Machine.execSpdmRequest port req s
  | .atsInvalidateRequest f va size tag => Sys2Proof.Machine.execAtsInvalidateRequest f va size tag s
  | .invalidateCompletion f tag => Sys2Proof.Machine.execInvalidateCompletion f tag s
  | .translationCompletion f va pa r w ok => Sys2Proof.Machine.execTranslationCompletion f va pa r w ok s
  | .prgResponse f idx code => Sys2Proof.Machine.execPrgResponse f idx code s
  | .translationWalk space va wr req seq => Sys2Proof.Machine.execTranslationWalk space va wr req seq s
  | .faultRecordDeferred space => Sys2Proof.Machine.execFaultRecordDeferred space s
  | .invalidationPhaseDrain space => Sys2Proof.Machine.execInvalidationPhaseDrain space s
  | .hbmRead vd key addr ecc => Sys2Proof.Machine.execHbmRead vd key addr ecc s
  | .hbmWrite vd key addr data => Sys2Proof.Machine.execHbmWrite vd key addr data s
  | .partialWrite vd key addr data be => Sys2Proof.Machine.execPartialWrite vd key addr data be s
  | .keyRollSweepEnd k => Sys2Proof.Machine.execKeyRollSweepEnd k s
  | .channelFormatComplete ch => Sys2Proof.Machine.execChannelFormatComplete ch s
  | .channelEraseComplete ch => Sys2Proof.Machine.execChannelEraseComplete ch s
  | .hbmScrubPatrol ch line ecc => Sys2Proof.Machine.execHbmScrubPatrol ch line ecc s
  | .hbmTemperaturePoll stack temp => Sys2Proof.Machine.execHbmTemperaturePoll stack temp s
  | .refreshRateSwitch stack => Sys2Proof.Machine.execRefreshRateSwitch stack s
  | .keyDrainReport k => Sys2Proof.Machine.execKeyDrainReport k s
  | .keyZeroisation k => Sys2Proof.Machine.execKeyZeroisation k s
  | .keyIdRelease k => Sys2Proof.Machine.execKeyIdRelease k s
  | .seedbankRequest bin line r => Sys2Proof.Machine.execSeedbankRequest bin line r s
  | .arbiterGrant idx heads => Sys2Proof.Machine.execArbiterGrant idx heads s
  | .scrubLine pod ecc racing => Sys2Proof.Machine.execScrubLine pod ecc racing s
  | .binClearComplete b => Sys2Proof.Machine.execBinClearComplete b s
  | .binFlipComplete vd b => Sys2Proof.Machine.execBinFlipComplete vd b s
  | .epochDrained vd => Sys2Proof.Machine.execEpochDrained vd s
  | .prepareEnd vd => Sys2Proof.Machine.execPrepareEnd vd s
  | .compositionCommit vd => Sys2Proof.Machine.execCompositionCommit vd s
  | .rebindPoint vd => Sys2Proof.Machine.execRebindPoint vd s
  | .rebindTimeout vd => Sys2Proof.Machine.execRebindTimeout vd s
  | .joinTimeout vd => Sys2Proof.Machine.execJoinTimeout vd s
  | .migrationWriteHold vd => Sys2Proof.Machine.execMigrationWriteHold vd s
  | .deadlineCheck => Sys2Proof.Machine.execDeadlineCheck s
  | .tollBoundary => Sys2Proof.Machine.execTollBoundary s
  | .frequencyStep => Sys2Proof.Machine.execFrequencyStep s
  | .voltageSettleDeadline settled => Sys2Proof.Machine.execVoltageSettleDeadline settled s
  | .rollProfileChange => Sys2Proof.Machine.execRollProfileChange s
  | .collectiveTimeout seq => Sys2Proof.Machine.execCollectiveTimeout seq s
  | .telemetrySnapshot => Sys2Proof.Machine.execTelemetrySnapshot s
  | .tollFrameSend => Sys2Proof.Machine.execTollFrameSend s
  | .tollFrameReceive p f => Sys2Proof.Machine.execTollFrameReceive p f s
  | .upstreamSilence => Sys2Proof.Machine.execUpstreamSilence s
  | .holdoverElection => Sys2Proof.Machine.execHoldoverElection s
  | .tollInPulse => Sys2Proof.Machine.execTollInPulse s
  | .tollInLoss => Sys2Proof.Machine.execTollInLoss s
  | .discFrameReceive p f => Sys2Proof.Machine.execDiscFrameReceive p f s
  | .spdmFrameReceive p f => Sys2Proof.Machine.execSpdmFrameReceive p f s
  | .authenticationRetry p => Sys2Proof.Machine.execAuthenticationRetry p s
  | .keyUpdate peer => Sys2Proof.Machine.execKeyUpdate peer s
  | .dataFrameReceive p f => Sys2Proof.Machine.execDataFrameReceive p f s
  | .ackReceive p f => Sys2Proof.Machine.execAckReceive p f s
  | .nobufReceive p f => Sys2Proof.Machine.execNobufReceive p f s
  | .xferRetry seq tgt => Sys2Proof.Machine.execXferRetry seq tgt s
  | .creditFrameReceive p f => Sys2Proof.Machine.execCreditFrameReceive p f s
  | .hopReplay p => Sys2Proof.Machine.execHopReplay p s
  | .poolFrameReceive p f => Sys2Proof.Machine.execPoolFrameReceive p f s
  | .join p f => Sys2Proof.Machine.execJoin p f s
  | .prepare p f => Sys2Proof.Machine.execPrepare p f s
  | .prepared p f => Sys2Proof.Machine.execPrepared p f s
  | .commit p f => Sys2Proof.Machine.execCommit p f s
  | .abandon p f => Sys2Proof.Machine.execAbandon p f s
  | .keyret p f => Sys2Proof.Machine.execKeyret p f s
  | .keydrain p f => Sys2Proof.Machine.execKeydrain p f s
  | .peerlost p f => Sys2Proof.Machine.execPeerlost p f s
  | .peerdown p f => Sys2Proof.Machine.execPeerdown p f s
  | .lsreport p f => Sys2Proof.Machine.execLsreport p f s
  | .role p f => Sys2Proof.Machine.execRole p f s
  | .peerTollTimeout dev => Sys2Proof.Machine.execPeerTollTimeout dev s
  | .peerLostHandling dev => Sys2Proof.Machine.execPeerLostHandling dev s
  | .laneDrop p lane => Sys2Proof.Machine.execLaneDrop p lane s
  | .portTrainingComplete p ok lanes => Sys2Proof.Machine.execPortTrainingComplete p ok lanes s
  | .trainingRetry p => Sys2Proof.Machine.execTrainingRetry p s
  | .teardownQuiesceEnd vd => Sys2Proof.Machine.execTeardownQuiesceEnd vd s
  | .teardownRetire vd => Sys2Proof.Machine.execTeardownRetire vd s
  | .powerGoodAssert rail => Sys2Proof.Machine.execPowerGoodAssert rail s
  | .powerGoodLoss rail => Sys2Proof.Machine.execPowerGoodLoss rail s
  | .vddAonRise => Sys2Proof.Machine.execVddAonRise s
  | .devrstNAssert => Sys2Proof.Machine.execDevrstNAssert s
  | .devrstNRelease => Sys2Proof.Machine.execDevrstNRelease s
  | .perstAssert port => Sys2Proof.Machine.execPerstAssert port s
  | .perstRelease port => Sys2Proof.Machine.execPerstRelease port s
  | .startupStage x => Sys2Proof.Machine.execStartupStage x s
  | .clockStabilityWindow src inBand => Sys2Proof.Machine.execClockStabilityWindow src inBand s
  | .clockStabilityTimeout src => Sys2Proof.Machine.execClockStabilityTimeout src s
  | .clockMonitorWindow failed => Sys2Proof.Machine.execClockMonitorWindow failed s
  | .capLoop p => Sys2Proof.Machine.execCapLoop p s
  | .avsbusCurrentPoll half cur => Sys2Proof.Machine.execAvsbusCurrentPoll half cur s
  | .pmbusPoll r => Sys2Proof.Machine.execPmbusPoll r s
  | .pmbAlert r => Sys2Proof.Machine.execPmbAlert r s
  | .droopDetect half => Sys2Proof.Machine.execDroopDetect half s
  | .sensorSample tjn tjs => Sys2Proof.Machine.execSensorSample tjn tjs s
  | .throtNAssert => Sys2Proof.Machine.execThrotNAssert s
  | .throtNHeldMark => Sys2Proof.Machine.execThrotNHeldMark s
  | .inputStormWindow pin edges => Sys2Proof.Machine.execInputStormWindow pin edges s
  | .stuckInputTimeout pin => Sys2Proof.Machine.execStuckInputTimeout pin s
  | .l2VdComputeReset vd => Sys2Proof.Machine.execL2VdComputeReset vd s
  | .l3HalfComputeReset half => Sys2Proof.Machine.execL3HalfComputeReset half s
  | .l4ComputePartReset => Sys2Proof.Machine.execL4ComputePartReset s
  | .l5DeviceWarmReset => Sys2Proof.Machine.execL5DeviceWarmReset s
  | .unitReset unit idx => Sys2Proof.Machine.execUnitReset unit idx s
  | .recoveryComplete => Sys2Proof.Machine.execRecoveryComplete s
  | .recoveryLimitOverrun => Sys2Proof.Machine.execRecoveryLimitOverrun s
  | .holdWatchdog vd => Sys2Proof.Machine.execHoldWatchdog vd s
  | .podBeatWatchdog pod => Sys2Proof.Machine.execPodBeatWatchdog pod s
  | .unitRequestWatchdog unit idx => Sys2Proof.Machine.execUnitRequestWatchdog unit idx s
  | .heartbeatMissed which => Sys2Proof.Machine.execHeartbeatMissed which s
  | .securityControllerSilent => Sys2Proof.Machine.execSecurityControllerSilent s
  | .dbgaccRead off => Sys2Proof.Machine.execDbgaccRead off s
  | .dbgaccWrite off v => Sys2Proof.Machine.execDbgaccWrite off v s
  | .tapReset => Sys2Proof.Machine.execTapReset s
  | .bmcAddressAssign a => Sys2Proof.Machine.execBmcAddressAssign a s
  | .bmcGlbId => Sys2Proof.Machine.execBmcGlbId s
  | .bmcGlbStatus => Sys2Proof.Machine.execBmcGlbStatus s
  | .bmcGlbNmecause => Sys2Proof.Machine.execBmcGlbNmecause s
  | .bmcGlbNmefirst => Sys2Proof.Machine.execBmcGlbNmefirst s
  | .bmcGlbNmetime => Sys2Proof.Machine.execBmcGlbNmetime s
  | .bmcPctPgstat => Sys2Proof.Machine.execBmcPctPgstat s
  | .bmcErrRstlast => Sys2Proof.Machine.execBmcErrRstlast s
  | .bmcPctTemp => Sys2Proof.Machine.execBmcPctTemp s
  | .bmcPctPower => Sys2Proof.Machine.execBmcPctPower s
  | .bmcSbInstat => Sys2Proof.Machine.execBmcSbInstat s
  | .hbmPhyLaneFailure ch => Sys2Proof.Machine.execHbmPhyLaneFailure ch s
  | .lossOfSignal p => Sys2Proof.Machine.execLossOfSignal p s
  | .signalDetection p => Sys2Proof.Machine.execSignalDetection p s
  | .linkUp port => Sys2Proof.Machine.execLinkUp port s
  | .configSpaceWrite f w => Sys2Proof.Machine.execConfigSpaceWrite f w s
  | .subtreeResetComplete vd => Sys2Proof.Machine.execSubtreeResetComplete vd s
  | .uncorrectableCodeword p => Sys2Proof.Machine.execUncorrectableCodeword p s
  | .seamRelock => Sys2Proof.Machine.execSeamRelock s
  | .droopRecovery half => Sys2Proof.Machine.execDroopRecovery half s
  | .throtNDeassert => Sys2Proof.Machine.execThrotNDeassert s
  | .stuckInputDeassert pin => Sys2Proof.Machine.execStuckInputDeassert pin s
  | .vddAonFall => Sys2Proof.Machine.execVddAonFall s
  | .dirtyLineCopy vd line => Sys2Proof.Machine.execDirtyLineCopy vd line s
  | .queueEngineTick vd => Sys2Proof.Machine.execQueueEngineTick vd s
  | .shapedFlowWindow flow => Sys2Proof.Machine.execShapedFlowWindow flow s

end Sys2Proof.Machine
end

