-- ==== Sys2Proof/Machine/CoreEncode.lean ====
section
/-!
DEFINITION. The 64-bit instruction word of a core instruction, from the encoding tables of spec/03 R66, R69 and spec/04
R98, R99, R123.  No command of the block carries a word; the instruction store holds them, and the front end decodes them.
-/
namespace Sys2Proof.Machine

/-- Function codes of OP 0x01 and 0x02 (R69). -/
def fnOfAlu : AluOp → Nat
  | .add => 0x00 | .sub => 0x01 | .and => 0x02 | .or => 0x03 | .xor => 0x04 | .sll => 0x05 | .srl => 0x06 | .sra => 0x07
  | .slt => 0x08 | .sltu => 0x09 | .min => 0x0A | .max => 0x0B | .minu => 0x0C | .maxu => 0x0D
  | .mul => 0x10 | .mulh => 0x11 | .mulhu => 0x12 | .sel => 0x18

/-- Function codes of OP 0x03 branches (R69). -/
def fnOfCond : Cond → Nat
  | .eq => 0 | .ne => 1 | .lt => 2 | .ge => 3 | .ltu => 4 | .geu => 5

/-- Function codes of OP 0x10 (R123). -/
def fnOfVf : VfOp → Nat
  | .add => 0x00 | .sub => 0x01 | .mul => 0x02 | .fma => 0x03 | .min => 0x04 | .max => 0x05 | .abs => 0x06 | .neg => 0x07
  | .rcp => 0x08 | .rsq => 0x09 | .exp2 => 0x0A | .log2 => 0x0B | .cvti => 0x0C | .icvtf => 0x0D

/-- Function codes of OP 0x11 (R123). -/
def fnOfVi : ViOp → Nat
  | .add => 0x00 | .sub => 0x01 | .mul => 0x02 | .and => 0x03 | .or => 0x04 | .xor => 0x05 | .sll => 0x06 | .srl => 0x07
  | .sra => 0x08 | .min => 0x09 | .max => 0x0A | .minu => 0x0B | .maxu => 0x0C | .slli => 0x10 | .srli => 0x11
  | .srai => 0x12

/-- Function codes of OP 0x12 (R123). -/
def fnOfVc : VcOp → Nat
  | .fclt => 0x00 | .fcle => 0x01 | .fceq => 0x02 | .fcun => 0x03 | .clt => 0x08 | .cltu => 0x09 | .ceq => 0x0A
def fnOfMask : MaskOp → Nat
  | .and => 0x10 | .or => 0x11 | .xor => 0x12 | .andn => 0x13

/-- Function codes of OP 0x14 (R123). -/
def fnOfRed : RedOp → Nat
  | .fsum => 0x00 | .fmax => 0x01 | .fmin => 0x02 | .famax => 0x03 | .sum => 0x08 | .max => 0x09 | .min => 0x0A

/-- Function codes of OP 0x04 (R69). -/
def fnOfLoad : LoadKind → Nat
  | .ldb => 0x00 | .ldbu => 0x01 | .ldh => 0x02 | .ldhu => 0x03 | .ldw => 0x04
def fnOfStore : StoreKind → Nat
  | .stb => 0x08 | .sth => 0x09 | .stw => 0x0A

/-- A word from OP, FN, the register fields at [49:45], [44:40] and the rest, bits [39:0] (R66). -/
def wordOf (op fn f45 f40 rest : Nat) : DWord :=
  BitVec.ofNat 64 (op * 2 ^ 58 + fn * 2 ^ 50 + f45 * 2 ^ 45 + f40 * 2 ^ 40 + rest)

/-- Format V: registers d, a, b and c at [49:45] down to [34:30], mk at [29:27], imm at [26:0] (R98). -/
def wordV (op fn d a b e mk imm : Nat) : DWord := wordOf op fn d a (b * 2 ^ 35 + e * 2 ^ 30 + mk * 2 ^ 27 + imm)

/-- Format X (R99). -/
def wordX (op fn : Nat) (x : XFields) : DWord :=
  wordOf op fn x.a x.b (x.c * 2 ^ 35 + x.d * 2 ^ 30 + x.f1 * 2 ^ 26 + x.f2 * 2 ^ 22 + x.mod)

/-- The word of a core instruction; zero, the word of NOP, for any other command. -/
def encodeWord (i : Instr) : DWord :=
  match i with
  | .nop _ => wordOf 0x00 0x00 0 0 0
  | .waitb _ imm => wordOf 0x00 0x01 0 0 imm.toNat
  | .halt _ => wordOf 0x00 0x02 0 0 0
  | .brk _ imm => wordOf 0x00 0x03 0 0 imm.toNat
  | .csrr _ rd imm => wordOf 0x00 0x08 rd 0 imm.toNat
  | .csrw _ rs1 imm => wordOf 0x00 0x09 0 rs1 imm.toNat
  | .scalarAlu _ op rd rs1 rs2 rs3 => wordOf 0x01 (fnOfAlu op) rd rs1 (rs2 * 2 ^ 35 + rs3 * 2 ^ 30)
  | .scalarAluImmediate _ op rd rs1 imm => wordOf 0x02 (fnOfAlu op) rd rs1 imm.toNat
  | .branch _ cond rs1 rs2 off => wordOf 0x03 (fnOfCond cond) rs1 rs2 off.toNat
  | .jal _ rd imm => wordOf 0x03 0x08 rd 0 imm.toNat
  | .jalr _ rd rs1 imm => wordOf 0x03 0x09 rd rs1 imm.toNat
  | .loop _ rs1 off => wordOf 0x03 0x0A rs1 0 off.toNat
  | .scalarLoad _ k rd rs1 imm => wordOf 0x04 (fnOfLoad k) rd rs1 imm.toNat
  | .scalarStore _ k sd rs1 imm => wordOf 0x04 (fnOfStore k) sd rs1 imm.toNat
  | .vld _ vd rs1 mk imm => wordOf 0x04 0x10 vd rs1 (mk * 2 ^ 37 + imm.toNat)
  | .vst _ vd rs1 mk imm => wordOf 0x04 0x11 vd rs1 (mk * 2 ^ 37 + imm.toNat)
  | .accld _ acc rs1 ty imm => wordOf 0x04 0x18 acc rs1 (b2n ty * 2 ^ 36 + imm.toNat)
  | .accst _ acc rs1 imm => wordOf 0x04 0x19 acc rs1 imm.toNat
  | .sbld _ rp rl tag n => wordOf 0x05 0x00 rp rl (tag * 2 ^ 36 + n)
  | .sbst _ rp rl tag n => wordOf 0x05 0x01 rp rl (tag * 2 ^ 36 + n)
  | .sbwait _ tag => wordOf 0x05 0x02 0 0 (tag * 2 ^ 36)
  | .isld _ rp rl n => wordOf 0x05 0x03 rp rl n
  | .tlsig _ sn slot => wordOf 0x06 0x00 sn 0 slot
  | .tlwait _ sn slot => wordOf 0x06 0x01 sn 0 slot
  | .tlrd _ sn slot => wordOf 0x06 0x02 sn 0 slot
  | .vectorFpArithmetic _ op d a b c3 mk => wordV 0x10 (fnOfVf op) d a b c3 mk 0
  | .vectorInteger _ op d a b mk imm => wordV 0x11 (fnOfVi op) d a b 0 mk imm
  | .vectorCompare _ op d a b mk => wordV 0x12 (fnOfVc op) d a b 0 mk 0
  | .maskLogic _ op d a b => wordV 0x12 (fnOfMask op) d a b 0 0 0
  | .vbcast _ d a mk => wordV 0x13 0x00 d a 0 0 mk 0
  | .vmvs _ d a ln => wordV 0x13 0x01 d a 0 0 0 ln
  | .vmvsl _ d a ln => wordV 0x13 0x02 d a 0 0 0 ln
  | .vperm _ d a b mk => wordV 0x13 0x03 d a b 0 mk 0
  | .vsel _ d a b mk => wordV 0x13 0x04 d a b 0 mk 0
  | .viota _ d mk => wordV 0x13 0x06 d 0 0 0 mk 0
  | .vaccr _ d a b => wordV 0x13 0x08 d a b 0 0 0
  | .vaccw _ d a b => wordV 0x13 0x09 d a b 0 0 0
  | .mpop _ d a => wordV 0x13 0x0A d a 0 0 0 0
  | .mtos _ d a => wordV 0x13 0x0B d a 0 0 0 0
  | .stom _ d a => wordV 0x13 0x0C d a 0 0 0 0
  | .vectorReduction _ op d a mk => wordV 0x14 (fnOfRed op) d a 0 0 mk 0
  | .mma _ x => wordX 0x20 0x00 x
  | .mmae _ x => wordX 0x20 0x01 x
  | .cvt _ x => wordX 0x21 0x00 x
  | .vqnt _ x => wordX 0x22 0x00 x
  | .vdqnt _ x => wordX 0x22 0x01 x
  | _ => 0#64

end Sys2Proof.Machine
end

