-- ==== Sys2Proof/WellFormed.lean ====
section
/-!
DEFINITION. Which commands are well formed: every operand lies in the range the spec gives the field, unit, resource
or function it names.  The machine gives an ill-formed command a meaning too (an absent resource answers as the spec
says, an excluded instruction word raises ILLEGAL_INSTR); well-formedness is what statements about all commands assume.
-/
namespace Sys2Proof

/-- The operands of format X: register numbers and the two 4-bit and the 22-bit fields (R99). -/
def XFields.inRange (x : XFields) : Bool :=
  decide (x.a < 32) && decide (x.b < 32) && decide (x.c < 32) && decide (x.d < 32) && decide (x.f1 < 16) &&
    decide (x.f2 < 16) && decide (x.mod < 2 ^ 22)

/-- A host access names one of the two PFs or 256 VFs (R251). -/
def Access.inRange (a : Access) : Bool := decide (a.fn < 258)

/-- The fields of a Finwin header fit their widths (R352). -/
def Frame.inRange (f : Frame) : Bool :=
  decide (f.dst < 1024) && decide (f.src < 1024) && decide (f.sepoch < 256) && decide (f.keyId < 4096) &&
    decide (f.dvd < 128) && decide (f.cls < 16) && decide (f.len ≤ 256) && decide (f.sinc < 2 ^ 16) && decide (f.dinc < 2 ^ 16) &&
    decide (f.seq < 2 ^ 32)

namespace Machine

/-- Is a command well formed? -/
def wellFormed (i : Instr) : Bool :=
  match i with
  | .nop c => decide (c < 8192)
  | .waitb c imm => decide (c < 8192) && decide (1 ≤ imm.toNat) && decide (imm.toNat ≤ 4096)
  | .halt c => decide (c < 8192)
  | .brk c _ => decide (c < 8192)
  | .csrr c rd imm => decide (c < 8192) && decide (rd < 32) && decide (imm.toNat < 4096)
  | .csrw c rs1 imm => decide (c < 8192) && decide (rs1 < 32) && decide (imm.toNat < 4096)
  | .scalarAlu c op rd rs1 rs2 rs3 => decide (c < 8192) && decide (rd < 32) && decide (rs1 < 32) && decide (rs2 < 32) && decide (rs3 < 32) && (op = .sel || rs3 == 0)
  | .scalarAluImmediate c op rd rs1 imm => decide (c < 8192) && decide (rd < 32) && decide (rs1 < 32) && aluHasImm op && (!aluIsShift op || imm.toNat < 32)
  | .branch c _ rs1 rs2 off => decide (c < 8192) && decide (rs1 < 32) && decide (rs2 < 32) && off.toNat % 8 == 0
  | .jal c rd _ => decide (c < 8192) && decide (rd < 32)
  | .jalr c rd rs1 _ => decide (c < 8192) && decide (rd < 32) && decide (rs1 < 32)
  | .loop c rs1 off => decide (c < 8192) && decide (rs1 < 32) && off.toNat % 8 == 0 && decide (8 ≤ off.toInt)
  | .scalarLoad c _ rd rs1 _ => decide (c < 8192) && decide (rd < 32) && decide (rs1 < 32)
  | .scalarStore c _ sd rs1 _ => decide (c < 8192) && decide (sd < 32) && decide (rs1 < 32)
  | .vld c vd rs1 mk _ => decide (c < 8192) && decide (vd < 32) && decide (rs1 < 32) && decide (mk < 8)
  | .vst c vd rs1 mk _ => decide (c < 8192) && decide (vd < 32) && decide (rs1 < 32) && decide (mk < 8)
  | .accld c acc rs1 _ _ => decide (c < 8192) && decide (acc < 4) && decide (rs1 < 32)
  | .accst c acc rs1 _ => decide (c < 8192) && decide (acc < 4) && decide (rs1 < 32)
  | .sbld c rp rl tag n => decide (c < 8192) && decide (rp < 32) && decide (rl < 32) && decide (tag < 16) && decide (n < 2049) && decide (1 ≤ n)
  | .sbst c rp rl tag n => decide (c < 8192) && decide (rp < 32) && decide (rl < 32) && decide (tag < 16) && decide (n < 2049) && decide (1 ≤ n)
  | .sbwait c tag => decide (c < 8192) && decide (tag < 16)
  | .isld c rp rl n => decide (c < 8192) && decide (rp < 32) && decide (rl < 32) && decide (n < 2049) && decide (1 ≤ n)
  | .tlsig c sn slot => decide (c < 8192) && decide (sn < 32) && decide (slot < 256) && pairOk sn
  | .tlwait c sn slot => decide (c < 8192) && decide (sn < 32) && decide (slot < 256) && pairOk sn
  | .tlrd c sn slot => decide (c < 8192) && decide (sn < 32) && decide (slot < 256) && pairOk sn
  | .vectorFpArithmetic c op d a b c3 mk => decide (c < 8192) && decide (d < 32) && decide (a < 32) && decide (b < 32) && decide (c3 < 32) && decide (mk < 8) && (op = .fma || c3 == 0) && (!vfUnary op || b == 0)
  | .vectorInteger c op d a b mk imm => decide (c < 8192) && decide (d < 32) && decide (a < 32) && decide (b < 32) && decide (mk < 8) && decide (imm < 32) && (if viImm op then b == 0 else imm == 0)
  | .vectorCompare c _ d a b mk => decide (c < 8192) && decide (d < 8) && decide (a < 32) && decide (b < 32) && decide (mk < 8)
  | .maskLogic c _ d a b => decide (c < 8192) && decide (d < 8) && decide (a < 8) && decide (b < 8)
  | .vbcast c d a mk => decide (c < 8192) && decide (d < 32) && decide (a < 32) && decide (mk < 8)
  | .vmvs c d a lane => decide (c < 8192) && decide (d < 32) && decide (a < 32) && decide (lane < 64)
  | .vmvsl c d a lane => decide (c < 8192) && decide (d < 32) && decide (a < 32) && decide (lane < 64)
  | .vperm c d a b mk => decide (c < 8192) && decide (d < 32) && decide (a < 32) && decide (b < 32) && decide (mk < 8)
  | .vsel c d a b mk => decide (c < 8192) && decide (d < 32) && decide (a < 32) && decide (b < 32) && decide (mk < 8)
  | .viota c d mk => decide (c < 8192) && decide (d < 32) && decide (mk < 8)
  | .vaccr c d a b => decide (c < 8192) && decide (d < 32) && decide (a < 4) && decide (b < 32)
  | .vaccw c d a b => decide (c < 8192) && decide (d < 4) && decide (a < 32) && decide (b < 32)
  | .mpop c d a => decide (c < 8192) && decide (d < 32) && decide (a < 8)
  | .mtos c d a => decide (c < 8192) && decide (d < 32) && decide (a < 8) && pairOk d
  | .stom c d a => decide (c < 8192) && decide (d < 8) && decide (a < 32) && pairOk a
  | .vectorReduction c _ d a mk => decide (c < 8192) && decide (d < 32) && decide (a < 32) && decide (mk < 8)
  | .mma c x => decide (c < 8192) && x.inRange && (mmaDecode x false).isSome
  | .mmae c x => decide (c < 8192) && x.inRange && (mmaDecode x true).isSome
  | .cvt c x => decide (c < 8192) && x.inRange && (cvtDecode x).isSome
  | .vqnt c x => decide (c < 8192) && x.inRange
  | .vdqnt c x => decide (c < 8192) && x.inRange
  | .frontEndAccept c _ => decide (c < 8192)
  | .holdTakesEffect vd => decide (vd < 128)
  | .holdResume vd => decide (vd < 128)
  | .rollLevelDecay c => decide (c < 8192)
  | .routerBeat c => decide (c < 8192)
  | .drumlineDatumArrival c port _ => decide (c < 8192) && decide (port < 4)
  | .seamUnlock => true
  | .transferResponse c _ line _ => decide (c < 8192) && decide (line < 2048)
  | .isldCopyComplete c => decide (c < 8192)
  | .tlrdReply c => decide (c < 8192)
  | .exceptionTakesEffect c => decide (c < 8192)
  | .l1ContextTeardown ctx => decide (ctx < 4096)
  | .execStart vd => decide (vd < 128)
  | .execComplete vd => decide (vd < 128)
  | .sliceExpiry vd => decide (vd < 128)
  | .measureBoundaryStop vd => decide (vd < 128)
  | .contextSaveComplete vd => decide (vd < 128)
  | .contextRestore vd => decide (vd < 128)
  | .doorbellWrite a page _ => a.inRange && decide (page < 2048)
  | .queQctlWrite a lq _ => a.inRange && decide (lq < 2048)
  | .cqheadWrite a lq v => a.inRange && decide (lq < 2048) && decide (v < 2^16)
  | .nopCommand _ => true
  | .ctxCreate _ => true
  | .ctxDestroy _ => true
  | .objCreate _ => true
  | .objRef _ => true
  | .objFree _ => true
  | .vdListObjects _ => true
  | .vdListContexts _ => true
  | .vdListTimelines _ => true
  | .vdListQueues _ => true
  | .tlCreate _ => true
  | .tlDestroy _ => true
  | .tlBind _ => true
  | .tlSignal _ => true
  | .tlWait _ => true
  | .tlWaitSatisfied _ => true
  | .vdCreate _ => true
  | .vdDestroy _ => true
  | .bind _ => true
  | .tblWrite _ => true
  | .invalidate _ => true
  | .load _ => true
  | .store _ => true
  | .copy _ => true
  | .hotLoad _ => true
  | .hotSet _ => true
  | .hotRelease _ => true
  | .exec _ => true
  | .xfer _ => true
  | .jrnRead _ => true
  | .commandComplete _ => true
  | .objectScrubComplete idx => decide (idx < 2^20)
  | .tsCerts vd => decide (vd < 128)
  | .tsOpen vd => decide (vd < 128)
  | .tsClose vd => decide (vd < 128)
  | .keyProvision vd => decide (vd < 128)
  | .setProvision vd => decide (vd < 128)
  | .setDrop vd => decide (vd < 128)
  | .subtreeReset vd => decide (vd < 128)
  | .debugGrant vd => decide (vd < 128)
  | .debugRevoke vd => decide (vd < 128)
  | .selfDestroy vd => decide (vd < 128)
  | .devAttest => true
  | .peerPolicy => true
  | .fwStage _ => true
  | .debugOpen => true
  | .debugMap => true
  | .debugClose => true
  | .jtagUnlock _ => true
  | .debugGrantExpiry vd g => decide (vd < 128) && decide (g < 16)
  | .move => true
  | .evacuate => true
  | .relimit => true
  | .unseam => true
  | .release => true
  | .roleChange _ => true
  | .resetRequestL2 vd => decide (vd < 128)
  | .resetRequestL3 half => decide (half < 2)
  | .resetRequestL4 => true
  | .resetRequestL5 => true
  | .rootWrite space _ => decide (space < 128)
  | .faultResolveRetry space slot seq => decide (space < 128) && decide (slot < 32) && decide (seq < 2^16)
  | .faultResolveInvalid space slot seq => decide (space < 128) && decide (slot < 32) && decide (seq < 2^16)
  | .faultTimeout space slot => decide (space < 128) && decide (slot < 32)
  | .sbkArbselWrite _ => true
  | .rcRegisterRead a addr => a.inRange && decide (addr < 2^32)
  | .lowDwordRead a addr => a.inRange && decide (addr < 2^32)
  | .lowDwordWrite a addr _ => a.inRange && decide (addr < 2^32)
  | .highDwordWrite a addr _ => a.inRange && decide (addr < 2^32)
  | .tollCntloRead f => decide (f < 2)
  | .vfidTollloRead a => a.inRange
  | .pctSnaploRead f => decide (f < 2)
  | .nmecauseClear _ => true
  | .journalWindowRead off => decide (off < 2^16)
  | .debugApertureAccess off _ _ => decide (off < 2^20)
  | .portEnable p _ => decide (p < 32)
  | .portRelease p => decide (p < 32)
  | .registerWrite a addr _ => a.inRange && decide (addr < 2^32)
  | .functionLevelReset f => decide (f < 258)
  | .returnToD0 f => decide (f < 258)
  | .numvfsWrite port _ n => decide (port < 2) && decide (n < 2^16)
  | .lockInterface port vf => decide (port < 2) && decide (1 ≤ vf) && decide (vf < 129)
  | .startInterface port vf => decide (port < 2) && decide (1 ≤ vf) && decide (vf < 129)
  | .stopInterface port vf => decide (port < 2) && decide (1 ≤ vf) && decide (vf < 129)
  | .getDeviceInterfaceReport port vf => decide (port < 2) && decide (1 ≤ vf) && decide (vf < 129)
  | .keyProg port stream ks sub vf _ => decide (port < 2) && decide (stream < 256) && decide (ks < 2) && decide (sub < 6) && decide (vf < 128)
  | .kSetGo port stream ks => decide (port < 2) && decide (stream < 256) && decide (ks < 2)
  | .kSetStop port stream ks => decide (port < 2) && decide (stream < 256) && decide (ks < 2)
  | .ideCheckFailure port stream => decide (port < 2) && decide (stream < 256)
  | .linkDown port => decide (port < 2)
  | .spdmRequest port _ => decide (port < 2)
  | .atsInvalidateRequest f _ size tag => decide (f < 258) && decide (size < 53) && decide (tag < 32)
  | .invalidateCompletion f tag => decide (f < 258) && decide (tag < 32)
  | .translationCompletion f _ _ _ _ _ => decide (f < 258)
  | .prgResponse f idx code => decide (f < 258) && decide (idx < 512) && decide (code < 16)
  | .translationWalk space _ _ req _ => decide (space < 128) && decide (req < 256)
  | .faultRecordDeferred space => decide (space < 128)
  | .invalidationPhaseDrain space => decide (space < 128)
  | .hbmRead vd key addr _ => decide (vd < 128) && decide (key < 4096) && decide (addr < 2^40)
  | .hbmWrite vd key addr _ => decide (vd < 128) && decide (key < 4096) && decide (addr < 2^40)
  | .partialWrite vd key addr _ _ => decide (vd < 128) && decide (key < 4096) && decide (addr < 2^40)
  | .keyRollSweepEnd k => decide (k < 4096)
  | .channelFormatComplete ch => decide (ch < 256)
  | .channelEraseComplete ch => decide (ch < 256)
  | .hbmScrubPatrol ch line _ => decide (ch < 256) && decide (line < 2^26)
  | .hbmTemperaturePoll stack temp => decide (stack < 8) && decide (temp < 256)
  | .refreshRateSwitch stack => decide (stack < 8)
  | .keyDrainReport k => decide (k < 4096)
  | .keyZeroisation k => decide (k < 4096)
  | .keyIdRelease k => decide (k < 4096)
  | .seedbankRequest bin line _ => decide (bin < 512) && decide (line < 262144)
  | .arbiterGrant idx _ => decide (idx < 280)
  | .scrubLine pod _ _ => decide (pod < 128)
  | .binClearComplete b => decide (b < 512)
  | .binFlipComplete vd b => decide (vd < 128) && decide (b < 512)
  | .epochDrained vd => decide (vd < 128)
  | .prepareEnd vd => decide (vd < 128)
  | .compositionCommit vd => decide (vd < 128)
  | .rebindPoint vd => decide (vd < 128)
  | .rebindTimeout vd => decide (vd < 128)
  | .joinTimeout vd => decide (vd < 128)
  | .migrationWriteHold vd => decide (vd < 128)
  | .deadlineCheck => true
  | .tollBoundary => true
  | .frequencyStep => true
  | .voltageSettleDeadline _ => true
  | .rollProfileChange => true
  | .collectiveTimeout _ => true
  | .telemetrySnapshot => true
  | .tollFrameSend => true
  | .tollFrameReceive p f => decide (p < 32) && f.inRange
  | .upstreamSilence => true
  | .holdoverElection => true
  | .tollInPulse => true
  | .tollInLoss => true
  | .discFrameReceive p f => decide (p < 32) && f.inRange
  | .spdmFrameReceive p f => decide (p < 32) && f.inRange
  | .authenticationRetry p => decide (p < 32)
  | .keyUpdate peer => decide (peer < 1024)
  | .dataFrameReceive p f => decide (p < 32) && f.inRange
  | .ackReceive p f => decide (p < 32) && f.inRange
  | .nobufReceive p f => decide (p < 32) && f.inRange
  | .xferRetry _ tgt => decide (tgt < 1024)
  | .creditFrameReceive p f => decide (p < 32) && f.inRange
  | .hopReplay p => decide (p < 32)
  | .poolFrameReceive p f => decide (p < 32) && f.inRange
  | .join p f => decide (p < 32) && f.inRange
  | .prepare p f => decide (p < 32) && f.inRange
  | .prepared p f => decide (p < 32) && f.inRange
  | .commit p f => decide (p < 32) && f.inRange
  | .abandon p f => decide (p < 32) && f.inRange
  | .keyret p f => decide (p < 32) && f.inRange
  | .keydrain p f => decide (p < 32) && f.inRange
  | .peerlost p f => decide (p < 32) && f.inRange
  | .peerdown p f => decide (p < 32) && f.inRange
  | .lsreport p f => decide (p < 32) && f.inRange
  | .role p f => decide (p < 32) && f.inRange
  | .peerTollTimeout dev => decide (dev < 1024)
  | .peerLostHandling dev => decide (dev < 1024)
  | .laneDrop p lane => decide (p < 32) && decide (lane < 8)
  | .portTrainingComplete p _ _ => decide (p < 32)
  | .trainingRetry p => decide (p < 32)
  | .teardownQuiesceEnd vd => decide (vd < 128)
  | .teardownRetire vd => decide (vd < 128)
  | .powerGoodAssert rail => decide (rail < 12)
  | .powerGoodLoss rail => decide (rail < 12)
  | .vddAonRise => true
  | .devrstNAssert => true
  | .devrstNRelease => true
  | .perstAssert port => decide (port < 2)
  | .perstRelease port => decide (port < 2)
  | .startupStage _ => true
  | .clockStabilityWindow src _ => decide (src < 8)
  | .clockStabilityTimeout src => decide (src < 8)
  | .clockMonitorWindow _ => true
  | .capLoop _ => true
  | .avsbusCurrentPoll half _ => decide (half < 2)
  | .pmbusPoll _ => true
  | .pmbAlert _ => true
  | .droopDetect half => decide (half < 2)
  | .sensorSample _ _ => true
  | .throtNAssert => true
  | .throtNHeldMark => true
  | .inputStormWindow i _ => decide (i < 8)
  | .stuckInputTimeout i => decide (i < 8)
  | .l2VdComputeReset vd => decide (vd < 128)
  | .l3HalfComputeReset half => decide (half < 2)
  | .l4ComputePartReset => true
  | .l5DeviceWarmReset => true
  | .unitReset _ _ => true
  | .recoveryComplete => true
  | .recoveryLimitOverrun => true
  | .holdWatchdog vd => decide (vd < 128)
  | .podBeatWatchdog pod => decide (pod < 128)
  | .unitRequestWatchdog _ _ => true
  | .heartbeatMissed which => decide (which < 4)
  | .securityControllerSilent => true
  | .dbgaccRead off => decide (off < 2^32)
  | .dbgaccWrite off _ => decide (off < 2^32)
  | .tapReset => true
  | .bmcAddressAssign a => decide (a < 128)
  | .bmcGlbId => true
  | .bmcGlbStatus => true
  | .bmcGlbNmecause => true
  | .bmcGlbNmefirst => true
  | .bmcGlbNmetime => true
  | .bmcPctPgstat => true
  | .bmcErrRstlast => true
  | .bmcPctTemp => true
  | .bmcPctPower => true
  | .bmcSbInstat => true
  | .hbmPhyLaneFailure ch => decide (ch < 256)
  | .lossOfSignal p => decide (p < 32)
  | .signalDetection p => decide (p < 32)
  | .linkUp port => decide (port < 2)
  | .configSpaceWrite f _ => decide (f < 258)
  | .subtreeResetComplete vd => decide (vd < 128)
  | .uncorrectableCodeword p => decide (p < 32)
  | .seamRelock => true
  | .droopRecovery half => decide (half < 2)
  | .throtNDeassert => true
  | .stuckInputDeassert i => decide (i < 8)
  | .vddAonFall => true
  | .dirtyLineCopy vd _ => decide (vd < 128)
  | .queueEngineTick vd => decide (vd < 128)
  | .shapedFlowWindow flow => decide (flow < 2^16)

end Machine

end Sys2Proof
end

