-- ==== Sys2Proof/Safety.lean ====
section
/-!
DEFINITION. What the claims of this model are stated in: the part of a core an instruction's result lives in, how a core
passes to its next slot, what a frame leaves unchanged, and the invariants every step keeps.
-/
namespace Sys2Proof.Machine

/-! ### Core instructions -/

/-- The core a core instruction runs on; none for a command of another unit. -/
def coreOf : Instr → Option Nat
  | .nop c | .halt c | .waitb c _ | .brk c _ | .csrr c _ _ | .csrw c _ _ | .scalarAlu c _ _ _ _ _
  | .scalarAluImmediate c _ _ _ _ | .branch c _ _ _ _ | .jal c _ _ | .jalr c _ _ _ | .loop c _ _ | .scalarLoad c _ _ _ _
  | .scalarStore c _ _ _ _ | .vld c _ _ _ _ | .vst c _ _ _ _ | .accld c _ _ _ _ | .accst c _ _ _ | .sbld c _ _ _ _
  | .sbst c _ _ _ _ | .sbwait c _ | .isld c _ _ _ | .tlsig c _ _ | .tlwait c _ _ | .tlrd c _ _
  | .vectorFpArithmetic c _ _ _ _ _ _ | .vectorInteger c _ _ _ _ _ _ | .vectorCompare c _ _ _ _ _ | .maskLogic c _ _ _ _
  | .vbcast c _ _ _ | .vmvs c _ _ _ | .vmvsl c _ _ _ | .vperm c _ _ _ _ | .vsel c _ _ _ _ | .viota c _ _ | .vaccr c _ _ _
  | .vaccw c _ _ _ | .mpop c _ _ | .mtos c _ _ | .stom c _ _ | .vectorReduction c _ _ _ _ | .mma c _ | .mmae c _ | .cvt c _
  | .vqnt c _ | .vdqnt c _ => some c
  | _ => none

/-- A core with everything that only sequences and times its instructions left out: pc, loop stack, slot, lead queue,
exception, the times at which results and units become free, the event counts still in flight, and the windows of R121.
What is left is what R56 to R64 and R127 name: registers, masks, tiles, pocket, instruction store, CSRs, transfers, and
the router. -/
def Core.results (k : Core) : Core :=
  { k with pc := 0, loops := [], slot := 0, lead := [], exc := none, cntPend := [], validS := [], validV := [],
           validM := [], tileUse := [], tileChain := [], unitFree := [], macs := [], mmaeKnown := 0, srDone := 0,
           hazards := [], waitWord := none }

/-- Core `k'` is past the slot `k` executed: one slot on, with pc and the loop stack as the completion of the word at pc
leaves them, and no exception but that of running past the end of the instruction store (R64, R71, R73). -/
def Core.Passed (k k' : Core) : Prop :=
  k'.slot = k.slot + 1 ∧ k'.pc = (loopAdvance k.pc k.loops).1 ∧ k'.loops = (loopAdvance k.pc k.loops).2 ∧
    k'.exc = if (loopAdvance k.pc k.loops).1 ≥ 0x8000 then some (fetchPast (k.slot + 1)) else k.exc

/-- Core `k'` is `k` with an exception raised at the slot `k` executes, and nothing else changed (R85, R86). -/
def Core.Raised (k k' : Core) (c : Cause) (info : Nat) : Prop :=
  k' = { k with exc := some { cause := c, pc := k.pc, info := info, instr := k.instrWord, slot := k.slot } }

/-- No instruction of the core is still reading or writing the pocket bytes [a, a + n): no window of R121 is broken. -/
def Core.clearAt (k : Core) (a n : Nat) : Prop :=
  ∀ h ∈ k.hazards, k.slot < h.untilSlot → ∀ sp ∈ h.reads, sp.meets a n = false

/-- No instruction of the core is still writing the pocket bytes [a, a + n) (R121). -/
def Core.readyAt (k : Core) (a n : Nat) : Prop := ∀ i < n, k.unready (a + i) = false

/-! ### Queue commands -/

/-- A queue command whose turn has come: the engine holds it under `seq`, it is of the row's opcode, no status has been
met yet, and it may start or has started (R275, R288). -/
def State.Startable (s : State) (seq opc : Nat) : Prop :=
  s.hasCmd seq = true ∧ (s.cmd seq).opc = opc ∧ (s.cmd seq).status = stOK ∧
    (s.canStart (s.cmd seq) = true ∨ (s.cmd seq).phase = .running)

/-- The state with a command started. -/
def State.started (s : State) (seq : Nat) : State := s.setCmd seq { s.cmd seq with phase := .running }

/-- A command's effect has ended with a status; its completion can be written (R278). -/
def State.Ended (s : State) (seq st : Nat) : Prop := (s.cmd seq).phase = .ready ∧ (s.cmd seq).status = st

/-- State `s'` differs from `s` only in the queue engine: its pairs, commands, contexts, objects, timelines and journal. -/
def State.OnlyQueues (s s' : State) : Prop := s' = { s with que := s'.que }

/-! ### Security messages -/

/-- An authenticated message of VD `v` is in progress: of the number `msg`, under the open session `x`, with the next SEQ
and a tag that verifies over `body` (R383, R384, R388). -/
def State.Authentic (s : State) (v msg : Nat) (x : Session) (body : List Byte) : Prop :=
  let bs := (s.vd v).sec.mb.bytes
  s.tenantAsked v msg = true ∧ (s.vd v).st ≠ .teardown ∧ headerZero bs = true ∧ (s.vd v).sec.session = some x ∧
    leAt bs 8 4 = x.num ∧ leAt bs 4 4 = x.seqIn + 1 ∧ 32 ≤ bs.length ∧
    gcmOpen x.keyIn (x.seqIn + 1) (bs.take 16) ((bs.drop 16).take (bs.length - 32)) (bs.drop (bs.length - 16)) = some body

/-- The mailbox of VD `v` holds the answer to it, sealed under the session with the next SEQ of each direction (R384). -/
def State.Sealed (s s' : State) (v : Nat) (x : Session) (result : Nat) (out : List Byte) : Prop :=
  let h := msgHeader (s.vd v).sec.mb.msg (x.seqOut + 1) x.num
  let e := gcmSeal x.keyOut (2 ^ 32 + (x.seqOut + 1)) h out
  (s'.vd v).sec.mb = (s.vd v).sec.mb.answer result (h ++ e.1 ++ e.2) ∧
    (s'.vd v).sec.session = some { x with seqIn := x.seqIn + 1, seqOut := x.seqOut + 1 }

/-- An operator message is in progress: of the number `msg`, with `body` after its header (R383, R384). -/
def State.Operator (s : State) (msg : Nat) (body : List Byte) : Prop :=
  let bs := s.sec.mb.bytes
  s.sec.mb.busy = true ∧ s.sec.mb.msg = msg ∧ headerZero bs = true ∧ leAt bs 8 4 = 0 ∧ bs.drop 16 = body

/-- The operator's mailbox holds the answer to it: the header with the request's SEQ, and `out` (R384). -/
def State.Replied (s s' : State) (out : List Byte) : Prop :=
  s'.sec.mb = s.sec.mb.answer 0 (msgHeader s.sec.mb.msg (leAt s.sec.mb.bytes 4 4) 0 ++ out)

/-! ### Frames -/

/-- A frame on port `p` passes the checks of R355; `t` is the state after them. -/
def State.Passes (s : State) (p : Nat) (f : Frame) (t : State) : Prop := s.rxCheck p f = (.ok, t)

/-- A notice passes them and has not been acted on before: `t`, in which it is noted, is the state it acts on (R354). -/
def State.Heeded (s : State) (p : Nat) (f : Frame) (n : Notice) (t : State) : Prop :=
  f.body = .ctrl n ∧ ∃ u, s.Passes p f u ∧ (∀ e ∈ (u.peer (u.rxKey p f)).acted, e.got.nseq ≠ n.nseq) ∧
    t = u.setPeer (u.rxKey p f) { u.peer (u.rxKey p f) with acted := { got := n } :: (u.peer (u.rxKey p f)).acted }

/-! ### Invariants -/

/-- What R386 and R494 keep of the firmware: the version running never exceeds the anti-rollback fuses, so that no set
older than the one running can be loaded again. -/
def State.FuseInv (s : State) : Prop := s.sec.active.version ≤ s.sec.rollback

end Sys2Proof.Machine
end

