-- ==== Sys2Proof/Certificates/Slice0/Obligations.lean ====
section
/-!
DEFINITION. The statements for the provers.  Each formalises rules of spec/ named in its docstring; a clause that rests
on a choice of the model says so and names its log entry.
-/
open Sys2Proof Sys2Proof.Machine

/-- A step takes the command at the front of the queue and runs it on the rest; with an empty queue a nanosecond of toll time
passes (the model's choice, assumption 4). -/
def Obligations.StepTakesFrontCommand : Prop :=
  (∀ (c : Instr) (rest : List Instr) (s : State),
      step { s with pending := c :: rest } = exec c { s with pending := rest }) ∧
  ∀ s : State, s.pending = [] → step s = .next s.tick

/-- A core instruction whose core cannot execute a slot (no running context, halted, stopped, held, an exception before the
slot, an ISLD still copying, or a router a beat behind) changes nothing (R64, R65, R72, R76, R86; the reading of an unmet
precondition is the model's, assumption 6).  R58, R60, R67: operands the tables exclude raise ILLEGAL_INSTR at the
instruction's own slot and change nothing else: a WAITB count outside 1 to 4,096, an immediate operation without an
immediate form or with a shift count above 31, an address the CSR table does not list, a CSRW of a read-only CSR, a branch
or loop offset off an instruction word, a transfer length outside 1 to 2,048, and an odd register pair or pair 0. -/
def Obligations.EarlyAndExcludedInstructions : Prop :=
  (∀ (i : Instr) (c : Nat) (s : State), coreOf i = some c → s.canIssue c = false → exec i s = .next s) ∧
  (∀ (c : Nat) (s : State), s.canIssue c = true → ∀ i : Instr,
     ((∃ imm : Word, i = .waitb c imm ∧ (imm = 0#32 ∨ 4096 < imm.toNat)) ∨
      (∃ op rd rs1, ∃ imm : Word, i = .scalarAluImmediate c op rd rs1 imm ∧
         (aluHasImm op = false ∨ (aluIsShift op = true ∧ 31 < imm.toNat))) ∨
      (∃ rd, ∃ imm : Word, i = .csrr c rd imm ∧ (s.core c).csrValue s.toll imm.toNat = none) ∨
      (∃ rs1, ∃ imm : Word, i = .csrw c rs1 imm ∧ (s.core c).csrWrite imm.toNat ((s.core c).getS rs1) = none) ∨
      (∃ cond rs1 rs2, ∃ off : Word, i = .branch c cond rs1 rs2 off ∧ off.toNat % 8 ≠ 0) ∨
      (∃ rs1, ∃ off : Word, i = .loop c rs1 off ∧ (off.toNat % 8 ≠ 0 ∨ off.toInt < 8)) ∨
      (∃ rp rl tag n, i = .sbld c rp rl tag n ∧ (n = 0 ∨ 2048 < n)) ∨
      (∃ rp rl tag n, i = .sbst c rp rl tag n ∧ (n = 0 ∨ 2048 < n)) ∨
      (∃ rp rl n, i = .isld c rp rl n ∧ (n = 0 ∨ 2048 < n)) ∨
      (∃ d a, i = .mtos c d a ∧ (d % 2 = 1 ∨ d = 0)) ∨
      (∃ d a, i = .stom c d a ∧ (a % 2 = 1 ∨ a = 0))) →
     ∃ k', exec i s = .next (s.setCore c k') ∧ (s.core c).Raised k' .illegalInstr 0)

/-- R69, R70: the results of the scalar operations, as numbers; 32-bit two's complement that wraps, shifts by the low five bits,
SLT and SLTU giving 1 or 0, MULH and MULHU the high words of the exact products, SEL by its third operand.  R56, R69: a
scalar operation, with a register or an immediate operand, writes its result to rd alone (to nothing when rd is s0), takes
one slot, and leaves every other register, the pocket, the CSRs and every other core as they were. -/
def Obligations.ScalarOperations : Prop :=
  (∀ a b d : Word,
     (aluResult .add a b d).toNat = (a.toNat + b.toNat) % 2 ^ 32 ∧
     (aluResult .sub a b d).toNat = (a.toNat + 2 ^ 32 - b.toNat) % 2 ^ 32 ∧
     (aluResult .mul a b d).toNat = a.toNat * b.toNat % 2 ^ 32 ∧
     (aluResult .mulhu a b d).toNat = a.toNat * b.toNat / 2 ^ 32 ∧
     (aluResult .mulh a b d).toInt = a.toInt * b.toInt / 2 ^ 32 ∧
     (aluResult .sll a b d).toNat = a.toNat * 2 ^ (b.toNat % 32) % 2 ^ 32 ∧
     (aluResult .srl a b d).toNat = a.toNat / 2 ^ (b.toNat % 32) ∧
     (aluResult .sra a b d).toInt = a.toInt / 2 ^ (b.toNat % 32) ∧
     (aluResult .slt a b d).toNat = (if a.toInt < b.toInt then 1 else 0) ∧
     (aluResult .sltu a b d).toNat = (if a.toNat < b.toNat then 1 else 0) ∧
     (aluResult .min a b d).toInt = min a.toInt b.toInt ∧ (aluResult .max a b d).toInt = max a.toInt b.toInt ∧
     (aluResult .minu a b d).toNat = min a.toNat b.toNat ∧ (aluResult .maxu a b d).toNat = max a.toNat b.toNat ∧
     (∀ i, (aluResult .and a b d).getLsbD i = (a.getLsbD i && b.getLsbD i)) ∧
     (∀ i, (aluResult .or a b d).getLsbD i = (a.getLsbD i || b.getLsbD i)) ∧
     (∀ i, (aluResult .xor a b d).getLsbD i = (a.getLsbD i ^^ b.getLsbD i)) ∧
     aluResult .sel a b d = if d = 0#32 then b else a) ∧
  ((∀ (c : Nat) (op : AluOp) (rd rs1 rs2 rs3 : Nat) (s : State), s.canIssue c = true →
     ∃ k', exec (.scalarAlu c op rd rs1 rs2 rs3) s = .next (s.setCore c k') ∧ (s.core c).Passed k' ∧
       (∀ r, k'.getS r = if r = rd ∧ rd ≠ 0 then
           aluResult op ((s.core c).getS rs1) ((s.core c).getS rs2) ((s.core c).getS rs3) else (s.core c).getS r) ∧
       k'.results = ({ s.core c with s := k'.s } : Core).results) ∧
   ∀ (c : Nat) (op : AluOp) (rd rs1 : Nat) (imm : Word) (s : State), s.canIssue c = true → aluHasImm op = true →
     (aluIsShift op = true → imm.toNat ≤ 31) →
     ∃ k', exec (.scalarAluImmediate c op rd rs1 imm) s = .next (s.setCore c k') ∧ (s.core c).Passed k' ∧
       (∀ r, k'.getS r = if r = rd ∧ rd ≠ 0 then aluResult op ((s.core c).getS rs1) imm 0#32 else (s.core c).getS r) ∧
       k'.results = ({ s.core c with s := k'.s } : Core).results)

/-- R69, R72: NOP passes one slot and WAITB its count; HALT passes one slot and the core executes no further; none of them
changes a register, the pocket or another core.  R69, R85, R87: BRK raises BREAK at its own slot with its immediate as INFO,
and changes nothing else.  R60: CSRR writes the listed CSR's value to rd; CSRW writes SRCNT, ROLLBASE.WIN or a numeric event
counter; both pass one slot. The values read are those of the table: the shape's numbers, the measure position, the tags of
outstanding transfers, the hold counts, and the toll count. -/
def Obligations.SystemInstructionsAndCsrs : Prop :=
  ((∀ (c : Nat) (s : State), s.canIssue c = true →
     ∃ k', exec (.nop c) s = .next (s.setCore c k') ∧ (s.core c).Passed k' ∧ k'.results = (s.core c).results) ∧
   (∀ (c : Nat) (imm : Word) (s : State), s.canIssue c = true → 1 ≤ imm.toNat → imm.toNat ≤ 4096 →
     ∃ k', exec (.waitb c imm) s = .next (s.setCore c k') ∧ k'.slot = (s.core c).slot + imm.toNat ∧
       k'.pc = (loopAdvance (s.core c).pc (s.core c).loops).1 ∧
       k'.loops = (loopAdvance (s.core c).pc (s.core c).loops).2 ∧ k'.results = (s.core c).results) ∧
   ∀ (c : Nat) (s : State), s.canIssue c = true →
     ∃ k', exec (.halt c) s = .next (s.setCore c k') ∧ (s.core c).Passed k' ∧
       k'.results = ({ s.core c with halted := true } : Core).results ∧ (s.setCore c k').canIssue c = false) ∧
  (∀ (c : Nat) (imm : Word) (s : State), s.canIssue c = true →
     ∃ k', exec (.brk c imm) s = .next (s.setCore c k') ∧ (s.core c).Raised k' .break_ imm.toNat) ∧
  ((∀ (c rd : Nat) (imm v : Word) (s : State), s.canIssue c = true → (s.core c).csrValue s.toll imm.toNat = some v →
     ∃ k', exec (.csrr c rd imm) s = .next (s.setCore c k') ∧ (s.core c).Passed k' ∧
       (∀ r, k'.getS r = if r = rd ∧ rd ≠ 0 then v else (s.core c).getS r) ∧
       k'.results = ({ s.core c with s := k'.s, tollHi := k'.tollHi } : Core).results ∧
       k'.tollHi = if imm.toNat = 0x060 then some (BitVec.ofNat 32 (s.toll / 2 ^ 32)) else (s.core c).tollHi) ∧
   (∀ (c rs1 : Nat) (imm : Word) (s : State), s.canIssue c = true →
     imm.toNat = 0x010 ∨ imm.toNat = 0x030 ∨ (0x100 ≤ imm.toNat ∧ imm.toNat ≤ 0x108) →
     ∃ k', exec (.csrw c rs1 imm) s = .next (s.setCore c k') ∧ (s.core c).Passed k' ∧
       (imm.toNat = 0x010 → k'.csrValue s.toll 0x010 = some ((s.core c).getS rs1)) ∧
       (imm.toNat = 0x030 → k'.csrValue s.toll 0x030 = some ((s.core c).getS rs1 &&& 0x0001E000#32)) ∧
       (0x100 ≤ imm.toNat → k'.cnt.counter (imm.toNat - 0x100) = ((s.core c).getS rs1).toNat) ∧
       k'.results = ({ s.core c with srcnt := k'.srcnt, rollWin := k'.rollWin, cnt := k'.cnt } : Core).results) ∧
   ∀ (k : Core) (toll : Nat), k.csrValue toll 0x000 = some (BitVec.ofNat 32 k.shapeCore) ∧
     k.csrValue toll 0x001 = some (BitVec.ofNat 32 k.shapePods) ∧ k.csrValue toll 0x002 = some (BitVec.ofNat 32 k.ctx) ∧
     k.csrValue toll 0x010 = some k.srcnt ∧ k.csrValue toll 0x011 = some k.rseed ∧
     k.csrValue toll 0x060 = some (BitVec.ofNat 32 toll) ∧
     (k.tollHi = none → k.csrValue toll 0x061 = some (BitVec.ofNat 32 (toll / 2 ^ 32))) ∧
     (∀ t < 16, (BitVec.ofNat 32 k.pendTags).getLsbD t = k.xfers.any fun x => x.tag = t))

/-- R64, R69, R71: a branch whose comparison holds, a JAL or a JALR to an instruction word that leaves no live loop body and
enters none that is not live sets pc to the target, writes pc + 8 to rd (JAL, JALR), and costs two slots; a branch whose
comparison does not hold passes as any other word.  R71: a LOOP with a nonzero count and fewer than four live entries pushes
an entry for its body; with a count of zero it skips the body at the cost of a taken branch; a fifth raises LOOP_DEPTH. When
the last word of bodies completes, the live entries that end there are processed from the innermost outwards: a count above
one goes down by one and pc returns to that body's first word; a count of one pops the entry. -/
def Obligations.BranchesJumpsAndLoops : Prop :=
  ((∀ (c rs1 rs2 : Nat) (cond : Cond) (off : Word) (s : State), s.canIssue c = true → off.toNat % 8 = 0 →
     (let k := s.core c
      let t := (BitVec.ofNat 32 k.pc + off).toNat
      (condHolds cond (k.getS rs1) (k.getS rs2) = true → t % 8 = 0 → t ≤ 0x7FF8 → k.depthBad t = false →
        ∃ k', exec (.branch c cond rs1 rs2 off) s = .next (s.setCore c k') ∧ k'.pc = t ∧ k'.slot = k.slot + 2 ∧
          k'.loops = k.loops ∧ k'.results = k.results) ∧
      (condHolds cond (k.getS rs1) (k.getS rs2) = false →
        ∃ k', exec (.branch c cond rs1 rs2 off) s = .next (s.setCore c k') ∧ k.Passed k' ∧ k'.results = k.results))) ∧
   ∀ (c rd : Nat) (i : Instr) (s : State) (t : Nat), s.canIssue c = true →
     (let k := s.core c
      ((∃ imm, i = .jal c rd imm ∧ t = (BitVec.ofNat 32 k.pc + imm).toNat) ∨
       (∃ rs1 imm, i = .jalr c rd rs1 imm ∧ t = (k.getS rs1 + imm).toNat)) →
      (t % 8 = 0 → t ≤ 0x7FF8 → k.depthBad t = false →
        ∃ k', exec i s = .next (s.setCore c k') ∧ k'.pc = t ∧ k'.slot = k.slot + 2 ∧ k'.loops = k.loops ∧
          (∀ r, k'.getS r = if r = rd ∧ rd ≠ 0 then BitVec.ofNat 32 (k.pc + 8) else k.getS r) ∧
          k'.results = ({ k with s := k'.s } : Core).results) ∧
      (t % 8 ≠ 0 ∨ 0x7FF8 < t →
        ∃ k', exec i s = .next (s.setCore c k') ∧ k.Raised k' .fetchRange t) ∧
      (t % 8 = 0 → t ≤ 0x7FF8 → k.depthBad t = true →
        ∃ k', exec i s = .next (s.setCore c k') ∧ k.Raised k' .loopDepth t))) ∧
  ((∀ (c rs1 : Nat) (off : Word) (s : State), s.canIssue c = true → off.toNat % 8 = 0 → 8 ≤ off.toInt →
     (let k := s.core c
      (k.getS rs1 ≠ 0#32 → k.loops.length < 4 →
        ∃ k', exec (.loop c rs1 off) s = .next (s.setCore c k') ∧ k'.slot = k.slot + 1 ∧ k'.pc = k.pc + 8 ∧
          k'.loops = ⟨k.pc + 8, k.pc + off.toNat, (k.getS rs1).toNat⟩ :: k.loops ∧ k'.results = k.results) ∧
      (k.getS rs1 ≠ 0#32 → 4 ≤ k.loops.length →
        ∃ k', exec (.loop c rs1 off) s = .next (s.setCore c k') ∧ k.Raised k' .loopDepth 0) ∧
      (k.getS rs1 = 0#32 → (k.pc + off.toNat + 8) % 8 = 0 → k.pc + off.toNat + 8 ≤ 0x7FF8 →
        k.depthBad (k.pc + off.toNat + 8) = false →
        ∃ k', exec (.loop c rs1 off) s = .next (s.setCore c k') ∧ k'.pc = k.pc + off.toNat + 8 ∧
          k'.slot = k.slot + 2 ∧ k'.loops = k.loops ∧ k'.results = k.results))) ∧
   ∀ (pc : Nat) (done live : List LoopEnt) (e : LoopEnt), (∀ x ∈ done, x.last = pc ∧ x.count ≤ 1) →
     loopAdvance pc (done ++ []) = (pc + 8, []) ∧
     (e.last ≠ pc → loopAdvance pc (done ++ e :: live) = (pc + 8, e :: live)) ∧
     (e.last = pc → 1 < e.count →
       loopAdvance pc (done ++ e :: live) = (e.first, { e with count := e.count - 1 } :: live)))

/-- R61, R69: a scalar load whose bytes lie in the pocket, are aligned, hold no poison and are not still being written puts
them, sign- or zero-extended, into rd; a scalar store whose bytes are aligned puts the low bytes of sd there; every byte
outside those stored keeps its value, and so does every other register.  R61, R63, R499: a pocket access that passes the end
of the pocket or breaks its alignment raises POCKET_RANGE with its address; one that is in range and reads a poisoned line
raises POISON_CONSUMED with that line's address; either way nothing else changes. -/
def Obligations.PocketAccesses : Prop :=
  ((∀ (c rd rs1 : Nat) (l : LoadKind) (imm : Word) (s : State), s.canIssue c = true →
     (let k := s.core c
      let n := (loadShape l).1
      let a := effAddr (k.getS rs1) imm
      a % n = 0 → a + n ≤ 0x20000 → (∀ x ∈ linesOf a n, sget false k.poison x = false) → k.readyAt a n →
      ∃ k', exec (.scalarLoad c l rd rs1 imm) s = .next (s.setCore c k') ∧ k.Passed k' ∧
        (∀ r, k'.getS r = if r = rd ∧ rd ≠ 0 then
           (if (loadShape l).2 then BitVec.ofInt 32 (sext (8 * n) (readLE k.pocket a n))
            else BitVec.ofNat 32 (readLE k.pocket a n)) else k.getS r) ∧
        k'.results = ({ k with s := k'.s } : Core).results)) ∧
   ∀ (c sd rs1 : Nat) (t : StoreKind) (imm : Word) (s : State), s.canIssue c = true →
     (let k := s.core c
      let n := storeBytes t
      let a := effAddr (k.getS rs1) imm
      a % n = 0 → a + n ≤ 0x20000 → k.clearAt a n →
      ∃ k', exec (.scalarStore c t sd rs1 imm) s = .next (s.setCore c k') ∧ k.Passed k' ∧
        readLE k'.pocket a n = (k.getS sd).toNat % 2 ^ (8 * n) ∧
        (∀ j, j < a ∨ a + n ≤ j → readByte k'.pocket j = readByte k.pocket j) ∧
        k'.results = ({ k with pocket := k'.pocket, poison := k'.poison } : Core).results ∧ k'.poison = k.poison)) ∧
  (∀ (c : Nat) (s : State) (i : Instr) (rs1 len al : Nat) (imm : Word), s.canIssue c = true →
     (let k := s.core c
      let a := effAddr (k.getS rs1) imm
      ((∃ l rd, i = .scalarLoad c l rd rs1 imm ∧ len = (loadShape l).1 ∧ al = len) ∨
       (∃ t sd, i = .scalarStore c t sd rs1 imm ∧ len = storeBytes t ∧ al = len) ∨
       (∃ vd mk, i = .vld c vd rs1 mk imm ∧ len = 256 ∧ al = 256) ∨
       (∃ vd mk, i = .vst c vd rs1 mk imm ∧ len = 256 ∧ al = 256) ∨
       (∃ t ty, i = .accld c t rs1 ty imm ∧ len = 8192 ∧ al = 256) ∨
       (∃ t, i = .accst c t rs1 imm ∧ len = 8192 ∧ al = 256)) →
      (0x20000 < a + len ∨ a % al ≠ 0 →
        ∃ k', exec i s = .next (s.setCore c k') ∧ k.Raised k' .pocketRange a) ∧
      (a + len ≤ 0x20000 → a % al = 0 →
        ∀ l, ((∃ q rd, i = .scalarLoad c q rd rs1 imm) ∨ ∃ t ty, i = .accld c t rs1 ty imm) →
          l ∈ linesOf a len → sget false k.poison l = true → (∀ m ∈ linesOf a len, m < l → sget false k.poison m = false) →
          ∃ k', exec i s = .next (s.setCore c k') ∧ k.Raised k' .poisonConsumed (64 * l))))

/-- R63, R69: VLD puts the 256 bytes into the enabled lanes of its register and VST the enabled lanes into the 256 bytes; lanes
whose mask bit is 0 are neither loaded nor stored; bytes outside the access keep their value.  R59, R69: ACCLD loads the
8,192 bytes into its tile, row-major, and sets the tile's type; ACCST stores the tile there; no other tile and no byte
outside the access changes. -/
def Obligations.VectorAndTileAccesses : Prop :=
  ((∀ (c v rs1 mk : Nat) (imm : Word) (s : State), s.canIssue c = true →
     (let k := s.core c
      let a := effAddr (k.getS rs1) imm
      a % 256 = 0 → a + 256 ≤ 0x20000 → (∀ x ∈ maskedLines a (k.getM mk), sget false k.poison x = false) →
      k.readyAt a 256 →
      ∃ k', exec (.vld c v rs1 mk imm) s = .next (s.setCore c k') ∧ k.Passed k' ∧
        (∀ i < 64, lane (k'.getV v) i = if (k.getM mk).getLsbD i then BitVec.ofNat 32 (readLE k.pocket (a + 4 * i) 4)
           else lane (k.getV v) i) ∧
        (∀ r, r ≠ v → k'.getV r = k.getV r) ∧ k'.results = ({ k with v := k'.v } : Core).results)) ∧
   ∀ (c v rs1 mk : Nat) (imm : Word) (s : State), s.canIssue c = true →
     (let k := s.core c
      let a := effAddr (k.getS rs1) imm
      a % 256 = 0 → a + 256 ≤ 0x20000 → (∀ i < 64, (k.getM mk).getLsbD i → k.clearAt (a + 4 * i) 4) →
      ∃ k', exec (.vst c v rs1 mk imm) s = .next (s.setCore c k') ∧ k.Passed k' ∧
        (∀ i < 64, readLE k'.pocket (a + 4 * i) 4 = if (k.getM mk).getLsbD i then (lane (k.getV v) i).toNat
           else readLE k.pocket (a + 4 * i) 4) ∧
        (∀ j, j < a ∨ a + 256 ≤ j → readByte k'.pocket j = readByte k.pocket j) ∧
        k'.results = ({ k with pocket := k'.pocket, poison := k'.poison } : Core).results)) ∧
  ((∀ (c t rs1 : Nat) (ty : Bool) (imm : Word) (s : State), s.canIssue c = true → t < 4 →
     (let k := s.core c
      let a := effAddr (k.getS rs1) imm
      a % 256 = 0 → a + 8192 ≤ 0x20000 → (∀ x ∈ linesOf a 8192, sget false k.poison x = false) → k.readyAt a 8192 →
      ∃ k', exec (.accld c t rs1 ty imm) s = .next (s.setCore c k') ∧ k.Passed k' ∧
        (∀ row < 32, ∀ col < 64,
          k'.getAcc t row col = BitVec.ofNat 32 (readLE k.pocket (a + 256 * row + 4 * col) 4)) ∧
        (∀ u row col, u ≠ t → u < 4 → row < 32 → col < 64 → k'.getAcc u row col = k.getAcc u row col) ∧
        (∀ u < 4, k'.accInt.getLsbD u = if u = t then ty else k.accInt.getLsbD u) ∧
        k'.results = ({ k with acc := k'.acc, accInt := k'.accInt } : Core).results)) ∧
   ∀ (c t rs1 : Nat) (imm : Word) (s : State), s.canIssue c = true →
     (let k := s.core c
      let a := effAddr (k.getS rs1) imm
      a % 256 = 0 → a + 8192 ≤ 0x20000 → k.clearAt a 8192 →
      ∃ k', exec (.accst c t rs1 imm) s = .next (s.setCore c k') ∧ k.Passed k' ∧
        (∀ row < 32, ∀ col < 64, readLE k'.pocket (a + 256 * row + 4 * col) 4 = (k.getAcc t row col).toNat) ∧
        (∀ j, j < a ∨ a + 8192 ≤ j → readByte k'.pocket j = readByte k.pocket j) ∧
        k'.results = ({ k with pocket := k'.pocket, poison := k'.poison } : Core).results))

/-- R65, R79, R80: an SBLD, SBST or ISLD whose ranges and length the rules allow, with fewer than 16 transfers outstanding,
passes its slot and adds one outstanding transfer of all its lines; the registers and the pocket stay.  R61, R65, R79: a
transfer out of the pocket's range raises POCKET_RANGE, an ISLD out of the instruction store's raises FETCH_RANGE, and store
lines past the context's slots raise STORE_RANGE, at the transfer's own slot. -/
def Obligations.TransferInstructions : Prop :=
  (∀ (c : Nat) (s : State) (rp rl tag n : Nat) (i : Instr) (kind : XferKind), s.canIssue c = true →
     (let k := s.core c
      let a := (k.getS rp).toNat
      1 ≤ n → n ≤ 2048 → k.xfers.length < 16 →
      storeRangeBad (k.getS rl).toNat n (s.ctxSlots k.vd k.ctx).length = false → a % 64 = 0 →
      ((i = .sbld c rp rl tag n ∧ kind = .sbld ∧ tag < 16 ∧ a + 64 * n ≤ 0x20000) ∨
       (i = .sbst c rp rl tag n ∧ kind = .sbst ∧ tag < 16 ∧ a + 64 * n ≤ 0x20000) ∨
       (i = .isld c rp rl n ∧ kind = .isld ∧ tag = 0 ∧ a + 64 * n ≤ 0x8000)) →
      ∃ k' x, exec i s = .next (s.setCore c k') ∧ k.Passed k' ∧ k'.xfers = k.xfers ++ [x] ∧ x.kind = kind ∧ x.tag = tag ∧
        x.rp = a ∧ x.rl = (k.getS rl).toNat ∧ x.n = n ∧ x.left = List.range n ∧
        k'.isld = (if kind = .isld then some x.id else k.isld) ∧
        k'.results = ({ k with xfers := k'.xfers, nextXid := k'.nextXid, isld := k'.isld } : Core).results)) ∧
  (∀ (c : Nat) (s : State) (rp rl tag n : Nat), s.canIssue c = true → 1 ≤ n → n ≤ 2048 → tag < 16 →
     (let k := s.core c
      let a := (k.getS rp).toNat
      (a % 64 ≠ 0 ∨ 0x20000 < a + 64 * n → ∀ i, i = .sbld c rp rl tag n ∨ i = .sbst c rp rl tag n →
        ∃ k', exec i s = .next (s.setCore c k') ∧ k.Raised k' .pocketRange a) ∧
      (a % 64 ≠ 0 ∨ 0x8000 < a + 64 * n →
        ∃ k', exec (.isld c rp rl n) s = .next (s.setCore c k') ∧ k.Raised k' .fetchRange a) ∧
      (a % 64 = 0 → k.xfers.length < 16 →
        storeRangeBad (k.getS rl).toNat n (s.ctxSlots k.vd k.ctx).length = true →
        ∀ i, ((i = .sbld c rp rl tag n ∨ i = .sbst c rp rl tag n) ∧ a + 64 * n ≤ 0x20000) ∨
             (i = .isld c rp rl n ∧ a + 64 * n ≤ 0x8000) →
        ∃ k', exec i s = .next (s.setCore c k') ∧ k.Raised k' .storeRange (k.getS rl).toNat)))

/-- R80: SBWAIT passes its slot once no transfer with its tag is outstanding, and changes nothing while one is.  R80, R82: the
answer to a transfer's line. Data for an SBLD reach the pocket line with their poison bit; the line of an SBST, unpoisoned
and no longer being written, reaches the Seedbank unless the bank refuses it; either way the line is no longer outstanding.
An ISLD's instruction words reach the instruction store.  R65: once every line of an ISLD is answered its copy completes and
the core fetches again; a poisoned line raises POISON_CONSUMED at the next slot, with the store line address of the lowest
one as INFO. -/
def Obligations.TransfersEnd : Prop :=
  (∀ (c tag : Nat) (s : State), s.canIssue c = true → tag < 16 →
     ((∀ x ∈ (s.core c).xfers, x.tag ≠ tag) →
       ∃ k', exec (.sbwait c tag) s = .next (s.setCore c k') ∧ (s.core c).Passed k' ∧ k'.results = (s.core c).results) ∧
     ((∃ x ∈ (s.core c).xfers, x.tag = tag) → exec (.sbwait c tag) s = .next s)) ∧
  (∀ (c xid line : Nat) (ecc : Ecc) (s s1 : State) (x : CoreXfer),
     (let k := s.core c
      (k.xfers.find? fun y => y.id = xid && y.left.contains line) = some x →
      (∀ d p, x.kind = .sbld → s.coreRequest k (x.rl + line) .read ecc = (.data d p, s1) →
        k.clearAt (64 * (x.rp / 64 + line)) 64 →
        ∃ k', exec (.transferResponse c xid line ecc) s = .next (s1.setCore c k') ∧
          readLine k'.pocket (64 * (x.rp / 64 + line)) = d ∧ sget false k'.poison (x.rp / 64 + line) = p ∧
          (∀ j, j < 64 * (x.rp / 64 + line) ∨ 64 * (x.rp / 64 + line) + 64 ≤ j →
            readByte k'.pocket j = readByte k.pocket j) ∧
          (∀ y ∈ k'.xfers, y.id = x.id → y.left = x.left.erase line)) ∧
      (x.kind = .sbst → sget false k.poison (x.rp / 64 + line) = false → k.readyAt (64 * (x.rp / 64 + line)) 64 →
        k.sigs = [] →
        s.coreRequest k (x.rl + line) (.write (BitVec.ofNat 512 (readLE k.pocket (64 * (x.rp / 64 + line)) 64))
          (BitVec.allOnes 64) false) ecc = (.done, s1) →
        ∃ k', exec (.transferResponse c xid line ecc) s = .next (s1.setCore c k') ∧ k'.wrote = true ∧
          k'.pocket = k.pocket ∧ (∀ y ∈ k'.xfers, y.id = x.id → y.left = x.left.erase line)) ∧
      (∀ d, x.kind = .isld → s.coreRequest k (x.rl + line) .read ecc = (.data d false, s1) →
        ∃ k', exec (.transferResponse c xid line ecc) s = .next (s1.setCore c k') ∧
          (∀ j < 8, sget 0#64 k'.istore ((x.rp + 64 * line) / 8 + j) = BitVec.ofNat 64 (d.toNat / 2 ^ (64 * j))) ∧
          (∀ y ∈ k'.xfers, y.id = x.id → y.left = x.left.erase line)))) ∧
  (∀ (c id : Nat) (s : State) (x : CoreXfer), (s.core c).isld = some id →
     ((s.core c).xfers.find? fun y => y.id = id) = some x → x.left = [] →
     (x.bad = none →
       ∃ k', exec (.isldCopyComplete c) s = .next (s.setCore c k') ∧
         k' = { s.core c with isld := none, xfers := (s.core c).xfers.filter fun y => y.id ≠ id }) ∧
     (∀ b, x.bad = some b → (s.core c).exc = none → (s.ctx (s.core c).ctx).stop ≠ .exception →
       ∃ s', exec (.isldCopyComplete c) s = .next s' ∧ (s'.core c).isld = none ∧
         (s'.core c).exc = some { cause := .poisonConsumed, pc := x.pc, info := x.rl + b, instr := x.instr,
                                  slot := (s.core c).slot } ∧
         (∀ j, j ≠ c → s'.core j = s.core j) ∧ s'.que = s.que ∧ s'.sbk = s.sbk))

/-- R74, R83, R84: TLSIG passes its slot and, with no SBST of the core outstanding, raises its timeline to the pair's value (a
value that does not advance it leaves it); with one outstanding the signal waits for it. TLWAIT passes once the timeline is
at or past the pair's value. TLRD's pair takes the timeline's value when the reply arrives. -/
def Obligations.TimelineInstructions : Prop :=
  (∀ (c sn slot t : Nat) (s : State), s.canIssue c = true → pairOk sn = true → slot < 256 →
    (let k := s.core c
     s.tlSlot k.ctx slot true = some t → k.sigs = [] →
     ((∀ x ∈ k.xfers, x.kind ≠ .sbst) → (s.timeline t).mirror = 0 → (s.timeline t).poisoned = false →
       ∃ s', exec (.tlsig c sn slot) s = .next s' ∧ k.Passed (s'.core c) ∧
         (s'.timeline t).value = max (s.timeline t).value (k.getPair sn).toNat ∧
         (∀ u, u ≠ t → s'.timeline u = s.timeline u) ∧
         (s'.core c).results = ({ k with wrote := true } : Core).results) ∧
     ((∃ x ∈ k.xfers, x.kind = .sbst) →
       ∃ k', exec (.tlsig c sn slot) s = .next (s.setCore c k') ∧ k.Passed k' ∧
         k'.sigs = [⟨t, (k.getPair sn).toNat, (k.xfers.filter fun x => x.kind = .sbst).map (·.id)⟩]))) ∧
  (∀ (c sn slot t : Nat) (s : State), s.canIssue c = true → pairOk sn = true → slot < 256 →
    s.tlSlot (s.core c).ctx slot false = some t →
    ((((s.core c).getPair sn).toNat ≤ (s.timeline t).value →
       ∃ k', exec (.tlwait c sn slot) s = .next (s.setCore c k') ∧ (s.core c).Passed k' ∧
         k'.results = (s.core c).results) ∧
     ((s.timeline t).value < ((s.core c).getPair sn).toNat → (s.timeline t).poisoned = true →
       ∃ k', exec (.tlwait c sn slot) s = .next (s.setCore c k') ∧ (s.core c).Raised k' .timelinePoisoned 0) ∧
     ∃ k', exec (.tlrd c sn slot) s = .next (s.setCore c k') ∧ (s.core c).Passed k' ∧
       k'.tlrds = (s.core c).tlrds ++ [⟨sn, t⟩])) ∧
  (∀ (c sn slot : Nat) (s : State), s.canIssue c = true → pairOk sn = true → slot < 256 →
    (s.tlSlot (s.core c).ctx slot true = none →
      ∃ k', exec (.tlsig c sn slot) s = .next (s.setCore c k') ∧ (s.core c).Raised k' .timelineSlot slot) ∧
    (s.tlSlot (s.core c).ctx slot false = none → ∀ i, i = .tlwait c sn slot ∨ i = .tlrd c sn slot →
      ∃ k', exec i s = .next (s.setCore c k') ∧ (s.core c).Raised k' .timelineSlot slot)) ∧
  ∀ (c : Nat) (s : State) (r : TlrdReq) (rest : List TlrdReq), (s.core c).tlrds = r :: rest → pairOk r.sn = true →
    ∃ k', exec (.tlrdReply c) s = .next (s.setCore c k') ∧ k'.tlrds = rest ∧
      (k'.getPair r.sn).toNat = (s.timeline r.tl).value % 2 ^ 64 ∧
      (∀ j, j ≠ r.sn → j ≠ r.sn + 1 → k'.getS j = (s.core c).getS j)

/-- R113, R114, R115, R117: a lane-by-lane instruction computes the lanes its mask enables and leaves the others; VSEL and VMVSL
and VACCR write the lanes their rules name; every other register, the tiles and the pocket stay as they were, and the
instruction takes one slot.  R116, R117: compares and mask logic write each bit of their mask (nothing when it is m0), a
masked-off lane's compare bit being 0; VMVS, MPOP and MTOS write their scalars and STOM its mask, from the lane, mask or
pair their rules name.  R117, R118: a reduction leaves its result in lane 0 and zero in lanes 1 to 63, the wrapping sum of
the enabled lanes for VRSUM; VACCW copies a register to a row of its tile; a row above 31 raises OPERAND_SHAPE. -/
def Obligations.VectorInstructions : Prop :=
  (∀ (c d : Nat) (i : Instr) (f : Nat → Word) (s : State), s.canIssue c = true →
     (let k := s.core c
      let keep (mk j : Nat) (w : Word) : Word := if (k.getM mk).getLsbD j then w else lane (k.getV d) j
      ((∃ op a b e mk, i = .vectorFpArithmetic c op d a b e mk ∧
         ∀ j, f j = keep mk j (vfLane op (lane (k.getV a) j) (lane (k.getV b) j) (lane (k.getV e) j)).1) ∨
       (∃ op a b mk imm, i = .vectorInteger c op d a b mk imm ∧
         ∀ j, f j = keep mk j (viLane op (lane (k.getV a) j) (lane (k.getV b) j) imm)) ∨
       (∃ a mk, i = .vbcast c d a mk ∧ ∀ j, f j = keep mk j (k.getS a)) ∨
       (∃ a b mk, i = .vperm c d a b mk ∧
         ∀ j, f j = keep mk j (lane (k.getV a) ((lane (k.getV b) j).toNat % 64))) ∨
       (∃ mk, i = .viota c d mk ∧ ∀ j, f j = keep mk j (BitVec.ofNat 32 j)) ∨
       (∃ a b mk, i = .vsel c d a b mk ∧
         ∀ j, f j = if (k.getM mk).getLsbD j then lane (k.getV a) j else lane (k.getV b) j) ∨
       (∃ a ln, i = .vmvsl c d a ln ∧ ∀ j, f j = if j = ln % 64 then k.getS a else lane (k.getV d) j) ∨
       (∃ a b, i = .vaccr c d a b ∧ (k.getS b).toNat ≤ 31 ∧ ∀ j, f j = k.getAcc a (k.getS b).toNat j)) →
      ∃ k', exec i s = .next (s.setCore c k') ∧ k.Passed k' ∧ (∀ j < 64, lane (k'.getV d) j = f j) ∧
        (∀ r, r ≠ d → k'.getV r = k.getV r) ∧ k'.results = ({ k with v := k'.v } : Core).results)) ∧
  ((∀ (c d : Nat) (i : Instr) (f : Nat → Bool) (s : State), s.canIssue c = true →
     (let k := s.core c
      ((∃ op a b mk, i = .vectorCompare c op d a b mk ∧
         ∀ j, f j = ((k.getM mk).getLsbD j && vcLane op (lane (k.getV a) j) (lane (k.getV b) j))) ∨
       (∃ a b, i = .maskLogic c .and d a b ∧ ∀ j, f j = ((k.getM a).getLsbD j && (k.getM b).getLsbD j)) ∨
       (∃ a b, i = .maskLogic c .or d a b ∧ ∀ j, f j = ((k.getM a).getLsbD j || (k.getM b).getLsbD j)) ∨
       (∃ a b, i = .maskLogic c .xor d a b ∧ ∀ j, f j = ((k.getM a).getLsbD j ^^ (k.getM b).getLsbD j)) ∨
       (∃ a b, i = .maskLogic c .andn d a b ∧ ∀ j, f j = ((k.getM a).getLsbD j && !(k.getM b).getLsbD j)) ∨
       (∃ a, i = .stom c d a ∧ pairOk a = true ∧ ∀ j, f j = (k.getPair a).getLsbD j)) →
      ∃ k', exec i s = .next (s.setCore c k') ∧ k.Passed k' ∧
        (∀ r, ∀ j < 64, (k'.getM r).getLsbD j = if r = d ∧ d ≠ 0 then f j else (k.getM r).getLsbD j) ∧
        k'.results = ({ k with m := k'.m } : Core).results)) ∧
   ∀ (c d : Nat) (i : Instr) (w : Word) (s : State), s.canIssue c = true →
     (let k := s.core c
      ((∃ a ln, i = .vmvs c d a ln ∧ w = lane (k.getV a) (ln % 64)) ∨
       (∃ a, i = .mpop c d a ∧ w = BitVec.ofNat 32 ((List.range 64).filter fun j => (k.getM a).getLsbD j).length) →
       ∃ k', exec i s = .next (s.setCore c k') ∧ k.Passed k' ∧
         (∀ r, k'.getS r = if r = d ∧ d ≠ 0 then w else k.getS r) ∧
         k'.results = ({ k with s := k'.s } : Core).results) ∧
      (∀ a, pairOk d = true →
       ∃ k', exec (.mtos c d a) s = .next (s.setCore c k') ∧ k.Passed k' ∧ k'.getPair d = k.getM a ∧
         (∀ r, r ≠ d → r ≠ d + 1 → k'.getS r = k.getS r) ∧ k'.results = ({ k with s := k'.s } : Core).results))) ∧
  ((∀ (c d a mk : Nat) (op : RedOp) (s : State), s.canIssue c = true →
     (let k := s.core c
      ∃ k', exec (.vectorReduction c op d a mk) s = .next (s.setCore c k') ∧ k.Passed k' ∧
        (∀ j, 0 < j → j < 64 → lane (k'.getV d) j = 0#32) ∧
        (op = .sum → lane (k'.getV d) 0 =
          ((List.range 64).map fun j => if (k.getM mk).getLsbD j then lane (k.getV a) j else 0#32).sum) ∧
        (∀ r, r ≠ d → k'.getV r = k.getV r) ∧ k'.results = ({ k with v := k'.v } : Core).results)) ∧
   ∀ (c d a b : Nat) (s : State), s.canIssue c = true →
     (let k := s.core c
      let row := (k.getS b).toNat
      (row ≤ 31 → d < 4 →
        ∃ k', exec (.vaccw c d a b) s = .next (s.setCore c k') ∧ k.Passed k' ∧
          (∀ j < 64, k'.getAcc d row j = lane (k.getV a) j) ∧
          (∀ t r j, (t, r) ≠ (d, row) → r < 32 → j < 64 → k'.getAcc t r j = k.getAcc t r j) ∧
          k'.results = ({ k with acc := k'.acc } : Core).results) ∧
      (31 < row → ∀ i, i = .vaccw c d a b ∨ i = .vaccr c d a b →
        ∃ k', exec i s = .next (s.setCore c k') ∧ k.Raised k' .operandShape 0)))

/-- R101 to R103, R105: an MMA or MMAE whose checks pass, with no earlier CVT or ACCST still writing the pocket, writes every
output element of its tile or tile pair: the INT32 sum of the exact products, saturating group by group, or the FP32
accumulation rounded once per group, on top of the tile's element or of zero when init is set; MMAE reads a marked block
from its shadow. Nothing else that R56 names changes, but for the tile type an init sets. -/
def Obligations.MatrixMultiply : Prop :=
  ∀ (c : Nat) (x : XFields) (esc : Bool) (d : MmaDec) (i : Instr) (s : State), s.canIssue c = true →
    (let k := s.core c
     i = (if esc then .mmae c x else .mma c x) → mmaDecode x esc = some d → k.mmaFail d x esc = none →
     (∀ h ∈ k.hazards, h.resUntil ≤ k.slot) →
     let kn := (k.getS x.c).toNat
     let de := (k.getS x.d).toNat
     let ea := if esc then k.escSide de 0 else EscSide.off
     let eb := if esc then k.escSide de 32 else EscSide.off
     ∃ k', exec i s = .next (s.setCore c k') ∧ k.Passed k' ∧
       (∀ row < d.sh.rows, ∀ col < 64,
         let av := rowValues k.pocket (k.desc (k.getS x.a).toNat) d.fa d.sa ea row kn
         let bv := rowValues k.pocket (k.desc (k.getS x.b).toNat) d.fb d.sb eb col kn
         let old := if d.init then 0#32 else k.getAcc (d.acc + row / 32) (row % 32) col
         k'.getAcc (d.acc + row / 32) (row % 32) col =
           if d.sh.int then
             BitVec.ofInt 32 (intGroups (kn / 32) (old.toInt, false) (List.zipWith (fun a b => fvInt a * fvInt b) av bv)).1
           else (accGroups d.sh.group (kn / d.sh.group) (old, {}) (List.zipWith fvMul av bv)).1) ∧
       (∀ t r col, t ∉ d.tiles → r < 32 → col < 64 → k'.getAcc t r col = k.getAcc t r col) ∧
       k'.results = ({ k with acc := k'.acc, accInt := k'.accInt } : Core).results)

/-- R38, R99, R108, R112: a CVT whose checks pass, with no pocket window open and source and destination apart, stores exactly
the bytes its rows encode to; VDQNT writes the decoded lanes of the packed image, each by the exact value of its element and
its block's scale; VQNT writes the packed image of its source register. An excluded word raises ILLEGAL_INSTR. -/
def Obligations.Conversions : Prop :=
  (∀ (c : Nat) (x : XFields) (d : CvtDec) (s : State), s.canIssue c = true →
    (let k := s.core c
     let a := (k.getS x.a).toNat
     cvtDecode x = some d → k.cvtFail d a = none → k.hazards = [] → d.sr = false →
     let src := k.desc a
     let dst := k.desc (a + 0x10)
     let srcSp := if d.srcacc then [] else src.spans d.fs d.ssc (k.cvtRows a) 64
     let out := dst.chunk d.fd d.dsc (k.cvtRows a) (k.cvtBlk a) ++
       (if d.shadow then (k.desc (a + 0x20)).chunk .e4m3 true (k.cvtRows a) (k.cvtBlk a) else []) ++
       (if d.mask then [cvtMaskSpan (k.pword (a + 0x30) % 2 ^ 17) (k.pword (a + 0x34) % 2 ^ 17) (k.cvtRows a)
          (k.cvtBlk a)] else [])
     (∀ p ∈ srcSp, ∀ r ∈ p.runs, ∀ q ∈ out, q.meets r.1 r.2 = false) →
     ∃ k', exec (.cvt c x) s = .next (s.setCore c k') ∧ k.Passed k' ∧
       k'.pocket = ((List.range (k.cvtRows a)).map fun i =>
           (cvtRow d dst (k.desc (a + 0x20)) (k.pword (a + 0x30) % 2 ^ 17) (k.pword (a + 0x34) % 2 ^ 17) (k.cvtBlk a) i
             k.pocket (k.cvtSource k.pocket d src i).1 none).1).flatten.foldl (fun m w => writeBytes m w.1 w.2) k.pocket ∧
       k'.results = ({ k with pocket := k'.pocket, poison := k'.poison } : Core).results)) ∧
  (∀ (c a b f1 : Nat) (fs : Fmt) (ssc : Bool) (s : State), s.canIssue c = true → Fmt.ofCode f1 = some fs →
    fs.scaleBitOk ssc = true →
    (let k := s.core c
     let bs := vBytes (k.getV b)
     ∃ k', exec (.vdqnt c { a := a, b := b, c := 0, d := 0, f1 := f1, f2 := 0, mod := 65536 * b2n ssc }) s =
         .next (s.setCore c k') ∧ k.Passed k' ∧
       (∀ j < 64, lane (k'.getV a) j = (decode32 (elemValue fs (unpackAt fs (bs.take fs.chunkBytes) j)
          (if !ssc then .unit else if fs = .t3 then .fp16 (leNat ((bs.drop (128 + 2 * (j / 32))).take 2))
           else .e8m0 (bs.getD (128 + j / 32) 0#8).toNat))).1) ∧
       (∀ r, r ≠ a → k'.getV r = k.getV r) ∧ k'.results = ({ k with v := k'.v } : Core).results)) ∧
  (∀ (c a b f2 : Nat) (fd : Fmt) (sat : Bool) (s : State), s.canIssue c = true → Fmt.ofCode f2 = some fd →
    fd.scaleBitOk false = true →
    (let k := s.core c
     ∃ k', exec (.vqnt c { a := a, b := b, c := 0, d := 0, f1 := 0, f2 := f2, mod := 2 * b2n sat }) s =
         .next (s.setCore c k') ∧ k.Passed k' ∧
       vBytes (k'.getV a) = (packChunk fd
         ((encodeFor fd false sat none none ((lanes (k.getV b)).take 32)).codes ++
          (encodeFor fd false sat none none (((lanes (k.getV b)).drop 32).take 32)).codes) ++
         List.replicate 256 0#8).take 256 ∧
       (∀ r, r ≠ a → k'.getV r = k.getV r) ∧ k'.results = ({ k with v := k'.v } : Core).results)) ∧
  ∀ (c : Nat) (x : XFields) (s : State), s.canIssue c = true → ∀ i : Instr,
    ((i = .mma c x ∧ mmaDecode x false = none) ∨ (i = .mmae c x ∧ mmaDecode x true = none) ∨
     (i = .cvt c x ∧ cvtDecode x = none) ∨ (i = .vqnt c x ∧ Fmt.ofCode x.f2 = none) ∨
     (i = .vdqnt c x ∧ Fmt.ofCode x.f1 = none)) →
    ∃ k', exec i s = .next (s.setCore c k') ∧ (s.core c).Raised k' .illegalInstr 0

/-- Every well-formed core instruction's word decodes to it: no field of an encoding is dropped or mixed up. -/
def Obligations.InstructionWordsRoundTrip : Prop :=
  ∀ (i : Instr) (c : Nat), coreOf i = some c → wellFormed i = true → decodeWord c (encodeWord i) = some i

/-- The other direction: a word the front end accepts is the word of the instruction it gives, so no two words stand for one
instruction and no reserved bit of an accepted word is set (R67). -/
def Obligations.AcceptedWordsAreCanonical : Prop :=
  ∀ (c : Nat) (w : DWord) (i : Instr), decodeWord c w = some i → encodeWord i = w ∧ coreOf i = some c

/-- R73, R75, R76: the front end of a running core tries its next slot for wall beat T. Where the wait condition holds the
decoded word enters the lead queue; where it does not and the slot could execute at T, a hold of the VD begins at that slot,
unless one not yet released already waits; a word no instruction has stops the front end with ILLEGAL_INSTR.  R76, R88,
R422: a hold takes effect once every core that has not halted has executed the slots before it, and roll starts at the level
the busy beats of the last 256 give; on release every core counts the beats held and roll ends; while held a roll level
falls by one towards FLOOR. -/
def Obligations.FrontEndHoldsAndRoll : Prop :=
  (∀ (c T : Nat) (s v : State),
     (let k := s.core c
      let n := k.accepted
      let f := v.core c
      let w := sget 0#64 f.istore (f.pc / 8)
      k.running = true → k.halted = false → k.stopped = false → k.feStop = false → k.lead.length < 12 →
      T ≤ s.projected k n T → k.exc = none → (s.ctx k.ctx).stop = .none → s.frontView c T = some v → f.slot ≤ n →
      (∀ i, decodeWord c w = some i → s.condition v c i (s.projected k n T) T = true →
        ∃ s', exec (.frontEndAccept c T) s = .next s' ∧ (s'.core c).lead = k.lead ++ [.word f.pc w] ∧
          (s'.core c).feWait = false ∧ (∀ j, j ≠ c → s'.core j = s.core j)) ∧
      (∀ i, decodeWord c w = some i → s.condition v c i (s.projected k n T) T = false →
        ∃ s', exec (.frontEndAccept c T) s = .next s' ∧ (s'.core c).lead = k.lead ∧
          ((∀ h ∈ (s.vd k.vd).holds, h.rel ≠ none) → s.projected k n T = T →
            (s'.vd k.vd).holds = (s.vd k.vd).holds ++ [{ slot := n, req := T }] ∧ (s'.core c).feWait = true ∧
            (k.feWait = false → (s'.core c).holdReq = min (k.holdReq + 1) (2 ^ 32 - 1)))) ∧
      (decodeWord c w = none →
        ∃ s', exec (.frontEndAccept c T) s = .next s' ∧ (s'.core c).feStop = true ∧
          (s'.core c).exc = some { cause := .illegalInstr, pc := f.pc, info := 0, instr := w, slot := n }))) ∧
  ((∀ (vd : Nat) (s : State) (h : Hold) (rest : List Hold), (s.vd vd).holds = h :: rest → h.eff = false → h.rel = none →
     (∀ c ∈ s.coresOf vd, (s.core c).halted = true ∨ h.slot ≤ (s.core c).slot) →
     ∃ s', exec (.holdTakesEffect vd) s = .next s' ∧ s'.held vd = true ∧
       (s'.vd vd).holds = { h with eff := true, since := s.toll } :: rest ∧
       (∀ c ∈ s.coresOf vd, (s.core c).halted = false →
         (s'.core c).level = min 64 ((s.core c).busyBeats (s.core c).wall * s.rollStart / 400)) ∧
       ∀ c, c ∉ s.coresOf vd → s'.core c = s.core c) ∧
   (∀ (vd : Nat) (s : State) (h : Hold) (rest : List Hold) (r : Nat), (s.vd vd).holds = h :: rest → h.eff = true →
     h.rel = some r → (s.coresOf vd).Nodup →
     ∃ s', exec (.holdResume vd) s = .next s' ∧ (s'.vd vd).holds = rest ∧
       (∀ c ∈ s.coresOf vd, (s'.core c).level = 0 ∧ (s'.core c).heldTotal = (s.core c).heldTotal + (r - h.req) ∧
         (s'.core c).holdBeats = min ((s.core c).holdBeats + (r - h.req)) (2 ^ 32 - 1)) ∧
       ∀ c, c ∉ s.coresOf vd → s'.core c = s.core c) ∧
   ∀ (c : Nat) (s : State), (s.core c).running = true → (s.core c).halted = false → s.held (s.core c).vd = true →
     s.rollFloor < (s.core c).level →
     exec (.rollLevelDecay c) s = .next (s.setCore c { s.core c with level := (s.core c).level - 1 }))

/-- R85, R86: an exception whose slot the back end has reached, or of a core that has halted, stops the core and begins to stop
its context, of which it is the exception to report.  R85, R87, R429: once the transfers and signals a stopping context has
issued are complete, its cores lose their state, and its exec is ready to complete with the status of its exception, or
ABORTED with the DETAIL of the reset that ended it. -/
def Obligations.ExceptionsEndContexts : Prop :=
  (∀ (c : Nat) (s : State) (e : Exc), (s.core c).exc = some e → (s.core c).running = true → (s.core c).stopped = false →
     ((s.core c).halted = true ∨ e.slot ≤ (s.core c).slot) → (s.ctx (s.core c).ctx).stop = .none →
     ∃ s', exec (.exceptionTakesEffect c) s = .next s' ∧ (s'.core c).stopped = true ∧ (s'.core c).feStop = true ∧
       (s'.ctx (s.core c).ctx).stop = .exception ∧
       (s'.ctx (s.core c).ctx).exc = some ((s.core c).shapeCore, e, (s.core c).srcnt, s.toll) ∧
       s'.canIssue c = false ∧ (∀ j, j ≠ c → s'.core j = s.core j)) ∧
  (∀ (ctx : Nat) (s : State),
     (∀ c ∈ s.ctxCores ctx, (s.core c).xfers = [] ∧ (s.core c).sigs = []) → s.hasCmd (s.ctx ctx).cur = true →
     (∀ sc e srcnt t, (s.ctx ctx).stop = .exception → (s.ctx ctx).exc = some (sc, e, srcnt, t) →
        ∃ s', exec (.l1ContextTeardown ctx) s = .next s' ∧ (s'.cmd (s.ctx ctx).cur).phase = .ready ∧
          (s'.cmd (s.ctx ctx).cur).status = e.cause.status ∧ (s'.ctx ctx).cur = 0 ∧ (s'.ctx ctx).stop = .none ∧
          ∀ c ∈ s.ctxCores ctx, (s'.core c).running = false ∧ ∀ r, (s'.core c).getS r = 0#32) ∧
     ∀ d, (s.ctx ctx).stop = .teardown d →
       ∃ s', exec (.l1ContextTeardown ctx) s = .next s' ∧ (s'.cmd (s.ctx ctx).cur).phase = .ready ∧
         (s'.cmd (s.ctx ctx).cur).status = stAborted ∧ (s'.ctx ctx).cur = 0 ∧
         ∀ c ∈ s.ctxCores ctx, (s'.core c).running = false)

/-- R276, R283: NOP completes OK; CTX_CREATE gives the lowest free number its seed, save area and scheduling parameters and
returns it; CTX_DESTROY frees the number of a context with no exec.  R284, R285: OBJ_CREATE activates the lowest FREE entry
not out of use, with one host reference, and returns its handle; OBJ_REF completes at once, and OBJ_FREE once its object is
FREE when it waits for that; an object whose scrub ends is FREE with the next generation.  R285: a scrub writes zeros to
every page the object maps to VD memory before its entry is FREE; until every page is written the object stays as it was. -/
def Obligations.ContextAndObjectCommands : Prop :=
  ((∀ (seq : Nat) (s : State), s.Startable seq 0x00 →
     ∃ s', exec (.nopCommand seq) s = .next s' ∧ s'.Ended seq stOK ∧ s.OnlyQueues s' ∧ s'.que.ctxs = s.que.ctxs ∧
       s'.que.objs = s.que.objs ∧ s'.que.tls = s.que.tls ∧ s'.que.pairs = s.que.pairs ∧ ∀ q, q ≠ seq → s'.cmd q = s.cmd q) ∧
   (∀ (seq n : Nat) (s : State), s.Startable seq 0x01 →
     (let c := s.cmd seq
      (c.vd = 0 ∨ bitOf (s.cmask c.vd) (c.fld 0x18 0 8 % 16) = true) → n < 4096 → (s.ctx n).used = false →
      (∀ m < n, (s.ctx m).used = true) →
      ∃ s', exec (.ctxCreate seq) s = .next s' ∧ s'.Ended seq stOK ∧ (s'.cmd seq).result0 = n ∧ s.OnlyQueues s' ∧
        s'.ctx n = { used := true, vd := c.vd, seed := BitVec.ofNat 32 (c.fld 0x10 0 32), save := c.fld 0x14 0 32,
                     sched := c.fld 0x18 0 8 } ∧ ∀ m, m ≠ n → s'.ctx m = s.ctx m)) ∧
   ∀ (seq : Nat) (s : State), s.Startable seq 0x02 →
     (let x := (s.cmd seq).ctx
      (s.ctx x).cur = 0 → (s.ctx x).queued = [] →
      ∃ s', exec (.ctxDestroy seq) s = .next s' ∧ s'.Ended seq stOK ∧ s.OnlyQueues s' ∧ s'.ctx x = {} ∧
        ∀ m, m ≠ x → s'.ctx m = s.ctx m)) ∧
  ((∀ (seq i : Nat) (s : State), s.Startable seq 0x03 → i < 2 ^ 20 → (s.obj i).st = .free → (s.obj i).dead = false →
     (∀ m < i, (s.obj m).st ≠ .free ∨ (s.obj m).dead = true) →
     ∃ s', exec (.objCreate seq) s = .next s' ∧ s'.Ended seq stOK ∧ (s'.cmd seq).result0 = (s.obj i).gen * 2 ^ 20 + i ∧
       (s'.obj i).st = .active ∧ (s'.obj i).vd = (s.cmd seq).vd ∧ (s'.obj i).kind = (s.cmd seq).fld 0x20 0 4 ∧
       (s'.obj i).va = (s.cmd seq).fld 0x10 0 64 ∧ (s'.obj i).size = (s.cmd seq).fld 0x18 0 64 ∧ (s'.obj i).href = 1 ∧
       (s'.obj i).gen = (s.obj i).gen ∧ s.OnlyQueues s' ∧ ∀ m, m ≠ i → s'.obj m = s.obj m) ∧
   (∀ (seq : Nat) (s : State), s.Startable seq 0x04 →
     ∃ s', exec (.objRef seq) s = .next s' ∧ s'.Ended seq stOK ∧ s.OnlyQueues s' ∧ s'.que.objs = s.que.objs) ∧
   (∀ (seq : Nat) (s : State), s.Startable seq 0x05 →
     ((s.cmd seq).waitObj = none ∨ ∃ i, (s.cmd seq).waitObj = some i ∧ (s.obj i).st = .free) →
     ∃ s', exec (.objFree seq) s = .next s' ∧ s'.Ended seq stOK ∧ s.OnlyQueues s' ∧ s'.que.objs = s.que.objs) ∧
   ∀ (idx : Nat) (s : State), (s.obj idx).st = .scrubbing → (s.obj idx).gen < 0xFFF → (s.obj idx).kind = 4 →
     ∃ s', exec (.objectScrubComplete idx) s = .next s' ∧ (s'.obj idx).st = .free ∧
       (s'.obj idx).gen = (s.obj idx).gen + 1 ∧ (s'.obj idx).dead = (s.obj idx).dead ∧
       ∀ m, m ≠ idx → s'.obj m = s.obj m) ∧
  (∀ (idx : Nat) (s t : State), (s.obj idx).st = .scrubbing → (s.obj idx).kind ≠ 4 →
     (State.scrubPages (s.obj idx).vd idx ((s.obj idx).size / 4096) (s.obj idx).va s = (true, t) →
       ∃ s', exec (.objectScrubComplete idx) s = .next s' ∧ (s'.obj idx).st = .free ∧ (s'.obj idx).href = 0 ∧
         s'.host.mem = t.host.mem ∧ s'.sbk = t.sbk) ∧
     (State.scrubPages (s.obj idx).vd idx ((s.obj idx).size / 4096) (s.obj idx).va s = (false, t) →
       exec (.objectScrubComplete idx) s = .next s))

/-- R286 to R289: TL_CREATE takes the lowest free number and returns it; TL_BIND fills or empties a slot of the context's table;
TL_SIGNAL raises the timeline by SET or ADD and returns its value; TL_WAIT waits, and ends OK once the value is reached, or
PEER_LOST when the timeline is poisoned below it; TL_DESTROY empties every slot that holds the timeline. -/
def Obligations.TimelineCommands : Prop :=
  (∀ (seq t : Nat) (s : State), s.Startable seq 0x08 → t < 65536 → (s.timeline t).used = false →
    (∀ m < t, (s.timeline m).used = true) → (s.cmd seq).fld 0x18 0 64 = 0 →
    ∃ s', exec (.tlCreate seq) s = .next s' ∧ s'.Ended seq stOK ∧ (s'.cmd seq).result0 = t ∧ s.OnlyQueues s' ∧
      s'.timeline t = { used := true, vd := (s.cmd seq).vd, value := (s.cmd seq).fld 0x10 0 64, mirror := 0 } ∧
      ∀ m, m ≠ t → s'.timeline m = s.timeline m) ∧
  (∀ (seq : Nat) (s : State), s.Startable seq 0x0A →
    (let c := s.cmd seq
     ∃ s', exec (.tlBind seq) s = .next s' ∧ s'.Ended seq stOK ∧ s.OnlyQueues s' ∧
       sget ({} : TlSlot) (s'.ctx c.ctx).tls (c.fld 0x10 16 8) =
         (if c.fld 0x10 26 1 = 1 then {}
          else { tl := c.fld 0x10 0 16, sig := c.fld 0x10 24 1 = 1, wait := c.fld 0x10 25 1 = 1 }) ∧
       (∀ j, j ≠ c.fld 0x10 16 8 → sget ({} : TlSlot) (s'.ctx c.ctx).tls j = sget {} (s.ctx c.ctx).tls j) ∧
       ∀ m, m ≠ c.ctx → s'.ctx m = s.ctx m)) ∧
  (∀ (seq : Nat) (s : State), s.Startable seq 0x0B →
    (let c := s.cmd seq
     let t := c.fld 0x10 0 16
     let v := (s.timeline t).value
     let n := if c.fld 0x10 16 1 = 1 then v + c.fld 0x18 0 64 else c.fld 0x18 0 64
     (s.timeline t).mirror = 0 → (s.timeline t).poisoned = false →
     (n < 2 ^ 64 →
       ∃ s', exec (.tlSignal seq) s = .next s' ∧ s'.Ended seq stOK ∧ (s'.timeline t).value = max v n ∧
         (s'.cmd seq).result1 = max v n ∧ s.OnlyQueues s' ∧ ∀ m, m ≠ t → s'.timeline m = s.timeline m) ∧
     (2 ^ 64 ≤ n →
       ∃ s', exec (.tlSignal seq) s = .next s' ∧ s'.Ended seq stAborted ∧ (s'.cmd seq).detail = 1 ∧
         (s'.timeline t).value = v ∧ s.OnlyQueues s'))) ∧
  (∀ (seq : Nat) (s : State), s.Startable seq 0x0C →
    ∃ s', exec (.tlWait seq) s = .next s' ∧ (s'.cmd seq).phase = .running ∧ s.OnlyQueues s' ∧ s'.que.tls = s.que.tls) ∧
  (∀ (seq : Nat) (s : State), s.hasCmd seq = true → (s.cmd seq).opc = 0x0C → (s.cmd seq).phase = .running →
    (s.cmd seq).status = stOK →
    (let x := s.timeline ((s.cmd seq).fld 0x10 0 16)
     ((s.cmd seq).fld 0x18 0 64 ≤ x.value →
       ∃ s', exec (.tlWaitSatisfied seq) s = .next s' ∧ s'.Ended seq stOK ∧ (s'.cmd seq).result1 = x.value ∧
         s.OnlyQueues s') ∧
     (x.value < (s.cmd seq).fld 0x18 0 64 → x.poisoned = true →
       ∃ s', exec (.tlWaitSatisfied seq) s = .next s' ∧ s'.Ended seq stPeerLost ∧ s.OnlyQueues s'))) ∧
  ∀ (seq : Nat) (s : State), s.Startable seq 0x09 →
    (let t := (s.cmd seq).fld 0x10 0 16
     ∃ s', exec (.tlDestroy seq) s = .next s' ∧ s'.Ended seq stOK ∧ (s'.timeline t).used = false ∧
       (∀ e ∈ s'.que.ctxs, ∀ q ∈ e.2.tls, q.2.tl ≠ t) ∧
       (∀ q, q ≠ seq → q ∈ s.waitsOn t → s.hasCmd q = true → (s.cmd q).status = stOK → s'.Ended q stAborted) ∧
       s.OnlyQueues s')

/-- R278, R498: of the statuses a command meets the one R498 ranks first stays, whatever the order they are met in, with its own
DETAIL; a status of equal rank leaves the one met first.  R273, R278: a command whose effect has ended leaves the engine at
COMMAND_COMPLETE: its journal record is rewritten as done; its completion record stands in the next slot of its ring with
the phase of this pass, where the ring has room; its header's timeline is signalled, or poisoned when SIGFAIL asks for it on
a failure. -/
def Obligations.CommandsComplete : Prop :=
  ((∀ (c : Cmd) (st d : Nat), (c.meet st d).status = if statusRank st < statusRank c.status then st else c.status) ∧
   (∀ (c : Cmd) (a b da db : Nat), statusRank a ≠ statusRank b →
     (c.meet a da).meet b db = (c.meet b db).meet a da) ∧
   (∀ a ∈ [stPeerLost, stStateLost], ∀ b ∈ [stAborted, stPermission, stTargetReset, stIntegrity, stPoisoned, stOK],
     ∀ c : Cmd, ∀ da db, ((c.meet a da).meet b db).status = (c.meet a da).status) ∧
   [stPeerLost, stAborted, stPermission, stTargetReset, stIntegrity, stPoisoned].Pairwise
     (fun a b => statusRank a < statusRank b)) ∧
  (∀ (seq : Nat) (s : State), s.hasCmd seq = true → (s.cmd seq).phase = .ready → s.que.halted = false →
     (∀ e ∈ s.que.pairs, e.2.head = e.2.tail) →
     (let c := s.cmd seq
      c.refs = [] → c.hots = [] → c.fill = none → c.opc ≠ 0x30 →
      (c.sig = false →
        ∃ s', exec (.commandComplete seq) s = .next s' ∧ s'.hasCmd seq = false ∧
          (s'.jrec (seq % journalSize)).done = true ∧ (s'.jrec (seq % journalSize)).seq = seq ∧
          (s'.jrec (seq % journalSize)).tdone = s.toll ∧ (∀ q, q ≠ seq → s'.cmd q = s.cmd q) ∧
          (let q := s.pair c.q
           q.st = .active → q.held = [] → (q.cqtail + 1) % ringSlots q.cqsz ≠ q.cqhead → s.qLive c.q = true →
           BitVec.ofNat 1024 (readLE s'.host.mem (q.cqbase + 128 * q.cqtail) 128) =
             s.cqRecord c ||| BitVec.ofNat 1024 (b2n q.phase * 2 ^ 24) ∧
           (s'.pair c.q).cqtail = (q.cqtail + 1) % ringSlots q.cqsz ∧
           (s'.pair c.q).phase = (if (q.cqtail + 1) % ringSlots q.cqsz = 0 then !q.phase else q.phase))) ∧
      (c.sig = true → s.ownsTl c.vd c.stl = true → (s.timeline c.stl).used = true → (s.timeline c.stl).mirror = 0 →
        (s.timeline c.stl).poisoned = false →
        ∃ s', exec (.commandComplete seq) s = .next s' ∧ s'.hasCmd seq = false ∧
          ((isSuccess c.status = true ∨ c.sigfail = false) → (s'.timeline c.stl).value = max (s.timeline c.stl).value c.sval ∧
            (s'.timeline c.stl).poisoned = false) ∧
          (isSuccess c.status = false → c.sigfail = true → (s'.timeline c.stl).value = (s.timeline c.stl).value ∧
            (s'.timeline c.stl).poisoned = true))))

/-- R276, R292, R293: a VD_LIST or JRN_READ whose entries are all written ends OK and returns how many it wrote, with the number
of entries there are, or the first SEQ still held.  R276: a LOAD, STORE, COPY or TBL_WRITE of which one block or word is
left performs it and ends OK: LOAD puts the source bytes on the Seedbank line, STORE and COPY put the source bytes at the
destination address, and TBL_WRITE passes its word to the MPE. The block's read and write are the ones the model's accesses
answer. -/
def Obligations.DataCommandsComplete : Prop :=
  ((∀ (seq sel : Nat) (i : Instr) (s : State), s.Startable seq 0x06 → s.stalled seq = false →
     (let c := s.cmd seq
      ((i = .vdListObjects seq ∧ sel = 0) ∨ (i = .vdListContexts seq ∧ sel = 1) ∨ (i = .vdListTimelines seq ∧ sel = 2) ∨
       (i = .vdListQueues seq ∧ sel = 3)) → c.fld 0x10 0 2 = sel → c.fld 0x28 0 7 = 0 →
      let all := (s.started seq).listEntries c.vd sel (c.vd ≠ 0)
      let out := (all.filter fun e => c.fld 0x24 0 32 ≤ e.1).take
        (min (((s.obj (handleIdx (c.fld 0x14 0 32))).size - c.fld 0x18 0 64) / 32) (c.fld 0x20 0 32))
      ((out.map Prod.snd).flatten).length ≤ c.pos →
      ∃ s', exec i s = .next s' ∧ s'.Ended seq stOK ∧ (s'.cmd seq).result0 = out.length ∧
        (s'.cmd seq).result1 = all.length ∧ s.OnlyQueues s')) ∧
   ∀ (seq : Nat) (s : State), s.Startable seq 0x40 → s.stalled seq = false →
     (let c := s.cmd seq
      (∀ e ∈ s.que.jrn, e.2.seq = 0 ∨ e.2.vd ≠ c.vd ∨ e.2.seq < c.fld 0x20 0 64) →
      ∃ s', exec (.jrnRead seq) s = .next s' ∧ s'.Ended seq stOK ∧ (s'.cmd seq).result0 = 0 ∧
        (s'.cmd seq).result1 = s.que.seq ∧ s.OnlyQueues s')) ∧
  ((∀ (seq b l : Nat) (bs : List Byte) (s s1 s2 : State), s.Startable seq 0x20 → s.stalled seq = false →
     (let c := { s.cmd seq with phase := .running }
      let a := c.fld 0x20 0 64 + c.pos
      let n := c.fld 0x14 0 32 - c.pos
      let i := handleIdx (c.fld 0x10 0 32)
      c.pos < c.fld 0x14 0 32 → n ≤ 64 - a % 64 → (s.obj i).kind ≠ 3 → (s.started seq).sbTarget c.vd a = some (b, l) →
      (s.started seq).sourceBytes c i none (c.fld 0x18 0 64 + c.pos) n (binPod b) = (some (bs, false), s1) →
      bs.length = n → s1.que.cmds = (s.started seq).que.cmds →
      s1.cmdRequest c.vd b l false (.write (BitVec.ofNat 512 (leNat bs * 2 ^ (8 * (a % 64)))) (lineMask (a % 64) n) false) =
        (.done, s2) → s2.que.cmds = s1.que.cmds →
      ∃ s', exec (.load seq) s = .next s' ∧ s'.Ended seq stOK ∧ s2.OnlyQueues s')) ∧
   (∀ (seq : Nat) (bs : List Byte) (i : Instr) (s s1 s2 : State) (len va req : Nat),
     s.stalled seq = false →
     (let c := { s.cmd seq with phase := .running }
      let n := len - c.pos
      c.pos < len → n ≤ destBlock c.vd - va % destBlock c.vd → bs.length = n →
      ((i = .store seq ∧ s.Startable seq 0x21 ∧ len = c.fld 0x14 0 32 ∧
          va = (s.obj (handleIdx (c.fld 0x10 0 32))).va + c.fld 0x18 0 64 + c.pos ∧
          req = (match (s.started seq).sbTarget c.vd (c.fld 0x20 0 64 + c.pos) with
            | some (b, _) => binPod b
            | none => reqQueue) ∧
          State.sbGather c.vd 6 (c.fld 0x20 0 64 + c.pos) n (s.started seq) = (.ok bs false, s1)) ∨
       (i = .copy seq ∧ s.Startable seq 0x22 ∧ len = c.fld 0x28 0 64 ∧
          va = (s.obj (handleIdx (c.fld 0x14 0 32))).va + c.fld 0x20 0 64 + c.pos ∧ req = reqQueue ∧
          (s.started seq).sourceBytes c (handleIdx (c.fld 0x10 0 32)) none (c.fld 0x18 0 64 + c.pos) n reqQueue =
            (some (bs, false), s1))) →
      s1.writeVaBlock c.vd va bs false (fnPort (s1.qFn c.q)) req seq c.ctx = (.ok [] 0, s2) →
      s2.que.cmds = (s.started seq).que.cmds →
      ∃ s', exec i s = .next s' ∧ s'.Ended seq stOK ∧ s2.OnlyQueues s')) ∧
   ∀ (seq : Nat) (ls : List (BitVec 512)) (s s1 : State), s.Startable seq 0x13 → s.stalled seq = false →
     (let c := { s.cmd seq with phase := .running }
      let a := c.fld 0x10 0 42 + 8 * c.pos
      let g := (s.started seq).granAt c.vd a
      c.pos + 1 = c.fld 0x18 0 3 →
      (s.started seq).mpeWrite c.vd ((s.started seq).carve c.vd (bitsOf a 41 40)).key (a / g * g) false
        (List.replicate (a % g) none ++ (leBytes 8 (c.fld (0x20 + 8 * c.pos) 0 64)).map some ++
         List.replicate (g - a % g - 8) none) = (.ok ls, s1) → s1.que.cmds = (s.started seq).que.cmds →
      ∃ s', exec (.tblWrite seq) s = .next s' ∧ s'.Ended seq stOK ∧ s1.OnlyQueues s'))

/-- R180 to R183: HOT_SET changes an entry's priority and pin bit within the quota; HOT_RELEASE removes the entry and sends its
bins to clearing; a HOT_LOAD whose last line lands makes its entry resident and ends OK. -/
def Obligations.HotSetCommands : Prop :=
  (∀ (seq : Nat) (s : State), s.Startable seq 0x25 →
    (let c := s.cmd seq
     let e := c.fld 0x10 0 9
     (c.fld 0x14 2 1 = 0 ∨ (s.hotEntry e).pin = true ∨
       s.pinnedBins c.vd + (s.hotEntry e).need ≤ s.hotQuota c.vd) →
     ∃ s', exec (.hotSet seq) s = .next s' ∧ s'.Ended seq stOK ∧
       s'.hotEntry e = { s.hotEntry e with prio := c.fld 0x14 0 2, pin := c.fld 0x14 2 1 = 1 } ∧
       (∀ j, j ≠ e → s'.hotEntry j = s.hotEntry j) ∧ s'.sbk.mem = s.sbk.mem ∧ s'.sbk.bins = s.sbk.bins)) ∧
  (∀ (seq : Nat) (s : State), s.Startable seq 0x26 →
    (let e := (s.cmd seq).fld 0x10 0 9
     ∃ s', exec (.hotRelease seq) s = .next s' ∧ s'.Ended seq stOK ∧ (s'.hotEntry e).used = false ∧
       (∀ b ∈ (s.hotEntry e).bins, (s'.bin b).st = .clearing ∧ (s'.bin b).owner = 0) ∧
       (∀ b, b ∉ (s.hotEntry e).bins → s'.bin b = s.bin b) ∧ s'.sbk.mem = s.sbk.mem)) ∧
  ∀ (seq e : Nat) (s : State), s.Startable seq 0x24 → s.stalled seq = false → (s.cmd seq).fill = some e →
    (s.obj (s.hotEntry e).obj).kind ≠ 3 → (s.hotEntry e).bins ≠ [] →
    (s.obj (s.hotEntry e).obj).size ≤ (s.cmd seq).pos →
    ∃ s', exec (.hotLoad seq) s = .next s' ∧ s'.Ended seq stOK ∧ (s'.hotEntry e).resident = true ∧
      (s'.hotEntry e).loading = false ∧ (s'.hotEntry e).bins = (s.hotEntry e).bins ∧ s'.sbk.mem = s.sbk.mem

/-- R227, R237 to R239, R247: INVALIDATE, or a root write that changes ROOT, begins an invalidation where none runs in the
space: the phase turns, every non-leaf entry and every leaf the range meets leaves the caches, whole-space ones all; the
drain ends the commands it serves with OK, and the one waiting begins, two or more of them merged into one of the whole
space (that no request of the old phase is left at the drain is the model's choice, assumption 9).  R241 to R246: resolving
a record whose SEQ matches frees its slot; INVALID, chosen by the owner or at the boundary at which the record has stood
XLT_FTIMEOUT.MS milliseconds, ends every stalled command with TRANSLATION_FAULT, or with PERMISSION where access was denied;
a SEQ that does not match changes nothing; a fault that waited takes the freed slot with the next SEQ. -/
def Obligations.InvalidationsAndFaultRecords : Prop :=
  ((∀ (seq : Nat) (s : State), s.Startable seq 0x14 → (s.cmd seq).pos = 0 → (s.space (s.cmd seq).vd).inv = none →
     (let c := s.cmd seq
      let va := c.fld 0x10 0 64 / 4096 * 4096
      ∃ s', exec (.invalidate seq) s = .next s' ∧ (s'.cmd seq).phase = .running ∧
        (∃ r, (s'.space c.vd).inv = some r ∧ r.seq = seq ∧ r.va = va ∧ r.n = c.fld 0x18 0 32) ∧
        (s'.space c.vd).phase = !(s.space c.vd).phase ∧ (s'.space c.vd).ring = (s.space c.vd).ring ∧
        (∀ e, e ∈ s'.xlt.cache ↔ e ∈ s.xlt.cache ∧ (e.space = c.vd →
          c.fld 0x1C 0 1 ≠ 1 ∧ pteLeaf e.entry.toNat = true ∧
          (va + 4096 * c.fld 0x18 0 32 ≤ e.va ∨ e.va + 2 ^ leafShift e.level ≤ va))) ∧
        ∀ v, v ≠ c.vd → s'.space v = s.space v)) ∧
   (∀ (space : Nat) (v : DWord) (s : State), (space = 0 ∨ (s.vd space).st ≠ .none) → (s.space space).inv = none →
     bitsOf v.toNat 63 42 = 0 → bitsOf v.toNat 15 2 = 0 →
     (let new := bitsOf v.toNat 41 16
      ∃ s', exec (.rootWrite space v) s = .next s' ∧
        (s'.space space).root = BitVec.ofNat 64 (new * 65536 + v.toNat % 2) ∧
        (if new = bitsOf (s.space space).root.toNat 41 16 then
           (s'.space space).inv = none ∧ (s'.space space).busy = (s.space space).busy ∧ s'.xlt.cache = s.xlt.cache
         else (s'.space space).inv = some { seq := 0, va := 0, n := 0, whole := true } ∧ (s'.space space).busy = true ∧
           (s'.space space).phase = !(s.space space).phase ∧
           ∀ e, e ∈ s'.xlt.cache ↔ e ∈ s.xlt.cache ∧ e.space ≠ space) ∧
        ∀ u, u ≠ space → s'.space u = s.space u)) ∧
   ∀ (space : Nat) (s : State) (i : Inval), (s.space space).inv = some i → (s.space space).invMerged = [] →
     (let x := s.space space
      ∃ s', exec (.invalidationPhaseDrain space) s = .next s' ∧
        (s.hasCmd i.seq = true → (s.cmd i.seq).status = stOK → s'.Ended i.seq stOK) ∧
        (s'.space space).busy = (if i.seq = 0 then false else x.busy) ∧
        (x.invWait = [] → (s'.space space).inv = none ∧ s'.xlt.cache = s.xlt.cache ∧ (s'.space space).phase = x.phase) ∧
        (∀ a, x.invWait = [a] → (s'.space space).inv = some a ∧ (s'.space space).invWait = [] ∧
          (s'.space space).phase = !x.phase) ∧
        (∀ a b rest, x.invWait = a :: b :: rest →
          (s'.space space).inv = some { seq := a.seq, va := 0, n := 0, whole := true } ∧ (s'.space space).invWait = [] ∧
          (s'.space space).invMerged = (b :: rest).map (·.seq) ∧ ∀ e ∈ s'.xlt.cache, e.space ≠ space))) ∧
  ((∀ (space slot : Nat) (s : State) (r : FaultRec), slot < 32 → sget none (s.space space).ring slot = some r →
     (∀ i, (i = .faultResolveInvalid space slot r.seqNo ∨
        (i = .faultTimeout space slot ∧ s.toll % 1024000 = 0 ∧
          r.written + 1000000 * s.regField 0x200008 15 0 ≤ s.toll)) →
        ∃ s', exec i s = .next s' ∧ sget none (s'.space space).ring slot = none ∧
          (∀ j, j ≠ slot → sget none (s'.space space).ring j = sget none (s.space space).ring j) ∧
          (∀ q ∈ r.stalled, s.hasCmd q = true → (s.cmd q).status = stOK → s'.Ended q
            (if r.first.cause = .readDenied ∨ r.first.cause = .writeDenied then stPermission else stTransFault)) ∧
          (∀ q, q ∉ r.stalled → s'.cmd q = s.cmd q) ∧ ∀ v, v ≠ space → s'.space v = s.space v) ∧
     (r.stalled = [] → ∃ s', exec (.faultResolveRetry space slot r.seqNo) s = .next s' ∧
        sget none (s'.space space).ring slot = none ∧ s'.que = s.que) ∧
     (∀ n, n ≠ r.seqNo → exec (.faultResolveInvalid space slot n) s = .next s) ∧
     (∀ n, n % 65536 ≠ r.seqNo → exec (.faultResolveRetry space slot n) s = .next s)) ∧
   ∀ (space i : Nat) (s : State) (r : FaultRec) (rest : List FaultRec), (s.space space).waiting = r :: rest → i < 32 →
     sget none (s.space space).ring i = none → (∀ j < i, sget none (s.space space).ring j ≠ none) →
     ∃ s', exec (.faultRecordDeferred space) s = .next s' ∧
       sget none (s'.space space).ring i = some { r with seqNo := (s.space space).nextSeq, written := s.toll } ∧
       (s'.space space).waiting = rest ∧ (s'.space space).nextSeq = ((s.space space).nextSeq + 1) % 65536)

/-- R224 to R227, R229, R241: a walk of a space whose root is off stops NOT_PRESENT at level 4, and an address beyond 52 bits
has no translation; a cached leaf the table still gives answers its page, and one without the permission asked for records
the fault.  R235, R236, R240: an ATS Invalidate Request drops the function's entries it covers and its completion is sent
after; a Translation Completion that grants the access is cached at the front; one that denies it asks for the page where
PRI allows, and ends HOST_DENIED otherwise; a PRG Response of Success asks for the translation once more, one of Failure
also ends the function's page requests. -/
def Obligations.WalksAndHostTranslation : Prop :=
  (∀ (space : Nat) (va : DWord) (wr : Bool) (req : Nat) (s : State), s.hasCmd 0 = false →
     (va.toNat < 2 ^ 52 → (s.space space).root.getLsbD 0 = false → (s.vd space).st ≠ .teardown →
       (s.space space).ring = [] → (s.space space).waiting = [] →
       ∃ s' r, exec (.translationWalk space va wr req 0) s = .next s' ∧ sget none (s'.space space).ring 0 = some r ∧
         r.first.cause = .notPresent ∧ r.first.level = 4 ∧ r.first.va = va.toNat / 4096 * 4096 ∧ r.wr = wr ∧
         r.count = 1 ∧ r.seqNo = (s.space space).nextSeq ∧ s'.que = s.que) ∧
     (2 ^ 52 ≤ va.toNat → exec (.translationWalk space va wr req 0) s =
       .next (s.reply [3#64, BitVec.ofNat 64 stTransFault])) ∧
     (∀ (ew : DWord) (t : State), va.toNat < 2 ^ 52 → (s.space space).root.getLsbD 0 = true →
       s.walkEntry space 4 va.toNat (bitsOf (s.space space).root.toNat 41 16 * 65536 + 8 * bitsOf va.toNat 51 39) =
         ((.inr ew, false), t) → pteV ew.toNat = true → malformed 4 ew.toNat = false →
       ∀ (ew3 : DWord) (u : State),
         t.walkEntry space 3 va.toNat (pteAddr ew.toNat + 8 * bitsOf va.toNat 38 30) = ((.inr ew3, false), u) →
         pteV ew3.toNat = true → malformed 3 ew3.toNat = false → pteLeaf ew3.toNat = true → pteTgt ew3.toNat = 0 →
         (if wr then pteW ew3.toNat else pteR ew3.toNat) = true →
         exec (.translationWalk space va wr req 0) s =
           .next (u.reply [0#64, BitVec.ofNat 64 (pteAddr ew3.toNat + va.toNat % 2 ^ 30)]))) ∧
  ((∀ (f : Nat) (va : DWord) (size tag : Nat) (s : State),
     ∃ s', exec (.atsInvalidateRequest f va size tag) s = .next s' ∧ s'.xlt.atsInv = s.xlt.atsInv ++ [(f, tag)] ∧
       (∀ e, e ∈ s'.xlt.atc ↔ e ∈ s.xlt.atc ∧
         (e.fn = f → va.toNat + size ≤ e.va ∨ e.va + 4096 ≤ va.toNat)) ∧
       s' = { s with xlt := { s.xlt with atc := s'.xlt.atc, atsInv := s'.xlt.atsInv } }) ∧
   (∀ (f tag : Nat) (s : State), (f, tag) ∈ s.xlt.atsInv →
     ∃ s', exec (.invalidateCompletion f tag) s = .next s' ∧ s'.rdata = [BitVec.ofNat 64 tag] ∧
       (f, tag) ∉ s'.xlt.atsInv ∧ ∀ x ∈ s.xlt.atsInv, x ≠ (f, tag) → x ∈ s'.xlt.atsInv) ∧
   (∀ (f : Nat) (va pa : DWord) (r w ok : Bool) (s : State) (a : AtsReq), a ∈ s.xlt.atsSent → a.fn = f →
     a.va = va.toNat / 4096 * 4096 → (∀ b ∈ s.xlt.atsSent, b.fn = f → b.va = a.va → b = a) →
     (∀ e ∈ s.que.tls, e.2.mirrorDue = false) →
     ∃ s', exec (.translationCompletion f va pa r w ok) s = .next s' ∧
       (∀ b ∈ s'.xlt.atsSent, b.fn = f → b.va ≠ a.va) ∧
       (ok = true → (if a.wr then w else r) = true →
         s'.atcFind f a.va = some { fn := f, va := a.va, pa := pa.toNat / 4096 * 4096, r := r, w := w } ∧
         s'.xlt.denied = s.xlt.denied) ∧
       ((ok = false ∨ (if a.wr then w else r) = false) →
         s'.xlt.atc = s.xlt.atc ∧
         (a.pri = true → s.priOn f = true → a.retried = false → sget false s.xlt.priStop f = false →
           (s.xlt.prgSent.filter fun x => x.2.fn = f).length < prgCapacity f →
           s'.xlt.prgSent = s.xlt.prgSent ++ [(s.xlt.prgNext, a)] ∧ s'.xlt.denied = s.xlt.denied) ∧
         (a.pri = false ∨ s.priOn f = false ∨ a.retried = true ∨ sget false s.xlt.priStop f = true →
           s'.xlt.denied = (f, a.va) :: s.xlt.denied ∧ s'.xlt.prgSent = s.xlt.prgSent))) ∧
   ∀ (f idx code : Nat) (s : State) (a : AtsReq), (idx, a) ∈ s.xlt.prgSent → a.fn = f →
     (∀ b ∈ s.xlt.prgSent, b.1 = idx → b.2.fn = f → b = (idx, a)) → (∀ e ∈ s.que.tls, e.2.mirrorDue = false) →
     ∃ s', exec (.prgResponse f idx code) s = .next s' ∧ (idx, a) ∉ s'.xlt.prgSent ∧
       (code = 0 → s'.xlt.atsSent = s.xlt.atsSent ++ [{ a with retried := true }] ∧ s'.xlt.denied = s.xlt.denied) ∧
       (code ≠ 0 → s'.xlt.denied = (f, a.va) :: s.xlt.denied ∧ s'.xlt.atsSent = s.xlt.atsSent) ∧
       (code = 15 → sget false s'.xlt.priStop f = true) ∧ (code ≠ 15 → s'.xlt.priStop = s.xlt.priStop))

/-- R384, R390, R393, R398: in an open session KEY_PROVISION stores its secret by purpose, SET_DROP forgets a set the VD holds,
DEBUG_GRANT gives the next grant number until the boundary at or after its duration, DEBUG_REVOKE ends a grant, and each is
answered OK under the session; TS_CLOSE's answer is the session's last, and so is SELF_DESTROY's, which begins the teardown
with a QUIESCE of 50 ms. -/
def Obligations.TenantMessagesAct : Prop :=
  (∀ (v : Nat) (s : State) (x : Session) (b : List Byte), s.Authentic v 0x10 x b → 48 ≤ b.length → leAt b 1 1 ≤ 3 →
    leAt b 2 14 = 0 →
    (let z := BitVec.ofNat 256 (beNat ((b.drop 16).take 32))
     (leAt b 0 1 = 1 → ∃ s', exec (.keyProvision v) s = .next s' ∧ s.Sealed s' v x 0 [] ∧
       sget none (s'.vd v).sec.carve (leAt b 1 1) = some z ∧ (s'.vd v).carves = (s.vd v).carves ∧
       (∀ k, k ≠ leAt b 1 1 → sget none (s'.vd v).sec.carve k = sget none (s.vd v).sec.carve k) ∧ s'.hbm = s.hbm) ∧
     (leAt b 0 1 = 2 → ((s.vd v).nparts ≤ 1 ∨ (s.vd v).st = .created) →
       ∃ s', exec (.keyProvision v) s = .next s' ∧ s.Sealed s' v x 0 [] ∧ (s'.vd v).sec.group = some z) ∧
     (leAt b 0 1 = 2 → 1 < (s.vd v).nparts → (s.vd v).st ≠ .created →
       ∃ s', exec (.keyProvision v) s = .next s' ∧ s.Sealed s' v x 2 [] ∧ (s'.vd v).sec.group = (s.vd v).sec.group) ∧
     (leAt b 0 1 = 3 → ∃ s', exec (.keyProvision v) s = .next s' ∧ s.Sealed s' v x 0 [] ∧
       (s'.vd v).sec.capsule = some z ∧ s'.hbm = s.hbm))) ∧
  (∀ (v : Nat) (s : State) (x : Session) (b : List Byte) (q : SetKey), s.Authentic v 0x12 x b → 48 ≤ b.length →
    q ∈ (s.vd v).sec.sets → q.id = BitVec.ofNat 384 (beNat (b.take 48)) →
    ∃ s', exec (.setDrop v) s = .next s' ∧ s.Sealed s' v x 0 [] ∧
      ∀ r, r ∈ (s'.vd v).sec.sets ↔ r ∈ (s.vd v).sec.sets ∧ r.id ≠ q.id) ∧
  (∀ (v : Nat) (s : State) (x : Session) (b : List Byte), s.Authentic v 0x20 x b → 8 ≤ b.length → leAt b 0 4 < 16 →
    1 ≤ leAt b 4 4 → leAt b 4 4 ≤ 3600000 →
    ∃ s' g, exec (.debugGrant v) s = .next s' ∧ s.Sealed s' v x 0 (leBytes 4 s.sec.nextGrant) ∧
      (s'.vd v).sec.grants = (s.vd v).sec.grants ++ [g] ∧ g.num = s.sec.nextGrant ∧
      g.scope = BitVec.ofNat 4 (leAt b 0 4) ∧ g.ends % 1024000 = 0 ∧ s.toll + leAt b 4 4 * 1024000 ≤ g.ends ∧
      g.ends < s.toll + leAt b 4 4 * 1024000 + 1024000 ∧ s'.sec.nextGrant = s.sec.nextGrant % 65535 + 1) ∧
  (∀ (v : Nat) (s : State) (x : Session) (b : List Byte) (g : Grant), s.Authentic v 0x21 x b → 4 ≤ b.length →
    g ∈ (s.vd v).sec.grants → g.num = leAt b 0 4 →
    ∃ s', exec (.debugRevoke v) s = .next s' ∧ s.Sealed s' v x 0 [] ∧
      (∀ h, h ∈ (s'.vd v).sec.grants ↔ h ∈ (s.vd v).sec.grants ∧ h.num ≠ g.num) ∧ s'.sec.level2 ≠ some (v, g.num)) ∧
  (∀ (v : Nat) (s : State) (x : Session) (b : List Byte), s.Authentic v 0x03 x b →
    ∃ s', exec (.tsClose v) s = .next s' ∧ (s'.vd v).sec.session = none ∧ (s'.vd v).sec.mb.done = true ∧
      (s'.vd v).sec.mb.result = 0 ∧ (s'.vd v).sec.carve = (s.vd v).sec.carve ∧ (s'.vd v).sec.sets = (s.vd v).sec.sets) ∧
  ∀ (v : Nat) (s : State) (x : Session) (b : List Byte), s.Authentic v 0x28 x b → (s.vd v).changes = [] →
    ∃ s', exec (.selfDestroy v) s = .next s' ∧ (s'.vd v).st = .teardown ∧ (s'.vd v).sec.session = none ∧
      (s'.vd v).sec.tear = some { deadline := s.toll + 50000000, seq := 0 } ∧ (s'.vd v).sec.mb.result = 0 ∧
      (s'.space v).ring = [] ∧ (s'.space v).waiting = []

/-- R383, R384, R402: a tenant message without a session is answered NOSESSION, one with another SEQ than the next BADSEQ with
the session kept, and one whose tag fails TAGFAIL with the session closed; in TEARDOWN every message is answered BADSTATE.
None of them changes a secret, a set or a grant.  R385, R388, R389: TS_CERTS without a session answers a chunk of 2,032
bytes of the chain; TS_OPEN whose public key gives a shared secret opens a session with the next number, fresh keys and SEQ
0 in both directions, closing an earlier one, and answers with the number and the evidence record; with a key that gives
none it is malformed. -/
def Obligations.SessionsOpenAndRefuse : Prop :=
  (∀ (v msg : Nat) (i : Instr) (s : State),
     (i, msg) ∈ [(Instr.tsClose v, 0x03), (.keyProvision v, 0x10), (.setProvision v, 0x11), (.setDrop v, 0x12),
       (.subtreeReset v, 0x18), (.debugGrant v, 0x20), (.debugRevoke v, 0x21), (.selfDestroy v, 0x28)] →
     s.tenantAsked v msg = true → headerZero (s.vd v).sec.mb.bytes = true →
     (let bs := (s.vd v).sec.mb.bytes
      let same (t : State) : Prop := (t.vd v).sec.carve = (s.vd v).sec.carve ∧ (t.vd v).sec.group = (s.vd v).sec.group ∧
        (t.vd v).sec.capsule = (s.vd v).sec.capsule ∧ (t.vd v).sec.sets = (s.vd v).sec.sets ∧
        (t.vd v).sec.grants = (s.vd v).sec.grants ∧ t.hbm = s.hbm ∧ (t.vd v).st = (s.vd v).st
      ((s.vd v).st ≠ .teardown → (s.vd v).sec.session = none →
        ∃ t, exec i s = .next t ∧ (t.vd v).sec.mb = (s.vd v).sec.mb.answer 3 [] ∧ same t) ∧
      (∀ x, (s.vd v).st ≠ .teardown → (s.vd v).sec.session = some x → leAt bs 8 4 = x.num → leAt bs 4 4 ≠ x.seqIn + 1 →
        ∃ t, exec i s = .next t ∧ (t.vd v).sec.mb = (s.vd v).sec.mb.answer 5 [] ∧ (t.vd v).sec.session = some x ∧ same t) ∧
      (∀ x, (s.vd v).st ≠ .teardown → (s.vd v).sec.session = some x → leAt bs 8 4 = x.num → leAt bs 4 4 = x.seqIn + 1 →
        32 ≤ bs.length →
        gcmOpen x.keyIn (x.seqIn + 1) (bs.take 16) ((bs.drop 16).take (bs.length - 32)) (bs.drop (bs.length - 16)) = none →
        ∃ t, exec i s = .next t ∧ (t.vd v).sec.mb = (s.vd v).sec.mb.answer 4 [] ∧ (t.vd v).sec.session = none ∧ same t) ∧
      ((s.vd v).st = .teardown →
        ∃ t, exec i s = .next t ∧ (t.vd v).sec.mb = (s.vd v).sec.mb.answer 2 [] ∧ same t))) ∧
  ((∀ (v : Nat) (s : State), s.tenantAsked v 0x01 = true → (s.vd v).st ≠ .teardown → (s.vd v).sec.session = none →
     (let bs := (s.vd v).sec.mb.bytes
      headerZero bs = true → leAt bs 8 4 = 0 → 18 ≤ bs.length →
      ∃ s', exec (.tsCerts v) s = .next s' ∧ (s'.vd v).sec.mb = (s.vd v).sec.mb.answer 0
        (msgHeader 1 (leAt bs 4 4) 0 ++ s.chainBytes (2032 * leAt bs 16 2) 2032))) ∧
   ∀ (v : Nat) (s : State), s.tenantAsked v 0x02 = true → (s.vd v).st ≠ .teardown →
     (let bs := (s.vd v).sec.mb.bytes
      let pub := (bs.drop 16).take 97
      let d := (Config.free s.freeCount 384).toNat % (p384n - 1) + 1
      headerZero bs = true → 145 ≤ bs.length → pub.headD 0#8 = 4#8 →
      ∃ s', exec (.tsOpen v) s = .next s' ∧
        match ecdh d (beNat ((pub.drop 1).take 48)) (beNat (pub.drop 49)) with
        | some z => ∃ x ev, (s'.vd v).sec.session = some x ∧ x.num = s.sec.nextSession ∧
            x.seqIn = 0 ∧ x.seqOut = 0 ∧ x.keyIn = s.sessionSecret v ((bs.drop 113).take 32) z 0 ∧
            x.keyOut = s.sessionSecret v ((bs.drop 113).take 32) z 1 ∧
            (s'.vd v).sec.mb = (s.vd v).sec.mb.answer 0
              (msgHeader 2 (leAt bs 4 4) 0 ++ leBytes 4 s.sec.nextSession ++
                (s.evidenceBody v ((bs.drop 113).take 32) (pubBytes (ecBase d)) ++ ev)) ∧
            (s'.vd v).sec.carve = (s.vd v).sec.carve ∧ s'.sec.nextSession = s.sec.nextSession % (2 ^ 32 - 1) + 1
        | none => (s'.vd v).sec.mb = (s.vd v).sec.mb.answer 1 [] ∧ (s'.vd v).sec.session = (s.vd v).sec.session))

/-- R212, R393, R396: SET_PROVISION on a readable, sorted list that holds this device's DeviceID hash stores the set key under
the list's digest and answers it; SUBTREE_RESET on a poisoned counter block or node starts the reset and its answer waits
for the end; at the end the subtree's pages are encryptions of zero under the next major, no longer poisoned, and the answer
is OK. -/
def Obligations.SetsAndSubtrees : Prop :=
  (∀ (v : Nat) (s s1 : State) (x : Session) (b l : List Byte), s.Authentic v 0x11 x b → 48 ≤ b.length →
    (let h := leAt b 0 4
     let n := leAt b 4 4
     let o := s.obj (handleIdx h)
     let id := BitVec.ofNat 384 (beNat (sha384 l))
     1 ≤ n → n ≤ 1024 → s.handleCheck v h = 0 → o.kind = 0 → 48 * n ≤ o.size →
     s.readAt v o.va (48 * n) ((s.vd v).vf.elim 0 Prod.fst) reqSecurity 0 0 = (.ok l 0, s1) → s1.vds = s.vds →
     listSorted (chunksOf 48 l) = true → (chunksOf 48 l).contains deviceIdHash = true →
     ((s.vd v).sec.sets.filter fun q => q.id ≠ id).length < 8 →
     ∃ s', exec (.setProvision v) s = .next s' ∧ s.Sealed s' v x 0 (beBytes 48 id.toNat) ∧
       (s'.vd v).sec.sets = ((s.vd v).sec.sets.filter fun q => q.id ≠ id) ++
         [{ id := id, key := BitVec.ofNat 256 (beNat ((b.drop 16).take 32)) }])) ∧
  (∀ (v : Nat) (s : State) (x : Session) (b : List Byte), s.Authentic v 0x18 x b → 16 ≤ b.length →
    (let w := leAt b 0 4
     let cv := s.carve v (w % 4)
     let at_ := chanOf cv.mode cv.il cv.chans.length (leAt b 8 8)
     let g := cv.chans.getD at_.1 0
     let level := bitsOf w 10 8
     level ≤ 6 → bitsOf w 7 2 = 0 → w < 2 ^ 11 → leAt b 4 4 = 0 → cv.chans ≠ [] →
     leAt b 8 8 < cv.chans.length * chanData cv.mode → (cv.mode = 2 ∨ level = 0) → (s.vd v).sec.sub = none →
     ((s.chan g).nodeBad level (at_.2 / 4096) = true →
       ∃ s', exec (.subtreeReset v) s = .next s' ∧
         (s'.vd v).sec.sub = some (g, level, at_.2 / 4096 / 8 ^ level * 8 ^ level) ∧
         (s'.vd v).sec.mb = (s.vd v).sec.mb ∧ (s'.vd v).sec.session = some x ∧ s'.hbm = s.hbm) ∧
     ((s.chan g).nodeBad level (at_.2 / 4096) = false →
       ∃ s', exec (.subtreeReset v) s = .next s' ∧ s.Sealed s' v x 6 [] ∧ (s'.vd v).sec.sub = none ∧ s'.hbm = s.hbm))) ∧
  ∀ (v g p : Nat) (s : State) (x : Session), (s.vd v).sec.sub = some (g, 0, p) → (s.vd v).sec.session = some x →
    (s.chan g).maxMajor < 0xFFFFFF → (s.chan g).rootBadA = false → (s.chan g).mode = 1 →
    (let k := s.key (s.chan g).key
     ∃ s', exec (.subtreeResetComplete v) s = .next s' ∧ s.Sealed s' v x 0 [] ∧ (s'.vd v).sec.sub = none ∧
       (s'.chan g).ctr p = { gen := k.gen, major := (s.chan g).maxMajor + 1 } ∧
       (s'.chan g).maxMajor = (s.chan g).maxMajor + 1 ∧ (∀ r ∈ (s'.chan g).badSub, r.2 ≤ p ∨ p + 1 ≤ r.1) ∧
       (∀ i < 64, (s'.chan g).plain g k.cur k.cur (64 * p + i) = 0#512 ∧
         sget false (s'.chan g).poison (64 * p + i) = false) ∧
       (∀ q, q ≠ p → (s'.chan g).ctr q = (s.chan g).ctr q) ∧ ∀ h, h ≠ g → s'.chan h = s.chan h)

/-- R386, R387, R397, R398: the operator's messages. DEV_ATTEST answers the device's evidence; PEER_POLICY takes the policy and
its digest; FW_STAGE stages an image whose signature and version pass and refuses another; DEBUG_OPEN opens level 1, or
level 2 under a grant a tenant issued; DEBUG_MAP maps a target the open level reaches; DEBUG_CLOSE closes levels 1 and 2 and
clears JTAG; JTAG_UNLOCK opens level 1, or level 3 with a valid token, at once when no tenant VD is left; a grant ends at
the boundary at which its duration ends. -/
def Obligations.OperatorMessagesAct : Prop :=
  (∀ (s : State) (b : List Byte), s.Operator 0x40 b → 32 ≤ b.length →
    ∃ s' sig, exec .devAttest s = .next s' ∧ s.Replied s' (s.evidenceBody 0 (b.take 32) (List.replicate 97 0#8) ++ sig) ∧
      s'.vds = s.vds) ∧
  (∀ (s : State) (b : List Byte), s.Operator 0x41 b → b.length % 144 = 0 → b.length ≤ 32 * 144 → s.fw.peers = [] →
    ∃ s', exec .peerPolicy s = .next s' ∧ s.Replied s' [] ∧ s'.sec.policy.length = b.length / 144 ∧
      s'.sec.policyDigest = BitVec.ofNat 384 (beNat (sha384 b))) ∧
  (∀ (img : FwImage) (s : State) (b : List Byte), s.Operator 0x42 b → 4 ≤ b.length → s.handleCheck 0 (leAt b 0 4) = 0 →
    (s.obj (handleIdx (leAt b 0 4))).kind = 0 →
    (img.ok = true → s.sec.rollback ≤ img.version →
      ∃ s' f, exec (.fwStage img) s = .next s' ∧ s.Replied s' [] ∧ s'.sec.staged = some f ∧ f.m2 = img.m2 ∧
        f.m3 = img.m3 ∧ f.m4 = img.m4 ∧ f.version = img.version ∧ s'.sec.active = s.sec.active ∧
        s'.sec.rollback = s.sec.rollback) ∧
    ((img.ok = false ∨ img.version < s.sec.rollback) →
      ∃ s', exec (.fwStage img) s = .next s' ∧ s'.sec.mb = s.sec.mb.answer 6 [] ∧ s'.sec.staged = s.sec.staged)) ∧
  (∀ (s : State) (b : List Byte), s.Operator 0x48 b → 8 ≤ b.length →
    (leAt b 0 4 = 0 → ∃ s', exec .debugOpen s = .next s' ∧ s.Replied s' [] ∧ s'.sec.level1 = true ∧
      s'.sec.level2 = s.sec.level2 ∧ s'.sec.jtag = s.sec.jtag) ∧
    (leAt b 0 4 = 1 → (∃ e ∈ s.vds, ∃ q ∈ e.2.sec.grants, q.num = leAt b 4 4) →
      ∃ s' v, exec .debugOpen s = .next s' ∧ s.Replied s' [] ∧ s'.sec.level2 = some (v, leAt b 4 4) ∧
        s'.sec.level1 = s.sec.level1 ∧ ∃ e ∈ s.vds, e.1 = v ∧ ∃ q ∈ e.2.sec.grants, q.num = leAt b 4 4) ∧
    (leAt b 0 4 = 1 → (∀ e ∈ s.vds, ∀ q ∈ e.2.sec.grants, q.num ≠ leAt b 4 4) →
      ∃ s', exec .debugOpen s = .next s' ∧ s'.sec.mb = s.sec.mb.answer 6 [] ∧ s'.sec.level2 = s.sec.level2)) ∧
  (∀ (s : State) (b : List Byte), s.Operator 0x49 b → 16 ≤ b.length → leAt b 0 4 ≤ 5 →
    (let m : DebugMap := { kind := leAt b 0 4, index := leAt b 4 4, off := leAt b 8 8 }
     (s.debugReach m = true → ∃ s', exec .debugMap s = .next s' ∧ s.Replied s' [] ∧ s'.sec.dmap = some m) ∧
     (s.debugReach m = false →
       ∃ s', exec .debugMap s = .next s' ∧ s'.sec.mb = s.sec.mb.answer 6 [] ∧ s'.sec.dmap = s.sec.dmap))) ∧
  (∀ (s : State) (b : List Byte), s.Operator 0x4A b →
    ∃ s', exec .debugClose s = .next s' ∧ s.Replied s' [] ∧ s'.sec.level1 = false ∧ s'.sec.level2 = none ∧
      s'.sec.jtag = false ∧ s'.sec.level3 = s.sec.level3) ∧
  (∀ (valid : Bool) (s : State) (b : List Byte), s.Operator 0x4B b → 4 ≤ b.length → s.sec.unlocking = false →
    (leAt b 0 4 = 1 → ∃ s', exec (.jtagUnlock valid) s = .next s' ∧ s.Replied s' [] ∧ s'.sec.level1 = true ∧
      s'.sec.jtag = true ∧ s'.sec.level3 = s.sec.level3) ∧
    (leAt b 0 4 = 3 → valid = false →
      ∃ s', exec (.jtagUnlock valid) s = .next s' ∧ s'.sec.mb = s.sec.mb.answer 6 [] ∧ s'.sec.level3 = s.sec.level3 ∧
        s'.vds = s.vds) ∧
    (leAt b 0 4 = 3 → valid = true → (∀ e ∈ s.vds, e.1 = 0) →
      ∃ s', exec (.jtagUnlock valid) s = .next s' ∧ s.Replied s' [] ∧ s'.sec.level3 = true)) ∧
  ∀ (v g : Nat) (s : State) (q : Grant), q ∈ (s.vd v).sec.grants → q.num = g → q.ends ≤ s.toll →
    ∃ s', exec (.debugGrantExpiry v g) s = .next s' ∧ (∀ h ∈ (s'.vd v).sec.grants, h.num ≠ g) ∧
      s'.sec.level2 ≠ some (v, g) ∧ s'.hbm = s.hbm ∧ ∀ u, u ≠ v → s'.vd u = s.vd u

/-- R57, R60, R282, R324: an EXEC at the head of its context's execs becomes the context's own; of a VD no context of which
runs, the context the scheduler chooses starts: every core of the part holds the program, its identity and zeros everywhere
else, and begins at ENTRY. (An exec of a VD not yet bound ends REJECTED_ADMISSION with reason 0x0E.) -/
def Obligations.ExecsStart : Prop :=
  (∀ (seq : Nat) (s : State), s.Startable seq 0x30 →
    (let c := s.cmd seq
     ((s.vd c.vd).st = .created → ∃ s', exec (.exec seq) s = .next s' ∧ s'.Ended seq stAdmission ∧
       (s'.cmd seq).detail = 0x0E ∧ s'.que.ctxs = s.que.ctxs ∧ s.OnlyQueues s') ∧
     ((s.vd c.vd).st ≠ .created → (s.vd c.vd).ctx = none → (s.ctx c.ctx).cur = 0 →
       (s.ctx c.ctx).queued.head? = some seq →
       ∃ s', exec (.exec seq) s = .next s' ∧ (s'.ctx c.ctx).cur = seq ∧ (s'.ctx c.ctx).started = false ∧
         (s'.cmd seq).phase = .running ∧ s.OnlyQueues s' ∧ ∀ m, m ≠ c.ctx → s'.ctx m = s.ctx m))) ∧
  ∀ (v n : Nat) (s t1 t2 : State) (rd : SetReader) (var : Variant) (bs : List Byte), (s.vd v).ctx = none →
    s.choose v = some n → (s.ctx n).saved = false → s.stalled (s.ctx n).cur = false → (s.ctx n).replay = 0 →
    s.hasCmd (s.ctx n).cur = true →
    (let c := s.execCmd n
     let cmd := s.cmd (s.ctx n).cur
     c.execHandles.2.2 = 0 → s.saveFits n = true → cmd.fld 0x24 0 32 = 0 →
     ((s.holdHots []).modCmd cmd.seq fun c => { c with hots := c.hots ++ [] }).readSet { c with seq := (s.ctx n).cur }
       c.execHandles.2.1 = (.ok (rd, var), t1) →
     t1.execBytes { c with seq := (s.ctx n).cur } c.execHandles.1 0 (t1.obj (handleIdx c.execHandles.1)).size = (some bs, t2) →
     t2.vds = s.vds → t2.cores = s.cores → t2.que.ctxs = s.que.ctxs → (s.placeCores v).Nodup →
     ∃ s', exec (.execStart v) s = .next s' ∧ (s'.vd v).ctx = some n ∧ (s'.vd v).lastCtx = n ∧ (s'.vd v).holds = [] ∧
       (s'.ctx n).started = true ∧ (s'.ctx n).stop = .none ∧
       ∀ i, (h : i < (s.placeCores v).length) →
         (let k := s'.core (s.placeCores v)[i]
          k.running = true ∧ k.vd = v ∧ k.ctx = n ∧ k.slot = 0 ∧ k.shapeCore = s.shapeNo v i ∧ k.rseed = (s.ctx n).seed ∧
          k.pc = (if c.fpos = 0 then c.fld 0x18 0 32 else 0) ∧ k.istore = codeWords bs ∧ k.pocket = [] ∧
          (∀ r, k.getS r = 0#32 ∧ k.getV r = 0#2048 ∧ (r ≠ 0 → k.getM r = 0#64))))

/-- R72, R89, R281, R282, R325, R326, R330: when every core of the running context has halted its exec is ready with OK, or
DEADLINE past its deadline, its measures counted and its cores without a context; at the end of its slice, with another
context of its PRIO to run, it stops at a measure boundary no front end has accepted; at that boundary it is saved, or ends
PREEMPTED where it may not be. -/
def Obligations.ExecsStop : Prop :=
  (∀ (v n : Nat) (s : State), (s.vd v).ctx = some n → s.execDone n = true → (s.ctx n).stop = .none →
    (s.ctx n).replay = 0 → (s.ctx n).vd = v → s.hasCmd (s.ctx n).cur = true →
    (let c := s.cmd (s.ctx n).cur
     let d := c.fld 0x28 0 64
     c.fpos = 0 → c.fld 0x24 0 32 = 0 →
     ∃ s', exec (.execComplete v) s = .next s' ∧
       s'.Ended (s.ctx n).cur (if d ≠ 0 ∧ d < s.toll then stDeadline else stOK) ∧
       (s'.cmd (s.ctx n).cur).result1 = s.ctxMeasures n ∧ (s'.ctx n).cur = 0 ∧ (s'.vd v).ctx = none ∧
       (s'.vd v).holds = [] ∧ (∀ k ∈ s.ctxCores n, s'.core k = (s.core k).cleared) ∧
       ∀ k, k ∉ s.ctxCores n → s'.core k = s.core k)) ∧
  (∀ (v r m : Nat) (s : State), (s.vd v).ctx = some r → (s.ctx r).long = false → (s.ctx r).noSave = false →
    4 ≤ (s.vd v).sliceBoundaries → s.choose v = some m → m ≠ r → (s.ctx r).prio ≤ (s.ctx m).prio →
    (s.ctx r).stop = .none →
    ∃ s' b, exec (.sliceExpiry v) s = .next s' ∧ (s'.ctx r).stop = .boundary b ∧ (s'.vd v).switching = true ∧
      (∀ c ∈ s.ctxCores r, (s.core c).accepted ≤ b ∧ (s.core c).rbeat ≤ b) ∧
      (∀ c, (s.ctxCores r).head? = some c → 0 < (s.core c).mlen → b % (s.core c).mlen = 0) ∧
      s'.cores = s.cores ∧ ∀ x, x ≠ r → s'.ctx x = s.ctx x) ∧
  (∀ (v n m : Nat) (s : State), (s.vd v).ctx = some n → (s.ctx n).stop = .boundary m → (s.vd v).holds = [] →
    s.execDone n = false → s.hasCmd (s.ctx n).cur = true →
    (∀ c ∈ s.ctxCores n, ((s.core c).halted = true ∨ m ≤ (s.core c).slot) ∧ m ≤ (s.core c).rbeat ∧ (s.core c).xfers = [] ∧
      (s.core c).sigs = [] ∧ (s.core c).exc = none ∧ (s.core c).isld = none ∧ (s.core c).tlrds = []) →
    (((s.ctx n).noSave = false ∨ (s.vd v).switching = false) →
      ∃ s', exec (.measureBoundaryStop v) s = .next s' ∧ (s'.ctx n).stop = .saving ∧ s'.que.cmds = s.que.cmds) ∧
    ((s.ctx n).noSave = true → (s.vd v).switching = true →
      ∃ s', exec (.measureBoundaryStop v) s = .next s' ∧ s'.Ended (s.ctx n).cur stPreempted ∧ (s'.ctx n).cur = 0 ∧
        ∀ c ∈ s.ctxCores n, (s'.core c).running = false)) ∧
  ∀ (s : State) (seq : Nat) (ch : BitVec 512), SMap.wf ({} : Cmd) s.que.cmds = true → s.hasCmd seq = true →
    (s.cmd seq).opc = 0x30 → (s.cmd seq).phase ≠ .ready → (s.cmd seq).chain = some ch →
    ((s.ctx (s.cmd seq).ctx).cur ≠ seq ∨ (s.ctx (s.cmd seq).ctx).started = false) →
    (let c := s.cmd seq
     let d := c.fld 0x28 0 64
     let n := ch.toNat % 4
     let fits (p : Nat) : Prop := s.toll + chainEst ch p * 1000 + s.effField 0x0C0100 15 0 * 1000 ≤ d
     c.fpos ≤ n →
     ∃ s' p, exec .deadlineCheck s = .next s' ∧ s'.cmd seq = { c with fpos := p } ∧
       (d = 0 → p = c.fpos) ∧
       (d ≠ 0 → (∃ q, c.fpos ≤ q ∧ q ≤ n ∧ fits q) → fits p ∧ c.fpos ≤ p ∧ ∀ q, c.fpos ≤ q → q < p → ¬ fits q) ∧
       (d ≠ 0 → (∀ q, c.fpos ≤ q → q ≤ n → ¬ fits q) → p = n))

/-- R90 to R93, R142: a saved context's records are written and its cores are left; restoring it puts it on the cores of its
placement again. -/
def Obligations.ContextsSaveAndRestore : Prop :=
  (∀ (v n : Nat) (s t : State), (s.vd v).ctx = some n → (s.ctx n).stop = .saving → (s.ctx n).vd = v →
    s.saveAll v n = (.done, t) → t.cores = s.cores → t.vds = s.vds → t.que = s.que →
    ∃ s', exec (.contextSaveComplete v) s = .next s' ∧ (s'.ctx n).saved = true ∧ (s'.ctx n).stop = .none ∧
      (s'.ctx n).cur = (s.ctx n).cur ∧ (s'.ctx n).measures = s.ctxMeasures n ∧ (s'.vd v).ctx = none ∧
      (∀ c ∈ s.ctxCores n, s'.core c = (s.core c).cleared) ∧ s'.sbk = t.sbk) ∧
  ∀ (v n : Nat) (s t1 t2 t : State) (rd : SetReader) (var : Variant) (bs : List Byte), (s.vd v).ctx = none →
    s.choose v = some n → (s.ctx n).saved = true → s.stalled (s.ctx n).cur = false →
    (let c := { s.execCmd n with seq := (s.ctx n).cur }
     s.readSet c (s.execCmd n).execHandles.2.1 = (.ok (rd, var), t1) →
     t1.execBytes c (s.execCmd n).execHandles.1 0 (t1.obj (handleIdx (s.execCmd n).execHandles.1)).size = (some bs, t2) →
     t2.loadAll v n (s.ctx n).ahead (codeWords bs) rd var = (.done, t) →
     ∃ s', exec (.contextRestore v) s = .next s' ∧ (s'.vd v).ctx = some n ∧ (s'.ctx n).saved = false ∧
       (s'.ctx n).stop = .none ∧ (s'.ctx n).lastRun = t.toll ∧ (s'.vd v).holds = [] ∧ s'.cores = t.cores ∧
       s'.sbk = t.sbk)

/-- R90, R91, R93, R142: what a save record holds of a core is what the restored core has: the pocket, the tiles, the vector,
scalar and mask registers, the pc, SRCNT, the loop stack and the poison of its pocket lines; it resumes at the boundary's
slot and beat. -/
def Obligations.RestoredCoreIsTheSavedOne : Prop :=
  ∀ (k f : Core) (orient m ahead : Nat), 0 < k.mlen → f.mlen = k.mlen → m % k.mlen = 0 → m / k.mlen < 2 ^ 64 →
    k.pc < 2 ^ 32 → k.loops.length ≤ 4 → SMap.wf false k.poison = true →
    (∀ e ∈ k.loops, 0 < e.count ∧ e.count < 2 ^ 32 ∧ e.first < 2 ^ 32 ∧ e.last < 2 ^ 32) →
    (let ctl := k.control (m / k.mlen)
     let r := f.restored ((List.range saveLines).map (k.saveLine ctl orient m)) orient ahead
     (∀ i < 2048, readLine r.pocket (64 * i) = readLine k.pocket (64 * i)) ∧
     (∀ i < 8192, sget 0#32 r.acc i = sget 0#32 k.acc i) ∧
     (∀ i < 32, r.getV i = k.getV i) ∧ (∀ i < 32, r.getS i = k.getS i) ∧ (∀ i < 8, r.getM i = k.getM i) ∧
     r.pc = k.pc ∧ r.srcnt = k.srcnt ∧ r.accInt = k.accInt ∧ r.halted = k.halted ∧ r.loops = k.loops ∧
     (∀ l < 2048, sget false r.poison l = sget false k.poison l) ∧ r.rbeat = m ∧ r.slot = m + ahead)

/-- R252, R296, R297: VD_CREATE on a well-formed limit record takes the lowest VD number in state NONE, attaches the VF, assigns
the lowest free tenant pairs and returns the handle; where no number, no detached VF or not enough pairs is left it ends
REJECTED_ADMISSION with DETAIL 0x20, 0x21 or 0x22.  R298 to R302, R310, R311: a first BIND of one part prepares the first
alternative every check of admission passes, its FREE bins INCOMING, and one that admits none ends REJECTED_ADMISSION with
the last alternative's reason.  R399, R400: VD_DESTROY puts the VD in TEARDOWN with its QUIESCE, closes its session and
drops its fault records; the quiesce phase ends with the last command or the deadline; in the retire phase every key ID of
the VD enters RETIRING and zeroisation is set for the boundary that begins period k + 2. -/
def Obligations.VdsBeginBindAndEnd : Prop :=
  (∀ (seq : Nat) (s s1 : State) (l : Limits), s.Startable seq 0x10 → s.stalled seq = false →
     (let c := s.cmd seq
      let port := c.fld 0x10 0 1
      let n := c.fld 0x10 8 8
      let nq := c.fld 0x10 16 9
      let free (q : Nat) : Prop := 256 ≤ q ∧ q < 16384 ∧ (s.pair q).assigned = false
      (s.started seq).readLimits seq (c.fld 0x14 0 32) = (some (.inr l), s1) → s1.vds = s.vds → s1.que = (s.started seq).que →
      s1.host.ports = s.host.ports → s1.host.single = s.host.single → s1.sec = s.sec →
      ((∀ v, 1 ≤ v → v < 128 → (s.vd v).st ≠ .none) →
        ∃ s', exec (.vdCreate seq) s = .next s' ∧ s'.Ended seq stAdmission ∧ (s'.cmd seq).detail = 0x20 ∧ s'.vds = s.vds) ∧
      ∀ v, 1 ≤ v → v < 128 → (s.vd v).st = .none → (∀ u, 1 ≤ u → u < v → (s.vd u).st ≠ .none) →
        s.sec.level3 = false → s.sec.unlocking = false →
        ((s.vfEnabled port n = false ∨ (s.vf port n).vd ≠ 0) →
          ∃ s', exec (.vdCreate seq) s = .next s' ∧ s'.Ended seq stAdmission ∧ (s'.cmd seq).detail = 0x21 ∧ s'.vds = s.vds) ∧
        (s.vfEnabled port n = true → (s.vf port n).vd = 0 →
          (∀ qs : List Nat, qs.Nodup → (∀ q ∈ qs, free q) → qs.length < nq) →
          ∃ s', exec (.vdCreate seq) s = .next s' ∧ s'.Ended seq stAdmission ∧ (s'.cmd seq).detail = 0x22 ∧ s'.vds = s.vds) ∧
        (s.vfEnabled port n = true → (s.vf port n).vd = 0 →
          ∀ qs : List Nat, qs.length = nq → qs.Pairwise (· < ·) → (∀ q ∈ qs, free q) →
          (∀ q r, free q → q ∉ qs → r ∈ qs → r < q) →
          ∃ s', exec (.vdCreate seq) s = .next s' ∧ s'.Ended seq stOK ∧
            (s'.cmd seq).result0 = v + 256 * (((s.vd v).inc + 1) % 2 ^ 24) ∧ (s'.vd v).st = .created ∧
            (s'.vd v).inc = ((s.vd v).inc + 1) % 2 ^ 24 ∧ (s'.vd v).limits = l ∧ (s'.vd v).vf = some (port, n) ∧
            (s'.vd v).quiet = decide (c.fld 0x10 25 1 = 1) ∧ (s'.vf port n).vd = v ∧
            (∀ i, (h : i < qs.length) → s'.pair qs[i] = { assigned := true, vd := v, lq := i }) ∧
            (∀ q, q ∉ qs → s'.pair q = s.pair q) ∧ ∀ u, u ≠ v → s'.vd u = s.vd u))) ∧
  (∀ (seq : Nat) (s s1 : State) (r : ShapeReq) (rd : SetReader) (dg : BitVec 384), s.Startable seq 0x12 →
     s.stalled seq = false →
     (let c := s.cmd seq
      let v := c.vd
      let s0 := (s.started seq).setVd v { s.vd v with changes := [{ kind := .bind, seq := seq, accepted := s.toll }] }
      c.fld 0x14 0 1 = 0 → (s.vd v).st = .created → (s.vd v).changes = [] → (s.vd v).oldPlace = none →
      s0.readShape { c with phase := .running } = (some (r, rd, dg), s1) → s1.vds = s0.vds → s1.que = s0.que →
      r.nparts = 1 → r.alts.length = r.nalt → r.nalt ≠ 0 →
      (let verdict (i : Nat) := s1.admitAlt v {} (s.vd v).alt ((r.alts.getD i []).getD 0 {}) 0 1 r.devs false none rd
       (∀ i p, i < r.nalt → verdict i = .ok p → (∀ j < i, ∀ q, verdict j ≠ .ok q) →
         ∃ s' c', exec (.bind seq) s = .next s' ∧ s'.change v = some c' ∧ c'.phase = .preparing ∧ c'.altIdx = i ∧
           c'.place = p ∧ c'.seq = seq ∧ (s'.vd v).st = .created ∧
           ((∀ b ∈ p.slots, (s1.bin b).st ≠ .hot) → ∀ b ∈ p.slots, (s1.bin b).st = .free → (s'.bin b).st = .incoming ∧ (s'.bin b).owner = v)) ∧
       (∀ e, (∀ i < r.nalt, ∃ x, verdict i = .fail x) → verdict (r.nalt - 1) = .fail e →
         ∃ s', exec (.bind seq) s = .next s' ∧ s'.Ended seq stAdmission ∧
           (s'.cmd seq).detail = e + 256 * (r.nalt - 1) ∧ (s'.vd v).changes = [] ∧ (s'.vd v).st = .created)))) ∧
  ((∀ (seq : Nat) (s : State), s.Startable seq 0x11 → s.stalled seq = false →
     (let c := s.cmd seq
      let h := c.fld 0x10 0 32
      let v := bitsOf h 6 0
      s.vdOfHandle h = some v → (s.vd v).sec.tear = none → (s.vd v).changes = [] → (s.vd v).sec.mb.busy = false →
      ∃ s', exec (.vdDestroy seq) s = .next s' ∧ (s'.vd v).st = .teardown ∧ (s'.vd v).sec.session = none ∧
        (s'.vd v).sec.tear = some { deadline := s.toll + 1000000 * (if c.fld 0x14 0 16 = 0 then 50 else c.fld 0x14 0 16),
                                    seq := seq } ∧
        (s'.space v).ring = [] ∧ (s'.space v).waiting = [] ∧ ∀ u, u ≠ v → s'.vd u = s.vd u)) ∧
   (∀ (v : Nat) (s : State) (t : Teardown), (s.vd v).sec.tear = some t → t.phase = .quiesce →
     ((t.deadline ≤ s.toll ∨ ∀ e ∈ s.que.cmds, e.2.vd ≠ v) →
       ∃ s', exec (.teardownQuiesceEnd v) s = .next s' ∧ (s'.vd v).sec.tear = some { t with phase := .force } ∧
         (s'.vd v).st = (s.vd v).st ∧ s'.que = s.que ∧ s'.hbm = s.hbm) ∧
     (s.toll < t.deadline → (∃ e ∈ s.que.cmds, e.2.vd = v) → exec (.teardownQuiesceEnd v) s = .next s)) ∧
   ∀ (v : Nat) (s : State) (t : Teardown), (s.vd v).sec.tear = some t → t.phase = .retire → t.boundary = none →
     SMap.wf ({} : KeySlot) s.hbm.keys = true →
     ∃ s', exec (.teardownRetire v) s = .next s' ∧
       (s'.vd v).sec.tear = some { t with boundary := some ((s.toll / 1024000 + 2) * 1024000) } ∧
       (∀ k, k ≠ 0 → (s.key k).vd = v → ((s.key k).st = .active ∨ (s.key k).st = .rolling) →
         s'.key k = { s.key k with st := .retiring, drained := false, zeroAt := some ((s.toll / 1024000 + 2) * 1024000) }) ∧
       ∀ k, (k = 0 ∨ (s.key k).vd ≠ v) → s'.key k = s.key k)

/-- R309 to R311, R315: when everything of a change is had and copied, its commit is scheduled for the boundary that begins
period k + 2; at that boundary the new map is in force, the epoch advances, the pods are the VD's and its BIND ends OK with
the handle; a context that has left its cores passes to the new resources; once the old epoch has drained, the bins it alone
used are cleared and no old map is left. -/
def Obligations.ChangesCommit : Prop :=
  (∀ (v : Nat) (s : State) (c : Change), s.change v = some c → c.phase = .preparing → (s.vd v).st ≠ .teardown →
    s.destRetired v c = false → (c.nparts = 1 ∨ c.kind = .move) → c.prepared.contains c.part = false →
    (let t := ((List.range 4).filter (carveKept
         (((s.takeBins v c.place).openBinMoves v c.place).vd v).alt c.alt)).foldl
         (fun s k => s.openChanMoves v k (sget [] c.place.chans k)) ((s.takeBins v c.place).openBinMoves v c.place)
     (t.prepared v c = true →
       ∃ s', exec (.prepareEnd v) s = .next s' ∧ s'.change v = some { c with
         phase := .scheduled, schedAt := t.toll, commitAt := some ((t.toll / 1024000 + 2) * 1024000) }) ∧
     (t.prepared v c = false → exec (.prepareEnd v) s = .next t))) ∧
  (∀ (v b : Nat) (s : State) (c : Change), v ≠ 0 → (s.vd v).changes = [c] → c.phase = .scheduled → c.rejoin = false →
    c.commitAt = some b → b ≤ s.toll → (s.vd v).st ≠ .teardown → (s.vd v).ctx = none → (s.vd v).passing = [] →
    (s.seam.locked = true ∨ (∀ p ∈ c.place.pods, podHalf p = 0) ∨ ∀ p ∈ c.place.pods, podHalf p = 1) →
    ∃ s', exec (.compositionCommit v) s = .next s' ∧ (s'.vd v).place = c.place ∧ (s'.vd v).alt = c.alt ∧
      (s'.vd v).epoch = (if (s.vd v).st = .created then 0 else ((s.vd v).epoch + 1) % 16) ∧
      (s'.vd v).tcommit = s.toll ∧ (s'.vd v).changes = [] ∧ (s'.vd v).passing = [] ∧
      (s'.vd v).st = (if (s.vd v).lostParts = [] then .bound else .held) ∧
      (s'.vd v).oldPlace = (if (s.vd v).st = .created then none else some (s.vd v).place) ∧
      (∀ p, (s'.pod p).vd = v ↔ p ∈ c.place.pods) ∧
      (∀ k < 4, (c.alt.carves.getD k {}).ch ≠ 0 → (s'.carve v k).chans = sget [] c.place.chans k) ∧
      (s.hasCmd c.seq = true → (s.cmd c.seq).status = stOK →
        s'.Ended c.seq stOK ∧ (s'.cmd c.seq).result0 = s.vdHandle v)) ∧
  (∀ (v n : Nat) (s : State) (c : Change), (s.vd v).changes = [c] → c.phase = .committed → (s.vd v).passing = [n] →
    (s.vd v).ctx ≠ some n →
    ∃ s', exec (.rebindPoint v) s = .next s' ∧ (s'.ctx n).oldEpoch = false ∧ (s'.vd v).passing = [] ∧
      (s'.vd v).changes = [] ∧
      (s.hasCmd c.seq = true → (s.cmd c.seq).status = stOK → s'.Ended c.seq stOK)) ∧
  (∀ (v : Nat) (s : State) (old : Placement), (s.vd v).oldPlace = some old → (s.vd v).passing = [] →
    (s.vd v).st ≠ .teardown → (s.vd v).changes = [] →
    ∃ s', exec (.epochDrained v) s = .next s' ∧ (s'.vd v).oldPlace = none ∧ (∀ k < 4, (s'.carve v k).old = none) ∧
      ∀ b ∈ old.slots, b ∉ (s.vd v).place.slots → (∀ m ∈ s.sbk.moves, m.src ≠ b) →
        (s'.bin b).st = .clearing ∧ (s'.bin b).owner = 0) ∧
  ∀ (v b : Nat) (s : State) (m : BinMove), s.moveTo b = some m → m.vd = v → m.flipped = true → (s.vd v).oldPlace = none →
    m.dirty = [] → m.src ≠ b → (∀ i ∈ s.fw.inbound, i.waits = []) →
    ∃ s', exec (.binFlipComplete v b) s = .next s' ∧ (s'.bin b).st = .owned ∧ (s'.bin m.src).st = .clearing ∧
      (∀ x ∈ s'.sbk.moves, x.dst ≠ b) ∧ s'.sbk.mem = s.sbk.mem ∧ ∀ q, q ≠ b → q ≠ m.src → s'.bin q = s.bin q

/-- R310, R312: a shape change that has not reached its rebind point within REBINDMS of its acceptance ends REJECTED_ADMISSION
with reason 0x0B, and a bind some part of which has not joined within JOINMS with reason MEMBER, naming the first missing
part where this device coordinates it; the VD keeps what it had.  R179, R313: the copy engine's copy of a dirty line puts
the source's data and poison at the destination and leaves every other line, and a fresh line alone; a dirty set that has
not shrunk over 16 toll periods has its writes held. -/
def Obligations.TimeoutsAndCopies : Prop :=
  ((∀ (v : Nat) (s : State) (c : Change) (rest : List Change), (s.vd v).changes = c :: rest → c.kind = .shape →
     c.commitAt = none → c.rejoin = false → c.digest ≠ 0#384 → c.accepted + 1000000 * c.rebindMs ≤ s.toll →
     (s.vd v).ctx ≠ none → c.prepared.contains c.part = false → s.hasCmd c.seq = true → (s.cmd c.seq).status = stOK →
     ∃ s', exec (.rebindTimeout v) s = .next s' ∧ s'.Ended c.seq stAdmission ∧
       (s'.cmd c.seq).detail = 0x0B + 256 * c.altIdx ∧ (s'.vd v).changes = rest ∧ (s'.vd v).place = (s.vd v).place ∧
       (s'.vd v).epoch = (s.vd v).epoch) ∧
   ∀ (v : Nat) (s : State) (c : Change) (rest : List Change), (s.vd v).changes = c :: rest → 1 < c.nparts →
     c.digest ≠ 0#384 → c.told = false → c.rejoin = false → c.kind ≠ .move → c.accepted + 1000000 * c.joinMs ≤ s.toll →
     s.hasCmd c.seq = true → (s.cmd c.seq).status = stOK →
     ∃ s' missing, exec (.joinTimeout v) s = .next s' ∧ s'.Ended c.seq stAdmission ∧
       (s'.cmd c.seq).detail = 0x0D + 256 * (c.nalt - 1) + 65536 * missing ∧ (s'.vd v).changes = rest ∧
       (s'.vd v).place = (s.vd v).place ∧ (s.coordinator v c ≠ s.devNo → missing = 0) ∧
       (s.coordinator v c = s.devNo → ∀ i < c.nparts, sget none c.joined i = none → (∀ j < i, sget none c.joined j ≠ none) →
         missing = i)) ∧
  ((∀ (v line : Nat) (s : State) (m : BinMove), line < 2 ^ 27 → s.moveFrom (line / 262144) = some m → m.vd = v →
     (∀ i ∈ s.fw.inbound, i.waits = []) →
     (let l := line % 262144
      (sget false m.dirty l = true → sget false m.fresh l = false →
        ∃ s', exec (.dirtyLineCopy v line) s = .next s' ∧
          s'.sbLine (physLine m.dst l) = s.sbLine (physLine m.src l) ∧
          (∀ q, q ≠ physLine m.dst l → s'.sbLine q = s.sbLine q) ∧
          (∀ x ∈ s'.sbk.moves, x.src = m.src → sget false x.dirty l = false) ∧ s'.sbk.bins = s.sbk.bins) ∧
      ((sget false m.dirty l = false ∨ sget false m.fresh l = true) →
        exec (.dirtyLineCopy v line) s = .next s))) ∧
   ∀ (v : Nat) (s : State) (c : Change), s.change v = some c → c.phase = .preparing →
     c.accepted + 16 * 1024000 ≤ s.toll →
     ∃ s', exec (.migrationWriteHold v) s = .next s' ∧
       (∀ m ∈ s'.sbk.moves, m.vd = v → m.dirty ≠ [] → m.holdWrites = true) ∧
       (∀ m ∈ s'.hbm.moves, m.vd = v → m.dirty ≠ [] → m.holdWrites = true) ∧
       (∀ m ∈ s.sbk.moves, m.vd ≠ v → m ∈ s'.sbk.moves) ∧ s'.sbk.mem = s.sbk.mem ∧ s'.hbm.chans = s.hbm.chans)

/-- R318, R320: a GO while a request is in progress sets REFUSED and changes nothing else; otherwise MOVE, EVACUATE and UNSEAM
move the VDs concerned to a placement that passes admission, ending at once where none has to move, and with NOROOM where
none is found; RELIMIT installs a record the bound shape fits; RELEASE returns a withheld resource; a request with a bad
argument ends BADARG.  R319, R320: a role change that no VD's channel stands in the way of takes two FREE bins of the half
for each new stack and is scheduled for the boundary that begins period k + 2; leaving the memory role with stacks still
named ends BADARG; a GO while one is in progress only sets RSVW. -/
def Obligations.OperatorAndRoleRequests : Prop :=
  ((∀ (i : Instr) (s : State), i ∈ [Instr.move, .evacuate, .relimit, .unseam, .release] → s.cmp.opState = 1 →
     exec i s = .next { s with cmp := { s.cmp with refused := true } }) ∧
   (∀ (s : State), s.cmp.opState ≠ 1 → s.cmp.opVd = 0 →
     ∀ i ∈ [Instr.move, .relimit, .unseam], ∃ s', exec i s = .next s' ∧ s'.cmp.opState = 2 ∧ s'.cmp.result = 4 ∧
       s'.cmp.opReq = none ∧ s'.vds = s.vds) ∧
   (∀ (i : Instr) (arg : Nat) (av : Avoid) (noSpan keepPods : Bool) (s : State) (rd : SetReader),
     s.cmp.opState ≠ 1 → s.reg 0x080018 = arg → (s.vd s.cmp.opVd).st = .bound → s.cmp.opVd ≠ 0 →
     (s.vd s.cmp.opVd).changes = [] →
     ((i = .move ∧ arg = 0 ∧ av = {} ∧ noSpan = false ∧ keepPods = false) ∨
      (i = .move ∧ (arg = 1 ∨ arg = 2) ∧ av = { half := some (arg - 1) } ∧ noSpan = false ∧ keepPods = true) ∨
      (i = .unseam ∧ arg = 0 ∧ s.spans s.cmp.opVd = true ∧ av = {} ∧ noSpan = true ∧ keepPods = true)) →
     (let v := s.cmp.opVd
      let d := s.vd v
      let q : OpReq := { op := if i = .move then 1 else 4, vd := v, arg := arg, vds := [v] }
      let t := { s with cmp := { s.cmp with opState := 1, result := 0, opReq := some q } }
      let verdict := t.admitAlt v av d.alt d.alt d.part d.nparts d.devs noSpan (if keepPods then s.rectOf v else none) rd
      (t.btReader v d.btset = some rd) →
      (∀ p, verdict = .ok p → p ≠ d.place →
        ∃ s' c, exec i s = .next s' ∧ (s'.vd v).changes = [c] ∧ c.kind = .move ∧ c.place = p ∧ c.op = true ∧
          (s'.vd v).st = .changing ∧ s'.cmp.opState = 1 ∧ (s'.vd v).place = d.place ∧ (s'.vd v).epoch = d.epoch) ∧
      (∀ e, verdict = .fail e → ∃ s', exec i s = .next s' ∧ s'.cmp.opState = 2 ∧ s'.cmp.result = 1 ∧ s'.vds = s.vds))) ∧
   (∀ (s : State), s.cmp.opState ≠ 1 → s.cmp.opVd = 0 →
     (let arg := s.reg 0x080018
      let kind := arg % 8
      let i := bitsOf arg 18 8
      arg / 2 ^ 19 = 0 → bitsOf arg 7 3 = 0 → kind ≤ 4 → i < kindCount kind →
      (∃ s', exec .release s = .next s' ∧ s'.cmp.opState = 2 ∧ s'.cmp.result = 0 ∧
        ∀ x, x ∈ s'.cmp.withheld ↔ x ∈ s.cmp.withheld ∧ x ≠ kind * 4096 + i) ∧
      (s.notApplied kind i = false → (∀ v ∈ skeys s.vds, s.holds v kind i = false) →
        ∃ s', exec .evacuate s = .next s' ∧ s'.cmp.opState = 2 ∧ s'.cmp.result = 0 ∧
          s'.cmp.withheld.contains (kind * 4096 + i) = true ∧ s'.vds = s.vds))) ∧
   ∀ (s t : State) (l : Limits), s.cmp.opState ≠ 1 → s.cmp.opVd ≠ 0 → (s.vd s.cmp.opVd).st = .bound →
     (let arg := s.reg 0x080018
      let o := s.obj (handleIdx arg)
      arg / 2 ^ 32 = 0 → s.handleCheck 0 arg = 0 → o.kind = 0 → 64 ≤ o.size →
      ({ s with cmp := { s.cmp with opState := 1, result := 0 } } : State).readLimits 0 arg = (some (.inr l), t) →
      (limitsOk l (s.vd s.cmp.opVd).alt (s.vd s.cmp.opVd).nparts = true →
        ∃ s', exec .relimit s = .next s' ∧ s'.cmp.result = 0 ∧ s'.vd s.cmp.opVd = { s.vd s.cmp.opVd with limits := l } ∧
          ∀ u, u ≠ s.cmp.opVd → s'.vd u = s.vd u) ∧
      (limitsOk l (s.vd s.cmp.opVd).alt (s.vd s.cmp.opVd).nparts = false →
        ∃ s', exec .relimit s = .next s' ∧ s'.cmp.result = 2 ∧ s'.vds = s.vds))) ∧
  (∀ (v : Word) (s : State), bitOf v.toNat 31 = true →
     (let stks := v.toNat % 256
      let role := bitOf v.toNat 8
      let grown := (stksOf stks).filter fun n => !bitOf s.cmp.served n
      (s.cmp.roleState ≠ 0 → exec (.roleChange v) s = .next { s with rst := { s.rst with rsvw := true } }) ∧
      (s.cmp.roleState = 0 → role = false → stks ≠ 0 →
        ∃ s', exec (.roleChange v) s = .next s' ∧ s'.cmp.roleResult = 2 ∧ s'.cmp.roleState = 0 ∧ s'.vds = s.vds ∧
          s'.sbk = s.sbk) ∧
      (∀ bins, s.cmp.roleState = 0 → (role = true ∨ stks = 0) → s.roleBinsFor grown = some bins →
        (∀ e ∈ s.vds, ∀ c ∈ e.2.carves, ∀ g ∈ c.2.chans, grown.contains (g / 32) = false) →
        ∃ s' r, exec (.roleChange v) s = .next s' ∧ s'.cmp.roleReq = some r ∧ r.role = role ∧ r.stks = stks ∧ r.vds = [] ∧
          r.commitAt = some ((s.toll / 1024000 + 2) * 1024000) ∧ s'.cmp.roleState = 1 ∧
          (∀ b ∈ bins.flatMap Prod.snd, (s'.bin b).st = .incoming ∧ (s'.bin b).owner = 0) ∧ s'.vds = s.vds ∧
          s'.cmp.served = s.cmp.served)))

/-- R377, R426, R457, R456, R10: TOLL_CNTLO and PCT_SNAPLO give the present low word and latch the rest for their function, the
low half of a 64-bit register latches its high half, an RC register is returned and cleared, a VF's own copy only for the
VF; an access that meets nothing reads zero and an Unsupported Request nothing.  R292, R397, R398, R459: the journal window
shows the records from the one JRNWIN names, zeros where none is; the debug aperture reaches 8 bytes of the target mapped,
as here a core's pocket, and nothing while it maps none that is open. -/
def Obligations.RegisterReadsAndWindows : Prop :=
  ((∀ (f : Nat) (s : State), f < 2 → s.pfGate f baseToll = .pass →
     ∃ s', exec (.tollCntloRead f) s = .next s' ∧ s'.rdata = [BitVec.ofNat 64 (s.toll % 2 ^ 32)] ∧
       s' = { s with rdata := s'.rdata, glb := s'.glb } ∧ (∀ g, g ≠ f → sget 0#32 s'.glb.tollHi g = sget 0#32 s.glb.tollHi g) ∧
       ∀ n, exec (.rcRegisterRead { fn := f, tee := false, full := true } (baseToll + 4)) { s' with toll := n } =
         .next { s' with toll := n, rdata := [BitVec.ofNat 64 (s.toll / 2 ^ 32 % 2 ^ 32)] }) ∧
   (∀ (a : Access) (s : State), 2 ≤ a.fn → s.vfGate a 0x10 = .pass →
     ∃ s', exec (.vfidTollloRead a) s = .next s' ∧ s'.rdata = [BitVec.ofNat 64 (s.toll % 2 ^ 32)] ∧
       s' = { s with rdata := s'.rdata, glb := s'.glb } ∧ sget 0#32 s'.glb.vfTollHi a.fn = BitVec.ofNat 32 (s.toll / 2 ^ 32)) ∧
   (∀ (f : Nat) (s : State), f < 2 → s.pfGate f (basePct + 0x40) = .pass →
     ∃ s', exec (.pctSnaploRead f) s = .next s' ∧ s'.rdata = [BitVec.ofNat 64 (s.pwr.snap.getD 0 0#32).toNat] ∧
       s' = { s with rdata := s'.rdata, pwr := s'.pwr } ∧ s'.pwr.snap = s.pwr.snap ∧
       ∀ (w : List Word) (i : Nat), 1 ≤ i → i < 7 →
         ∃ t, exec (.rcRegisterRead { fn := f, tee := false, full := true } (basePct + 0x40 + 4 * i))
             { s' with pwr := { s'.pwr with snap := w } } = .next t ∧
           t.rdata = [BitVec.ofNat 64 (s.pwr.snap.getD i 0#32).toNat]) ∧
   (∀ (a : Access) (b : Nat) (r : RegSpan) (s : State), a.fn < 2 → b < baseDbg → b % 4 = 0 → s.pfGate a.fn b = .pass →
     findReg pfSpans b = some (b, r, false) → r.wide = true →
     ∃ s', exec (.lowDwordRead a b) s = .next s' ∧ s'.rdata = [BitVec.ofNat 64 (s.pfValue a.fn b % 2 ^ 32)] ∧
       sget none s'.glb.latched a.fn = some (b, BitVec.ofNat 32 (s.pfValue a.fn b / 2 ^ 32)) ∧
       (∀ g, g ≠ a.fn → sget none s'.glb.latched g = sget none s.glb.latched g) ∧
       s' = { s with rdata := s'.rdata, glb := s'.glb }) ∧
   (∀ (a : Access) (s : State), a.fn < 2 →
     (s.pfGate a.fn (baseErr + 0x0C) = .pass →
       exec (.rcRegisterRead a (baseErr + 0x0C)) s = .next { s with
         rdata := [BitVec.ofNat 64 (s.rst.maxSev * 2 ^ 26 + s.rst.lost)], rst := { s.rst with lost := 0, maxSev := 0 } }) ∧
     (s.pfGate a.fn (baseDrl + 4) = .pass →
       exec (.rcRegisterRead a (baseDrl + 4)) s = .next { s with
         rdata := [BitVec.ofNat 64 s.seam.drop], seam := { s.seam with drop := 0 } }) ∧
     (∀ p < 128, s.pfGate a.fn (baseDrl + 0x1004 + 64 * p) = .pass →
       exec (.rcRegisterRead a (baseDrl + 0x1004 + 64 * p)) s = .next { s.setPod p { s.pod p with bnd := 0 } with
         rdata := [BitVec.ofNat 64 (s.pod p).bnd] }) ∧
     (∀ addr, s.pfGate a.fn (addr / 4 * 4) = .dead → exec (.rcRegisterRead a addr) s = .next { s with rdata := [0#64] })) ∧
   ∀ (a : Access) (s : State), 2 ≤ a.fn →
     (let v := (s.vf (fnPort a.fn) (fnVf a.fn)).vd
      (∀ q p, q < 128 → (s.vd v).place.pods[q]? = some p → s.vfGate a (0x80004 + 64 * q) = .pass →
        exec (.rcRegisterRead a (0x80004 + 64 * q)) s = .next { s.setPod p { s.pod p with bndVf := 0 } with
          rdata := [BitVec.ofNat 64 (s.pod p).bndVf] }) ∧
      (∀ addr, s.vfGate a (addr / 4 * 4) = .ur →
        ∃ s', exec (.rcRegisterRead a addr) s = .next s' ∧ s'.rdata = [] ∧
          (s'.port (fnPort a.fn)).ur = min ((s.port (fnPort a.fn)).ur + 1) (2 ^ 32 - 1) ∧ s'.vds = s.vds ∧ s'.cores = s.cores))) ∧
  ((∀ (off : Nat) (s : State), s.glb.stage = .run → off < 0x1000000 → off % 128 = 0 →
     (let r := s.jrec ((s.reg (baseQue + 0x9008) + off / 128) % journalSize)
      ∃ l, exec (.journalWindowRead off) s = .next { s with rdata := l } ∧
        (r.seq = 0 → ∀ i, l.getD i 0#64 = 0#64) ∧
        (r.seq ≠ 0 → r.vd ≠ 0 → ∀ i < 16, l.getD i 0#64 =
          BitVec.ofNat 64 (leNat (((r.header ++ leBytes 80 r.body.toNat ++ leBytes 16 r.tag.toNat).drop (8 * i)).take 8))))) ∧
   (∀ (off : Nat) (v : DWord) (s : State), s.glb.stage = .run → off < 0x2000000 → s.debugTarget off = none →
     exec (.debugApertureAccess off true v) s = .next s ∧
     exec (.debugApertureAccess off false v) s = .next { s with rdata := [0#64] }) ∧
   ∀ (off o : Nat) (m : DebugMap) (v : DWord) (s : State), s.glb.stage = .run → off < 0x2000000 →
     s.debugTarget off = some (m, o) → m.kind = 2 → o < 0x20000 →
     exec (.debugApertureAccess off false v) s =
       .next { s with rdata := [BitVec.ofNat 64 (readLE (s.core m.index).pocket o 8)] } ∧
     ∃ s', exec (.debugApertureAccess off true v) s = .next s' ∧ readLE (s'.core m.index).pocket o 8 = v.toNat ∧
       (∀ j, j < o ∨ o + 8 ≤ j → readByte (s'.core m.index).pocket j = readByte (s.core m.index).pocket j) ∧
       s' = s.setCore m.index { s.core m.index with pocket := (s'.core m.index).pocket })

/-- R10, R11, R456, R457, R465: a write gives each field its code, leaves one whose code is reserved, and sets RSVW when a
reserved bit or code is written; the low half of a 64-bit register is staged and the high half commits both; a write with
byte enables clear only sets RSVW; a W1C bit is cleared by a 1. (SCH_POLICY takes effect at the next toll boundary.) -/
def Obligations.RegisterWrites : Prop :=
  (∀ (a : Access) (b : Nat) (d : RegDesc) (v : DWord) (s : State), a.fn < 2 → s.pfGate a.fn b = .pass →
    b ∈ [0x30, baseErr + 0x20, baseSbk + 0x2000, baseXlt + 0x08, baseHbm + 0x10, baseCmp + 0x04, baseCmp + 0x08,
      baseSch + 0x100] → regAt b = some d →
    (let w := v.toNat % 2 ^ 32
     (a.full = true →
       ∃ s', exec (.registerWrite a b v) s = .next s' ∧
         (∀ f ∈ d.fields, bitsOf (s'.reg b) f.hi f.lo =
           if f.ok (bitsOf w f.hi f.lo) = true then bitsOf w f.hi f.lo else bitsOf (s.reg b) f.hi f.lo) ∧
         (s'.rst.rsvw = true ↔ s.rst.rsvw = true ∨ d.covered w ≠ w ∨ ∃ f ∈ d.fields, f.ok (bitsOf w f.hi f.lo) = false) ∧
         (∀ x, x ≠ b → s'.reg x = s.reg x) ∧ (∀ x, s'.regEff x = s.regEff x) ∧
         s' = { s with glb := s'.glb, rst := { s.rst with rsvw := s'.rst.rsvw } }) ∧
     (a.full = false → exec (.registerWrite a b v) s = .next { s with rst := { s.rst with rsvw := true } }))) ∧
  (∀ (a : Access) (b : Nat) (r : RegSpan) (lo hi : Word) (s : State), a.fn < 2 → a.full = true → b % 8 = 0 → b < baseDbg →
    s.pfGate a.fn b = .pass → s.pfGate a.fn (b + 4) = .pass → findReg pfSpans b = some (b, r, false) →
    findReg pfSpans (b + 4) = some (b, r, true) → r.wide = true →
    ∃ t, exec (.lowDwordWrite a b lo) s = .next t ∧ t = { s with glb := { s.glb with staged := t.glb.staged } } ∧
      exec (.highDwordWrite a (b + 4) hi) t =
        exec (.registerWrite a b (BitVec.ofNat 64 (hi.toNat * 2 ^ 32 + lo.toNat)))
          { s with glb := { s.glb with staged := sput none a.fn none t.glb.staged } }) ∧
  (∀ (v : Word) (s : State),
    ∃ s', exec (.nmecauseClear v) s = .next s' ∧
      (∀ i < 15, s'.glb.nme.getLsbD i = (s.glb.nme.getLsbD i && !v.getLsbD i)) ∧
      s'.glb.nmeValid = (s.glb.nmeValid && decide (s'.glb.nme ≠ 0#15)) ∧ s'.glb.nmeBit = s.glb.nmeBit ∧
      s'.glb.nmeTime = s.glb.nmeTime ∧ s'.rst.rsvw = (s.rst.rsvw || decide (2 ^ 15 ≤ v.toNat))) ∧
  ∀ (v : Word) (s : State), v.toNat < 2 ^ 13 → bitsOf v.toNat 12 4 < 280 →
    ∃ s', exec (.sbkArbselWrite v) s = .next s' ∧ s'.sbk.arbSel = v.toNat ∧ s'.sbk.latched = sget {} s.sbk.stats v.toNat ∧
      sget ({} : ArbStat) s'.sbk.stats v.toNat = {} ∧
      (∀ k, k ≠ v.toNat → sget ({} : ArbStat) s'.sbk.stats k = sget {} s.sbk.stats k) ∧ s'.sbk.mem = s.sbk.mem ∧ s'.rst = s.rst

/-- R254, R255, R271 to R273, R337, R461: a doorbell write sets the tail of an active queue, and one of a queue not active or
with a tail outside the ring only counts in DBERR; EN set starts an empty ring, EN cleared disables the queue, and a size or
vector cannot change while EN is set; CQHEAD is what software has consumed; a quiet VD's tick serves one queue, the next
after the one served last. -/
def Obligations.QueueRegisters : Prop :=
  (∀ (a : Access) (q tail : Nat) (s : State), s.glb.stage = .run → a.fn < 2 → q < 16384 → s.pfGate a.fn 0 = .pass →
    a.full = true → tail < 65536 →
    (let p := s.pair q
     p.assigned = true → p.vd = 0 → (if s.host.single then 0 else p.pf) = a.fn →
     ((p.st ≠ .active ∨ ringSlots p.sqsz ≤ tail) →
       exec (.doorbellWrite a q tail) s = .next (s.setPair q { p with dberr := min (p.dberr + 1) 65535 })) ∧
     (p.st = .active → tail < ringSlots p.sqsz → (tail = p.head ∨ s.que.halted = true) →
       exec (.doorbellWrite a q tail) s = .next (s.setPair q { p with tail := tail })))) ∧
  (∀ (a : Access) (lq q tail v : Nat) (s : State), s.glb.stage = .run → 2 ≤ a.fn → lq < 256 →
    v = (s.vf (fnPort a.fn) (fnVf a.fn)).vd → s.vfGate a 0x10000 = .pass → a.full = true → tail < 65536 →
    s.lqPair v lq = some q →
    ((s.pair q).st ≠ .active → exec (.doorbellWrite a lq tail) s =
      .next (s.setPair q { s.pair q with dberr := min ((s.pair q).dberr + 1) 65535 })) ∧
    ((s.pair q).st = .active → tail < ringSlots (s.pair q).sqsz → (s.vd (s.pair q).vd).quiet = true →
      exec (.doorbellWrite a lq tail) s = .next (s.setPair q { s.pair q with tail := tail }))) ∧
  (∀ (a : Access) (lq q : Nat) (v : Word) (s : State), a.fn < 2 → a.full = true → lq < 256 →
    s.pfGate a.fn (baseQue + 64 * lq) = .pass → s.lqPair 0 lq = some q →
    (let p := s.pair q
     let n := v.toNat
     p.assigned = true → p.vd = 0 → bitsOf n 30 20 = 0 → bitOf n 11 = false → bitsOf n 19 16 ≤ 10 → bitsOf n 15 12 ≤ 10 →
     16 ≤ bitsOf n 10 0 →
     (bitOf n 31 = true → p.en = false → p.held = [] →
       exec (.queQctlWrite a lq v) s = .next (s.setPair q { p with
         sqsz := bitsOf n 19 16, cqsz := bitsOf n 15 12, vec := bitsOf n 10 0, en := true,
         pf := if s.host.single then 0 else a.fn, st := .active, err := 0, head := 0, tail := 0, cqhead := 0, cqtail := 0,
         phase := true })) ∧
     (p.en = true → (bitsOf n 19 16 ≠ p.sqsz ∨ bitsOf n 15 12 ≠ p.cqsz ∨ bitsOf n 10 0 ≠ p.vec) →
       exec (.queQctlWrite a lq v) s = .next { s with rst := { s.rst with rsvw := true } }) ∧
     (bitOf n 31 = false → p.en = true → bitsOf n 19 16 = p.sqsz → bitsOf n 15 12 = p.cqsz → bitsOf n 10 0 = p.vec →
       exec (.queQctlWrite a lq v) s = .next (s.setPair q { p with en := false, st := .disabled })))) ∧
  (∀ (a : Access) (lq q v : Nat) (s : State), a.fn < 2 → a.full = true → lq < 256 → v < 65536 →
    s.pfGate a.fn (baseQue + 64 * lq + 0x1C) = .pass → s.lqPair 0 lq = some q → (s.pair q).held = [] →
    exec (.cqheadWrite a lq v) s = .next (s.setPair q { s.pair q with cqhead := v })) ∧
  (∀ (v : Nat) (s : State), v ≠ 0 → (s.vd v).quiet = true → SMap.wf ({} : QueuePair) s.que.pairs = true →
    (let pending (q : Nat) : Prop := (s.pair q).assigned = true ∧ (s.pair q).vd = v ∧ (s.pair q).st = .active ∧
       (s.pair q).head ≠ (s.pair q).tail
     let after (q r : Nat) : Prop := (s.vd v).lastTick < q ∧ (r ≤ (s.vd v).lastTick ∨ q ≤ r)
     ((∀ q, ¬ pending q) → exec (.queueEngineTick v) s = .next s) ∧
     ∀ q, pending q → ((∀ r, pending r → after q r) ∨ (∀ r, pending r → r ≤ (s.vd v).lastTick ∧ q ≤ r)) →
       exec (.queueEngineTick v) s = .next ((s.setVd v { s.vd v with lastTick := q }).takeSlot q))) ∧
  ∀ (q st d : Nat) (pages : Option Nat) (s : State), s.canTake q = true → s.qLive q = true →
    (let p := s.pair q
     let c : Cmd := { seq := s.que.seq, q := q, vd := p.vd, slotIdx := p.head,
                      slot := BitVec.ofNat 512 (readLE s.host.mem (p.sqbase + 64 * p.head) 64), tacc := s.toll }
     s.sealedPages c = (pages, s) → s.acceptFail c pages = some (st, d) →
     (s.takeSlot q).que.seq = s.que.seq + 1 ∧ ((s.takeSlot q).pair q).head = (p.head + 1) % ringSlots p.sqsz ∧
       (s.takeSlot q).hasCmd s.que.seq = s.hasCmd s.que.seq ∧
       ((s.takeSlot q).jrec (s.que.seq % journalSize)).seq = s.que.seq ∧
       ((s.takeSlot q).jrec (s.que.seq % journalSize)).done = true ∧ (s.takeSlot q).que.objs = s.que.objs)

/-- R194 to R199, R209: a line written whole under an admitted key is stored encrypted under the next minor counter with a tag
that verifies, and a read of it answers the data written; a partial write merges its enabled bytes; no other line of the
channel changes what it holds. -/
def Obligations.HbmWritesReadBack : Prop :=
  (∀ (v key addr g loc kc : Nat) (fp kp : KeyPair) (data : BitVec 512) (s : State),
    (let a := addr / 64 * 64
     let c := s.chan g
     let line := loc / 64
     let p := line / 64
     let t := s.touchChan g
     (s.carve v (bitsOf addr 41 40)).mode ≠ 3 → c.mode ≠ 3 → s.admitLine v key a false = (.ok g loc kc, s) →
     s.chWaits g p false true = false → c.subBad p = false → s.pairs g p = (fp, some kp) →
     t.checkPage g p kp = (none, t) → (c.ctr p).minor (minorIdx c.mode line) < 127 →
     ∃ s', exec (.hbmWrite v key addr data) s = .next s' ∧ s'.rdata = [0#64] ∧
       (s'.chan g).plain g fp kp line = data ∧ (s'.chan g).tagOk g fp kp line = true ∧
       (s'.chan g).stored g fp line = data ^^^ lineStream kp.dataKey (c.ctr p).gen g line (c.ctr p).major
         ((c.ctr p).minor (minorIdx c.mode line) + 1) ∧
       sget false (s'.chan g).poison line = false ∧
       (∀ l, l ≠ line → (s'.chan g).stored g fp l = c.stored g fp l ∧ (s'.chan g).plain g fp kp l = c.plain g fp kp l ∧
         sget false (s'.chan g).poison l = sget false c.poison l) ∧ (∀ h, h ≠ g → s'.chan h = s.chan h) ∧
       exec (.partialWrite v key addr data (BitVec.allOnes 64)) s = .next s' ∧
       ∃ r, exec (.hbmRead v key addr .clean) s' = .next r ∧
         r.rdata = 0#64 :: (List.range 8).map fun i => BitVec.ofNat 64 (data.toNat / 2 ^ (64 * i)))) ∧
  ∀ (v key addr g loc kc : Nat) (fp kp : KeyPair) (data : BitVec 512) (be : DWord) (i : Instr) (s : State),
    (i = .partialWrite v key addr data be ∨ (i = .hbmWrite v key addr data ∧ be = BitVec.allOnes 64)) →
    (let c := s.chan g
     let n := granLines c.mode
     let a := addr / (64 * n) * (64 * n)
     let line0 := loc / 64 / n * n
     let at_ := line0 + addr / 64 % n
     let p := line0 / 64
     let t := s.touchChan g
     (s.carve v (bitsOf addr 41 40)).mode = c.mode → (be ≠ BitVec.allOnes 64 ∨ c.mode = 3) →
     s.admitLine v key a false = (.ok g loc kc, s) → s.chWaits g p true true = false → c.subBad p = false →
     s.pairs g p = (fp, some kp) → t.checkPage g p kp = (none, t) → (c.ctr p).minor (minorIdx c.mode line0) < 127 →
     (∀ l ∈ granOf c.mode line0, sget false c.poison l = false ∧ sget Ecc.clean c.flaw l = Ecc.clean) →
     c.tagOk g fp kp line0 = true →
     ∃ s', exec i s = .next s' ∧ s'.rdata = [0#64] ∧
       (s'.chan g).plain g fp kp at_ = mergeBytes (c.plain g fp kp at_) data be ∧
       (s'.chan g).tagOk g fp kp line0 = true ∧
       (∀ l, l ≠ at_ → (s'.chan g).plain g fp kp l = c.plain g fp kp l ∧
         sget false (s'.chan g).poison l = sget false c.poison l) ∧ ∀ h, h ≠ g → s'.chan h = s.chan h)

/-- R198, R204, R207, R208: a request is refused with KEY RETIRED of a key ID that is retiring or zeroised and with PERMISSION
of one that is not the VD's, and nothing is read or written; a read finds poison where it was written, poisons a granule
whose tag fails or whose error cannot be corrected, and counts it. -/
def Obligations.HbmFailuresPoison : Prop :=
  (∀ (v key addr : Nat) (i : Instr) (s : State),
    (i = .hbmRead v key addr .clean ∨ (∃ d, i = .hbmWrite v key addr d) ∨ ∃ d be, i = .partialWrite v key addr d be) →
    (((s.key key).st = .retiring ∨ (s.key key).st = .zeroised) →
      ∃ s', exec i s = .next s' ∧ s'.rdata = [2#64, 0x7F#64] ∧ (∀ g, (s'.chan g).lines = (s.chan g).lines) ∧ s'.host.mem = s.host.mem) ∧
    (((s.key key).st = .empty ∨ ((s.key key).st = .active ∧ (s.key key).vd ≠ v)) →
      ∃ s', exec i s = .next s' ∧ s'.rdata = [2#64, 0x21#64] ∧ ∀ g, (s'.chan g).lines = (s.chan g).lines ∧
        (s'.chan g).poison = (s.chan g).poison)) ∧
  ∀ (v key addr g loc kc : Nat) (ecc : Ecc) (fp kp : KeyPair) (s : State),
    (let c := s.chan g
     let line := loc / 64
     let p := line / 64
     let t := s.touchChan g
     let words (d : BitVec 512) := (List.range 8).map fun i => BitVec.ofNat 64 (d.toNat / 2 ^ (64 * i))
     s.admitLine v key (addr / 64 * 64) false = (.ok g loc kc, s) → s.chWaits g p true false = false → c.subBad p = false →
     s.pairs g p = (fp, some kp) → t.checkPage g p kp = (none, t) →
     ((∃ l ∈ granOf c.mode line, sget false c.poison l = true) →
       ∃ s', exec (.hbmRead v key addr ecc) s = .next s' ∧ s'.rdata = 1#64 :: words (c.plain g fp kp line) ∧
         (s'.chan g).lines = c.lines ∧ (s'.chan g).uncorr = c.uncorr) ∧
     ((∀ l ∈ granOf c.mode line, sget false c.poison l = false) → c.granEcc line ecc = .uncorrectable →
       ∃ s', exec (.hbmRead v key addr ecc) s = .next s' ∧ s'.rdata = 1#64 :: words (c.plain g fp kp line) ∧
         (∀ l ∈ granOf c.mode line, sget false (s'.chan g).poison l = true) ∧
         (s'.chan g).uncorr = min (c.uncorr + 1) 65535 ∧ (s'.chan g).lines = c.lines) ∧
     ((∀ l ∈ granOf c.mode line, sget false c.poison l = false) → c.granEcc line ecc = .clean →
       c.tagOk g fp kp line = false →
       ∃ s', exec (.hbmRead v key addr ecc) s = .next s' ∧ s'.rdata = [2#64, 0x30#64] ∧
         (∀ l ∈ granOf c.mode line, sget false (s'.chan g).poison l = true) ∧
         (s'.chan g).tagFail = min (c.tagFail + 1) 65535 ∧ (s'.chan g).lines = c.lines))

/-- R201, R206, R213 to R215, R218, R219, R392: a formatted channel reads as zeros whose tags verify; an erased one is FREE; the
end of a sweep leaves every page under the new generation with the data it had, and the previous pair zeroised; a drain
writes the metadata back; at its boundary a drained key is destroyed and its channels are erased; a key with no peer, or
four periods later, is free; the patrol, a lane failure, a temperature and the refresh switch do what their rules say. -/
def Obligations.ChannelsAndKeys : Prop :=
  (∀ (g : Nat) (s : State), (s.chan g).st = .formatting →
    ∃ s', exec (.channelFormatComplete g) s = .next s' ∧ (s'.chan g).st = (if (s.chan g).mode = 3 then .system else .bound) ∧
      (s'.chan g).fmtGen = (s.key (s.chan g).key).gen ∧ (s'.chan g).owner = (s.chan g).owner ∧
      (∀ (kp : KeyPair) (line : Nat), (s'.chan g).plain g kp kp line = 0#512 ∧
        (s'.chan g).tagOk g kp kp line = true) ∧ ∀ h, h ≠ g → s'.chan h = s.chan h) ∧
  (∀ (g : Nat) (s : State), (s.chan g).st = .erasing → bitOf s.cmp.served (g / 32) = false →
    (∀ e ∈ s.vds, ∀ x ∈ e.2.changes, g ∉ x.formatting) →
    exec (.channelEraseComplete g) s = .next (s.setChan g { (s.chan g).bare with st := .free })) ∧
  (∀ (k : Nat) (s : State), (s.key k).st = .rolling → (s.key k).rollWaits = false →
    SMap.wf ({} : Chan) s.hbm.chans = true →
    (let sl := s.key k
     let old := (sl.gen + 255) % 256
     ∃ s', exec (.keyRollSweepEnd k) s = .next s' ∧ s'.key k = { sl with st := .active, prev := {} } ∧
       (∀ g ∈ s.keyChans k, (s'.chan g).sweep = none ∧
         ∀ p, (p ∈ skeys (s.chan g).ctrs ∨ ∃ l ∈ skeys (s.chan g).lines, l / 64 = p) → ((s.chan g).ctr p).gen = old →
           ((s'.chan g).ctr p).gen = sl.gen ∧ ((s'.chan g).ctr p).minors = 0#448 ∧
           ∀ line, line / 64 = p → (∀ l ∈ granOf (s.chan g).mode line, sget false (s.chan g).poison l = false) →
             (s.chan g).tagOk g sl.prev sl.prev line = true →
             (s'.chan g).plain g sl.cur sl.cur line = (s.chan g).plain g sl.prev sl.prev line) ∧
       ∀ g, g ∉ s.keyChans k → s'.chan g = s.chan g)) ∧
  (∀ (k : Nat) (s : State), (s.key k).st = .retiring → SMap.wf ({} : Chan) s.hbm.chans = true →
    ∃ s', exec (.keyDrainReport k) s = .next s' ∧ s'.key k = { s.key k with drained := true } ∧
      (∀ g ∈ s.keyChans k, (∀ p, sget false (s'.chan g).dirtyMeta p = false) ∧ (s'.chan g).sweep = none ∧
        (s'.chan g).lines = (s.chan g).lines) ∧ ∀ g, g ∉ s.keyChans k → s'.chan g = s.chan g) ∧
  (∀ (k t : Nat) (s : State), (s.key k).st = .retiring → (s.key k).drained = true → (s.key k).zeroAt = some t → t ≤ s.toll →
    ∃ s', exec (.keyZeroisation k) s = .next s' ∧ (s'.key k).cur = {} ∧ (s'.key k).prev = {} ∧ (s'.key k).secret = 0#256 ∧
      ((s.key k).peer = none → s'.key k = {}) ∧ ((s.key k).peer ≠ none → (s'.key k).st = .zeroised) ∧
      (∀ g ∈ s.keyChans k, (s'.chan g).st = .erasing ∧ (s'.chan g).owner = 0 ∧ (s'.chan g).lines = [] ∧ (s'.chan g).key = 0) ∧
      ∀ g, g ∉ s.keyChans k → s'.chan g = s.chan g) ∧
  (∀ (k : Nat) (s : State), (s.key k).st = .zeroised →
    ((s.key k).peer = none ∨ ∃ t, (s.key k).zeroAt = some t ∧ t + 4 * 1024000 ≤ s.toll) →
    exec (.keyIdRelease k) s = .next (s.setKey k {})) ∧
  (∀ (g line : Nat) (e : Ecc) (s : State), (s.chan g).st = .bound → line < 2 ^ 26 →
    s.regField (baseHbm + 0x10000 * (g / 32) + 0x10) 31 31 = 1 → 64 * line < chanData (s.chan g).mode →
    sget Ecc.clean (s.chan g).flaw line = .clean →
    ∃ s', exec (.hbmScrubPatrol g line e) s = .next s' ∧ (s'.chan g).scrubPos = (line + 1) % 2 ^ 26 ∧
      (s'.chan g).lines = (s.chan g).lines ∧
      (e = .clean → s' = s.setChan g { s.chan g with scrubPos := (line + 1) % 2 ^ 26 }) ∧
      (e = .corrected → (s'.chan g).corr = min ((s.chan g).corr + 1) 65535 ∧ (s'.chan g).poison = (s.chan g).poison) ∧
      (e = .uncorrectable → sget false (s.chan g).poison line = false →
        (s'.chan g).uncorr = min ((s.chan g).uncorr + 1) 65535 ∧ sget false (s'.chan g).poison line = true)) ∧
  (∀ (g : Nat) (s : State), g < 256 →
    exec (.hbmPhyLaneFailure g) s = .next (s.setChan g { s.chan g with retReq := true })) ∧
  (∀ (n t : Nat) (s : State), n < 8 → t < 256 →
    ∃ s', exec (.hbmTemperaturePoll n t) s = .next s' ∧ (s'.stack n).temp = t ∧ (s'.stack n).hot = decide (95 ≤ t) ∧
      (s'.stack n).refrNext = (if 85 ≤ t then true else if t < 80 then false else (s.stack n).refrNext) ∧
      (s'.stack n).refr2 = (s.stack n).refr2 ∧ (95 ≤ t → s'.pwr.evt.getLsbD 6 = true) ∧
      (100 ≤ t → s'.pwr.hbmSafe = true ∧ s'.pwr.gate = 48) ∧ (105 ≤ t → s'.pwr.tripped = true) ∧
      (t < 105 → s'.pwr.tripped = s.pwr.tripped) ∧ s'.hbm.chans = s.hbm.chans) ∧
  ∀ (n : Nat) (s : State), n < 8 → s.toll % 1024000 = 0 →
    exec (.refreshRateSwitch n) s = .next (s.setStack n { s.stack n with refr2 := (s.stack n).refrNext })

/-- R157, R158, R170, R174 to R177: a bin answers the requests its state accepts: a read gives the line and its poison, a write
of all bytes puts the line and its poison bit, a masked write merges its bytes; another request is refused and counted; one
to a domain that is down is answered TARGET RESET, or waits for VD 0. A cleared bin holds zeros and is FREE, or RETIRED; the
scrub engine reads its region's lines in turn.  R169, R333 to R336, R171: an arbiter grants each resource to one eligible
request: the lowest input that has waited 4,095 cycles, else the one that has waited longest of those past their class's
threshold, else the class with the largest credit; the granted request's wait is cleared and counted, every other's counts
on. A GUARANTEED request that finds no tokens is demoted. A shaped flow's window fills the slots no request used. -/
def Obligations.SeedbankAndArbiters : Prop :=
  ((∀ (b l : Nat) (r : SbReq) (s : State), b < 512 → l < 2 ^ 18 →
     (s.isDown (binDomain b) = true →
       exec (.seedbankRequest b l r) s = .next { s with rdata := [if r.vd = 0 then 5#64 else 3#64] }) ∧
     (s.isDown (binDomain b) = false → (s.bin b).accepts r.vd r.hotOk r.newEpoch = false →
       ∃ s', exec (.seedbankRequest b l r) s = .next s' ∧ s'.rdata = [2#64] ∧ s'.sbk.mem = s.sbk.mem ∧
         s'.sbk.poison = s.sbk.poison ∧
         (s'.region (binPod b)).fail = min ((s.region (binPod b)).fail + 1) (2 ^ 32 - 1)) ∧
     (s.isDown (binDomain b) = false → (s.bin b).accepts r.vd r.hotOk r.newEpoch = true → r.ecc = .clean →
       (let pa := physLine b l
        (r.op = .read → s.moveWaits b l true false = false →
          exec (.seedbankRequest b l r) s = .next { s with rdata := 0#64 :: BitVec.ofNat 64 (b2n (s.sbLine pa).2) ::
            ((List.range 8).map fun i => BitVec.ofNat 64 ((s.sbLine pa).1.toNat / 2 ^ (64 * i))) }) ∧
        (∀ d be p, r.op = .write d be p → s.moveWaits b l (be ≠ BitVec.allOnes 64) true = false →
          ((s.sbLine pa).2 = false ∨ be = BitVec.allOnes 64) →
          ∃ s', exec (.seedbankRequest b l r) s = .next s' ∧ s'.rdata = [1#64] ∧
            s'.sbLine pa = (mergeBytes (s.sbLine pa).1 d be, p) ∧ (∀ q, q ≠ pa → s'.sbLine q = s.sbLine q) ∧
            s'.sbk.bins = s.sbk.bins) ∧
        (∀ d be p, r.op = .write d be p → be ≠ BitVec.allOnes 64 → s.moveWaits b l true true = false →
          (s.sbLine pa).2 = true → exec (.seedbankRequest b l r) s = .next { s with rdata := [4#64] })))) ∧
   (∀ (b : Nat) (s : State), (s.clearingIn (binPod b)).head? = some b → s.isDown (binDomain b) = false →
     Memory.wf s.sbk.mem = true → SMap.wf false s.sbk.poison = true →
     ∃ s', exec (.binClearComplete b) s = .next s' ∧
       (s'.bin b).st = (if (s.bin b).retire = true then .retired else .free) ∧ (s'.bin b).owner = 0 ∧
       (∀ l < 2 ^ 18, s'.sbLine (physLine b l) = (0#512, false)) ∧
       (∀ c l, c ≠ b → l < 2 ^ 18 → s'.sbLine (physLine c l) = s.sbLine (physLine c l)) ∧ ∀ c, c ≠ b → s'.bin c = s.bin c) ∧
   ∀ (p : Nat) (e : Ecc) (s : State), p < 128 → s.regField (baseSbk + 0x2000) 31 31 = 1 → s.clearingIn p = [] →
     s.isDown (p / 32) = false → (s.region p).scrubPos < 2 ^ 20 →
     s.toll - (s.region p).passStart ≤ 1000000 * s.regField (baseSbk + 0x2000) 15 0 →
     (let r := s.region p
      let b := 4 * p + r.scrubPos / 2 ^ 18
      let pa := physLine b (r.scrubPos % 2 ^ 18)
      ∃ s', exec (.scrubLine p e false) s = .next s' ∧ (s'.region p).scrubPos = (r.scrubPos + 1) % 2 ^ 20 ∧
        ((s'.region p).passes = if r.scrubPos + 1 = 2 ^ 20 then (r.passes + 1) % 65536 else r.passes) ∧
        (e = .clean → s'.sbk.mem = s.sbk.mem ∧ s'.sbk.poison = s.sbk.poison ∧ (s'.region p).corr = r.corr) ∧
        (e = .corrected → s'.sbk.mem = s.sbk.mem ∧ (s'.region p).corr = min (r.corr + 1) 65535) ∧
        (e = .uncorrectable → (s'.region p).uncorr = min (r.uncorr + 1) 65535 ∧ (s'.bin b).unc = min 31 ((s.bin b).unc + 1) ∧
          (((s.bin b).st = .free → s'.sbLine pa = (0#512, false)) ∧
           ((s.bin b).st ≠ .free → (s'.sbLine pa).2 = true ∧ s'.sbk.mem = s.sbk.mem))))) ∧
  ((∀ (idx res : Nat) (heads : List ArbHead) (s : State), idx < 280 → heads ≠ [] → (heads.map ArbHead.input).Nodup →
     (∀ h ∈ heads, h.res = res ∧ h.share = 65535 ∧ h.cls < 16 ∧ s.eligible h = true) →
     (let wait (h : ArbHead) : Nat := sget 0 s.sbk.waits (65536 * idx + h.input)
      let late (h : ArbHead) : Prop := s.classThresh h.cls ≠ 0 ∧ s.classThresh h.cls ≤ wait h
      let credit (h : ArbHead) : Int := sget 0 s.sbk.credit (32 * (256 * idx + res) + 16 + h.cls) + s.classWeight h.cls
      ∃ s' g, exec (.arbiterGrant idx heads) s = .next s' ∧ g ∈ heads ∧ sget 0 s'.sbk.waits (65536 * idx + g.input) = 0 ∧
        (∀ h ∈ heads, h.input ≠ g.input → sget 0 s'.sbk.waits (65536 * idx + h.input) = min 4095 (wait h + 1)) ∧
        (sget ({} : ArbStat) s'.sbk.stats (16 * idx + g.cls)).grants =
          min ((sget ({} : ArbStat) s.sbk.stats (16 * idx + g.cls)).grants + 1) (2 ^ 32 - 1) ∧
        ((∃ h ∈ heads, wait h = 4095) → wait g = 4095 ∧ ∀ h ∈ heads, wait h = 4095 → g.input ≤ h.input) ∧
        ((∀ h ∈ heads, wait h ≠ 4095) → (∃ h ∈ heads, late h) →
          late g ∧ ∀ h ∈ heads, late h → wait h < wait g ∨ (wait h = wait g ∧ g.input ≤ h.input)) ∧
        ((∀ h ∈ heads, wait h ≠ 4095) → (∀ h ∈ heads, ¬ late h) →
          (∀ h ∈ heads, credit h < credit g ∨ (credit h = credit g ∧ g.cls ≤ h.cls))) ∧ s'.sbk.mem = s.sbk.mem)) ∧
   (∀ (idx : Nat) (h : ArbHead) (s : State), idx < 280 → h.vd ≠ 0 → h.share ≠ 65535 → s.eligible h = true →
     s.classKind h.cls = 1 → sget 0 s.sch.profile (65536 * idx + h.input) = 0 →
     (let b := sget {} s.sch.buckets h.share
      let level := min (2000 * s.tokenRate h.share) (b.level + (s.toll - b.at_) * s.tokenRate h.share)
      ∃ s', exec (.arbiterGrant idx [h]) s = .next s' ∧
        (sget {} s'.sch.buckets h.share).level = (if 64000 * h.lines ≤ level then level - 64000 * h.lines else level) ∧
        (sget ({} : ClassCnt) (s'.vd h.vd).cls h.cls).demoted =
          (if 64000 * h.lines ≤ level then (sget ({} : ClassCnt) (s.vd h.vd).cls h.cls).demoted
           else min ((sget ({} : ClassCnt) (s.vd h.vd).cls h.cls).demoted + 1) (2 ^ 32 - 1)) ∧
        (sget ({} : ClassCnt) (s'.vd h.vd).cls h.cls).lines =
          min ((sget ({} : ClassCnt) (s.vd h.vd).cls h.cls).lines + h.lines) (2 ^ 32 - 1))) ∧
   ∀ (f n : Nat) (s : State), s.flowLines f = some n →
     ∃ s', exec (.shapedFlowWindow f) s = .next s' ∧ sget 0 s'.sch.flowReal f = 0 ∧
       sget 0 s'.sch.flowFill f = sget 0 s.sch.flowFill f + (n - sget 0 s.sch.flowReal f) ∧
       (∀ j, j ≠ f → sget 0 s'.sch.flowReal j = sget 0 s.sch.flowReal j ∧ sget 0 s'.sch.flowFill j = sget 0 s.sch.flowFill j) ∧
       s'.sbk = s.sbk ∧ s'.hbm = s.hbm)

/-- R262, R263: LOCK_INTERFACE locks a VF that is attached, has a Secure stream, its BARs and Memory Space Enable, and records
the addresses and SR-IOV settings, else answers an error and changes nothing; START_INTERFACE enters RUN; STOP_INTERFACE
enters CONFIG_UNLOCKED, from any state; the report names the two recorded ranges. Leaving RUN ends a command with ABORTED:
its record is written without an interrupt. The response codes are PRESUMED (assumption 15). -/
def Obligations.InterfacesLockStartAndStop : Prop :=
  (∀ (p n : Nat) (s : State), s.vfEnabled p n = true → (s.vf p n).tdi = .configUnlocked →
    (s.vf p n).vd ≠ 0 → s.secureStream p n = true → (s.vf p n).bar0 ≠ 0 → (s.vf p n).bar2 ≠ 0 → (s.vf p n).mse = true →
    ∃ s', exec (.lockInterface p n) s = .next s' ∧ s'.host.doe = [tdispLock] ∧
      s'.vf p n = { s.vf p n with tdi := .configLocked, recBar0 := (s.vf p n).bar0, recBar2 := (s.vf p n).bar2,
                                  recNumVfs := (s.port p).numVfs } ∧
      s'.que = s.que ∧ s'.vds = s.vds ∧ (s'.port p).streams = (s.port p).streams ∧
      ∀ m, m ≠ n → s'.vf p m = s.vf p m) ∧
  (∀ (p n : Nat) (s : State), s.lockable p n = false →
    exec (.lockInterface p n) s = .next { s with host := { s.host with doe := [tdispError] } }) ∧
  (∀ (p n : Nat) (s : State), s.vfEnabled p n = true → (s.vf p n).tdi = .configLocked →
    (∀ e ∈ s.que.pairs, e.2.head = e.2.tail) →
    ∃ s', exec (.startInterface p n) s = .next s' ∧ s'.host.doe = [tdispStart] ∧
      s'.vf p n = { s.vf p n with tdi := .run } ∧ s'.que = s.que ∧ s'.vds = s.vds) ∧
  (∀ (p n : Nat) (s : State), s.vfEnabled p n = false ∨ (s.vf p n).tdi ≠ .configLocked →
    exec (.startInterface p n) s = .next { s with host := { s.host with doe := [tdispError] } }) ∧
  (∀ (p n : Nat) (s : State), s.vfEnabled p n = true →
    ((s.vf p n).tdi = .run → s.que.ctxs = [] ∧ s.que.cmds = []) →
    ∃ s', exec (.stopInterface p n) s = .next s' ∧ s'.host.doe = [tdispStop] ∧
      s'.vf p n = { s.vf p n with tdi := .configUnlocked } ∧ s'.que = s.que ∧
      ((s.vf p n).vd ≠ 0 → (s'.vd (s.vf p n).vd).sec.session = none) ∧ ∀ v, v ≠ (s.vf p n).vd → s'.vd v = s.vd v) ∧
  (∀ (p n seq : Nat) (c : Cmd) (s : State), s.vfEnabled p n = true → (s.vf p n).tdi = .run → (s.vf p n).vd = c.vd →
    s.que.ctxs = [] → s.que.cmds = [(seq, c)] → seq ≠ 0 → c.seq = seq → c.vd ≠ 0 → c.phase = .running → c.opc ≠ 0x12 →
    c.opc ≠ 0x30 → c.sig = false → c.refs = [] → c.hots = [] → c.fill = none → s.que.halted = false →
    (∀ e ∈ s.que.pairs, e.2.head = e.2.tail) → (s.vd c.vd).vf = some (p, n) →
    (let q := s.pair c.q
     q.vd = c.vd → q.st = .active → q.held = [] → (q.cqtail + 1) % ringSlots q.cqsz ≠ q.cqhead → s.qLive c.q = true →
     ∃ s', exec (.stopInterface p n) s = .next s' ∧ (s'.vf p n).tdi = .configUnlocked ∧ s'.hasCmd seq = false ∧
       (s'.jrec (seq % journalSize)).seq = seq ∧ (s'.jrec (seq % journalSize)).done = true ∧
       BitVec.ofNat 1024 (readLE s'.host.mem (q.cqbase + 128 * q.cqtail) 128) =
         s.cqRecord { c with status := stAborted, detail := 0, ext := none } ||| BitVec.ofNat 1024 (b2n q.phase * 2 ^ 24) ∧
       s'.host.sent = s.host.sent ∧ s'.host.pba = s.host.pba)) ∧
  (∀ (p n : Nat) (s : State), s.vfEnabled p n = true → (s.vf p n).tdi = .configLocked ∨ (s.vf p n).tdi = .run →
    ∃ s', exec (.getDeviceInterfaceReport p n) s = .next s' ∧ s' = { s with host := { s.host with doe := s'.host.doe } } ∧
      s'.host.doe = [tdispReport, 2#32, BitVec.ofNat 32 (s.vf p n).recBar0, BitVec.ofNat 32 ((s.vf p n).recBar0 / 2 ^ 32), 512#32,
        0#32, BitVec.ofNat 32 (s.vf p n).recBar2, BitVec.ofNat 32 ((s.vf p n).recBar2 / 2 ^ 32), 256#32, 0x20000#32])

/-- R261, R263, R269: KEY_PROG programs one key of one key set, K_SET_GO makes a programmed set active and the stream Secure;
K_SET_STOP of the active set, a failed check and a lost link make a stream Insecure and put its TDI in ERROR, a failed check
being counted. The SPDM codes of the mailbox are PRESUMED (assumption 15).  R249, R252, R263, R269: the FLR of a VF leaves
CONFIG_UNLOCKED and clears what it asked of the host, and the FLR of a PF resets its own queues and leaves its port's VFs,
their streams and commands alone; the return from D3hot is the function's FLR; NumVFs above TotalVFs keeps the previous
value, and a change while a VF is attached is refused and counted; a change of a recorded BAR or of Memory Space Enable puts
a locked VF in ERROR. -/
def Obligations.StreamsLinksAndFunctions : Prop :=
  ((∀ (p i ks sub vf : Nat) (key : BitVec 256) (s : State), s.streamOk p i = true → ks ≤ 1 → sub ≤ 2 →
     ∃ s', exec (.keyProg p i ks sub vf key) s = .next s' ∧ s'.host.doe = [kpAck, 0#32] ∧
       sget 0#256 (s'.stream p i).keys (3 * ks + sub) = key ∧ (s'.stream p i).progd.getLsbD (3 * ks + sub) = true ∧
       (s'.stream p i).secure = (s.stream p i).secure ∧ (s'.stream p i).active = (s.stream p i).active ∧
       (∀ j, j ≠ 3 * ks + sub → sget 0#256 (s'.stream p i).keys j = sget 0#256 (s.stream p i).keys j ∧
         (s'.stream p i).progd.getLsbD j = (s.stream p i).progd.getLsbD j) ∧
       (∀ j, j ≠ i → s'.stream p j = s.stream p j) ∧ s'.que = s.que ∧ s'.vds = s.vds ∧ (s'.port p).vfs = (s.port p).vfs) ∧
   (∀ (p i ks : Nat) (s : State), p < 2 → ks ≤ 1 → (∀ sub < 3, (s.stream p i).progd.getLsbD (3 * ks + sub) = true) →
     ∃ s', exec (.kSetGo p i ks) s = .next s' ∧ s'.host.doe = [kGoStopAck] ∧
       s'.stream p i = { s.stream p i with secure := true, active := some ks } ∧ (∀ j, j ≠ i → s'.stream p j = s.stream p j) ∧
       s'.que = s.que ∧ s'.vds = s.vds ∧ (s'.port p).vfs = (s.port p).vfs) ∧
   (∀ (p i ks : Nat) (s : State), p < 2 → (skeys (s.port p).streams).contains i = true → (s.stream p i).active = some ks →
     s.que.ctxs = [] → s.que.cmds = [] →
     (let n := (s.stream p i).vf
      ∃ s', exec (.kSetStop p i ks) s = .next s' ∧ s'.host.doe = [kGoStopAck] ∧ (s'.stream p i).secure = false ∧
        (s'.stream p i).active = none ∧ s'.que = s.que ∧
        (n ≠ 0 → (s.vf p n).tdi = .configLocked ∨ (s.vf p n).tdi = .run → (s'.vf p n).tdi = .error) ∧
        ∀ m, m ≠ n → s'.vf p m = s.vf p m)) ∧
   (∀ (p i : Nat) (s : State), p < 2 → (skeys (s.port p).streams).contains i = true → s.que.ctxs = [] → s.que.cmds = [] →
     (let n := (s.stream p i).vf
      ∃ s', exec (.ideCheckFailure p i) s = .next s' ∧ (s'.port p).ideFail = satAdd 32 (s.port p).ideFail 1 ∧
        (s'.stream p i).secure = false ∧ (s'.stream p i).fails = satAdd 32 (s.stream p i).fails 1 ∧ s'.que = s.que ∧
        (n ≠ 0 → (s.vf p n).tdi = .configLocked ∨ (s.vf p n).tdi = .run → (s'.vf p n).tdi = .error) ∧
        ∀ m, m ≠ n → s'.vf p m = s.vf p m)) ∧
   (∀ (p : Nat) (s : State), p < 2 → s.que.ctxs = [] → s.que.cmds = [] →
     ∃ s', exec (.linkDown p) s = .next s' ∧ (s'.port p).up = false ∧ s'.que = s.que ∧
       (∀ i, (s'.stream p i).secure = false) ∧
       (∀ n, (s'.vf p n).tdi = if (s.vf p n).tdi = .configLocked ∨ (s.vf p n).tdi = .run then .error else (s.vf p n).tdi) ∧
       ∀ q, q ≠ p → s'.port q = s.port q) ∧
   (∀ (p : Nat) (s : State), p = 0 ∨ (p = 1 ∧ s.host.single = false) → s.rst.heldInReset = false →
     (sget {} s.side.ins (4 + p)).level = false → (sget {} s.side.ins 3).level = false →
     (sget {} s.pwr.src (1 + p)).stable = true →
     ∃ s', exec (.linkUp p) s = .next s' ∧ s'.port p = { s.port p with up := true } ∧ s'.que = s.que ∧ s'.vds = s.vds ∧
       ∀ q, q ≠ p → s'.port q = s.port q) ∧
   (∀ (s : State), s.host.single = true → exec (.linkUp 1) s = .next s) ∧
   ∀ (p : Nat) (body : List Word) (s : State), p = 0 ∨ (p = 1 ∧ s.host.single = false) →
     ∃ s', exec (.spdmRequest p ⟨0xE0, body⟩) s = .next s' ∧ s' = { s with host := { s.host with doe := s'.host.doe } } ∧
       s'.host.doe = 0x60#32 :: wordsOf (romMeasure ++ beBytes 48 s.sec.active.m2.toNat ++ beBytes 48 s.sec.active.m3.toNat ++
         beBytes 48 s.sec.active.m4.toNat ++ s.measure5 ++ s.measure6 ++ beBytes 48 s.sec.policyDigest.toNat) ∧
       ∃ s'', exec (.spdmRequest p ⟨0x82, [BitVec.ofNat 32 (64 * 65536)]⟩) s = .next s'' ∧
         s''.host.doe.drop 2 = wordsOf (s.chainBytes 0 64)) ∧
  ((∀ (i : Instr) (f : Nat) (s : State),
     i = .functionLevelReset f ∨ (i = .returnToD0 f ∧ (s.vf (fnPort f) (fnVf f)).d3 = true) →
     2 ≤ f → f < 258 → s.vfEnabled (fnPort f) (fnVf f) = true →
     ((s.vf (fnPort f) (fnVf f)).tdi = .run → s.que.ctxs = [] ∧ s.que.cmds = []) →
     ∃ s', exec i s = .next s' ∧ s'.que = s.que ∧
       s'.vf (fnPort f) (fnVf f) = { s.vf (fnPort f) (fnVf f) with tdi := .configUnlocked, d3 := false, ats := false, pri := false, msixEn := false } ∧
       (∀ e ∈ s'.xlt.atc, e.fn ≠ f) ∧ (∀ e ∈ s.xlt.atc, e.fn ≠ f → e ∈ s'.xlt.atc) ∧ sget none s'.glb.staged f = none ∧
       sget none s'.glb.latched f = none ∧ (∀ m, m ≠ fnVf f → s'.vf (fnPort f) m = s.vf (fnPort f) m) ∧
       ∀ q, q ≠ fnPort f → s'.port q = s.port q) ∧
   (∀ (i : Instr) (f : Nat) (s : State), i = .functionLevelReset f ∨ (i = .returnToD0 f ∧ (s.port f).d3 = true) →
     f = 0 ∨ (f = 1 ∧ s.host.single = false) → (∀ e ∈ s.que.cmds, (s.pfPairs f).contains e.2.q = false) →
     ∃ s', exec i s = .next s' ∧ s'.que.cmds = s.que.cmds ∧ (∀ n, s'.vf f n = s.vf f n) ∧ (∀ k, s'.stream f k = s.stream f k) ∧
       (s'.port f).bar0 = 0 ∧ (s'.port f).bar2 = 0 ∧ (s'.port f).mse = false ∧ (s'.port f).d3 = false ∧ (s'.port f).up = (s.port f).up ∧
       (∀ q ∈ s.pfPairs f, s'.pair q = { assigned := (s.pair q).assigned, vd := (s.pair q).vd, lq := (s.pair q).lq, pf := (s.pair q).pf }) ∧
       (∀ q, q ∉ s.pfPairs f → s'.pair q = s.pair q) ∧ ∀ q, q ≠ f → s'.port q = s.port q) ∧
   (∀ (p n : Nat) (vfe : Bool) (s : State), s.portThere p = true → s.anyAttached p = true →
     (vfe ≠ (s.port p).vfEnable ∨ n ≠ (s.port p).numVfs) →
     ∃ s', exec (.numvfsWrite p vfe n) s = .next s' ∧ s'.port p = { s.port p with refused := satAdd 16 (s.port p).refused 1 } ∧
       s'.que = s.que ∧ ∀ q, q ≠ p → s'.port q = s.port q) ∧
   (∀ (p n : Nat) (vfe : Bool) (s : State), s.portThere p = true → s.anyAttached p = false →
     ∃ s', exec (.numvfsWrite p vfe n) s = .next s' ∧ (s'.port p).vfEnable = vfe ∧
       (s'.port p).numVfs = (if n ≤ s.totalVfs p then n else (s.port p).numVfs) ∧
       (∀ k, vfe = true → k ≤ (s'.port p).numVfs → s'.vf p k = s.vf p k) ∧ (s'.port p).streams = (s.port p).streams ∧
       (s'.port p).refused = (s.port p).refused ∧ s'.que = s.que ∧ ∀ q, q ≠ p → s'.port q = s.port q) ∧
   (∀ (f v : Nat) (s : State), 2 ≤ f → f < 258 → s.vfEnabled (fnPort f) (fnVf f) = true →
     (let x := s.vf (fnPort f) (fnVf f)
      (x.tdi = .configUnlocked ∨ x.tdi = .error →
        ∃ s', exec (.configSpaceWrite f (.bar0 v)) s = .next s' ∧
          s'.vf (fnPort f) (fnVf f) = { x with bar0 := v / 2 ^ 21 % 2 ^ 43 * 2 ^ 21 } ∧ s'.que = s.que) ∧
      (x.tdi = .configLocked → x.recBar0 ≠ v / 2 ^ 21 % 2 ^ 43 * 2 ^ 21 →
        ∃ s', exec (.configSpaceWrite f (.bar0 v)) s = .next s' ∧ (s'.vf (fnPort f) (fnVf f)).tdi = .error ∧ s'.que = s.que) ∧
      (x.tdi = .configLocked →
        ∃ s', exec (.configSpaceWrite f (.mse false)) s = .next s' ∧ (s'.vf (fnPort f) (fnVf f)).tdi = .error ∧ s'.que = s.que) ∧
      (x.tdi = .run → s.que.ctxs = [] → s.que.cmds = [] →
        ∃ s', exec (.configSpaceWrite f (.mse false)) s = .next s' ∧ (s'.vf (fnPort f) (fnVf f)).tdi = .error ∧ s'.que = s.que) ∧
      (∃ s', exec (.configSpaceWrite f (.d3 true)) s = .next s' ∧ s'.vf (fnPort f) (fnVf f) = { x with d3 := true } ∧ s'.que = s.que) ∧
      (∃ s', exec (.configSpaceWrite f (.pri true)) s = .next s' ∧ s'.vf (fnPort f) (fnVf f) = { x with pri := true } ∧ s'.que = s.que) ∧
      ∃ s', exec (.configSpaceWrite f (.ats false)) s = .next s' ∧ s'.vf (fnPort f) (fnVf f) = { x with ats := false } ∧
        (∀ e ∈ s'.xlt.atc, e.fn ≠ f) ∧ s'.que = s.que)) ∧
   ∀ (f : Nat) (w : CfgWrite) (s : State), f = 0 ∨ (f = 1 ∧ s.host.single = false) →
     (∀ b, w ≠ .d3 b) → (∀ b, w ≠ .msix b) →
     ∃ s', exec (.configSpaceWrite f w) s = .next s' ∧ s'.que = s.que ∧ (∀ n, s'.vf f n = s.vf f n) ∧ (∀ k, s'.stream f k = s.stream f k) ∧
       (∀ v, w = .bar0 v → s'.port f = { s.port f with bar0 := v / 2 ^ 26 % 2 ^ 38 * 2 ^ 26 }) ∧
       (∀ v, w = .bar2 v → s'.port f = { s.port f with bar2 := v / 2 ^ 26 % 2 ^ 38 * 2 ^ 26 }) ∧
       (∀ b, w = .mse b → s'.port f = { s.port f with mse := b }) ∧ (∀ b, w = .ats b → s'.port f = { s.port f with ats := b }) ∧
       (∀ b, w = .pri b → s'.port f = { s.port f with pri := b }))

/-- R131 to R133, R139, R150: a router that may step executes its next beat's entry, reads the data due on its skid buffers (64
zero bytes where none is due), writes or sends them, and discards what was due; a datum sent is due at the neighbour a
link's beats later. A datum that arrives goes to the skid buffer of its port, poisoned when its check bits cannot correct
it, and one of another VD is discarded and counted. -/
def Obligations.RoutersStep : Prop :=
  (∀ (c : Nat) (s : State), s.routerReady c = false → exec (.routerBeat c) s = .next s) ∧
  (∀ (c : Nat) (s : State), s.routerReady c = true → (∀ p < 4, ∀ d ∈ sget [] (s.core c).link p, (s.core c).rbeat < d.due) →
    (let k := s.core c
     let b := k.rbeat
     let e := beatEntry (sget 0#64 k.table (b % k.mlen)).toNat
     let o := (s.pod (corePod c)).orient
     e.reads = false →
     ∃ s', exec (.routerBeat c) s = .next s' ∧ (s'.core c).rbeat = b + 1 ∧ (s'.core c).pc = k.pc ∧ (s'.core c).slot = k.slot ∧
       (s'.core c).table = k.table ∧
       (e.wsrc = 0 → (s'.core c).rwrite = none) ∧
       (∀ i < 4, e.wsrc = i + 1 →
         (∀ d, (sget [] k.skid (portMap o i)).find? (fun d => d.due = b) = some d →
           (s'.core c).rwrite = some (beatLine e.wa e.wam k.wstep k.wper (b / k.mlen), d.data, d.poison)) ∧
         ((∀ d ∈ sget [] k.skid (portMap o i), d.due ≠ b) →
           (s'.core c).rwrite = some (beatLine e.wa e.wam k.wstep k.wper (b / k.mlen), 0#512, false))) ∧
       (∀ p < 4, sget [] (s'.core c).skid p = (sget [] k.skid p).filter fun d => b < d.due) ∧
       (∀ l < 4, ∀ i < 4, e.out = (List.replicate 4 0).set l (i + 2) → ∀ n d, s.openNeighbour c (portMap o l) = some n →
         (crossesSeam c n = false ∨ s.seam.isOpen = true) →
         (sget [] k.skid (portMap o i)).find? (fun d => d.due = b) = some d →
         sget [] (s'.core n).link (facing (portMap o l)) = sget [] (s.core n).link (facing (portMap o l)) ++
           [{ data := d.data, poison := d.poison, due := b + linkBeats c n, vd := (s.pod (corePod c)).vd }]))) ∧
  (∀ (c p : Nat) (d : Datum) (rest : List Datum) (s : State), p < 4 → sget [] (s.core c).link p = d :: rest →
    d.vd = (s.pod (corePod c)).vd →
    ∃ s', exec (.drumlineDatumArrival c p .clean) s = .next s' ∧ sget [] (s'.core c).link p = rest ∧
      sget [] (s'.core c).skid p = sget [] (s.core c).skid p ++ [d] ∧
      (∀ q, q ≠ p → sget [] (s'.core c).link q = sget [] (s.core c).link q ∧
        sget [] (s'.core c).skid q = sget [] (s.core c).skid q) ∧
      (∀ n, n ≠ c → s'.core n = s.core n) ∧ s'.pods = s.pods) ∧
  (∀ (c p : Nat) (d : Datum) (rest : List Datum) (s : State), p < 4 → sget [] (s.core c).link p = d :: rest →
    d.vd = (s.pod (corePod c)).vd →
    ∃ s' l, exec (.drumlineDatumArrival c p .uncorrectable) s = .next s' ∧
      sget [] (s'.core c).skid p = l ++ [{ d with poison := true }]) ∧
  ∀ (c p : Nat) (s : State), 4 ≤ p ∨ sget [] (s.core c).link p = [] → ∀ e, exec (.drumlineDatumArrival c p e) s = .next s

/-- R344 to R346, R356, R375: EN starts training or disables a port, RELEASE ends a quarantine; training with a stable LREFCLK
enters UNAUTH at the widest width allowed, a narrowing resumes with its partner and a failed training waits 1,000 toll
periods; a lane drop retrains at a width without the lane, and loss of signal trains again with its cause; an uncorrectable
codeword discards what follows, and frames unacknowledged for 4 µs are all sent again. -/
def Obligations.PortsTrain : Prop :=
  (∀ (p : Nat) (v : Word) (s : State), p < 32 → s.portEn p = false → v.getLsbD 31 = true → v.getLsbD 30 = false →
    ∃ s', exec (.portEnable p v) s = .next s' ∧ (s'.fport p).st = .training ∧ (s'.fport p).cause = 0 ∧ s'.portEn p = true ∧
      ∀ q, q ≠ p → s'.fport q = s.fport q) ∧
  (∀ (p : Nat) (v : Word) (s : State), p < 32 → s.portEn p = true → v.getLsbD 31 = false → v.getLsbD 30 = false →
    ∃ s', exec (.portEnable p v) s = .next s' ∧ (s'.fport p).st = .disabled ∧ s'.portEn p = false ∧
      ∀ q, q ≠ p → s'.fport q = s.fport q) ∧
  (∀ (p : Nat) (s : State), p < 32 → s.reg (pctlAddr p) / 2 ^ 30 % 2 = 0 →
    ∃ s', exec (.portRelease p) s = .next s' ∧
      ((s.fport p).st = .quarantined → (s'.fport p).st = .unauth ∧ (s'.fport p).cause = 0) ∧
      ((s.fport p).st ≠ .quarantined → s'.fport p = s.fport p) ∧ ∀ q, q ≠ p → s'.fport q = s.fport q) ∧
  (∀ (p lanes : Nat) (s : State), p < 32 → (s.fport p).st = .training → (s.judge 3).stable = true → 1 ≤ lanes →
    ((s.fport p).narrowing = false →
      ∃ s', exec (.portTrainingComplete p true lanes) s = .next s' ∧ (s'.fport p).st = .unauth ∧ (s'.fport p).cause = 0 ∧
        (s'.fport p).actLanes = (if 4 ≤ lanes ∧ s.regField (pctlAddr p) 3 0 = 0xF then 0xF
          else if 2 ≤ lanes ∧ s.regField (pctlAddr p) 3 0 ≠ 1 then 3 else 1) ∧ ∀ q, q ≠ p → s'.fport q = s.fport q) ∧
    ((s.fport p).narrowing = true →
      ∃ s', exec (.portTrainingComplete p true lanes) s = .next s' ∧ (s'.fport p).st = .active ∧
        (s'.fport p).pdev = (s.fport p).pdev ∧ (s'.fport p).cred0 = (s.fport p).cred0 ∧ s'.fw.peers = s.fw.peers) ∧
    ∃ s', exec (.portTrainingComplete p false lanes) s = .next s' ∧
      s'.fport p = { s.fport p with trainAt := some ((s.toll / 1024000 + 1000) * 1024000) }) ∧
  (∀ (p : Nat) (s : State), (s.judge 3).stable = false → ∀ ok lanes, exec (.portTrainingComplete p ok lanes) s = .next s) ∧
  (∀ (p t : Nat) (s : State), (s.fport p).st = .training → (s.fport p).trainAt = some t → t ≤ s.toll →
    ∃ s', exec (.trainingRetry p) s = .next s' ∧ s'.fport p = { s.fport p with trainAt := none }) ∧
  (∀ (p lane : Nat) (s : State), (s.fport p).st = .active → (s.fport p).actLanes = 0xF → lane < 4 →
    ∃ s', exec (.laneDrop p lane) s = .next s' ∧ (s'.fport p).st = .training ∧ (∀ q, q ≠ p → s'.fport q = s.fport q) ∧
      (lane ≠ 0 → s'.fport p = { s.fport p with st := .training, narrowing := true, actLanes := if 2 ≤ lane then 3 else 1 }) ∧
      (lane = 0 → (s'.fport p).narrowing = false)) ∧
  (∀ (p : Nat) (s : State), (s.fport p).st ≠ .disabled → (s.fport p).st ≠ .quarantined →
    ∃ s', exec (.lossOfSignal p) s = .next s' ∧ (s'.fport p).st = .training ∧ (s'.fport p).cause = 1 ∧
      ∀ q, q ≠ p → s'.fport q = s.fport q) ∧
  (∀ (p : Nat) (s : State), (s.fport p).st = .training → s.portEn p = true →
    ∃ s', exec (.signalDetection p) s = .next s' ∧ s'.fport p = { s.fport p with cause := 0, trainAt := none }) ∧
  (∀ (p : Nat) (s : State), (s.fport p).st = .active ∨ (s.fport p).st = .unauth →
    ∃ s', exec (.uncorrectableCodeword p) s = .next s' ∧ (s'.fport p).discarding = true ∧
      ((s.fport p).discarding = false → (s'.fport p).firstDrop = none) ∧ (s'.fport p).replay = (s.fport p).replay ∧
      ∀ q, q ≠ p → s'.fport q = s.fport q) ∧
  ∀ (p : Nat) (s : State), (s.fport p).st = .active → (s.fport p).replay ≠ [] → (s.fport p).ackAt + 4000 ≤ s.toll →
    ∃ s', exec (.hopReplay p) s = .next s' ∧ (s'.fport p).replay = (s.fport p).replay ∧ (s'.fport p).ackAt = s.toll ∧
      (s'.fport p).retry = satAdd 16 (s.fport p).retry (s.fport p).replay.length ∧
      s'.fw.sent = ((s.fport p).replay.map fun f => (p, f)).reverse ++ s.fw.sent ∧ s'.fw.peers = s.fw.peers

/-- R347 to R349, R370, R387: a DISC frame of the same domain, of a device number not in use, starts the authentication, one of
another domain or with a number in use leaves the port in UNAUTH with its cause; the last SPDM message opens the session and
the port is ACTIVE with full credits, or names why not and is retried 1,000 periods later; at SEQ 2^31 the epoch advances; a
peer none of whose direct ports delivered a TOLL frame for 16 intervals is being lost. -/
def Obligations.PartnersAuthenticate : Prop :=
  (∀ (p : Nat) (f : Frame) (d : Disc) (s : State), f.body = .disc d → f.len ≤ 4 → (s.fport p).st = .unauth →
    (s.fport p).framesIn < 64 →
    (d.domain ≠ s.domain →
      ∃ s', exec (.discFrameReceive p f) s = .next s' ∧ (s'.fport p).st = .unauth ∧ (s'.fport p).cause = 2 ∧
        (s'.fport p).authing = false) ∧
    (d.domain = s.domain → d.kind = 1 →
      d.devno = s.devNo ∨ ((s.peer d.devno).session = true ∧ (s.peer d.devno).inc ≠ d.inc ∧ (s.peer d.devno).losing = false) →
      ∃ s', exec (.discFrameReceive p f) s = .next s' ∧ (s'.fport p).st = .unauth ∧ (s'.fport p).cause = 3 ∧
        (s'.fport p).authing = false) ∧
    (d.domain = s.domain → d.kind = 1 → d.devno ≠ s.devNo → (s.peer d.devno).session = false → (s.fport p).authing = false →
      (s.fport p).authAt = none → (s.fport p).framesOut < 64 →
      ∃ s' g, exec (.discFrameReceive p f) s = .next s' ∧ (s'.fport p).authing = true ∧ (s'.fport p).pdev = d.devno ∧
        (s'.fport p).pinc = d.inc ∧ s'.fw.sent = (p, g) :: s.fw.sent ∧ g.body = .spdm (spdmMessage false) ∧
        ∀ q, q ≠ p → s'.fport q = s.fport q)) ∧
  (∀ (p : Nat) (f : Frame) (m : SpdmMsg) (s : State), f.body = .spdm m → f.len ≤ 64 → f.src ≠ s.devNo →
    (s.fport p).st = .unauth → (s.fport p).framesIn < 64 → (s.fport p).discarding = false → (s.fport p).pkind = 1 →
    (s.fport p).authing = true → m.update = false → m.last = true →
    (s.judgePartner m = 0 →
      (s.peer (s.fport p).pdev).session = false ∨ (s.peer (s.fport p).pdev).inc = (s.fport p).pinc →
      ∃ s', exec (.spdmFrameReceive p f) s = .next s' ∧ (s'.fport p).st = .active ∧ (s'.fport p).cause = 0 ∧
        (s'.fport p).cred0 = 14336 ∧ (s'.fport p).cred1 = 2048 ∧ (s'.fport p).replay = [] ∧
        (s'.peer (s.fport p).pdev).session = true ∧ (s'.peer (s.fport p).pdev).inc = (s.fport p).pinc ∧
        ((s.peer (s.fport p).pdev).session = false → (s'.peer (s.fport p).pdev).sepoch = 0) ∧
        ∀ q, q ≠ p → s'.fport q = s.fport q) ∧
    (s.judgePartner m ≠ 0 →
      ∃ s', exec (.spdmFrameReceive p f) s = .next s' ∧ (s'.fport p).st = .unauth ∧ (s'.fport p).cause = s.judgePartner m ∧
        (s'.fport p).authing = false ∧ (s'.fport p).authAt = some ((s.toll / 1024000 + 1000) * 1024000) ∧
        s'.fw.peers = s.fw.peers)) ∧
  (∀ (m : SpdmMsg) (s : State), (m.ok = false → s.judgePartner m = 4) ∧ (m.ok = true → m.chainOk = false → s.judgePartner m = 5) ∧
    (m.ok = true → 3 ≤ m.dbg → s.judgePartner m = 5) ∧
    (m.ok = true → m.chainOk = true → m.dbg < 3 →
      (s.judgePartner m = 0 ↔ (m.m2 = s.sec.active.m2 ∧ m.m3 = s.sec.active.m3 ∧ m.m4 = s.sec.active.m4) ∨
        (m.m2, m.m3, m.m4) ∈ s.sec.policy))) ∧
  (∀ (p t : Nat) (s : State), (s.fport p).st = .unauth → (s.fport p).authAt = some t → t ≤ s.toll → (s.fport p).framesOut < 64 →
    ∃ s' g, exec (.authenticationRetry p) s = .next s' ∧ (s'.fport p).authing = true ∧ (s'.fport p).authAt = none ∧
      s'.fw.sent = (p, g) :: s.fw.sent ∧ g.body = .spdm (spdmMessage false)) ∧
  (∀ (key : Nat) (s : State), (s.peer key).session = true → 2 ^ 31 ≤ (s.peer key).seqOut ∨ 2 ^ 31 ≤ (s.peer key).seqIn →
    ∃ s', exec (.keyUpdate key) s = .next s' ∧ (s'.peer key).sepoch = ((s.peer key).sepoch + 1) % 256 ∧
      (s'.peer key).seqOut = 0 ∧ (s'.peer key).seqIn = 0 ∧ (s'.peer key).session = true ∧ (s'.peer key).inc = (s.peer key).inc) ∧
  ∀ (d : Nat) (s : State), (s.peer d).session = true → (s.peer d).switched = false →
    (∀ p ∈ s.directPorts d, (s.fport p).rxAt + 16384 ≤ s.toll) →
    ∃ s', exec (.peerTollTimeout d) s = .next s' ∧ s'.peer d = { s.peer d with losing := true } ∧ s'.fw.ports = s.fw.ports

/-- R344, R349, R350, R355: a frame on a port that is disabled or training is dropped uncounted; on an ACTIVE port one of a
reserved type, too long, for another device or of no session is malformed, one of another incarnation, epoch or link key
late, and one whose tag fails is counted as that; all are dropped with no other effect, and a frame that passes every check
is taken. -/
def Obligations.FramesAreChecked : Prop :=
  (∀ (p : Nat) (f : Frame) (i : Instr) (s t : State),
    ((i = .dataFrameReceive p f ∧ f.body.typ = 0) ∨ (i = .ackReceive p f ∧ f.body.typ = 1) ∨
     (i = .tollFrameReceive p f ∧ f.body.typ = 4) ∨ (i = .creditFrameReceive p f ∧ f.body.typ = 5)) →
    (∀ n, f.body ≠ .reserved n) → s.rxCheck p f = (.dropped, t) → exec i s = .next t) ∧
  (∀ (p : Nat) (f : Frame) (s : State), (s.fport p).st = .disabled ∨ (s.fport p).st = .training → s.rxCheck p f = (.dropped, s)) ∧
  ∀ (p : Nat) (f : Frame) (s : State), (s.fport p).st = .active → (s.fport p).discarding = false → f.body.typ ≠ 6 → f.body.typ ≠ 7 →
    (let r := s.rxCheck p f
     let q := s.peer (s.rxKey p f)
     let known := f.body.typ < 9 ∧ f.len ≤ lenLimit f.body.typ ∧ (s.endToEnd p f = true → f.dst = s.devNo) ∧ f.src ≠ s.devNo ∧
       q.session = true
     let fresh := f.sinc = q.inc ∧ f.dinc = s.fw.inc ∧ s.sepochOk q f.sepoch = true ∧
       (f.keyId = 0 → f.dvd = 0 ∨ 2 < f.body.typ) ∧
       (f.keyId ≠ 0 → ∃ k, s.rxLink f = some k ∧ k.vd = f.dvd ∧ ∀ t, k.zeroAt = some t → s.toll < t)
     (known → fresh → f.tagOk = true → r.1 = .ok ∧ (r.2.peer (s.rxKey p f)).seqIn = max q.seqIn f.seq) ∧
     (9 ≤ f.body.typ ∨ lenLimit f.body.typ < f.len ∨ (s.endToEnd p f = true ∧ f.dst ≠ s.devNo) ∨ q.session = false →
       r.1 = .dropped ∧ (r.2.fport p).malformed = satAdd 16 (s.fport p).malformed 1 ∧ (r.2.fport p).late = (s.fport p).late ∧
         (r.2.fport p).tagFail = (s.fport p).tagFail ∧ r.2.fw.peers = s.fw.peers) ∧
     (known → ¬ fresh →
       r.1 = .dropped ∧ (r.2.fport p).late = satAdd 16 (s.fport p).late 1 ∧ (r.2.fport p).malformed = (s.fport p).malformed ∧
         (r.2.peer (s.rxKey p f)).losing = (q.losing || f.sinc ≠ q.inc)) ∧
     (known → fresh → f.tagOk = false →
       r.1 = .dropped ∧ (r.2.fport p).tagFail = satAdd 16 (s.fport p).tagFail 1 ∧ (r.2.fport p).late = (s.fport p).late ∧
         r.2.fw.peers = s.fw.peers))

/-- R356, R358, R360, R361, R363, R372, R373: a CREDIT frame returns credits up to the channel's; a DATA frame to a VD not here
is refused by NOBUF and discarded, and the last line of a transfer closes it; an ACK closes its target, the last one the
XFER with OK; NOBUF fails a target that refuses, else stops the attempt; the pool answers a fetch of an unknown record and
takes a page's write.  R280, R355, R358, R361: an XFER whose list has more targets than its object holds is refused; one
line to one remote part goes out in one frame under the VD's link key; 64 µs after an attempt's end it is made again, or the
target has failed after 16; at the collective time-out the XFER ends PARTIAL with its failed-target record. -/
def Obligations.FramesAndTransfers : Prop :=
  ((∀ (p c0 c1 ack : Nat) (f : Frame) (s t : State), f.body = .credit c0 c1 ack → s.Passes p f t → (t.fport p).waiting = [] →
     ∃ s', exec (.creditFrameReceive p f) s = .next s' ∧
       (s'.fport p).cred0 = min 14336 ((t.fport p).cred0 + (c0 + 2 ^ 32 - (t.fport p).seen0) % 2 ^ 32) ∧
       (s'.fport p).cred1 = min 2048 ((t.fport p).cred1 + (c1 + 2 ^ 32 - (t.fport p).seen1) % 2 ^ 32) ∧
       (s'.fport p).seen0 = c0 ∧ (s'.fport p).seen1 = c1 ∧
       ((ack + 2 ^ 32 - (t.fport p).acked) % 2 ^ 32 ≤ (t.fport p).replay.length →
         (s'.fport p).replay = (t.fport p).replay.drop ((ack + 2 ^ 32 - (t.fport p).acked) % 2 ^ 32) ∧ (s'.fport p).acked = ack) ∧
       ∀ q, q ≠ p → s'.fport q = t.fport q) ∧
   (∀ (p : Nat) (f : Frame) (d : DataDesc) (ls : List (BitVec 512)) (s t : State), f.body = .data d ls → s.Passes p f t →
     d.fill = false → (∀ j ∈ t.fw.inbound, ¬ (j.dev = f.src ∧ j.xfer = d.xfer ∧ j.attempt = d.attempt)) →
     ((t.vd f.dvd).st = .none ∨ (t.vd f.dvd).st = .teardown →
       ∃ s', exec (.dataFrameReceive p f) s = .next s' ∧ s'.sbk = t.sbk ∧
         (∃ j ∈ s'.fw.inbound, j.dev = f.src ∧ j.xfer = d.xfer ∧ j.attempt = d.attempt ∧ j.discard = true) ∧
         (∀ k q, t.linkKey f.dvd f.src = some k → t.sharePorts f.dvd f.src = [q] →
           (t.fport q).waiting = [] → 1 ≤ (t.fport q).cred1 →
           ∃ g, s'.fw.sent = (q, g) :: t.fw.sent ∧ g.body = .nobuf d.xfer d.attempt true ∧ g.dst = f.src ∧ g.keyId = k.label)) ∧
     (∀ (x : BitVec 512) (b : Nat) (u : State), ls = [x] → d.total = 1 → d.off = 0 → d.sig = false →
       (t.vd f.dvd).st ≠ .none → (t.vd f.dvd).st ≠ .teardown → t.inWork f.dvd d.dstLine 1 = true → t.shapePending f.dvd = false →
       t.inPause f.dvd = false → (∀ j ∈ t.fw.inbound, j.dev ≠ f.src ∨ j.xfer ≠ d.xfer) →
       (t.fw.inbound.filter fun j => j.vd = f.dvd && !j.discard).length < 64 →
       (t.workSlots f.dvd false)[slotOf d.dstLine]? = some b →
       ({ t with fw := { t.fw with inbound := t.fw.inbound ++
           [{ dev := f.src, xfer := d.xfer, attempt := d.attempt, vd := f.dvd, total := 1, sig := false, tl := d.tl,
              sval := d.sval }] } } : State).cmdRequest f.dvd b (lineOf d.dstLine) false (.write x (BitVec.allOnes 64) false) = (.done, u) →
       ∃ s', exec (.dataFrameReceive p f) s = .next s' ∧ s'.sbk = u.sbk ∧
         (∀ j ∈ s'.fw.inbound, ¬ (j.dev = f.src ∧ j.xfer = d.xfer ∧ j.attempt = d.attempt)) ∧
         (∀ k q, u.linkKey f.dvd f.src = some k → u.sharePorts f.dvd f.src = [q] → (u.fport q).waiting = [] → 1 ≤ (u.fport q).cred1 →
           ∃ g, s'.fw.sent = (q, g) :: u.fw.sent ∧ g.body = .ack d.xfer d.attempt ∧ g.dst = f.src ∧ g.keyId = k.label))) ∧
   (∀ (p q a : Nat) (f : Frame) (s t : State), f.body = .ack q a → s.Passes p f t → (t.xfer q).tgts ≠ [] →
     ((∀ x ∈ (t.xfer q).tgts, x.st = .acked ∨
         (x.dev = f.src ∧ x.local_ = false ∧ x.retries = a ∧ x.st ≠ .lost ∧ x.st ≠ .failed)) →
       t.hasCmd q = true → (t.cmd q).status = stOK →
       ∃ s', exec (.ackReceive p f) s = .next s' ∧ s'.Ended q stOK ∧ (s'.xfer q).tgts = []) ∧
     ((∃ x ∈ (t.xfer q).tgts, x.st = .sending ∧ x.dev ≠ f.src) →
       ∃ s', exec (.ackReceive p f) s = .next s' ∧ s'.que = t.que ∧ (s'.xfer q).tgts = (t.xfer q).tgts.map fun x =>
         if x.dev = f.src ∧ x.local_ = false ∧ x.retries = a ∧ x.st ≠ .lost ∧ x.st ≠ .failed then { x with st := .acked } else x)) ∧
   (∀ (p q a : Nat) (refused : Bool) (f : Frame) (s t : State), f.body = .nobuf q a refused → s.Passes p f t →
     (∃ x ∈ (t.xfer q).tgts, x.st = .sending ∧ x.dev ≠ f.src) →
     ∃ s', exec (.nobufReceive p f) s = .next s' ∧ s'.que = t.que ∧ ∀ (i : Nat) (x : XTgt), (t.xfer q).tgts[i]? = some x → x.dev = f.src → x.local_ = false →
       x.retries = a → (x.st = .sending ∨ ∃ n, x.st = .waiting n) → (s'.xfer q).tgts[i]? = some
         (if refused = true ∨ 16 ≤ x.retries then { x with st := .failed } else { x with st := .waiting t.toll })) ∧
   (∀ (p g r page : Nat) (f : Frame) (s t : State), f.body = .pool (.fetch g r page) → s.Passes p f t → t.cmp.memRole = true →
     (∀ x ∈ t.fw.pool, x.group ≠ g ∨ x.record ≠ r) → (t.peer f.src).session = true →
     ∀ q, t.reaching f.src = [q] → (t.fport q).waiting = [] → 1 ≤ (t.fport q).cred0 → (t.fport q).pkind = 1 →
     ∃ s' h, exec (.poolFrameReceive p f) s = .next s' ∧ s'.fw.sent = (q, h) :: t.fw.sent ∧ h.body = .pool (.none g r) ∧
       h.dst = f.src ∧ h.keyId = 0 ∧ s'.fw.pool = t.fw.pool) ∧
   ∀ (p g r page n ver k : Nat) (ct : List Byte) (tag : BitVec 128) (f : Frame) (s t : State),
     f.body = .pool (.write g r page n ver ct tag) → s.Passes p f t → t.cmp.memRole = true →
     (∀ x ∈ t.fw.pool, x.group ≠ g ∨ x.record ≠ r) → k < 8 → bitOf t.cmp.served k = true → t.poolUsed k + n ≤ poolPages k →
     (∀ j < k, bitOf t.cmp.served j = false ∨ poolPages j < t.poolUsed j + n) →
     ∃ s', exec (.poolFrameReceive p f) s = .next s' ∧
       s'.fw.pool = t.fw.pool ++ [{ group := g, record := r, stack := k, version := ver, pages := sput ([], 0#128) page (ct, tag) [] }]) ∧
  ((∀ (seq : Nat) (s : State), s.Startable seq 0x38 → s.stalled seq = false → (s.xfer seq).tgts = [] →
     (let c := s.cmd seq
      let size := (s.obj (handleIdx (c.fld 0x1C 0 32))).size
      size < 32 * (c.fld 0x20 0 6 + 1) →
      ∃ s', exec (.xfer seq) s = .next s' ∧ s'.Ended seq stAborted ∧ (s'.cmd seq).detail = 0x80000000 + size / 32 * 32 ∧
        s.OnlyQueues s')) ∧
   (∀ (seq q : Nat) (x : XTgt) (k : LinkKey) (bs : List Byte) (s t : State), s.Startable seq 0x38 → s.stalled seq = false →
     (s.xfer seq) = { tgts := [x] } → x.st = .sending → x.next = 0 → x.local_ = false →
     (let c := s.cmd seq
      c.fld 0x18 0 32 = 64 → s.linkKey c.vd x.dev = some k → s.sharePorts c.vd x.dev = [q] → (s.fport q).waiting = [] →
      2 ≤ (s.fport q).cred0 →
      State.sbGather c.vd 3 (c.fld 0x10 0 64) 64 (s.started seq) = (.ok bs false, t) → t.fw = s.fw → t.que = (s.started seq).que →
      t.vds = s.vds → t.glb = s.glb →
      ∃ s' g, exec (.xfer seq) s = .next s' ∧ s'.fw.sent = (q, g) :: s.fw.sent ∧ g.dst = x.dev ∧ g.keyId = k.label ∧ g.len = 2 ∧
        g.body = .data { xfer := seq, attempt := x.retries, dstLine := x.dstLine, off := 0, total := 1, sig := x.sig, tl := x.tl,
                         sval := x.sval, fill := false } (byteLines bs) ∧
        (s'.xfer seq).tgts = [{ x with next := 1, st := .waiting t.toll }] ∧ (s'.fport q).cred0 = (s.fport q).cred0 - 2 ∧
        (s'.cmd seq).phase = .running)) ∧
   (∀ (seq since q : Nat) (x : XTgt) (k : LinkKey) (s : State), (s.xfer seq) = { tgts := [x] } → x.st = .waiting since →
     x.local_ = false → s.toll < since + 64000 ∨ (s.toll ≥ since + 64000 ∧
       (16 ≤ x.retries ∨ (64 ≤ (s.cmd seq).fld 0x18 0 32 ∧ s.linkKey (s.cmd seq).vd x.dev = some k ∧
         s.sharePorts (s.cmd seq).vd x.dev = [q] ∧ (s.fport q).cred0 < 2))) →
     ∃ s', exec (.xferRetry seq 0) s = .next s' ∧
       (s.toll < since + 64000 → s' = s) ∧
       (since + 64000 ≤ s.toll → 16 ≤ x.retries →
         (s'.xfer seq).tgts = [{ x with st := .failed }] ∧ (s'.xfer seq).timeout = some ((s.toll / 1024000 + 1) * 1024000)) ∧
       (since + 64000 ≤ s.toll → x.retries < 16 →
         (s'.xfer seq).tgts = [{ x with st := .sending, next := 0, retries := x.retries + 1 }] ∧ (s'.fport q).blocked = true ∧
         s'.fw.sent = s.fw.sent)) ∧
   ∀ (seq b : Nat) (s : State), (s.xfer seq).timeout = some b → b ≤ s.toll → s.hasCmd seq = true → (s.cmd seq).status = stOK →
     ∃ s', exec (.collectiveTimeout seq) s = .next s' ∧ s'.Ended seq stPartial ∧
       (s'.cmd seq).ext = some (failedRecord (s.xfer seq).tgts) ∧ (s'.xfer seq).tgts = [] ∧ s'.sbk = s.sbk)

/-- R363 to R367: every ACTIVE port sends a TOLL frame of the count and the master; a device of TOLL_PRIO 255 that hears one
master follows it, takes its count from the measured delay and epoch, and counts its hops; a silent upstream port gives way
to another of the same master, else holdover, in which no commit boundary is broadcast and no decision taken and which ends
in an election after a period; a pulse of TOLL_IN aligns the count to the next second in a new epoch, later ones slew it,
and 2 s without one clear EXTREF. -/
def Obligations.TollServiceRuns : Prop :=
  (∀ (s : State), ∃ s', exec .tollFrameSend s = .next s' ∧ s'.toll = s.toll ∧ s'.fw.peers = s.fw.peers ∧
    (∀ p < 32, (s.fport p).st = .active → ∃ g, (p, g) ∈ s'.fw.sent ∧ g.body = .toll (s.tollLine p) ∧ g.len = 1 ∧
      (s'.fport p).txs.head? = some s.toll ∧ (s'.fport p).ret0 = (s.fport p).freed0 ∧ (s'.fport p).ret1 = (s.fport p).freed1) ∧
    ∀ p, (s.fport p).st ≠ .active → s'.fport p = s.fport p) ∧
  (∀ (p : Nat) (f : Frame) (l : TollLine) (s t : State), f.body = .toll l → s.Passes p f t → (t.fport p).waiting = [] →
    ∃ s', exec (.tollFrameReceive p f) s = .next s' ∧ (s'.fport p).rxAt = t.toll ∧ (s'.fport p).rxTx = l.txcount ∧
      (s'.fport p).cred0 = min 14336 ((t.fport p).cred0 + (l.cred0 + 2 ^ 32 - (t.fport p).seen0) % 2 ^ 32) ∧
      (s'.fport p).cred1 = min 2048 ((t.fport p).cred1 + (l.cred1 + 2 ^ 32 - (t.fport p).seen1) % 2 ^ 32)) ∧
  (∀ (p t1 : Nat) (f : Frame) (l : TollLine) (s t : State), f.body = .toll l → s.Passes p f t → (t.fport p).waiting = [] →
    p < 32 → (t.fport p).st = .active → (∀ q < 32, q ≠ p → (t.fport q).st ≠ .active) → t.tollPrio = 255 → t.fw.holdover = false →
    t.fw.synced = false → l.master ≠ t.devNo → (t.fport p).delays = [] →
    (t.fport p).txs.find? (fun x => x % 2 ^ 32 = l.echo) = some t1 →
    (let e : Int := (l.txcount : Int) * 8 + ((((t.toll : Int) - t1) - ((l.txcount : Int) - l.rxcount)) * 4 + 8 * l.corr)
     (t.toll : Int) * 8 ≤ e →
     ∃ s', exec (.tollFrameReceive p f) s = .next s' ∧ s'.toll = (e / 8).toNat ∧ s'.fw.synced = true ∧ s'.fw.epoch = l.epoch ∧
       s'.fw.master = false ∧ s'.fw.mdev = l.master ∧ s'.fw.hops = min 63 (l.hops + 1) ∧ s'.fw.up = some p)) ∧
  (∀ (u : Nat) (s : State), s.fw.up = some u → (s.fport u).usableAt + 16384 ≤ s.toll →
    ((∀ q < 32, q ≠ u → (s.fport q).st ≠ .active) →
      ∃ s', exec .upstreamSilence s = .next s' ∧ s'.fw.up = none ∧ s'.fw.synced = false ∧ s'.fw.holdover = true ∧
        s'.fw.holdAt = s.toll ∧ s'.toll = s.toll) ∧
    (∀ q a, q < 32 → q ≠ u → (s.fport q).st = .active → s.toll ≤ (s.fport q).usableAt + 16384 → (s.fport q).adv = some a →
      a.master = s.fw.mdev → a.master ≠ s.devNo → (∀ r < 32, r ≠ u → r ≠ q → (s.fport r).st ≠ .active) →
      ∃ s', exec .upstreamSilence s = .next s' ∧ s'.fw.up = some q ∧ s'.fw.hops = min 63 (a.hops + 1) ∧
        s'.fw.holdover = s.fw.holdover ∧ s'.toll = s.toll)) ∧
  (∀ (s : State), s.fw.holdover = true → s.fw.holdAt + 1024000 ≤ s.toll → s.fw.master = false → s.tollPrio ≠ 255 →
    s.pwr.aonRc = false → (∀ q < 32, (s.fport q).st ≠ .active) →
    ∃ s', exec .holdoverElection s = .next s' ∧ s'.fw.master = true ∧ s'.fw.holdover = false ∧ s'.fw.hops = 0 ∧
      s'.fw.epoch = (s.fw.epoch + 1) % 2 ^ 16 ∧ s'.toll = s.toll) ∧
  (∀ (s : State), s.extEn = true → s.fw.master = true → (s.pin 2).storm = false → (s.pin 2).stuck = false →
    (s.fw.pulse = none →
      ∃ s', exec .tollInPulse s = .next s' ∧ s'.toll = (s.toll / 1000000000 + 1) * 1000000000 ∧ s'.fw.extref = true ∧
        s'.fw.epoch = (s.fw.epoch + 1) % 2 ^ 16) ∧
    (∀ t, s.fw.pulse = some t → s.toll % 1000000000 ≤ 1000 →
      ∃ s', exec .tollInPulse s = .next s' ∧ s'.toll = s.toll ∧ s'.fw.epoch = s.fw.epoch ∧ s'.fw.extref = true ∧
        s'.fw.offset = -8 * ((s.toll % 1000000000 : Nat) : Int)) ∧
    (∀ t, s.fw.pulse = some t → 1000 < s.toll % 1000000000 → s.toll % 1000000000 < 999999000 →
      ∃ s', exec .tollInPulse s = .next s' ∧ s'.toll = (s.toll / 1000000000 + 1) * 1000000000 ∧
        s'.fw.epoch = (s.fw.epoch + 1) % 2 ^ 16)) ∧
  (∀ (s : State), s.fw.holdover = true → (∀ v, s.tryBroadcast v = s) ∧ ∀ code period, s.takeDecision code period = s) ∧
  ∀ (t : Nat) (s : State), s.fw.pulse = some t → s.fw.extref = true → s.fw.master = true → t + 2000000000 < s.toll →
    exec .tollInLoss s = .next { s with fw := { s.fw with extref := false } }

/-- R354: a notice acts once; R312: JOIN is noted by the coordinator, a mask outside the alternatives being malformed, PREPARE
names the alternative, PREPARED is noted, COMMIT schedules the commit and ABANDON ends the BIND with MEMBER or PEER_LOST;
R350, R362: KEYRET retires the link key at its boundary, KEYDRAIN drains it; R368 to R370, R319: reports of headroom, losses
and roles are taken; R370: a lost peer's session, keys and ports go, and a VD with a part there is HELD. -/
def Obligations.NoticesAct : Prop :=
  (∀ (p part np mask handle v : Nat) (dg : BitVec 384) (f : Frame) (n : Notice) (c : Change) (s t : State),
    s.Heeded p f n t → n.body = .join part np mask handle dg → s.groupVd n.group s.joinable = some v → s.change v = some c →
    (mask < 2 ^ c.nalt → part ≤ np → t.change v = some c → c.nparts = np + 1 → c.devs[part]? = some f.src → c.told = false → c.rejoin = false →
      (t.vd v).st ≠ .held → (∃ i < c.nparts, i ≠ part ∧ sget none c.joined i = none) →
      ∃ s', exec (.join p f) s = .next s' ∧ s'.change v = some { c with joined := sput none part (some (dg, mask)) c.joined } ∧
        sget 0 (s'.vd v).peerHandles part = handle ∧ (s'.vd v).place = (t.vd v).place ∧ ∀ w, w ≠ v → s'.vd w = t.vd w) ∧
    (2 ^ c.nalt ≤ mask ∨ np < part →
      ∃ s', exec (.join p f) s = .next s' ∧ (s'.fport p).malformed = satAdd 16 (s.fport p).malformed 1 ∧ s'.vds = s.vds)) ∧
  (∀ (p a v : Nat) (f : Frame) (n : Notice) (c : Change) (s t : State), s.Heeded p f n t → n.body = .prepare a →
    t.partVd n.group f.src = some v → t.change v = some c → c.told = false → c.phase = .waiting →
    (let u := (t.answered f.src fun m => m.group = n.group && m.isJoin).setChange v
       { c with told := true, altIdx := a, coord := some f.src }
     (u.btReader v c.btset = none → exec (.prepare p f) s = .next u) ∧
     ∀ rd pl, u.btReader v c.btset = some rd →
       u.admitAlt v {} (u.vd v).alt (c.alts.getD a {}) c.part c.nparts c.devs false none rd = .ok pl →
       ∃ s' c', exec (.prepare p f) s = .next s' ∧ s'.change v = some c' ∧ c'.phase = .preparing ∧ c'.altIdx = a ∧ c'.told = true ∧
         c'.alt = c.alts.getD a {} ∧ c'.place = pl)) ∧
  (∀ (p part k v : Nat) (f : Frame) (n : Notice) (c : Change) (s t : State), s.Heeded p f n t → n.body = .prepared part k →
    (t.groupVd n.group fun v d => d.changes.head?.any fun c => c.told && t.coordinator v c = t.devNo && c.devs[part]? = some f.src) = some v →
    t.change v = some c → c.rejoin = false →
    ((∃ i < c.nparts, i ≠ part ∧ i ∉ c.prepared) →
      ∃ s', exec (.prepared p f) s = .next s' ∧
        s'.change v = some { c with prepared := (part :: c.prepared).dedup, kmax := max c.kmax k }) ∧
    ((∀ i < c.nparts, i = part ∨ i ∈ c.prepared) → c.phase = .preparing → c.told = true → t.coordinator v c = t.devNo →
      t.fw.holdover = false →
      ∃ s' c', exec (.prepared p f) s = .next s' ∧ s'.change v = some c' ∧ c'.phase = .scheduled ∧
        c'.commitAt = some ((max c.kmax k + 2) * 1024000))) ∧
  (∀ (p alt b v : Nat) (f : Frame) (n : Notice) (c : Change) (s t : State), s.Heeded p f n t → n.body = .commit alt b →
    t.partVd n.group f.src = some v → t.change v = some c → c.phase = .preparing →
    ∃ s', exec (.commit p f) s = .next s' ∧ s'.change v = some { c with phase := .scheduled, schedAt := t.toll, commitAt := some b }) ∧
  (∀ (p reason part v : Nat) (f : Frame) (n : Notice) (c : Change) (s t : State), s.Heeded p f n t → n.body = .abandon reason part →
    t.partVd n.group f.src = some v → (t.vd v).changes = [c] → c.commitAt = none → c.told = true → c.phase = .waiting → c.op = false →
    t.hasCmd c.seq = true → (t.cmd c.seq).status = stOK →
    ∃ s', exec (.abandon p f) s = .next s' ∧ (s'.vd v).changes = [] ∧ (s'.vd v).place = (t.vd v).place ∧
      (reason = 0x40 → s'.Ended c.seq stPeerLost) ∧
      (reason ≠ 0x40 → s'.Ended c.seq stAdmission ∧ (s'.cmd c.seq).detail = 0x0D + 256 * c.altIdx + 65536 * part)) ∧
  (∀ (p k b : Nat) (f : Frame) (n : Notice) (s t : State), s.Heeded p f n t → n.body = .keyret k b → n.teardown = false →
    (∀ v, (t.groupVd n.group fun _ d => d.devs.contains f.src && d.nparts > 1) = some v →
      ∃ s', exec (.keyret p f) s = .next s' ∧
        s'.fw.links = (t.fw.links.map fun l => if l.vd = v ∧ l.peer = f.src then { l with zeroAt := some b } else l) ∧
        (s'.vd v).st = (t.vd v).st) ∧
    ∀ q, t.reaching f.src = [q] → (t.peer f.src).session = true → (t.fport q).waiting = [] → 1 ≤ (t.fport q).cred1 → (t.fport q).pkind = 1 →
      ∃ s' g m, exec (.keyret p f) s = .next s' ∧ s'.fw.sent = (q, g) :: t.fw.sent ∧ g.body = .ctrl m ∧ m.body = .keydrain k b) ∧
  (∀ (p k b : Nat) (f : Frame) (n : Notice) (s t : State), s.Heeded p f n t → n.body = .keydrain k b → (t.key k).peer = some f.src →
    ∃ s', exec (.keydrain p f) s = .next s' ∧
      ((t.key k).st = .zeroised → s'.key k = {}) ∧ ((t.key k).st = .retiring → s'.key k = { t.key k with peer := none }) ∧
      ∀ j, j ≠ k → s'.key j = t.key j) ∧
  (∀ (p d inc : Nat) (f : Frame) (n : Notice) (s t : State), s.Heeded p f n t →
    (n.body = .peerlost d inc → t.shareVd f.src d = true → (t.peer d).inc = inc → (t.peer d).session = true →
      ∃ s', exec (.peerlost p f) s = .next s' ∧ (s'.peer d).losing = true ∧ (s'.peer d).session = true) ∧
    (n.body = .peerdown d inc → (s.fport p).pkind = 2 → (t.peer d).inc = inc → (t.peer d).session = true →
      ∃ s', exec (.peerdown p f) s = .next s' ∧ (s'.peer d).losing = true ∧ (s'.peer d).session = true)) ∧
  (∀ (p h k : Nat) (lag : Bool) (f : Frame) (n : Notice) (s t : State), s.Heeded p f n t → n.body = .lsreport h lag k →
    ∃ s', exec (.lsreport p f) s = .next s' ∧ s'.peer f.src = { t.peer f.src with report := some (k, h) } ∧
      ∀ d, d ≠ f.src → s'.peer d = t.peer d) ∧
  (∀ (p served dropped b : Nat) (f : Frame) (n : Notice) (s t : State), s.Heeded p f n t → n.body = .role served dropped b →
    (t.toll < b → ∃ s', exec (.role p f) s = .next s' ∧ s'.peer f.src = { t.peer f.src with role := some (b, served, dropped) }) ∧
    (b ≤ t.toll → ∃ s', exec (.role p f) s = .next s' ∧ s'.peer f.src = { t.peer f.src with served := served, role := none } ∧
      ∀ r ∈ t.fw.knownRecs, r.1 = f.src → bitOf dropped (r.2.2.2 % 8) = true → (r.1, r.2.1, r.2.2.1) ∈ s'.fw.lostRecs)) ∧
  ∀ (d : Nat) (s : State), (s.peer d).losing = true →
    ((∀ e ∈ s.vds, e.2.nparts ≤ 1 ∧ e.2.changes = []) → s.fw.xfers = [] →
      ∃ s', exec (.peerLostHandling d) s = .next s' ∧ (s'.peer d).session = false ∧ (s'.peer d).lost = true ∧ (s'.peer d).secret = 0#256 ∧
        s'.fw.links = (s.fw.links.map fun k => if k.peer = d then { k with key := 0#512, zeroAt := some s.toll } else k) ∧
        (∀ k ∈ s.fw.links, k.peer = d → (s'.key k.label).st = .zeroised) ∧
        (∀ p < 32, (s.fport p).st = .active → (s.fport p).pkind = 1 → (s.fport p).pdev = d → (s'.fport p).st = .unauth ∧ (s'.fport p).cause = 10) ∧
        ∀ p, (s.fport p).pdev ≠ d → s'.fport p = s.fport p) ∧
    ∀ (v part : Nat) (x : Vd), s.vds = [(v, x)] → v ≠ 0 → x.changes = [] → 1 < x.nparts → x.st = .bound →
      x.devs.findIdx? (fun y => y = d) = some part → (∀ y ∈ x.devs, y = d ∨ y = s.devNo) → s.fw.xfers = [] →
      (∀ e ∈ s.que.tls, (sget 0#64 s.fw.feeders e.1).getLsbD part = false) →
      ∃ s', exec (.peerLostHandling d) s = .next s' ∧ (s'.vd v).st = .held ∧ part ∈ (s'.vd v).lostParts ∧ (s'.peer d).session = false

/-- R417 to R420, R423, R424, R472: what one reading, one loop or one event of the power manager does: the cap loop's new gating
level, telemetry losses and STATUS_WORD events, droop stretches and their count, the junction thresholds, THROT_N.  R28,
R29, R323, R136, R137, R414, R422, R426: a boundary stands at a multiple of 1,024,000 ns and puts the written values in
force; a step due puts both halves at its codes, and a rise whose voltage has not settled is not taken; the seam unlocks
when the codes differ or its lock is lost, with an L2 of every VD that spans it, and locks again at one frequency; the
snapshot of a boundary is taken once. -/
def Obligations.PowerAndBoundaries : Prop :=
  ((∀ (p : Nat) (s : State),
     (let limit := s.regField (basePct + 0x14) 27 16
      let g := s.pwr.gate
      ∃ s', exec (.capLoop p) s = .next s' ∧
        s'.pwr.gate = (if s.safe = true then 48
          else if limit < p then min 48 (g + (64 * (p - limit) + (p - 1)) / p)
          else if 100 * p < 97 * limit ∧ 0 < g then g - 1 else g) ∧
        s'.pwr.capHit = decide (limit < p) ∧
        (s'.pwr.gate = 48 → limit < p → s.pwr.over48 = 9 → s'.pwr.capViol = min (s.pwr.capViol + 1) 255 ∧
          s'.pwr.evt.getLsbD 5 = true) ∧
        (s'.pwr.gate ≠ 48 ∨ p ≤ limit ∨ s.pwr.over48 < 9 → s'.pwr.capViol = s.pwr.capViol ∧ s'.pwr.evt = s.pwr.evt) ∧
        s'.cores = s.cores)) ∧
   (∀ (h : Nat) (s : State), h < 2 →
     (∀ a, ∃ s', exec (.avsbusCurrentPoll h (some a)) s = .next s' ∧ (s'.half h).amps.head? = some a ∧
       (s'.half h).ipk = max (s.half h).ipk a ∧ (s'.half h).avsBad = 0 ∧
       ((s'.half h).avsLost = ((s.half h).avsLost && decide ((s.half h).avsGood < 2))) ∧ s'.pwr.evt = s.pwr.evt) ∧
     ∃ s', exec (.avsbusCurrentPoll h none) s = .next s' ∧ (s'.half h).avsGood = 0 ∧
       (2 ≤ (s.half h).avsBad → (s'.half h).avsLost = true ∧ s'.pwr.gate = 48 ∧ s'.pwr.evt.getLsbD 3 = true) ∧
       ((s.half h).avsBad < 2 → (s'.half h).avsBad = (s.half h).avsBad + 1 ∧ s'.pwr.gate = s.pwr.gate ∧
         s'.pwr.evt = s.pwr.evt)) ∧
   (∀ (i : Instr) (r : List Nat) (s : State),
     (i = .pmbusPoll r ∨ (i = .pmbAlert r ∧ (sget ({} : InPin) s.side.ins 1).storm = false ∧ (sget ({} : InPin) s.side.ins 1).stuck = false)) →
     ∃ s', exec i s = .next s' ∧ ∀ k < 12,
       (r.getD (5 * k) 0 ≠ 0 → ∃ x, sget ({} : Rail) s'.pwr.rails k = x ∧ x.fails = 0 ∧ x.vout = r.getD (5 * k + 1) 0 % 65536 ∧
         x.iout = r.getD (5 * k + 2) 0 % 65536 ∧ x.temp = r.getD (5 * k + 3) 0 % 256 ∧ x.status = r.getD (5 * k + 4) 0 % 65536 ∧
         x.pg = (sget ({} : Rail) s.pwr.rails k).pg) ∧
       (r.getD (5 * k) 0 = 0 → (sget ({} : Rail) s'.pwr.rails k).fails = min 3 ((sget ({} : Rail) s.pwr.rails k).fails + 1) ∧
         (2 ≤ (sget ({} : Rail) s.pwr.rails k).fails → s'.pwr.evt.getLsbD 3 = true)) ∧
       (r.getD (5 * k) 0 ≠ 0 → bitsOf (r.getD (5 * k + 4) 0 % 65536) 5 3 ≠ 0 → s'.pwr.evt.getLsbD 2 = true)) ∧
   (∀ (r : List Nat) (s : State), (sget ({} : InPin) s.side.ins 1).storm = true → exec (.pmbAlert r) s = .next s) ∧
   (∀ (h : Nat) (s : State), h < 2 → s.pwr.stretch = false →
     ∃ s', exec (.droopDetect h) s = .next s' ∧ (s'.half h).droop = true ∧ s'.pwr.stretch = true ∧
       s'.pwr.droops = min (s.pwr.droops + 1) 65535 ∧
       (s.toll < s.pwr.droopFrom + 1000000 → 1000 ≤ s.pwr.droopWin → s'.pwr.evt.getLsbD 4 = true) ∧
       s'.seam = s.seam ∧ s'.cores = s.cores) ∧
   (∀ (h : Nat) (s : State), h < 2 →
     ∃ s', exec (.droopRecovery h) s = .next s' ∧ (s'.half h).droop = false ∧
       s'.pwr.stretch = (s'.half (1 - h)).droop ∧ (s'.half (1 - h)).droop = (s.half (1 - h)).droop ∧ s'.pwr.droops = s.pwr.droops) ∧
   (∀ (tn ts : Nat) (s : State),
     (let t := max tn ts
      let thr := s.effField (basePct + 0x24) 15 8
      let crit := s.effField (basePct + 0x24) 23 16
      ∃ s', exec (.sensorSample tn ts) s = .next s' ∧ (s'.half 0).tj = tn / 4 % 256 ∧ (s'.half 1).tj = ts / 4 % 256 ∧
        (4 * thr ≤ t → s'.pwr.evt.getLsbD 8 = true) ∧
        (4 * crit ≤ t → s'.pwr.critSafe = true ∧ s'.pwr.evt.getLsbD 7 = true ∧ s'.pwr.gate = 48) ∧
        (t < 4 * crit → 4 * (crit - 5) ≤ t → s'.pwr.critSafe = s.pwr.critSafe ∧ s'.pwr.gate = s.pwr.gate ∨ 432 ≤ t) ∧
        (t < 4 * (crit - 5) → (∃ a, s.pwr.critCool = some a ∧ a + 1000000 ≤ s.toll) → s'.pwr.critSafe = false) ∧
        (432 ≤ t → s'.pwr.tripped = true) ∧ (t < 432 → s'.pwr.tripped = s.pwr.tripped ∧ s'.glb.stage = s.glb.stage))) ∧
   (∀ (s : State), s.pwr.tripped = false → ∀ tn ts, 432 ≤ max tn ts →
     ∃ s', exec (.sensorSample tn ts) s = .next s' ∧ s'.glb.stage = .halted ∧ s'.glb.ready = false ∧
       s'.glb.nme.getLsbD nmeThermTrip = true ∧ ∀ c, s'.canIssue c = false) ∧
   (∀ (s : State), s.pwr.throt = false →
     ∃ s', exec .throtNAssert s = .next s' ∧ s'.pwr.throt = true ∧ s'.pwr.evt.getLsbD 1 = true ∧ s'.pwr.throtAt = s.toll ∧
       (((s.half 0).code ≠ 32 ∨ (s.half 1).code ≠ 32) → s'.pwr.gate = 48 ∧ s'.safe = true)) ∧
   (∀ (s : State),
     ∃ s', exec .throtNDeassert s = .next s' ∧ (sget ({} : InPin) s'.side.ins 0).level = false ∧
       s'.pwr.throt = (s.pwr.throt && (sget ({} : InPin) s.side.ins 0).storm) ∧ s'.pwr.gate = s.pwr.gate) ∧
   ∀ (s : State), s.pwr.throt = true → s.pwr.throtAt + 1000000000 ≤ s.toll →
     ∃ s', exec .throtNHeldMark s = .next s' ∧ s'.pwr.evt.getLsbD 1 = true ∧ s'.pwr.throtAt = s.pwr.throtAt + 1000000000 ∧
       s'.pwr.gate = s.pwr.gate) ∧
  ((∀ (s : State), s.rst.heldInReset = false → s.pwr.tripped = false →
     ∃ s', exec .tollBoundary s = .next s' ∧ s'.toll % 1024000 = 0 ∧ s'.fw.lastBound = s'.toll ∧ s'.glb.eff = s'.glb.val ∧
       (s.toll % 1024000 = 0 → s.fw.lastBound ≠ s.toll → s'.toll = s.toll) ∧
       ((s.toll % 1024000 ≠ 0 ∨ s.fw.lastBound = s.toll) → s.toll < s'.toll ∧ s'.toll ≤ s.toll + 1024000)) ∧
   (∀ (s : State), (s.rst.heldInReset = true ∨ s.pwr.tripped = true) → exec .tollBoundary s = .next s) ∧
   (∀ (s : State) (x : Step) (rest : List Step), s.pwr.steps = x :: rest → x.at_ ≤ s.toll →
     ((x.settled = true ∨ (x.north ≤ (s.half 0).code ∧ x.south ≤ (s.half 1).code)) → (x.north = x.south ∨ s.spanVds = []) →
       ∃ s', exec .frequencyStep s = .next s' ∧ (s'.half 0).code = x.north ∧ (s'.half 1).code = x.south ∧
         s'.pwr.steps = rest ∧ s'.pwr.stepLag = false ∧ (x.north ≠ x.south → s'.seam.locked = false) ∧
         (x.north = x.south → s'.seam = s.seam) ∧ s'.cores = s.cores) ∧
     (x.settled = false → ((s.half 0).code < x.north ∨ (s.half 1).code < x.south) →
       ∃ s', exec .frequencyStep s = .next s' ∧ (s'.half 0).code = (s.half 0).code ∧ (s'.half 1).code = (s.half 1).code ∧
         s'.pwr.steps = rest ∧ s'.pwr.stepLag = true ∧ s'.lag = true ∧
         s'.pwr.headCap = some (min (s.half 0).code (s.half 1).code))) ∧
   (∀ (s : State) (x : Step) (rest : List Step), s.pwr.steps = x :: rest → x.at_ ≤ s.toll + 100000 →
     (exec (.voltageSettleDeadline true) s = .next { s with pwr := { s.pwr with steps := { x with settled := true } :: rest } }) ∧
     (((s.half 0).code < x.north ∨ (s.half 1).code < x.south) →
       ∃ s', exec (.voltageSettleDeadline false) s = .next s' ∧ s'.pwr.steps = rest ∧ s'.lag = true ∧
         s'.pwr.headCap = some (min (s.half 0).code (s.half 1).code) ∧ s'.pwr.halves = s.pwr.halves)) ∧
   (∀ (s : State), s.toll % 1024000 = 0 →
     ∃ s', exec .rollProfileChange s = .next s' ∧ s'.regEff (basePct + 0x2C) = s.reg (basePct + 0x2C) ∧
       (∀ h < 2, (s'.half h).rollD = s'.rollDecay h ∧ (s'.half h).code = (s.half h).code) ∧
       ∀ a, a ≠ basePct + 0x2C → s'.regEff a = s.regEff a) ∧
   (∀ (s : State), s.toll % 1024000 = 0 → s.pwr.loopRan = true → s.pwr.snap.take 2 ≠ s.snapWords.take 2 →
     ∃ s', exec .telemetrySnapshot s = .next s' ∧ s'.pwr.snap.length = 7 ∧
       s'.pwr.snap.getD 0 0#32 = BitVec.ofNat 32 s.toll ∧ s'.pwr.snap.getD 1 0#32 = BitVec.ofNat 32 (s.toll / 2 ^ 32) ∧
       s'.pwr.snap.getD 4 0#32 = BitVec.ofNat 32 ((s.half 1).ipk % 65536 * 65536 + (s.half 0).ipk % 65536) ∧
       s'.pwr.snap.getD 6 0#32 = BitVec.ofNat 32 (s.pwr.capHits * 65536 + s.pwr.droopPeriod) ∧
       s'.pwr.loops = 0 ∧ s'.pwr.capHits = 0 ∧ s'.pwr.droopPeriod = 0 ∧ (∀ h < 2, (s'.half h).ipk = 0) ∧
       s'.pwr.gate = s.pwr.gate ∧ exec .telemetrySnapshot s' = .next s') ∧
   (∀ (s : State), s.seam.locked = true →
     ∃ s', exec .seamUnlock s = .next s' ∧ s'.seam.locked = false ∧ s'.seam.isOpen = false ∧ s'.seam.drop = s.seam.drop ∧
       (∀ v, s.spanning = [v] → s.rst.running = none → s.rst.waiting = [] → s.rst.l5Due = none →
         ∃ r, s'.rst.running = some r ∧ r.level = 2 ∧ r.dom = .vd v ∧ r.unit = uDrumline)) ∧
   ∀ (s : State), (s.half 0).code = (s.half 1).code → (s.half 0).onRc = false → (s.half 1).onRc = false →
     ∃ s', exec .seamRelock s = .next s' ∧ s'.seam.locked = true ∧
       (s'.seam.isOpen = true ↔ ∃ c < 8, (s.pod (56 + c)).vd ≠ 0 ∧ (s.pod (56 + c)).vd = (s.pod (64 + c)).vd) ∧
       ∀ p, (s'.pod p).vd = (s.pod p).vd)

/-- R428, R431: entry to L6, at a rise of VDD_AON, at the release of DEVRST_N and at that of a PERST input whose cold bit is
set, leaves every block as at reset but for the firmware store and fuses; while DEVRST_N is asserted, or VDD_AON is down,
the device stays in reset; an assertion of a PERST input takes its link down, its VFs out of RUN and VF Enable to 0. (That
the state is cleared already at the assertion, and the contacts' levels, are the model's choice.)  R430, R446: the L5 that
is due ends every outstanding command, clears the Seedbank's contents and the cores, advances the incarnation, counts itself
and asserts READY again; without a stable XTAL it waits, and the fourth of a run of 600 s holds the device in reset. -/
def Obligations.ColdAndWarmResets : Prop :=
  ((∀ (i : Instr) (s : State),
     (i = .vddAonRise ∨ i = .vddAonFall ∨ i = .devrstNAssert ∨
      (i = .devrstNRelease ∧ (sget ({} : InPin) s.side.ins 3).level = true ∧ (sget ({} : InPin) s.side.ins 3).storm = false) ∨
      ∃ p, p < 2 ∧ i = .perstRelease p ∧ (sget ({} : InPin) s.side.ins (4 + p)).level = true ∧
        (sget ({} : InPin) s.side.ins (4 + p)).storm = false ∧ s.coldBit p = true ∧
        (sget ({} : InPin) s.side.ins 3).level = false ∧ s.rst.heldInReset = false) →
     ∃ s', exec i s = .next s' ∧ s'.cores = State.reset.cores ∧ s'.pods = State.reset.pods ∧ s'.seam = State.reset.seam ∧
       s'.vds = State.reset.vds ∧ s'.sbk = State.reset.sbk ∧ s'.hbm = State.reset.hbm ∧ s'.xlt = State.reset.xlt ∧
       s'.que = State.reset.que ∧ s'.cmp = State.reset.cmp ∧ s'.sch = State.reset.sch ∧ s'.glb = State.reset.glb ∧
       s'.toll = State.reset.toll ∧ s'.fw.peers = [] ∧ s'.fw.ports = State.reset.fw.ports ∧ s'.fw.links = [] ∧
       1 ≤ s'.fw.inc ∧ s'.fw.inc ≤ 65535 ∧ s'.host.ports = State.reset.host.ports ∧ s'.sec.mb = State.reset.sec.mb ∧
       s'.sec.rollback = s.sec.rollback ∧ s'.sec.active = s.sec.active ∧ s'.sec.staged = s.sec.staged ∧
       (s'.rst.heldInReset = true ↔ i = .vddAonFall ∨ i = .devrstNAssert) ∧
       ((i = .devrstNRelease ∨ ∃ p, i = .perstRelease p) → s'.rst.lastLevel = 6 ∧ s'.rst.coldA = s.rst.coldA ∧
         s'.rst.coldB = s.rst.coldB ∧ s'.pwr.ooo = s.pwr.ooo ∧ s'.pwr.loss = s.pwr.loss)) ∧
   (∀ (p : Nat) (s : State), p < 2 → (s.port p).vfs = [] → (s.port p).streams = [] → s.que.cmds = [] → s.pfPairs p = [] →
     ∃ s', exec (.perstAssert p) s = .next s' ∧ (s'.port p).up = false ∧ (s'.port p).vfEnable = false ∧ (s'.port p).numVfs = 0 ∧
       (sget ({} : InPin) s'.side.ins (4 + p)).level = true ∧ s'.port (1 - p) = s.port (1 - p) ∧ s'.vds = s.vds) ∧
   (∀ (p n v : Nat) (s : State), p < 2 → (s.port p).vfs = [(n, { vd := v, tdi := .configLocked })] → (s.port p).streams = [] →
     s.que.cmds = [] → s.pfPairs p = [] → v ≠ 0 →
     ∃ s', exec (.perstAssert p) s = .next s' ∧ s'.vf p n = { vd := v } ∧ (s'.vd v).sec.session = none ∧
       (s'.port p).vfEnable = false ∧ (s'.vd v).st = (s.vd v).st) ∧
   ∀ (p : Nat) (s : State), p < 2 → (sget ({} : InPin) s.side.ins (4 + p)).level = true → (sget ({} : InPin) s.side.ins (4 + p)).storm = false →
     s.coldBit p = false →
     ∃ s', exec (.perstRelease p) s = .next s' ∧ (sget ({} : InPin) s'.side.ins (4 + p)).level = false ∧ s' = { s with side := s'.side }) ∧
  (∀ (c : L5Cause) (unit : Nat) (s : State), s.rst.l5Due = some (c, unit) → (s.glb.stage = .run ∨ s.glb.stage = .warm) →
     (s.pwr.aonRc = true → (s.judge 0).stable = false →
       ∃ s', exec .l5DeviceWarmReset s = .next s' ∧ s'.glb.stage = .warm ∧ s'.glb.ready = false ∧ s'.que.halted = true ∧
         s'.rst = s.rst) ∧
     ((s.pwr.aonRc = false ∨ (s.judge 0).stable = true) → (s.countL5 c.code).1 = false →
       ∃ s', exec .l5DeviceWarmReset s = .next s' ∧ s'.glb.stage = .run ∧ s'.glb.ready = true ∧ s'.rst.l5Due = none ∧
         s'.rst.running = none ∧ s'.rst.waiting = [] ∧ s'.rst.count5 = min (s.rst.count5 + 1) 65535 ∧ s'.rst.lastLevel = 5 ∧
         s'.rst.lastCause = c.code ∧ (∀ q, s'.hasCmd q = false) ∧ s'.sbk.mem = [] ∧ s'.sbk.poison = [] ∧
         s'.fw.inc = nextInc s.fw.inc ∧ (∀ k, corePod k < 128 → ∃ n, s'.core k = { nextXid := n }) ∧
         (∀ q, (s.pair q).assigned = true → (s'.pair q).st = .stopped ∧ (s'.pair q).err = 0 ∧ (s'.pair q).en = (s.pair q).en) ∧
         s'.sec.rollback = s.sec.rollback ∧ s'.seam.locked = true) ∧
     ((s.pwr.aonRc = false ∨ (s.judge 0).stable = true) →
       (∃ t l, s.rst.l5Times = t :: l ∧ 2 ≤ l.length ∧ s.toll < t + 600000000000) →
       ∃ s', exec .l5DeviceWarmReset s = .next s' ∧ s'.rst.heldInReset = true ∧ s'.glb.stage = .halted ∧ s'.glb.ready = false ∧
         s'.glb.nme.getLsbD nmeL5Loop = true ∧ s'.rst.l5Due = none))

/-- R404 to R408, R410, R411: power-good inputs that assert in order count up to a completed sequence, and one that does not is
out of order for good; one that falls after the sequence holds the device in reset with PGLOSS; a source is stable after
eight windows in the band; what a failed source or PLL does.  R386, R462, R476, R491, R492, R494: each start-up stage ends
with its work done and the next begins, up to READY; a staged firmware set not older than the fuses becomes the active one
and the fuses follow its version; without a valid set, or past a deadline, the device stays in its stage with a DEVICE-FATAL
error, and with no pair of self-tests passed it is HALTED. -/
def Obligations.SuppliesAndStartup : Prop :=
  ((∀ (s : State), s.pwr.ooo = false → (sget ({} : Rail) s.pwr.rails 0).pg = false →
     ∃ s', exec (.powerGoodAssert 0) s = .next s' ∧ (sget ({} : Rail) s'.pwr.rails 0).pg = true ∧ s'.pwr.pgAt = s.toll) ∧
   (∀ (i : Nat) (s : State), 1 ≤ i → i < 12 → s.pwr.ooo = false → (sget ({} : Rail) s.pwr.rails i).pg = false →
     (let pred := if 10 ≤ i then 9 else i - 1
      let ordered : Prop := (sget ({} : Rail) s.pwr.rails pred).pg = true ∧ s.pwr.pgAt + 50000 ≤ s.toll
      ∃ s', exec (.powerGoodAssert i) s = .next s' ∧ (sget ({} : Rail) s'.pwr.rails i).pg = true ∧
        (∀ j, j ≠ i → sget ({} : Rail) s'.pwr.rails j = sget {} s.pwr.rails j) ∧
        (ordered → s'.pwr.ooo = false ∧ (i ≤ 9 → s'.pwr.pgAt = s.toll)) ∧
        (¬ ordered → s'.pwr.ooo = true ∧ s'.pwr.rail = i ∧ s'.starting = false) ∧
        (ordered → i = 11 → s.pwr.seqDone = 11 → s'.pwr.upSeq = true))) ∧
   (∀ (i : Nat) (s : State), 1 ≤ i → i < 12 → (sget ({} : Rail) s.pwr.rails i).pg = true → s.pwr.upSeq = true →
     ∃ s', exec (.powerGoodLoss i) s = .next s' ∧ (sget ({} : Rail) s'.pwr.rails i).pg = false ∧ s'.pwr.loss = true ∧
       s'.pwr.rail = i ∧ s'.rst.heldInReset = true ∧ s'.glb.ready = false ∧ s'.glb.nme.getLsbD nmePgLoss = true ∧
       s'.starting = false ∧ ∀ c, s'.canIssue c = false) ∧
   (∀ (i : Nat) (b : Bool) (s : State), i < 5 → (s.judge i).stable = false → (i = 0 ∨ (s.judge 0).stable = true) →
     ∃ s', exec (.clockStabilityWindow i b) s = .next s' ∧ (s'.judge i).good = (if b then (s.judge i).good + 1 else 0) ∧
       ((s'.judge i).stable = true ↔ b = true ∧ 7 ≤ (s.judge i).good) ∧ ∀ j, j ≠ i → s'.judge j = s.judge j) ∧
   (∀ (i : Nat) (s : State), s.required i = true → (s.judge i).stable = false → ((s.judge i).since.getD 0) + 100000000 ≤ s.toll →
     ∃ s', exec (.clockStabilityTimeout i) s = .next s' ∧ s'.glb.nme.getLsbD (srcNme i) = true ∧
       (i = 0 → s'.glb.stage = .halted ∧ s'.glb.ready = false) ∧ (i ≠ 0 → s'.glb.stage = s.glb.stage)) ∧
   ∀ (i : Nat) (s : State), i < 10 → s.failedOver i = false →
     ∃ s', exec (.clockMonitorWindow [i]) s = .next s' ∧ (s'.failedOver i = true) ∧
       (∀ n, failNme i = some n → s'.glb.nme.getLsbD n = true) ∧
       (i = 0 → s'.fw.holdover = true ∧ (s.glb.stage = .run → s'.rst.l5Due = some (.fatal, uClock))) ∧
       (i = 1 ∨ i = 2 → (s'.port (i - 1)).up = false) ∧
       (i = 6 ∨ i = 7 → (s'.half (i - 6)).onRc = true ∧ s'.seam.locked = false ∧ s'.seam.isOpen = false ∧ s'.lag = true) ∧
       (i = 8 ∨ i = 9 → (s'.half (i - 8)).hbmFail = true ∧ (s.glb.stage = .run → s'.rst.l5Due = some (.fatal, uClock))) ∧
       (i = 5 → s'.cores = s.cores ∧ s'.fw = s.fw ∧ s'.seam = s.seam)) ∧
  (∀ (x : StartupIn) (s : State), s.starting = true →
     (x.late = false → s.glb.stage = .secboot → (s.judge 0).stable = true → bothDead x = false → s.sec.staged = none →
       s.sec.activeOk = true →
       ∃ s', exec (.startupStage x) s = .next s' ∧ s'.glb.stage = .clocks ∧ s'.host.single = x.hpmode ∧
         s'.fw.strap = x.hint % 256 ∧ s'.glb.spareToll = x.failed.contains 0 ∧ s'.glb.spareClkmon = x.failed.contains 2 ∧
         s'.sec.active = s.sec.active ∧ s'.glb.ready = s.glb.ready) ∧
     (∀ f, x.late = false → s.glb.stage = .secboot → (s.judge 0).stable = true → bothDead x = false → s.sec.staged = some f →
       s.sec.rollback ≤ f.version →
       ∃ s', exec (.startupStage x) s = .next s' ∧ s'.glb.stage = .clocks ∧ s'.sec.active = f ∧ s'.sec.staged = none ∧
         s'.sec.rollback = f.version) ∧
     (x.late = false → s.glb.stage = .secboot → (s.judge 0).stable = true → bothDead x = false → s.sec.staged = none →
       s.sec.activeOk = false →
       ∃ s', exec (.startupStage x) s = .next s' ∧ s'.glb.stage = .secboot ∧ s'.rst.bootStop = true ∧
         s'.glb.nme.getLsbD nmeFatal = true ∧ s'.rst.l5Due = s.rst.l5Due) ∧
     (x.late = false → s.glb.stage = .secboot → (s.judge 0).stable = true → bothDead x = true →
       ∃ s', exec (.startupStage x) s = .next s' ∧ s'.glb.stage = .halted ∧ s'.glb.nme.getLsbD nmeSpareFail = true) ∧
     (x.late = false → s.glb.stage = .clocks →
       ∃ s', exec (.startupStage x) s = .next s' ∧ s'.glb.stage = .train ∧ (s'.half 0).code = 40 ∧ (s'.half 1).code = 40) ∧
     (x.late = false → s.glb.stage = .train → x.untrained.contains 3 = false → x.untrained.contains 7 = false →
       ∃ s', exec (.startupStage x) s = .next s' ∧ s'.glb.stage = .clear ∧
         (∀ n < 8, (s'.stack n).trained = !x.untrained.contains n) ∧
         (∀ g < 256, x.untrained.contains (g / 32) = true → (s'.chan g).st = .retired) ∧
         (∀ g, x.untrained.contains (g / 32) = false → s'.chan g = s.chan g)) ∧
     (x.late = false → s.glb.stage = .train → x.untrained.contains 3 = true ∨ x.untrained.contains 7 = true →
       ∃ s', exec (.startupStage x) s = .next s' ∧ s'.glb.stage = .train ∧ s'.rst.bootStop = true ∧ s'.starting = false) ∧
     (x.late = false → s.glb.stage = .clear →
       exec (.startupStage x) s = .next { s with glb := { s.glb with stage := .system } }) ∧
     (x.late = false → s.glb.stage = .system →
       ∃ s', exec (.startupStage x) s = .next s' ∧ s'.glb.stage = .run ∧ s'.glb.ready = true ∧ s'.glb.capv = true ∧
         (s'.key 0).st = .active ∧ (s'.chan 127).st = .system ∧ (s'.chan 255).st = .system ∧
         (∀ b ∈ [254, 255, 510, 511], (s'.bin b).st = .system) ∧ s'.seam.locked = true ∧ (s'.carve 0 0).chans = [127, 255] ∧
         (∀ b, b ∉ [254, 255, 510, 511] → s'.bin b = s.bin b)) ∧
     (x.late = true → s.glb.stage = .secboot ∨ s.glb.stage = .clocks ∨ s.glb.stage = .train ∨ s.glb.stage = .clear ∨ s.glb.stage = .system →
       ∃ s', exec (.startupStage x) s = .next s' ∧ s'.glb.stage = s.glb.stage ∧ s'.rst.bootStop = true ∧ s'.starting = false))

/-- R432, R436 to R438: a requested reset and what a hang detector finds become recoveries, written and, with none in progress,
running: L2 to L4 by request, L1 of the context that keeps a hold for HOLDMS, L2 of the VD of a pod without a beat, a unit
reset of a unit that does not answer; a requested L5 and a missed heartbeat make an L5 due; a silent security controller has
every key destroyed and holds the device in reset.  R428, R429, R433, R434, R444, R445: an L2 to L4 whose turn has come ends
the running execs with ABORTED and its DETAIL and zeroes the cores of its pods, whose generations advance, while the
Seedbank and HBM keep theirs; a unit reset keeps its contents and brings the domain up again; the next recovery starts when
one is done, and one past its limit escalates. -/
def Obligations.ResetsAndRecoveries : Prop :=
  ((∀ (i : Instr) (level v unit : Nat) (d : RecDom) (hang : Bool) (s : State), s.rst.running = none → s.rst.waiting = [] →
     s.rst.l5Due = none →
     ((i = .resetRequestL2 v ∧ v ≠ 0 ∧ s.podsOf v ≠ [] ∧ level = 2 ∧ d = .vd v ∧ unit = uRequest ∧ hang = false) ∨
      (∃ h, h < 2 ∧ i = .resetRequestL3 h ∧ level = 3 ∧ d = .half h ∧ v = 0 ∧ unit = uRequest ∧ hang = false) ∨
      (i = .resetRequestL4 ∧ level = 4 ∧ d = .compute ∧ v = 0 ∧ unit = uRequest ∧ hang = false) ∨
      (∃ p c, i = .podBeatWatchdog p ∧ v = (s.pod p).vd ∧ v ≠ 0 ∧ s.held v = false ∧ level = 2 ∧ d = .vd v ∧ unit = uCore ∧
         hang = true ∧ s.firstCore ((podCores p).filter fun c => (s.core c).running) (fun k => !k.halted) = some c) ∨
      (∃ idx, i = .unitRequestWatchdog unit idx ∧ unitDom unit idx = some d ∧ level = 6 ∧ v = 0 ∧ hang = true)) →
     ∃ s' r, exec i s = .next s' ∧ s'.rst.running = some r ∧ r.level = level ∧ r.dom = d ∧ r.unit = unit ∧ r.vd = v ∧
       r.hang = hang ∧ r.start = s.toll ∧ r.performed = false ∧ s'.rst.waiting = [] ∧ s'.rst.l5Due = none ∧
       (∀ k, downKey d = some k → sget false s'.rst.down k = true) ∧ s'.cores = s.cores ∧ s'.sbk = s.sbk) ∧
   (∀ (v : Nat) (s : State), (v = 0 ∨ s.podsOf v = []) → exec (.resetRequestL2 v) s = .next s) ∧
   (∀ (s : State),
     ∃ s', exec .resetRequestL5 s = .next s' ∧ s'.rst.l5Due = some (.request, uRequest) ∧ s'.rst.running = none ∧
       s'.rst.waiting = []) ∧
   (∀ (v x c : Nat) (h : Hold) (rest : List Hold) (s : State), s.rst.running = none → s.rst.waiting = [] → s.rst.l5Due = none →
     (s.vd v).holds = h :: rest → h.eff = true → s.regField (baseErr + 0x20) 31 16 ≠ 0 →
     h.since + 1000000 * s.regField (baseErr + 0x20) 31 16 ≤ s.toll → (s.vd v).ctx = some x →
     s.firstCore (s.coresOf v) (fun k => k.feWait) = some c → (s.ctx x).cur ≠ 0 → s.ctxCores x ≠ [] → (s.ctx x).stop = .none →
     ∃ s' r, exec (.holdWatchdog v) s = .next s' ∧ s'.rst.running = some r ∧ r.level = 1 ∧ r.dom = .ctx v x ∧ r.hang = true ∧
       r.performed = true ∧ (s'.ctx x).stop = .teardown 0x40000101 ∧ ∀ k ∈ s.ctxCores x, (s'.core k).stopped = true) ∧
   (∀ (v : Nat) (s : State), s.regField (baseErr + 0x20) 31 16 = 0 → exec (.holdWatchdog v) s = .next s) ∧
   (∀ (n : Nat) (s : State), n < 3 → s.glb.stage = .run →
     ∃ s', exec (.heartbeatMissed n) s = .next s' ∧ s'.rst.l5Due = some (.fatal, [uQueue, uBinder, uSched].getD n 0) ∧
       s'.glb.nme.getLsbD nmeFatal = true ∧ s'.rst.running = none ∧ s'.rst.waiting = []) ∧
   ∀ (s : State),
     ∃ s', exec .securityControllerSilent s = .next s' ∧ (∀ k, (s'.key k).cur = {} ∧ (s'.key k).prev = {} ∧ (s'.key k).secret = 0#256) ∧
       (∀ k ∈ s'.fw.links, k.key = 0#512) ∧ s'.rst.heldInReset = true ∧ s'.glb.ready = false ∧ s'.glb.stage = .halted ∧
       s'.glb.nme.getLsbD nmeSecHang = true ∧ s'.rst.l5Due = s.rst.l5Due) ∧
  ((∀ (v x : Nat) (r : Recovery) (s : State), s.rst.running = some r → r.level = 2 → r.dom = .vd v → r.performed = false →
     (s.vd v).sec.tear = none → (s.vd v).ctx = some x → (s.ctx x).stop = .none → (s.ctx x).cur ≠ 0 →
     s.hasCmd (s.ctx x).cur = true → (s.ctx x).vd = v →
     ∃ s', exec (.l2VdComputeReset v) s = .next s' ∧ s'.rst.running = some { r with performed := true } ∧
       (s'.cmd (s.ctx x).cur).phase = .ready ∧ (s'.cmd (s.ctx x).cur).status = stAborted ∧
       (s'.cmd (s.ctx x).cur).detail = 0x40000002 + 0x100 * b2n r.hang + 0x10000 * b2n (s.ctxWrote x) ∧
       (s'.cmd (s.ctx x).cur).ext = none ∧ (s'.vd v).ctx = none ∧ (s'.vd v).holds = [] ∧
       (∀ c, corePod c ∈ s.podsOf v → ∃ n, s'.core c = { nextXid := n }) ∧
       (∀ p ∈ s.podsOf v, sget 0 s'.rst.gen (64 + p) = (sget 0 s.rst.gen (64 + p) + 1) % 16) ∧
       (∀ c, corePod c ∉ s.podsOf v → c ∉ s.ctxCores x → s'.core c = s.core c) ∧ s'.sbk = s.sbk ∧ s'.hbm = s.hbm) ∧
   (∀ (i : Instr) (r : Recovery) (pods : List Nat) (s : State), s.rst.running = some r → r.performed = false →
     ((∃ h, h < 2 ∧ i = .l3HalfComputeReset h ∧ r.level = 3 ∧ r.dom = .half h ∧ pods = halfPods h) ∨
      (i = .l4ComputePartReset ∧ r.level = 4 ∧ r.dom = .compute ∧ pods = List.range 128)) →
     ∃ s', exec i s = .next s' ∧ s'.rst.running = some { r with performed := true } ∧
       (∀ c, corePod c ∈ pods → ∃ n, s'.core c = { nextXid := n }) ∧
       (∀ p ∈ pods, sget 0 s'.rst.gen (64 + p) = (sget 0 s.rst.gen (64 + p) + 1) % 16) ∧
       (∀ p ∈ pods, (s.pod p).vd ≠ 0 → (s'.vd (s.pod p).vd).holds = [] ∨ ∃ x, (s.vd (s.pod p).vd).ctx = some x ∧ (s.ctx x).vd ≠ (s.pod p).vd) ∧
       s'.sbk = s.sbk ∧ s'.hbm = s.hbm) ∧
   (∀ (unit idx k : Nat) (d : RecDom) (r : Recovery) (s : State), unitDom unit idx = some d → downKey d = some k →
     s.rst.running = some r → r.level = 6 → r.dom = d → r.performed = false →
     ∃ s', exec (.unitReset unit idx) s = .next s' ∧ s'.rst.running = some { r with performed := true } ∧
       sget false s'.rst.down k = false ∧ sget 0 s'.rst.gen k = (sget 0 s.rst.gen k + 1) % 16 ∧ s'.sbk.mem = s.sbk.mem ∧
       s'.sbk.poison = s.sbk.poison ∧ (∀ g, (s'.chan g).lines = (s.chan g).lines) ∧
       (∀ n, d = .store n → ∀ p, p / 32 = n → (s'.region p).scrubPos = 0) ∧
       (∀ n, d = .hbmctl n → ∀ g, g / 32 = n → ∀ p, sget false (s'.chan g).dirtyMeta p = false)) ∧
   (∀ (idx : Nat) (s : State), idx < 2 → (s.port idx).vfs = [] → (s.port idx).streams = [] → s.que.cmds = [] → s.pfPairs idx = [] →
     ∃ s', exec (.unitReset uHost idx) s = .next s' ∧ (s'.port idx).up = false ∧ (s'.port idx).vfEnable = false) ∧
   (∀ (r : Recovery) (s : State), s.rst.running = some r → s.recoveryDone r = true →
     (s.rst.waiting = [] → exec .recoveryComplete s = .next { s with rst := { s.rst with running := none } }) ∧
     ∀ w rest, s.rst.waiting = w :: rest → w.level ≠ 1 →
       exec .recoveryComplete s = .next { s with rst := { s.rst with running := some { w with start := s.toll }, waiting := rest } }) ∧
   ∀ (r : Recovery) (s : State), s.rst.running = some r →
     (s.toll < r.start + recoveryLimit r → exec .recoveryLimitOverrun s = .next s) ∧
     (r.start + recoveryLimit r ≤ s.toll →
       ∃ s', exec .recoveryLimitOverrun s = .next s' ∧
         (∀ v c, r.dom = .ctx v c → ∃ q, s'.rst.running = some q ∧ q.level = 2 ∧ q.dom = .vd v ∧ q.performed = false) ∧
         (∀ v h, r.dom = .vd v → s.domHalves (.vd v) = [h] →
           ∃ q, s'.rst.running = some q ∧ q.level = 3 ∧ q.dom = .half h ∧ q.performed = false) ∧
         (∀ h, r.dom = .half h → ∃ q, s'.rst.running = some q ∧ q.level = 4 ∧ q.dom = .compute ∧ q.performed = false) ∧
         ((r.dom = .compute ∨ (downKey r.dom).isSome = true) → s'.rst.running = none ∧ s'.rst.waiting = [] ∧
           s'.rst.l5Due = some (.escalation, r.unit))))

/-- R478, R479: an input with more than 1,000 edges in a window enters storm, THROT_N and the reset inputs being taken as
asserted; 1,000 calm windows in a row end the mask; PMB_ALERT_N and TOLL_IN_PPS are masked while stuck. R482, R483: the BMC
reads a register without clearing it, but for the RC bits of SB_INSTAT. R484: DBGACC acts as a read or write of PF BAR0 once
level 1 is open through JTAG, else as BYPASS. -/
def Obligations.SidebandActs : Prop :=
  (∀ (i e : Nat) (s : State), i < 3 → 1000 < e → (s.pin i).storm = false →
    ∃ s', exec (.inputStormWindow i e) s = .next s' ∧ (s'.pin i).storm = true ∧ (s'.pin i).calm = 0 ∧ (s'.pin i).stormSeen = true ∧
      (i = 0 → s'.pwr.throt = true) ∧ (i ≠ 0 → s'.pwr = s.pwr) ∧
      s'.side.ibi = s.side.ibi + (if s.side.i3c = none then 0 else 1)) ∧
  (∀ (e : Nat) (s : State), 1000 < e → (s.pin 3).storm = false →
    ∃ s', exec (.inputStormWindow 3 e) s = .next s' ∧ (s'.pin 3).storm = true ∧ s'.rst.heldInReset = true) ∧
  (∀ (i e : Nat) (s : State), i < 3 → (s.pin i).storm = true → e ≤ 10 →
    ∃ s', exec (.inputStormWindow i e) s = .next s' ∧
      ((s.pin i).calm + 1 < 1000 → (s'.pin i).storm = true ∧ (s'.pin i).calm = (s.pin i).calm + 1 ∧ s'.pwr = s.pwr) ∧
      (1000 ≤ (s.pin i).calm + 1 → (s'.pin i).storm = false ∧
        (i = 0 → s'.pwr.throt = (s.pwr.throt && (s.pin 0).level)))) ∧
  (∀ (i e : Nat) (s : State), i < 3 → (s.pin i).storm = true → 10 < e →
    ∃ s', exec (.inputStormWindow i e) s = .next s' ∧ (s'.pin i).storm = true ∧ (s'.pin i).calm = 0 ∧ s'.pwr = s.pwr) ∧
  (∀ (i : Nat) (s : State), i = 1 ∨ i = 2 → (s.pin i).stuck = false →
    ∃ s', exec (.stuckInputTimeout i) s = .next s' ∧ (s'.pin i).stuck = true ∧ (s'.pin i).stuckSeen = true ∧
      s'.side.ibi = s.side.ibi + (if s.side.i3c = none then 0 else 1)) ∧
  (∀ (s : State), exec (.stuckInputTimeout 0) s = .next s) ∧
  (∀ (i : Nat) (s : State), (s.pin i).stuck = true →
    ∃ s', exec (.stuckInputDeassert i) s = .next s' ∧ (s'.pin i).stuck = false ∧ (s'.pin i).level = false ∧
      ∀ j, j ≠ i → s'.pin j = s.pin j) ∧
  (∀ (i : Instr) (v : Nat) (s : State), s.bmcAnswers = true →
    ((i = .bmcGlbId ∧ v = 0xA9D01D9E) ∨ (i = .bmcGlbStatus ∧ v = s.pfValue 0 0x08) ∨ (i = .bmcGlbNmecause ∧ v = s.glb.nme.toNat) ∨
     (i = .bmcGlbNmefirst ∧ v = s.pfValue 0 0x14) ∨ (i = .bmcGlbNmetime ∧ v = s.glb.nmeTime) ∨
     (i = .bmcPctPgstat ∧ v = s.pfValue 0 0x010004) ∨ (i = .bmcErrRstlast ∧ v = s.pfValue 0 0x020018) ∨
     (i = .bmcPctTemp ∧ v = s.pfValue 0 0x010028) ∨ (i = .bmcPctPower ∧ v = s.pfValue 0 0x01001C)) →
    exec i s = .next { s with rdata := [BitVec.ofNat 64 v] }) ∧
  (∀ (s : State), s.bmcAnswers = true →
    ∃ s', exec .bmcSbInstat s = .next s' ∧ s'.rdata = [BitVec.ofNat 64 s.sbInstat] ∧
      (s.sbInstat / 2 ^ 12 % 2 = 1 ↔ (s.pin 0).stormSeen = true) ∧ (s.sbInstat / 2 ^ 11 % 2 = 1 ↔ (s.pin 2).stuckSeen = true) ∧
      (s.sbInstat / 2 ^ 10 % 2 = 1 ↔ (s.pin 2).stormSeen = true) ∧ (s.sbInstat / 2 ^ 9 % 2 = 1 ↔ (s.pin 1).stuckSeen = true) ∧
      (s.sbInstat / 2 ^ 8 % 2 = 1 ↔ (s.pin 1).stormSeen = true) ∧ (s.sbInstat / 2 ^ 4 % 2 = 1 ↔ (s.pin 0).storm = true) ∧
      (s.sbInstat / 2 ^ 3 % 2 = 1 ↔ (s.pin 2).stuck = true) ∧ (s.sbInstat / 2 ^ 2 % 2 = 1 ↔ (s.pin 2).storm = true) ∧
      (s.sbInstat / 2 % 2 = 1 ↔ (s.pin 1).stuck = true) ∧ (s.sbInstat % 2 = 1 ↔ (s.pin 1).storm = true) ∧
      (∀ i < 3, (s'.pin i).stormSeen = false ∧ (s'.pin i).stuckSeen = false ∧ (s'.pin i).storm = (s.pin i).storm ∧
        (s'.pin i).stuck = (s.pin i).stuck)) ∧
  (∀ (a : Nat) (s : State), (sget ({} : Rail) s.pwr.rails 0).pg = true → (sget ({} : Rail) s.pwr.rails 5).pg = true → a < 128 →
    exec (.bmcAddressAssign a) s = .next { s with side := { s.side with i3c := some a } }) ∧
  (∀ (off : Nat) (v : Word) (s : State), s.dbgacc = false →
    exec (.dbgaccRead off) s = .next s ∧ exec (.dbgaccWrite off v) s = .next s) ∧
  (∀ (off : Nat) (s : State), s.dbgacc = true → off % 4 = 0 → off < 2 ^ 32 → s.pfAnswers off = true →
    ∃ s', exec (.dbgaccRead off) s = .next s' ∧ s'.rdata = [BitVec.ofNat 64 (s.pfRead dbgFn off).1] ∧
      s'.side.dr.toNat = 1 + off * 4 + (s.pfRead dbgFn off).1 % 2 ^ 32 * 2 ^ 34 ∧ s'.glb = (s.pfRead dbgFn off).2.glb ∧
      s'.rst = (s.pfRead dbgFn off).2.rst) ∧
  (∀ (off : Nat) (v : Word) (s : State), s.dbgacc = true → off % 4 = 0 → off < 2 ^ 32 → s.pfAnswers off = true →
    ∃ s', exec (.dbgaccWrite off v) s = .next s' ∧ s'.side.dr.toNat = 2 + off * 4 + v.toNat * 2 ^ 34 ∧
      s'.glb = (s.pfWrite dbgFn off v.toNat).glb ∧ s'.rst = (s.pfWrite dbgFn off v.toNat).rst) ∧
  ∀ (s : State), exec .tapReset s = .next { s with side := { s.side with ir := 0x01#8 } }

/-- Every command answers a next state, whatever the state: none ends a run by a fault or a refusal (what a command does whose
precondition is not met is the model's reading, assumption 6). -/
def Obligations.EveryCommandAnswersANextState : Prop :=
  ∀ (i : Instr) (s : State), ∃ s', exec i s = .next s'

/-- After L6: no VD, no context, command, object or timeline, every core stopped, every queue pair and Finwin port disabled,
both host links down, the seam closed, no cause of the NME latched, no debug grant or unlock, STAGE 0 and READY 0; every TDI
is in CONFIG_UNLOCKED; the memories list nothing, in their canonical form, and registers read their reset values. -/
def Obligations.ResetLeavesTheBlockEmpty : Prop :=
  (State.reset.pending = [] ∧ State.reset.toll = 0 ∧ State.reset.glb.nme = 0 ∧ State.reset.pfValue 0 0x08 % 2 ^ 8 = 0 ∧
    State.reset.sec.level1 = false ∧ State.reset.sec.level2 = none ∧ State.reset.sec.level3 = false ∧ State.reset.seam.isOpen = false ∧
    State.reset.FuseInv ∧ Memory.wf State.reset.host.mem ∧ State.reset.host.mem = []) ∧
  (∀ v, (State.reset.vd v).st = .none ∧ (State.reset.ctx v).used = false ∧ (State.reset.obj v).st = .free ∧
    (State.reset.timeline v).used = false ∧ State.reset.hasCmd v = false) ∧
  (∀ c, (State.reset.core c).running = false) ∧
  (∀ q, (State.reset.pair q).st = .disabled ∧ (State.reset.pair q).assigned = false) ∧
  (∀ p, (State.reset.fport p).st = .disabled ∧ (State.reset.port p).up = false ∧ ∀ n, (State.reset.vf p n).tdi = .configUnlocked) ∧
  (∀ d, (State.reset.peer d).session = false) ∧
  State.reset.reg (baseErr + 0x00) = 0 ∧ State.reset.portEn 0 = false ∧ State.reset.tollPrio = 128

/-- R386: whatever a step does, the commands that wait behind the one it takes stay as they are, the anti-rollback fuses never
go back, and no firmware older than they allow runs. -/
def Obligations.StepsKeepTheQueueAndTheFuses : Prop :=
  ∀ s s' : State, step s = .next s' →
    s'.pending = s.pending.tail ∧ s.sec.rollback ≤ s'.sec.rollback ∧ (s.FuseInv → s'.FuseInv)
end

