-- ==== Sys2Proof/Laws/Maps.lean ====
section
/-!
SUPPORT. Laws of sparse maps and byte memories: a read after a write, and that every memory operation keeps the
canonical form.
-/
namespace Sys2Proof.Machine

section Maps
variable {α : Type} [DecidableEq α] {d : α}

omit [DecidableEq α] in
@[simp] theorem sget_nil (k : Nat) : sget d [] k = d := rfl

omit [DecidableEq α] in
theorem sget_cons (e : Nat × α) (m : SMap α) (k : Nat) :
    sget d (e :: m) k = if k = e.1 then e.2 else if k < e.1 then d else sget d m k := rfl

omit [DecidableEq α] in
/-- Entries at or below a key never matter to a read above it. -/
theorem sget_dropWhile_le (m : SMap α) (k j : Nat) (h : k < j) :
    sget d (m.dropWhile fun e => e.1 ≤ k) j = sget d m j := by
  induction m with
  | nil => rfl
  | cons e m ih =>
    by_cases he : e.1 ≤ k
    · rw [List.dropWhile_cons_of_pos (by simpa using he), ih, sget_cons, if_neg (by omega), if_neg (by omega)]
    · rw [List.dropWhile_cons_of_neg (by simpa using he)]

omit [DecidableEq α] in
/-- What is left above a key reads as the default at or below it. -/
theorem sget_dropWhile_ge (m : SMap α) (k j : Nat) (h : j ≤ k) :
    sget d (m.dropWhile fun e => e.1 ≤ k) j = d := by
  induction m with
  | nil => rfl
  | cons e m ih =>
    by_cases he : e.1 ≤ k
    · rw [List.dropWhile_cons_of_pos (by simpa using he), ih]
    · rw [List.dropWhile_cons_of_neg (by simpa using he), sget_cons, if_neg (by omega), if_pos (by omega)]

/-- A read after a write: the value written at its key, what was there at every other. -/
theorem sget_sput (m : SMap α) (k j : Nat) (v : α) :
    sget d (sput d k v m) j = if j = k then v else sget d m j := by
  induction m with
  | nil =>
    by_cases hv : v = d
    · simp [sput, hv]
    · rw [sput, if_neg hv, sget_cons, sget_nil]; split <;> simp
  | cons e m ih =>
    obtain ⟨k', v'⟩ := e
    by_cases hlt : k < k'
    · by_cases hv : v = d
      · rw [sput, if_pos hlt, if_pos hv]
        by_cases hj : j = k
        · subst hj; rw [if_pos rfl, sget_cons, if_neg (by simp; omega), if_pos hlt, hv]
        · rw [if_neg hj]
      · rw [sput, if_pos hlt, if_neg hv, sget_cons]
        by_cases hj : j = k
        · simp [hj]
        · rw [if_neg hj, if_neg hj]
          by_cases hjk : j < k
          · rw [if_pos hjk, sget_cons, if_neg (by simp; omega), if_pos (by simp; omega)]
          · rw [if_neg hjk]
    · by_cases heq : k = k'
      · subst heq
        rw [sput, if_neg hlt, if_pos rfl]
        by_cases hv : v = d
        · rw [if_pos hv]
          by_cases hj : j ≤ k
          · rw [sget_dropWhile_ge _ _ _ hj]
            by_cases hjk : j = k
            · simp [hjk, hv]
            · rw [if_neg hjk, sget_cons, if_neg hjk, if_pos (by simp; omega)]
          · rw [sget_dropWhile_le _ _ _ (by omega), if_neg (by omega), sget_cons, if_neg (by simp; omega),
              if_neg (by simp; omega)]
        · rw [if_neg hv, sget_cons, sget_cons]
          by_cases hj : j = k <;> simp [hj]
      · rw [sput, if_neg hlt, if_neg heq, sget_cons, sget_cons, ih]
        by_cases hj : j = k
        · subst hj; rw [if_neg (by simp; omega), if_neg (by simp; omega), if_pos rfl, if_pos rfl]
        · simp [hj]

theorem sget_sput_same (m : SMap α) (k : Nat) (v : α) : sget d (sput d k v m) k = v := by rw [sget_sput, if_pos rfl]

theorem sget_sput_ne (m : SMap α) {k j : Nat} (v : α) (h : j ≠ k) : sget d (sput d k v m) j = sget d m j := by
  rw [sget_sput, if_neg h]

/-- The canonical form, said of every pair of entries at once. -/
def SMap.Canon (d : α) (m : SMap α) : Prop := m.Pairwise (fun e f => e.1 < f.1) ∧ ∀ e ∈ m, e.2 ≠ d

theorem SMap.wf_iff (m : SMap α) : SMap.wf d m = true ↔ SMap.Canon d m := by
  induction m with
  | nil => simp [SMap.wf, SMap.Canon]
  | cons e m ih =>
    obtain ⟨k, v⟩ := e
    cases m with
    | nil => simp [SMap.wf, SMap.Canon]
    | cons f m =>
      obtain ⟨k', v'⟩ := f
      simp only [SMap.wf, Bool.and_eq_true, decide_eq_true_eq, bne_iff_ne, ne_eq, ih, SMap.Canon, List.pairwise_cons,
        List.mem_cons, forall_eq_or_imp]
      constructor
      · rintro ⟨⟨h1, h2⟩, ⟨h3, h4⟩, h5⟩
        exact ⟨⟨⟨h1, fun e he => lt_trans h1 (h3 e he)⟩, h3, h4⟩, h2, h5⟩
      · rintro ⟨⟨⟨h1, _⟩, h3, h4⟩, h2, h5⟩
        exact ⟨⟨h1, h2⟩, ⟨h3, h4⟩, h5⟩

omit [DecidableEq α] in
/-- Dropping a prefix keeps the canonical form. -/
theorem SMap.Canon.dropWhile {m : SMap α} (p : Nat × α → Bool) (h : SMap.Canon d m) : SMap.Canon d (m.dropWhile p) :=
  ⟨h.1.sublist (List.dropWhile_sublist p), fun e he => h.2 e ((List.dropWhile_sublist p).subset he)⟩

/-- Every entry a write leaves is one that was there or the one written. -/
theorem mem_sput {m : SMap α} {k : Nat} {v : α} {e : Nat × α} (he : e ∈ sput d k v m) : e ∈ m ∨ e = (k, v) := by
  induction m with
  | nil =>
    by_cases hv : v = d
    · simp [sput, hv] at he
    · rw [sput, if_neg hv] at he; simpa using he
  | cons f m ih =>
    obtain ⟨k', v'⟩ := f
    rw [sput] at he
    split at he
    · split at he
      · exact .inl he
      · rcases List.mem_cons.1 he with h | h
        · exact .inr h
        · exact .inl h
    · split at he
      · split at he
        · exact .inl (List.mem_cons_of_mem _ ((List.dropWhile_sublist _).subset he))
        · rcases List.mem_cons.1 he with h | h
          · exact .inr h
          · exact .inl (List.mem_cons_of_mem _ h)
      · rcases List.mem_cons.1 he with h | h
        · exact .inl (h ▸ List.mem_cons_self)
        · rcases ih h with h | h
          · exact .inl (List.mem_cons_of_mem _ h)
          · exact .inr h

/-- A write keeps the canonical form. -/
theorem SMap.Canon.sput {m : SMap α} (h : SMap.Canon d m) (k : Nat) (v : α) : SMap.Canon d (sput d k v m) := by
  induction m with
  | nil =>
    by_cases hv : v = d
    · simp [Machine.sput, hv, SMap.Canon]
    · simp [Machine.sput, hv, SMap.Canon]
  | cons f m ih =>
    obtain ⟨k', v'⟩ := f
    have hs := List.pairwise_cons.1 h.1
    have ht : SMap.Canon d m := ⟨hs.2, fun e he => h.2 e (List.mem_cons_of_mem _ he)⟩
    rw [Machine.sput]
    split
    · rename_i hlt
      split
      · exact h
      · rename_i hv
        refine ⟨List.pairwise_cons.2 ⟨?_, h.1⟩, ?_⟩
        · intro e he
          rcases List.mem_cons.1 he with he | he
          · exact he ▸ hlt
          · exact lt_trans hlt (hs.1 e he)
        · intro e he
          rcases List.mem_cons.1 he with he | he
          · exact he ▸ hv
          · exact h.2 e he
    · split
      · rename_i heq
        subst heq
        split
        · exact ht.dropWhile _
        · rename_i hv
          refine ⟨List.pairwise_cons.2 ⟨hs.1, hs.2⟩, ?_⟩
          intro e he
          rcases List.mem_cons.1 he with he | he
          · exact he ▸ hv
          · exact ht.2 e he
      · rename_i hlt hne
        refine ⟨List.pairwise_cons.2 ⟨?_, (ih ht).1⟩, ?_⟩
        · intro e he
          rcases mem_sput he with he | he
          · exact hs.1 e he
          · subst he; simp; omega
        · intro e he
          rcases List.mem_cons.1 he with he | he
          · exact he ▸ h.2 _ List.mem_cons_self
          · exact (ih ht).2 e he

/-- A write keeps the canonical form, said of the check. -/
theorem sput_wf {m : SMap α} (h : SMap.wf d m = true) (k : Nat) (v : α) : SMap.wf d (sput d k v m) = true :=
  (SMap.wf_iff _).2 (((SMap.wf_iff _).1 h).sput k v)

/-- A filtered map keeps the canonical form. -/
theorem filter_wf {m : SMap α} (h : SMap.wf d m = true) (p : Nat × α → Bool) : SMap.wf d (m.filter p) = true :=
  let c := (SMap.wf_iff _).1 h
  (SMap.wf_iff _).2 ⟨c.1.sublist List.filter_sublist, fun e he => c.2 e (List.filter_sublist.subset he)⟩

omit [DecidableEq α] in
/-- Two canonical maps that read alike at every key are one list. -/
theorem SMap.Canon.ext {m n : SMap α} (hm : SMap.Canon d m) (hn : SMap.Canon d n)
    (h : ∀ k, sget d m k = sget d n k) : m = n := by
  induction m generalizing n with
  | nil =>
    cases n with
    | nil => rfl
    | cons f n =>
      exact absurd (by simpa [sget_cons] using (h f.1).symm) (hn.2 f List.mem_cons_self)
  | cons e m ih =>
    cases n with
    | nil => exact absurd (by simpa [sget_cons] using h e.1) (hm.2 e List.mem_cons_self)
    | cons f n =>
      have hme := hm.2 e List.mem_cons_self
      have hnf := hn.2 f List.mem_cons_self
      have hk : e.1 = f.1 := by
        rcases lt_trichotomy e.1 f.1 with hlt | heq | hgt
        · have := h e.1
          rw [sget_cons, if_pos rfl, sget_cons, if_neg (by omega), if_pos hlt] at this
          exact absurd this hme
        · exact heq
        · have := h f.1
          rw [sget_cons, if_neg (by omega), if_pos hgt, sget_cons, if_pos rfl] at this
          exact absurd this.symm hnf
      have hv : e.2 = f.2 := by
        have := h e.1
        rwa [sget_cons, if_pos rfl, sget_cons, if_pos hk] at this
      have hm' := List.pairwise_cons.1 hm.1
      have hn' := List.pairwise_cons.1 hn.1
      have key : m = n := by
        refine ih ⟨hm'.2, fun x hx => hm.2 x (List.mem_cons_of_mem _ hx)⟩
          ⟨hn'.2, fun x hx => hn.2 x (List.mem_cons_of_mem _ hx)⟩ fun k => ?_
        have low : ∀ (l : SMap α) (b : Nat), (∀ x ∈ l, b < x.1) → k ≤ b → sget d l k = d := by
          intro l b hl hkb
          cases l with
          | nil => rfl
          | cons x l =>
            have := hl x List.mem_cons_self
            rw [sget_cons, if_neg (by omega), if_pos (by omega)]
        by_cases hke : k ≤ e.1
        · rw [low m e.1 hm'.1 hke, low n f.1 hn'.1 (hk ▸ hke)]
        · have := h k
          rwa [sget_cons, if_neg (by omega), if_neg (by omega), sget_cons, if_neg (by omega), if_neg (by omega)] at this
      rw [Prod.ext hk hv, key]

end Maps

/-! ### Byte memories -/

/-- A byte read after a byte write. -/
theorem readByte_writeByte (m : Mem) (a j : Nat) (b : Byte) :
    readByte (writeByte m a b) j = if j = a then b else readByte m j := sget_sput m a j b

/-- Storing bytes leaves every other address alone. -/
theorem readByte_writeBytes_other (l : List Byte) (m : Mem) (a j : Nat) (h : j < a ∨ a + l.length ≤ j) :
    readByte (writeBytes m a l) j = readByte m j := by
  induction l generalizing m a with
  | nil => rfl
  | cons b l ih =>
    rw [List.length_cons] at h
    rw [writeBytes, ih _ _ (by omega), readByte_writeByte, if_neg (by omega)]

/-- Storing bytes puts each byte at its address. -/
theorem readByte_writeBytes (l : List Byte) (m : Mem) (a i : Nat) (h : i < l.length) :
    readByte (writeBytes m a l) (a + i) = l.getD i 0#8 := by
  induction l generalizing m a i with
  | nil => simp at h
  | cons b l ih =>
    cases i with
    | zero => rw [writeBytes, readByte_writeBytes_other _ _ _ _ (.inl (by omega)), readByte_writeByte]; simp
    | succ i =>
      rw [List.length_cons] at h
      rw [writeBytes, show a + (i + 1) = a + 1 + i by omega, ih _ _ _ (by omega)]; simp

/-- Reading back what was stored. -/
theorem readBytes_writeBytes (l : List Byte) (m : Mem) (a : Nat) : readBytes (writeBytes m a l) a l.length = l := by
  induction l generalizing m a with
  | nil => rfl
  | cons b l ih =>
    rw [List.length_cons, readBytes, writeBytes, ih, readByte_writeBytes_other _ _ _ _ (.inl (by omega)),
      readByte_writeByte, if_pos rfl]

theorem writeByte_wf {m : Mem} (h : Memory.wf m = true) (a : Nat) (b : Byte) : Memory.wf (writeByte m a b) = true :=
  sput_wf h a b

theorem writeBytes_wf {m : Mem} (h : Memory.wf m = true) (a : Nat) (l : List Byte) :
    Memory.wf (writeBytes m a l) = true := by
  induction l generalizing m a with
  | nil => exact h
  | cons b l ih => exact ih (writeByte_wf h a b) _

theorem writeLE_wf {m : Mem} (h : Memory.wf m = true) (a n v : Nat) : Memory.wf (writeLE m a n v) = true :=
  writeBytes_wf h a _

theorem writeLine_wf {m : Mem} (h : Memory.wf m = true) (a : Nat) (x : BitVec 512) :
    Memory.wf (writeLine m a x) = true := writeLE_wf h a 64 _

end Sys2Proof.Machine
end

