-- ==== Sys2Proof/Laws/Crypto.lean ====
section
/-!
SUPPORT. What the published algorithms keep whatever the key: sealing and opening under GCM agree (R384, R388), digests
are 48 bytes, and a line of HBM that carries the tag of its ciphertext opens to what was sealed (R194, R195).
-/
namespace Sys2Proof.Machine

theorem xorBytes_length (a b : List Byte) : (xorBytes a b).length = a.length := by simp [xorBytes]

theorem xorBytes_getD (a b : List Byte) (i : Nat) (h : i < a.length) :
    (xorBytes a b).getD i 0#8 = a.getD i 0#8 ^^^ b.getD i 0#8 := by
  simp [xorBytes, List.getD_eq_getElem?_getD, h]

/-- Adding the same stream twice gives the bytes back. -/
theorem xorBytes_self (a s : List Byte) : xorBytes (xorBytes a s) s = a := by
  apply List.ext_getElem
  · simp [xorBytes_length]
  · intro i h1 h2
    simp only [xorBytes_length] at h1
    have h := xorBytes_getD (xorBytes a s) s i (by rwa [xorBytes_length])
    rw [xorBytes_getD a s i h1, BitVec.xor_assoc, BitVec.xor_self, BitVec.xor_zero] at h
    simpa [List.getD_eq_getElem?_getD, xorBytes_length, h1] using h

theorem gcmSeal_length (k : BitVec 256) (n : Nat) (a b : List Byte) : (gcmSeal k n a b).1.length = b.length := by
  simp [gcmSeal, xorBytes_length]

theorem gcmTag_length (k : BitVec 256) (n : Nat) (a b : List Byte) : (gcmTag k n a b).length = 16 := by
  simp [gcmTag, xorBytes_length, beBytes]

/-- What GCM seals, it opens (R384). -/
theorem gcmOpen_gcmSeal (k : BitVec 256) (n : Nat) (a b : List Byte) :
    gcmOpen k n a (gcmSeal k n a b).1 (gcmSeal k n a b).2 = some b := by
  simp [gcmOpen, gcmSeal, xorBytes_length, xorBytes_self]

theorem shaBlock_length (hs : List DWord) (b : List Byte) : (shaBlock hs b).length = 8 := by simp [shaBlock]

theorem foldl_shaBlock_length (l : List (List Byte)) (hs : List DWord) (h : hs.length = 8) :
    (l.foldl shaBlock hs).length = 8 := by
  induction l generalizing hs with
  | nil => exact h
  | cons b l ih => exact ih _ (shaBlock_length hs b)

theorem sha384_length (m : List Byte) : (sha384 m).length = 48 := by
  have h := foldl_shaBlock_length (chunksOf 128 (m ++ [0x80#8] ++ List.replicate ((111 + 128 - m.length % 128) % 128) 0#8 ++
    beBytes 16 (8 * m.length))) shaInit (by simp [shaInit])
  simp only [sha384, List.length_take, List.length_flatten, List.map_map]
  have : ((List.foldl shaBlock shaInit (chunksOf 128 (m ++ [0x80#8] ++
      List.replicate ((111 + 128 - m.length % 128) % 128) 0#8 ++ beBytes 16 (8 * m.length)))).map
      (List.length ∘ fun w => beBytes 8 w.toNat)).sum = 8 * 8 := by
    rw [show (List.length ∘ fun w : DWord => beBytes 8 w.toNat) = fun _ => 8 by funext w; simp [beBytes]]
    rw [List.map_const', h]; rfl
  omega

/-! ### A line that carries its tag -/

theorem granLines_one {mode : Nat} (h : mode ≠ 3) : granLines mode = 1 := by simp [granLines, h]

theorem granOf_one {mode : Nat} (h : mode ≠ 3) (l : Nat) : granOf mode l = [l] := by
  simp [granOf, granLines_one h, List.range_succ]

section
variable (c : Chan) (g l : Nat) (fp kp : KeyPair) (d : BitVec 512)
/-- A line stored under its page's counters, in a carve-out whose granule is one line, opens to what was stored. -/
theorem plain_putGranule :
    let b := c.ctr (l / 64)
    (c.putGranule g kp l b.gen b.major (b.minor (minorIdx c.mode l)) [d]).plain g fp kp l = d := by
  simp [Chan.putGranule, Chan.plain, Chan.stored, Chan.ctr, sget_sput_same, BitVec.xor_assoc]

/-- It carries the tag of its ciphertext. -/
theorem tagOk_putGranule (h : c.mode ≠ 3) :
    let b := c.ctr (l / 64)
    (c.putGranule g kp l b.gen b.major (b.minor (minorIdx c.mode l)) [d]).tagOk g fp kp l = true := by
  simp [Chan.putGranule, Chan.tagOk, Chan.stored, Chan.storedTag, Chan.ctr, sget_sput_same, granOf_one h, granLines_one h]
end

/-- A read whose metadata verify and whose line is neither poisoned nor failing is answered by the line's data (R198). -/
theorem mpeRead_ok {s t : State} {vd key addr g loc cv : Nat} {fp kp : KeyPair} {d : BitVec 512}
    (ha : s.admitLine vd key addr false = (.ok g loc cv, s)) (hw : s.chWaits g (loc / 64 / 64) true false = false)
    (hm : (s.chan g).mode ≠ 3) (ht : s.touchChan g = t) (hm' : (t.chan g).mode ≠ 3)
    (hb : (t.chan g).subBad (loc / 64 / 64) = false)
    (hp : t.pairs g (loc / 64 / 64) = (fp, some kp)) (hc : t.checkPage g (loc / 64 / 64) kp = (none, t))
    (hq : sget false (t.chan g).poison (loc / 64) = false) (he : sget Ecc.clean (t.chan g).flaw (loc / 64) = Ecc.clean)
    (hd : (t.chan g).plain g fp kp (loc / 64) = d) (hk : (t.chan g).tagOk g fp kp (loc / 64) = true) :
    (s.mpeRead vd key addr false .clean).1 = .ok [d] := by
  have hr : s.readGranule g (loc / 64) .clean = (.ok [d], t) := by
    simp [State.readGranule, ht, hb, hp, hc, granOf_one hm', hq, Chan.granEcc, he, eccMax, hk, hd]
  simp [State.mpeRead, ha, hw, hr, granLines_one hm, Nat.mod_one]

end Sys2Proof.Machine
end

