-- ==== Sys2Proof/Laws/State.lean ====
section
/-!
SUPPORT. One lemma per field per named update of the state, each true by rfl, and what each accessor reads after each
update: no later proof unfolds a record update.
-/
namespace Sys2Proof.Machine

/-! ### setCore -/

@[simp] theorem State.setCore_pending (s : State) (c : Nat) (k : Core) : (s.setCore c k).pending = s.pending := rfl
@[simp] theorem State.setCore_freeCount (s : State) (c : Nat) (k : Core) : (s.setCore c k).freeCount = s.freeCount := rfl
@[simp] theorem State.setCore_rdata (s : State) (c : Nat) (k : Core) : (s.setCore c k).rdata = s.rdata := rfl
@[simp] theorem State.setCore_toll (s : State) (c : Nat) (k : Core) : (s.setCore c k).toll = s.toll := rfl
@[simp] theorem State.setCore_pods (s : State) (c : Nat) (k : Core) : (s.setCore c k).pods = s.pods := rfl
@[simp] theorem State.setCore_seam (s : State) (c : Nat) (k : Core) : (s.setCore c k).seam = s.seam := rfl
@[simp] theorem State.setCore_vds (s : State) (c : Nat) (k : Core) : (s.setCore c k).vds = s.vds := rfl
@[simp] theorem State.setCore_sbk (s : State) (c : Nat) (k : Core) : (s.setCore c k).sbk = s.sbk := rfl
@[simp] theorem State.setCore_hbm (s : State) (c : Nat) (k : Core) : (s.setCore c k).hbm = s.hbm := rfl
@[simp] theorem State.setCore_xlt (s : State) (c : Nat) (k : Core) : (s.setCore c k).xlt = s.xlt := rfl
@[simp] theorem State.setCore_host (s : State) (c : Nat) (k : Core) : (s.setCore c k).host = s.host := rfl
@[simp] theorem State.setCore_que (s : State) (c : Nat) (k : Core) : (s.setCore c k).que = s.que := rfl
@[simp] theorem State.setCore_cmp (s : State) (c : Nat) (k : Core) : (s.setCore c k).cmp = s.cmp := rfl
@[simp] theorem State.setCore_sch (s : State) (c : Nat) (k : Core) : (s.setCore c k).sch = s.sch := rfl
@[simp] theorem State.setCore_pwr (s : State) (c : Nat) (k : Core) : (s.setCore c k).pwr = s.pwr := rfl
@[simp] theorem State.setCore_fw (s : State) (c : Nat) (k : Core) : (s.setCore c k).fw = s.fw := rfl
@[simp] theorem State.setCore_sec (s : State) (c : Nat) (k : Core) : (s.setCore c k).sec = s.sec := rfl
@[simp] theorem State.setCore_side (s : State) (c : Nat) (k : Core) : (s.setCore c k).side = s.side := rfl
@[simp] theorem State.setCore_glb (s : State) (c : Nat) (k : Core) : (s.setCore c k).glb = s.glb := rfl
@[simp] theorem State.setCore_rst (s : State) (c : Nat) (k : Core) : (s.setCore c k).rst = s.rst := rfl

/-! ### setPod -/

@[simp] theorem State.setPod_pending (s : State) (p : Nat) (k : Pod) : (s.setPod p k).pending = s.pending := rfl
@[simp] theorem State.setPod_freeCount (s : State) (p : Nat) (k : Pod) : (s.setPod p k).freeCount = s.freeCount := rfl
@[simp] theorem State.setPod_rdata (s : State) (p : Nat) (k : Pod) : (s.setPod p k).rdata = s.rdata := rfl
@[simp] theorem State.setPod_toll (s : State) (p : Nat) (k : Pod) : (s.setPod p k).toll = s.toll := rfl
@[simp] theorem State.setPod_cores (s : State) (p : Nat) (k : Pod) : (s.setPod p k).cores = s.cores := rfl
@[simp] theorem State.setPod_seam (s : State) (p : Nat) (k : Pod) : (s.setPod p k).seam = s.seam := rfl
@[simp] theorem State.setPod_vds (s : State) (p : Nat) (k : Pod) : (s.setPod p k).vds = s.vds := rfl
@[simp] theorem State.setPod_sbk (s : State) (p : Nat) (k : Pod) : (s.setPod p k).sbk = s.sbk := rfl
@[simp] theorem State.setPod_hbm (s : State) (p : Nat) (k : Pod) : (s.setPod p k).hbm = s.hbm := rfl
@[simp] theorem State.setPod_xlt (s : State) (p : Nat) (k : Pod) : (s.setPod p k).xlt = s.xlt := rfl
@[simp] theorem State.setPod_host (s : State) (p : Nat) (k : Pod) : (s.setPod p k).host = s.host := rfl
@[simp] theorem State.setPod_que (s : State) (p : Nat) (k : Pod) : (s.setPod p k).que = s.que := rfl
@[simp] theorem State.setPod_cmp (s : State) (p : Nat) (k : Pod) : (s.setPod p k).cmp = s.cmp := rfl
@[simp] theorem State.setPod_sch (s : State) (p : Nat) (k : Pod) : (s.setPod p k).sch = s.sch := rfl
@[simp] theorem State.setPod_pwr (s : State) (p : Nat) (k : Pod) : (s.setPod p k).pwr = s.pwr := rfl
@[simp] theorem State.setPod_fw (s : State) (p : Nat) (k : Pod) : (s.setPod p k).fw = s.fw := rfl
@[simp] theorem State.setPod_sec (s : State) (p : Nat) (k : Pod) : (s.setPod p k).sec = s.sec := rfl
@[simp] theorem State.setPod_side (s : State) (p : Nat) (k : Pod) : (s.setPod p k).side = s.side := rfl
@[simp] theorem State.setPod_glb (s : State) (p : Nat) (k : Pod) : (s.setPod p k).glb = s.glb := rfl
@[simp] theorem State.setPod_rst (s : State) (p : Nat) (k : Pod) : (s.setPod p k).rst = s.rst := rfl

/-! ### setVd -/

@[simp] theorem State.setVd_pending (s : State) (v : Nat) (k : Vd) : (s.setVd v k).pending = s.pending := rfl
@[simp] theorem State.setVd_freeCount (s : State) (v : Nat) (k : Vd) : (s.setVd v k).freeCount = s.freeCount := rfl
@[simp] theorem State.setVd_rdata (s : State) (v : Nat) (k : Vd) : (s.setVd v k).rdata = s.rdata := rfl
@[simp] theorem State.setVd_toll (s : State) (v : Nat) (k : Vd) : (s.setVd v k).toll = s.toll := rfl
@[simp] theorem State.setVd_cores (s : State) (v : Nat) (k : Vd) : (s.setVd v k).cores = s.cores := rfl
@[simp] theorem State.setVd_pods (s : State) (v : Nat) (k : Vd) : (s.setVd v k).pods = s.pods := rfl
@[simp] theorem State.setVd_seam (s : State) (v : Nat) (k : Vd) : (s.setVd v k).seam = s.seam := rfl
@[simp] theorem State.setVd_sbk (s : State) (v : Nat) (k : Vd) : (s.setVd v k).sbk = s.sbk := rfl
@[simp] theorem State.setVd_hbm (s : State) (v : Nat) (k : Vd) : (s.setVd v k).hbm = s.hbm := rfl
@[simp] theorem State.setVd_xlt (s : State) (v : Nat) (k : Vd) : (s.setVd v k).xlt = s.xlt := rfl
@[simp] theorem State.setVd_host (s : State) (v : Nat) (k : Vd) : (s.setVd v k).host = s.host := rfl
@[simp] theorem State.setVd_que (s : State) (v : Nat) (k : Vd) : (s.setVd v k).que = s.que := rfl
@[simp] theorem State.setVd_cmp (s : State) (v : Nat) (k : Vd) : (s.setVd v k).cmp = s.cmp := rfl
@[simp] theorem State.setVd_sch (s : State) (v : Nat) (k : Vd) : (s.setVd v k).sch = s.sch := rfl
@[simp] theorem State.setVd_pwr (s : State) (v : Nat) (k : Vd) : (s.setVd v k).pwr = s.pwr := rfl
@[simp] theorem State.setVd_fw (s : State) (v : Nat) (k : Vd) : (s.setVd v k).fw = s.fw := rfl
@[simp] theorem State.setVd_sec (s : State) (v : Nat) (k : Vd) : (s.setVd v k).sec = s.sec := rfl
@[simp] theorem State.setVd_side (s : State) (v : Nat) (k : Vd) : (s.setVd v k).side = s.side := rfl
@[simp] theorem State.setVd_glb (s : State) (v : Nat) (k : Vd) : (s.setVd v k).glb = s.glb := rfl
@[simp] theorem State.setVd_rst (s : State) (v : Nat) (k : Vd) : (s.setVd v k).rst = s.rst := rfl

/-! ### setCtx -/

@[simp] theorem State.setCtx_pending (s : State) (c : Nat) (k : Ctx) : (s.setCtx c k).pending = s.pending := rfl
@[simp] theorem State.setCtx_freeCount (s : State) (c : Nat) (k : Ctx) : (s.setCtx c k).freeCount = s.freeCount := rfl
@[simp] theorem State.setCtx_rdata (s : State) (c : Nat) (k : Ctx) : (s.setCtx c k).rdata = s.rdata := rfl
@[simp] theorem State.setCtx_toll (s : State) (c : Nat) (k : Ctx) : (s.setCtx c k).toll = s.toll := rfl
@[simp] theorem State.setCtx_cores (s : State) (c : Nat) (k : Ctx) : (s.setCtx c k).cores = s.cores := rfl
@[simp] theorem State.setCtx_pods (s : State) (c : Nat) (k : Ctx) : (s.setCtx c k).pods = s.pods := rfl
@[simp] theorem State.setCtx_seam (s : State) (c : Nat) (k : Ctx) : (s.setCtx c k).seam = s.seam := rfl
@[simp] theorem State.setCtx_vds (s : State) (c : Nat) (k : Ctx) : (s.setCtx c k).vds = s.vds := rfl
@[simp] theorem State.setCtx_sbk (s : State) (c : Nat) (k : Ctx) : (s.setCtx c k).sbk = s.sbk := rfl
@[simp] theorem State.setCtx_hbm (s : State) (c : Nat) (k : Ctx) : (s.setCtx c k).hbm = s.hbm := rfl
@[simp] theorem State.setCtx_xlt (s : State) (c : Nat) (k : Ctx) : (s.setCtx c k).xlt = s.xlt := rfl
@[simp] theorem State.setCtx_host (s : State) (c : Nat) (k : Ctx) : (s.setCtx c k).host = s.host := rfl
@[simp] theorem State.setCtx_cmp (s : State) (c : Nat) (k : Ctx) : (s.setCtx c k).cmp = s.cmp := rfl
@[simp] theorem State.setCtx_sch (s : State) (c : Nat) (k : Ctx) : (s.setCtx c k).sch = s.sch := rfl
@[simp] theorem State.setCtx_pwr (s : State) (c : Nat) (k : Ctx) : (s.setCtx c k).pwr = s.pwr := rfl
@[simp] theorem State.setCtx_fw (s : State) (c : Nat) (k : Ctx) : (s.setCtx c k).fw = s.fw := rfl
@[simp] theorem State.setCtx_sec (s : State) (c : Nat) (k : Ctx) : (s.setCtx c k).sec = s.sec := rfl
@[simp] theorem State.setCtx_side (s : State) (c : Nat) (k : Ctx) : (s.setCtx c k).side = s.side := rfl
@[simp] theorem State.setCtx_glb (s : State) (c : Nat) (k : Ctx) : (s.setCtx c k).glb = s.glb := rfl
@[simp] theorem State.setCtx_rst (s : State) (c : Nat) (k : Ctx) : (s.setCtx c k).rst = s.rst := rfl
@[simp] theorem State.setCtx_que_pairs (s : State) (c : Nat) (k : Ctx) : (s.setCtx c k).que.pairs = s.que.pairs := rfl
@[simp] theorem State.setCtx_que_cmds (s : State) (c : Nat) (k : Ctx) : (s.setCtx c k).que.cmds = s.que.cmds := rfl
@[simp] theorem State.setCtx_que_objs (s : State) (c : Nat) (k : Ctx) : (s.setCtx c k).que.objs = s.que.objs := rfl
@[simp] theorem State.setCtx_que_tls (s : State) (c : Nat) (k : Ctx) : (s.setCtx c k).que.tls = s.que.tls := rfl
@[simp] theorem State.setCtx_que_jrn (s : State) (c : Nat) (k : Ctx) : (s.setCtx c k).que.jrn = s.que.jrn := rfl
@[simp] theorem State.setCtx_que_seq (s : State) (c : Nat) (k : Ctx) : (s.setCtx c k).que.seq = s.que.seq := rfl
@[simp] theorem State.setCtx_que_halted (s : State) (c : Nat) (k : Ctx) : (s.setCtx c k).que.halted = s.que.halted := rfl

/-! ### setTimeline -/

@[simp] theorem State.setTimeline_pending (s : State) (t : Nat) (k : Timeline) : (s.setTimeline t k).pending = s.pending := rfl
@[simp] theorem State.setTimeline_freeCount (s : State) (t : Nat) (k : Timeline) : (s.setTimeline t k).freeCount = s.freeCount := rfl
@[simp] theorem State.setTimeline_rdata (s : State) (t : Nat) (k : Timeline) : (s.setTimeline t k).rdata = s.rdata := rfl
@[simp] theorem State.setTimeline_toll (s : State) (t : Nat) (k : Timeline) : (s.setTimeline t k).toll = s.toll := rfl
@[simp] theorem State.setTimeline_cores (s : State) (t : Nat) (k : Timeline) : (s.setTimeline t k).cores = s.cores := rfl
@[simp] theorem State.setTimeline_pods (s : State) (t : Nat) (k : Timeline) : (s.setTimeline t k).pods = s.pods := rfl
@[simp] theorem State.setTimeline_seam (s : State) (t : Nat) (k : Timeline) : (s.setTimeline t k).seam = s.seam := rfl
@[simp] theorem State.setTimeline_vds (s : State) (t : Nat) (k : Timeline) : (s.setTimeline t k).vds = s.vds := rfl
@[simp] theorem State.setTimeline_sbk (s : State) (t : Nat) (k : Timeline) : (s.setTimeline t k).sbk = s.sbk := rfl
@[simp] theorem State.setTimeline_hbm (s : State) (t : Nat) (k : Timeline) : (s.setTimeline t k).hbm = s.hbm := rfl
@[simp] theorem State.setTimeline_xlt (s : State) (t : Nat) (k : Timeline) : (s.setTimeline t k).xlt = s.xlt := rfl
@[simp] theorem State.setTimeline_host (s : State) (t : Nat) (k : Timeline) : (s.setTimeline t k).host = s.host := rfl
@[simp] theorem State.setTimeline_cmp (s : State) (t : Nat) (k : Timeline) : (s.setTimeline t k).cmp = s.cmp := rfl
@[simp] theorem State.setTimeline_sch (s : State) (t : Nat) (k : Timeline) : (s.setTimeline t k).sch = s.sch := rfl
@[simp] theorem State.setTimeline_pwr (s : State) (t : Nat) (k : Timeline) : (s.setTimeline t k).pwr = s.pwr := rfl
@[simp] theorem State.setTimeline_fw (s : State) (t : Nat) (k : Timeline) : (s.setTimeline t k).fw = s.fw := rfl
@[simp] theorem State.setTimeline_sec (s : State) (t : Nat) (k : Timeline) : (s.setTimeline t k).sec = s.sec := rfl
@[simp] theorem State.setTimeline_side (s : State) (t : Nat) (k : Timeline) : (s.setTimeline t k).side = s.side := rfl
@[simp] theorem State.setTimeline_glb (s : State) (t : Nat) (k : Timeline) : (s.setTimeline t k).glb = s.glb := rfl
@[simp] theorem State.setTimeline_rst (s : State) (t : Nat) (k : Timeline) : (s.setTimeline t k).rst = s.rst := rfl
@[simp] theorem State.setTimeline_que_pairs (s : State) (t : Nat) (k : Timeline) : (s.setTimeline t k).que.pairs = s.que.pairs := rfl
@[simp] theorem State.setTimeline_que_cmds (s : State) (t : Nat) (k : Timeline) : (s.setTimeline t k).que.cmds = s.que.cmds := rfl
@[simp] theorem State.setTimeline_que_ctxs (s : State) (t : Nat) (k : Timeline) : (s.setTimeline t k).que.ctxs = s.que.ctxs := rfl
@[simp] theorem State.setTimeline_que_objs (s : State) (t : Nat) (k : Timeline) : (s.setTimeline t k).que.objs = s.que.objs := rfl
@[simp] theorem State.setTimeline_que_jrn (s : State) (t : Nat) (k : Timeline) : (s.setTimeline t k).que.jrn = s.que.jrn := rfl
@[simp] theorem State.setTimeline_que_seq (s : State) (t : Nat) (k : Timeline) : (s.setTimeline t k).que.seq = s.que.seq := rfl
@[simp] theorem State.setTimeline_que_halted (s : State) (t : Nat) (k : Timeline) : (s.setTimeline t k).que.halted = s.que.halted := rfl

/-! ### setObj -/

@[simp] theorem State.setObj_pending (s : State) (i : Nat) (k : Obj) : (s.setObj i k).pending = s.pending := rfl
@[simp] theorem State.setObj_freeCount (s : State) (i : Nat) (k : Obj) : (s.setObj i k).freeCount = s.freeCount := rfl
@[simp] theorem State.setObj_rdata (s : State) (i : Nat) (k : Obj) : (s.setObj i k).rdata = s.rdata := rfl
@[simp] theorem State.setObj_toll (s : State) (i : Nat) (k : Obj) : (s.setObj i k).toll = s.toll := rfl
@[simp] theorem State.setObj_cores (s : State) (i : Nat) (k : Obj) : (s.setObj i k).cores = s.cores := rfl
@[simp] theorem State.setObj_pods (s : State) (i : Nat) (k : Obj) : (s.setObj i k).pods = s.pods := rfl
@[simp] theorem State.setObj_seam (s : State) (i : Nat) (k : Obj) : (s.setObj i k).seam = s.seam := rfl
@[simp] theorem State.setObj_vds (s : State) (i : Nat) (k : Obj) : (s.setObj i k).vds = s.vds := rfl
@[simp] theorem State.setObj_sbk (s : State) (i : Nat) (k : Obj) : (s.setObj i k).sbk = s.sbk := rfl
@[simp] theorem State.setObj_hbm (s : State) (i : Nat) (k : Obj) : (s.setObj i k).hbm = s.hbm := rfl
@[simp] theorem State.setObj_xlt (s : State) (i : Nat) (k : Obj) : (s.setObj i k).xlt = s.xlt := rfl
@[simp] theorem State.setObj_host (s : State) (i : Nat) (k : Obj) : (s.setObj i k).host = s.host := rfl
@[simp] theorem State.setObj_cmp (s : State) (i : Nat) (k : Obj) : (s.setObj i k).cmp = s.cmp := rfl
@[simp] theorem State.setObj_sch (s : State) (i : Nat) (k : Obj) : (s.setObj i k).sch = s.sch := rfl
@[simp] theorem State.setObj_pwr (s : State) (i : Nat) (k : Obj) : (s.setObj i k).pwr = s.pwr := rfl
@[simp] theorem State.setObj_fw (s : State) (i : Nat) (k : Obj) : (s.setObj i k).fw = s.fw := rfl
@[simp] theorem State.setObj_sec (s : State) (i : Nat) (k : Obj) : (s.setObj i k).sec = s.sec := rfl
@[simp] theorem State.setObj_side (s : State) (i : Nat) (k : Obj) : (s.setObj i k).side = s.side := rfl
@[simp] theorem State.setObj_glb (s : State) (i : Nat) (k : Obj) : (s.setObj i k).glb = s.glb := rfl
@[simp] theorem State.setObj_rst (s : State) (i : Nat) (k : Obj) : (s.setObj i k).rst = s.rst := rfl
@[simp] theorem State.setObj_que_pairs (s : State) (i : Nat) (k : Obj) : (s.setObj i k).que.pairs = s.que.pairs := rfl
@[simp] theorem State.setObj_que_cmds (s : State) (i : Nat) (k : Obj) : (s.setObj i k).que.cmds = s.que.cmds := rfl
@[simp] theorem State.setObj_que_ctxs (s : State) (i : Nat) (k : Obj) : (s.setObj i k).que.ctxs = s.que.ctxs := rfl
@[simp] theorem State.setObj_que_tls (s : State) (i : Nat) (k : Obj) : (s.setObj i k).que.tls = s.que.tls := rfl
@[simp] theorem State.setObj_que_jrn (s : State) (i : Nat) (k : Obj) : (s.setObj i k).que.jrn = s.que.jrn := rfl
@[simp] theorem State.setObj_que_seq (s : State) (i : Nat) (k : Obj) : (s.setObj i k).que.seq = s.que.seq := rfl
@[simp] theorem State.setObj_que_halted (s : State) (i : Nat) (k : Obj) : (s.setObj i k).que.halted = s.que.halted := rfl

/-! ### setCmd -/

@[simp] theorem State.setCmd_pending (s : State) (q : Nat) (k : Cmd) : (s.setCmd q k).pending = s.pending := rfl
@[simp] theorem State.setCmd_freeCount (s : State) (q : Nat) (k : Cmd) : (s.setCmd q k).freeCount = s.freeCount := rfl
@[simp] theorem State.setCmd_rdata (s : State) (q : Nat) (k : Cmd) : (s.setCmd q k).rdata = s.rdata := rfl
@[simp] theorem State.setCmd_toll (s : State) (q : Nat) (k : Cmd) : (s.setCmd q k).toll = s.toll := rfl
@[simp] theorem State.setCmd_cores (s : State) (q : Nat) (k : Cmd) : (s.setCmd q k).cores = s.cores := rfl
@[simp] theorem State.setCmd_pods (s : State) (q : Nat) (k : Cmd) : (s.setCmd q k).pods = s.pods := rfl
@[simp] theorem State.setCmd_seam (s : State) (q : Nat) (k : Cmd) : (s.setCmd q k).seam = s.seam := rfl
@[simp] theorem State.setCmd_vds (s : State) (q : Nat) (k : Cmd) : (s.setCmd q k).vds = s.vds := rfl
@[simp] theorem State.setCmd_sbk (s : State) (q : Nat) (k : Cmd) : (s.setCmd q k).sbk = s.sbk := rfl
@[simp] theorem State.setCmd_hbm (s : State) (q : Nat) (k : Cmd) : (s.setCmd q k).hbm = s.hbm := rfl
@[simp] theorem State.setCmd_xlt (s : State) (q : Nat) (k : Cmd) : (s.setCmd q k).xlt = s.xlt := rfl
@[simp] theorem State.setCmd_host (s : State) (q : Nat) (k : Cmd) : (s.setCmd q k).host = s.host := rfl
@[simp] theorem State.setCmd_cmp (s : State) (q : Nat) (k : Cmd) : (s.setCmd q k).cmp = s.cmp := rfl
@[simp] theorem State.setCmd_sch (s : State) (q : Nat) (k : Cmd) : (s.setCmd q k).sch = s.sch := rfl
@[simp] theorem State.setCmd_pwr (s : State) (q : Nat) (k : Cmd) : (s.setCmd q k).pwr = s.pwr := rfl
@[simp] theorem State.setCmd_fw (s : State) (q : Nat) (k : Cmd) : (s.setCmd q k).fw = s.fw := rfl
@[simp] theorem State.setCmd_sec (s : State) (q : Nat) (k : Cmd) : (s.setCmd q k).sec = s.sec := rfl
@[simp] theorem State.setCmd_side (s : State) (q : Nat) (k : Cmd) : (s.setCmd q k).side = s.side := rfl
@[simp] theorem State.setCmd_glb (s : State) (q : Nat) (k : Cmd) : (s.setCmd q k).glb = s.glb := rfl
@[simp] theorem State.setCmd_rst (s : State) (q : Nat) (k : Cmd) : (s.setCmd q k).rst = s.rst := rfl
@[simp] theorem State.setCmd_que_pairs (s : State) (q : Nat) (k : Cmd) : (s.setCmd q k).que.pairs = s.que.pairs := rfl
@[simp] theorem State.setCmd_que_ctxs (s : State) (q : Nat) (k : Cmd) : (s.setCmd q k).que.ctxs = s.que.ctxs := rfl
@[simp] theorem State.setCmd_que_objs (s : State) (q : Nat) (k : Cmd) : (s.setCmd q k).que.objs = s.que.objs := rfl
@[simp] theorem State.setCmd_que_tls (s : State) (q : Nat) (k : Cmd) : (s.setCmd q k).que.tls = s.que.tls := rfl
@[simp] theorem State.setCmd_que_jrn (s : State) (q : Nat) (k : Cmd) : (s.setCmd q k).que.jrn = s.que.jrn := rfl
@[simp] theorem State.setCmd_que_seq (s : State) (q : Nat) (k : Cmd) : (s.setCmd q k).que.seq = s.que.seq := rfl
@[simp] theorem State.setCmd_que_halted (s : State) (q : Nat) (k : Cmd) : (s.setCmd q k).que.halted = s.que.halted := rfl

/-! ### setPair -/

@[simp] theorem State.setPair_pending (s : State) (q : Nat) (k : QueuePair) : (s.setPair q k).pending = s.pending := rfl
@[simp] theorem State.setPair_freeCount (s : State) (q : Nat) (k : QueuePair) : (s.setPair q k).freeCount = s.freeCount := rfl
@[simp] theorem State.setPair_rdata (s : State) (q : Nat) (k : QueuePair) : (s.setPair q k).rdata = s.rdata := rfl
@[simp] theorem State.setPair_toll (s : State) (q : Nat) (k : QueuePair) : (s.setPair q k).toll = s.toll := rfl
@[simp] theorem State.setPair_cores (s : State) (q : Nat) (k : QueuePair) : (s.setPair q k).cores = s.cores := rfl
@[simp] theorem State.setPair_pods (s : State) (q : Nat) (k : QueuePair) : (s.setPair q k).pods = s.pods := rfl
@[simp] theorem State.setPair_seam (s : State) (q : Nat) (k : QueuePair) : (s.setPair q k).seam = s.seam := rfl
@[simp] theorem State.setPair_vds (s : State) (q : Nat) (k : QueuePair) : (s.setPair q k).vds = s.vds := rfl
@[simp] theorem State.setPair_sbk (s : State) (q : Nat) (k : QueuePair) : (s.setPair q k).sbk = s.sbk := rfl
@[simp] theorem State.setPair_hbm (s : State) (q : Nat) (k : QueuePair) : (s.setPair q k).hbm = s.hbm := rfl
@[simp] theorem State.setPair_xlt (s : State) (q : Nat) (k : QueuePair) : (s.setPair q k).xlt = s.xlt := rfl
@[simp] theorem State.setPair_host (s : State) (q : Nat) (k : QueuePair) : (s.setPair q k).host = s.host := rfl
@[simp] theorem State.setPair_cmp (s : State) (q : Nat) (k : QueuePair) : (s.setPair q k).cmp = s.cmp := rfl
@[simp] theorem State.setPair_sch (s : State) (q : Nat) (k : QueuePair) : (s.setPair q k).sch = s.sch := rfl
@[simp] theorem State.setPair_pwr (s : State) (q : Nat) (k : QueuePair) : (s.setPair q k).pwr = s.pwr := rfl
@[simp] theorem State.setPair_fw (s : State) (q : Nat) (k : QueuePair) : (s.setPair q k).fw = s.fw := rfl
@[simp] theorem State.setPair_sec (s : State) (q : Nat) (k : QueuePair) : (s.setPair q k).sec = s.sec := rfl
@[simp] theorem State.setPair_side (s : State) (q : Nat) (k : QueuePair) : (s.setPair q k).side = s.side := rfl
@[simp] theorem State.setPair_glb (s : State) (q : Nat) (k : QueuePair) : (s.setPair q k).glb = s.glb := rfl
@[simp] theorem State.setPair_rst (s : State) (q : Nat) (k : QueuePair) : (s.setPair q k).rst = s.rst := rfl
@[simp] theorem State.setPair_que_cmds (s : State) (q : Nat) (k : QueuePair) : (s.setPair q k).que.cmds = s.que.cmds := rfl
@[simp] theorem State.setPair_que_ctxs (s : State) (q : Nat) (k : QueuePair) : (s.setPair q k).que.ctxs = s.que.ctxs := rfl
@[simp] theorem State.setPair_que_objs (s : State) (q : Nat) (k : QueuePair) : (s.setPair q k).que.objs = s.que.objs := rfl
@[simp] theorem State.setPair_que_tls (s : State) (q : Nat) (k : QueuePair) : (s.setPair q k).que.tls = s.que.tls := rfl
@[simp] theorem State.setPair_que_jrn (s : State) (q : Nat) (k : QueuePair) : (s.setPair q k).que.jrn = s.que.jrn := rfl
@[simp] theorem State.setPair_que_seq (s : State) (q : Nat) (k : QueuePair) : (s.setPair q k).que.seq = s.que.seq := rfl
@[simp] theorem State.setPair_que_halted (s : State) (q : Nat) (k : QueuePair) : (s.setPair q k).que.halted = s.que.halted := rfl

/-! ### setPort -/

@[simp] theorem State.setPort_pending (s : State) (p : Nat) (k : HostPort) : (s.setPort p k).pending = s.pending := rfl
@[simp] theorem State.setPort_freeCount (s : State) (p : Nat) (k : HostPort) : (s.setPort p k).freeCount = s.freeCount := rfl
@[simp] theorem State.setPort_rdata (s : State) (p : Nat) (k : HostPort) : (s.setPort p k).rdata = s.rdata := rfl
@[simp] theorem State.setPort_toll (s : State) (p : Nat) (k : HostPort) : (s.setPort p k).toll = s.toll := rfl
@[simp] theorem State.setPort_cores (s : State) (p : Nat) (k : HostPort) : (s.setPort p k).cores = s.cores := rfl
@[simp] theorem State.setPort_pods (s : State) (p : Nat) (k : HostPort) : (s.setPort p k).pods = s.pods := rfl
@[simp] theorem State.setPort_seam (s : State) (p : Nat) (k : HostPort) : (s.setPort p k).seam = s.seam := rfl
@[simp] theorem State.setPort_vds (s : State) (p : Nat) (k : HostPort) : (s.setPort p k).vds = s.vds := rfl
@[simp] theorem State.setPort_sbk (s : State) (p : Nat) (k : HostPort) : (s.setPort p k).sbk = s.sbk := rfl
@[simp] theorem State.setPort_hbm (s : State) (p : Nat) (k : HostPort) : (s.setPort p k).hbm = s.hbm := rfl
@[simp] theorem State.setPort_xlt (s : State) (p : Nat) (k : HostPort) : (s.setPort p k).xlt = s.xlt := rfl
@[simp] theorem State.setPort_que (s : State) (p : Nat) (k : HostPort) : (s.setPort p k).que = s.que := rfl
@[simp] theorem State.setPort_cmp (s : State) (p : Nat) (k : HostPort) : (s.setPort p k).cmp = s.cmp := rfl
@[simp] theorem State.setPort_sch (s : State) (p : Nat) (k : HostPort) : (s.setPort p k).sch = s.sch := rfl
@[simp] theorem State.setPort_pwr (s : State) (p : Nat) (k : HostPort) : (s.setPort p k).pwr = s.pwr := rfl
@[simp] theorem State.setPort_fw (s : State) (p : Nat) (k : HostPort) : (s.setPort p k).fw = s.fw := rfl
@[simp] theorem State.setPort_sec (s : State) (p : Nat) (k : HostPort) : (s.setPort p k).sec = s.sec := rfl
@[simp] theorem State.setPort_side (s : State) (p : Nat) (k : HostPort) : (s.setPort p k).side = s.side := rfl
@[simp] theorem State.setPort_glb (s : State) (p : Nat) (k : HostPort) : (s.setPort p k).glb = s.glb := rfl
@[simp] theorem State.setPort_rst (s : State) (p : Nat) (k : HostPort) : (s.setPort p k).rst = s.rst := rfl
@[simp] theorem State.setPort_host_single (s : State) (p : Nat) (k : HostPort) : (s.setPort p k).host.single = s.host.single := rfl
@[simp] theorem State.setPort_host_msixTab (s : State) (p : Nat) (k : HostPort) : (s.setPort p k).host.msixTab = s.host.msixTab := rfl
@[simp] theorem State.setPort_host_pba (s : State) (p : Nat) (k : HostPort) : (s.setPort p k).host.pba = s.host.pba := rfl
@[simp] theorem State.setPort_host_sent (s : State) (p : Nat) (k : HostPort) : (s.setPort p k).host.sent = s.host.sent := rfl
@[simp] theorem State.setPort_host_mem (s : State) (p : Nat) (k : HostPort) : (s.setPort p k).host.mem = s.host.mem := rfl
@[simp] theorem State.setPort_host_doe (s : State) (p : Nat) (k : HostPort) : (s.setPort p k).host.doe = s.host.doe := rfl

/-! ### setVf -/

@[simp] theorem State.setVf_pending (s : State) (p n : Nat) (k : Vf) : (s.setVf p n k).pending = s.pending := rfl
@[simp] theorem State.setVf_freeCount (s : State) (p n : Nat) (k : Vf) : (s.setVf p n k).freeCount = s.freeCount := rfl
@[simp] theorem State.setVf_rdata (s : State) (p n : Nat) (k : Vf) : (s.setVf p n k).rdata = s.rdata := rfl
@[simp] theorem State.setVf_toll (s : State) (p n : Nat) (k : Vf) : (s.setVf p n k).toll = s.toll := rfl
@[simp] theorem State.setVf_cores (s : State) (p n : Nat) (k : Vf) : (s.setVf p n k).cores = s.cores := rfl
@[simp] theorem State.setVf_pods (s : State) (p n : Nat) (k : Vf) : (s.setVf p n k).pods = s.pods := rfl
@[simp] theorem State.setVf_seam (s : State) (p n : Nat) (k : Vf) : (s.setVf p n k).seam = s.seam := rfl
@[simp] theorem State.setVf_vds (s : State) (p n : Nat) (k : Vf) : (s.setVf p n k).vds = s.vds := rfl
@[simp] theorem State.setVf_sbk (s : State) (p n : Nat) (k : Vf) : (s.setVf p n k).sbk = s.sbk := rfl
@[simp] theorem State.setVf_hbm (s : State) (p n : Nat) (k : Vf) : (s.setVf p n k).hbm = s.hbm := rfl
@[simp] theorem State.setVf_xlt (s : State) (p n : Nat) (k : Vf) : (s.setVf p n k).xlt = s.xlt := rfl
@[simp] theorem State.setVf_que (s : State) (p n : Nat) (k : Vf) : (s.setVf p n k).que = s.que := rfl
@[simp] theorem State.setVf_cmp (s : State) (p n : Nat) (k : Vf) : (s.setVf p n k).cmp = s.cmp := rfl
@[simp] theorem State.setVf_sch (s : State) (p n : Nat) (k : Vf) : (s.setVf p n k).sch = s.sch := rfl
@[simp] theorem State.setVf_pwr (s : State) (p n : Nat) (k : Vf) : (s.setVf p n k).pwr = s.pwr := rfl
@[simp] theorem State.setVf_fw (s : State) (p n : Nat) (k : Vf) : (s.setVf p n k).fw = s.fw := rfl
@[simp] theorem State.setVf_sec (s : State) (p n : Nat) (k : Vf) : (s.setVf p n k).sec = s.sec := rfl
@[simp] theorem State.setVf_side (s : State) (p n : Nat) (k : Vf) : (s.setVf p n k).side = s.side := rfl
@[simp] theorem State.setVf_glb (s : State) (p n : Nat) (k : Vf) : (s.setVf p n k).glb = s.glb := rfl
@[simp] theorem State.setVf_rst (s : State) (p n : Nat) (k : Vf) : (s.setVf p n k).rst = s.rst := rfl
@[simp] theorem State.setVf_host_single (s : State) (p n : Nat) (k : Vf) : (s.setVf p n k).host.single = s.host.single := rfl
@[simp] theorem State.setVf_host_msixTab (s : State) (p n : Nat) (k : Vf) : (s.setVf p n k).host.msixTab = s.host.msixTab := rfl
@[simp] theorem State.setVf_host_pba (s : State) (p n : Nat) (k : Vf) : (s.setVf p n k).host.pba = s.host.pba := rfl
@[simp] theorem State.setVf_host_sent (s : State) (p n : Nat) (k : Vf) : (s.setVf p n k).host.sent = s.host.sent := rfl
@[simp] theorem State.setVf_host_mem (s : State) (p n : Nat) (k : Vf) : (s.setVf p n k).host.mem = s.host.mem := rfl
@[simp] theorem State.setVf_host_doe (s : State) (p n : Nat) (k : Vf) : (s.setVf p n k).host.doe = s.host.doe := rfl

/-! ### setReg -/

@[simp] theorem State.setReg_pending (s : State) (a v : Nat) : (s.setReg a v).pending = s.pending := rfl
@[simp] theorem State.setReg_freeCount (s : State) (a v : Nat) : (s.setReg a v).freeCount = s.freeCount := rfl
@[simp] theorem State.setReg_rdata (s : State) (a v : Nat) : (s.setReg a v).rdata = s.rdata := rfl
@[simp] theorem State.setReg_toll (s : State) (a v : Nat) : (s.setReg a v).toll = s.toll := rfl
@[simp] theorem State.setReg_cores (s : State) (a v : Nat) : (s.setReg a v).cores = s.cores := rfl
@[simp] theorem State.setReg_pods (s : State) (a v : Nat) : (s.setReg a v).pods = s.pods := rfl
@[simp] theorem State.setReg_seam (s : State) (a v : Nat) : (s.setReg a v).seam = s.seam := rfl
@[simp] theorem State.setReg_vds (s : State) (a v : Nat) : (s.setReg a v).vds = s.vds := rfl
@[simp] theorem State.setReg_sbk (s : State) (a v : Nat) : (s.setReg a v).sbk = s.sbk := rfl
@[simp] theorem State.setReg_hbm (s : State) (a v : Nat) : (s.setReg a v).hbm = s.hbm := rfl
@[simp] theorem State.setReg_xlt (s : State) (a v : Nat) : (s.setReg a v).xlt = s.xlt := rfl
@[simp] theorem State.setReg_host (s : State) (a v : Nat) : (s.setReg a v).host = s.host := rfl
@[simp] theorem State.setReg_que (s : State) (a v : Nat) : (s.setReg a v).que = s.que := rfl
@[simp] theorem State.setReg_cmp (s : State) (a v : Nat) : (s.setReg a v).cmp = s.cmp := rfl
@[simp] theorem State.setReg_sch (s : State) (a v : Nat) : (s.setReg a v).sch = s.sch := rfl
@[simp] theorem State.setReg_pwr (s : State) (a v : Nat) : (s.setReg a v).pwr = s.pwr := rfl
@[simp] theorem State.setReg_fw (s : State) (a v : Nat) : (s.setReg a v).fw = s.fw := rfl
@[simp] theorem State.setReg_sec (s : State) (a v : Nat) : (s.setReg a v).sec = s.sec := rfl
@[simp] theorem State.setReg_side (s : State) (a v : Nat) : (s.setReg a v).side = s.side := rfl
@[simp] theorem State.setReg_rst (s : State) (a v : Nat) : (s.setReg a v).rst = s.rst := rfl
@[simp] theorem State.setReg_glb_stage (s : State) (a v : Nat) : (s.setReg a v).glb.stage = s.glb.stage := rfl
@[simp] theorem State.setReg_glb_ready (s : State) (a v : Nat) : (s.setReg a v).glb.ready = s.glb.ready := rfl
@[simp] theorem State.setReg_glb_capv (s : State) (a v : Nat) : (s.setReg a v).glb.capv = s.glb.capv := rfl
@[simp] theorem State.setReg_glb_spareClkmon (s : State) (a v : Nat) : (s.setReg a v).glb.spareClkmon = s.glb.spareClkmon := rfl
@[simp] theorem State.setReg_glb_spareToll (s : State) (a v : Nat) : (s.setReg a v).glb.spareToll = s.glb.spareToll := rfl
@[simp] theorem State.setReg_glb_nme (s : State) (a v : Nat) : (s.setReg a v).glb.nme = s.glb.nme := rfl
@[simp] theorem State.setReg_glb_nmeValid (s : State) (a v : Nat) : (s.setReg a v).glb.nmeValid = s.glb.nmeValid := rfl
@[simp] theorem State.setReg_glb_nmeBit (s : State) (a v : Nat) : (s.setReg a v).glb.nmeBit = s.glb.nmeBit := rfl
@[simp] theorem State.setReg_glb_nmeTime (s : State) (a v : Nat) : (s.setReg a v).glb.nmeTime = s.glb.nmeTime := rfl
@[simp] theorem State.setReg_glb_eff (s : State) (a v : Nat) : (s.setReg a v).glb.eff = s.glb.eff := rfl
@[simp] theorem State.setReg_glb_staged (s : State) (a v : Nat) : (s.setReg a v).glb.staged = s.glb.staged := rfl
@[simp] theorem State.setReg_glb_latched (s : State) (a v : Nat) : (s.setReg a v).glb.latched = s.glb.latched := rfl
@[simp] theorem State.setReg_glb_tollHi (s : State) (a v : Nat) : (s.setReg a v).glb.tollHi = s.glb.tollHi := rfl
@[simp] theorem State.setReg_glb_vfTollHi (s : State) (a v : Nat) : (s.setReg a v).glb.vfTollHi = s.glb.vfTollHi := rfl

/-! ### reply -/

@[simp] theorem State.reply_pending (s : State) (l : List DWord) : (s.reply l).pending = s.pending := rfl
@[simp] theorem State.reply_freeCount (s : State) (l : List DWord) : (s.reply l).freeCount = s.freeCount := rfl
@[simp] theorem State.reply_toll (s : State) (l : List DWord) : (s.reply l).toll = s.toll := rfl
@[simp] theorem State.reply_cores (s : State) (l : List DWord) : (s.reply l).cores = s.cores := rfl
@[simp] theorem State.reply_pods (s : State) (l : List DWord) : (s.reply l).pods = s.pods := rfl
@[simp] theorem State.reply_seam (s : State) (l : List DWord) : (s.reply l).seam = s.seam := rfl
@[simp] theorem State.reply_vds (s : State) (l : List DWord) : (s.reply l).vds = s.vds := rfl
@[simp] theorem State.reply_sbk (s : State) (l : List DWord) : (s.reply l).sbk = s.sbk := rfl
@[simp] theorem State.reply_hbm (s : State) (l : List DWord) : (s.reply l).hbm = s.hbm := rfl
@[simp] theorem State.reply_xlt (s : State) (l : List DWord) : (s.reply l).xlt = s.xlt := rfl
@[simp] theorem State.reply_host (s : State) (l : List DWord) : (s.reply l).host = s.host := rfl
@[simp] theorem State.reply_que (s : State) (l : List DWord) : (s.reply l).que = s.que := rfl
@[simp] theorem State.reply_cmp (s : State) (l : List DWord) : (s.reply l).cmp = s.cmp := rfl
@[simp] theorem State.reply_sch (s : State) (l : List DWord) : (s.reply l).sch = s.sch := rfl
@[simp] theorem State.reply_pwr (s : State) (l : List DWord) : (s.reply l).pwr = s.pwr := rfl
@[simp] theorem State.reply_fw (s : State) (l : List DWord) : (s.reply l).fw = s.fw := rfl
@[simp] theorem State.reply_sec (s : State) (l : List DWord) : (s.reply l).sec = s.sec := rfl
@[simp] theorem State.reply_side (s : State) (l : List DWord) : (s.reply l).side = s.side := rfl
@[simp] theorem State.reply_glb (s : State) (l : List DWord) : (s.reply l).glb = s.glb := rfl
@[simp] theorem State.reply_rst (s : State) (l : List DWord) : (s.reply l).rst = s.rst := rfl

/-! ### What an accessor reads after an update -/

theorem State.core_setCore (s : State) (c j : Nat) (k : Core) : (s.setCore c k).core j = if j = c then k else s.core j :=
  sget_sput _ _ _ _
@[simp] theorem State.core_setCore_same (s : State) (c : Nat) (k : Core) : (s.setCore c k).core c = k :=
  sget_sput_same _ _ _
@[simp] theorem State.pod_setCore (s : State) (c j : Nat) (k : Core) : (s.setCore c k).pod j = s.pod j := rfl
@[simp] theorem State.vd_setCore (s : State) (c j : Nat) (k : Core) : (s.setCore c k).vd j = s.vd j := rfl
@[simp] theorem State.ctx_setCore (s : State) (c j : Nat) (k : Core) : (s.setCore c k).ctx j = s.ctx j := rfl
@[simp] theorem State.timeline_setCore (s : State) (c j : Nat) (k : Core) : (s.setCore c k).timeline j = s.timeline j := rfl
@[simp] theorem State.obj_setCore (s : State) (c j : Nat) (k : Core) : (s.setCore c k).obj j = s.obj j := rfl
@[simp] theorem State.cmd_setCore (s : State) (c j : Nat) (k : Core) : (s.setCore c k).cmd j = s.cmd j := rfl
@[simp] theorem State.pair_setCore (s : State) (c j : Nat) (k : Core) : (s.setCore c k).pair j = s.pair j := rfl
@[simp] theorem State.port_setCore (s : State) (c j : Nat) (k : Core) : (s.setCore c k).port j = s.port j := rfl
theorem State.pod_setPod (s : State) (p j : Nat) (k : Pod) : (s.setPod p k).pod j = if j = p then k else s.pod j :=
  sget_sput _ _ _ _
@[simp] theorem State.pod_setPod_same (s : State) (p : Nat) (k : Pod) : (s.setPod p k).pod p = k :=
  sget_sput_same _ _ _
@[simp] theorem State.core_setPod (s : State) (p j : Nat) (k : Pod) : (s.setPod p k).core j = s.core j := rfl
@[simp] theorem State.vd_setPod (s : State) (p j : Nat) (k : Pod) : (s.setPod p k).vd j = s.vd j := rfl
@[simp] theorem State.ctx_setPod (s : State) (p j : Nat) (k : Pod) : (s.setPod p k).ctx j = s.ctx j := rfl
@[simp] theorem State.timeline_setPod (s : State) (p j : Nat) (k : Pod) : (s.setPod p k).timeline j = s.timeline j := rfl
@[simp] theorem State.obj_setPod (s : State) (p j : Nat) (k : Pod) : (s.setPod p k).obj j = s.obj j := rfl
@[simp] theorem State.cmd_setPod (s : State) (p j : Nat) (k : Pod) : (s.setPod p k).cmd j = s.cmd j := rfl
@[simp] theorem State.pair_setPod (s : State) (p j : Nat) (k : Pod) : (s.setPod p k).pair j = s.pair j := rfl
@[simp] theorem State.port_setPod (s : State) (p j : Nat) (k : Pod) : (s.setPod p k).port j = s.port j := rfl
theorem State.vd_setVd (s : State) (v j : Nat) (k : Vd) : (s.setVd v k).vd j = if j = v then k else s.vd j :=
  sget_sput _ _ _ _
@[simp] theorem State.vd_setVd_same (s : State) (v : Nat) (k : Vd) : (s.setVd v k).vd v = k :=
  sget_sput_same _ _ _
@[simp] theorem State.core_setVd (s : State) (v j : Nat) (k : Vd) : (s.setVd v k).core j = s.core j := rfl
@[simp] theorem State.pod_setVd (s : State) (v j : Nat) (k : Vd) : (s.setVd v k).pod j = s.pod j := rfl
@[simp] theorem State.ctx_setVd (s : State) (v j : Nat) (k : Vd) : (s.setVd v k).ctx j = s.ctx j := rfl
@[simp] theorem State.timeline_setVd (s : State) (v j : Nat) (k : Vd) : (s.setVd v k).timeline j = s.timeline j := rfl
@[simp] theorem State.obj_setVd (s : State) (v j : Nat) (k : Vd) : (s.setVd v k).obj j = s.obj j := rfl
@[simp] theorem State.cmd_setVd (s : State) (v j : Nat) (k : Vd) : (s.setVd v k).cmd j = s.cmd j := rfl
@[simp] theorem State.pair_setVd (s : State) (v j : Nat) (k : Vd) : (s.setVd v k).pair j = s.pair j := rfl
@[simp] theorem State.port_setVd (s : State) (v j : Nat) (k : Vd) : (s.setVd v k).port j = s.port j := rfl
theorem State.ctx_setCtx (s : State) (c j : Nat) (k : Ctx) : (s.setCtx c k).ctx j = if j = c then k else s.ctx j :=
  sget_sput _ _ _ _
@[simp] theorem State.ctx_setCtx_same (s : State) (c : Nat) (k : Ctx) : (s.setCtx c k).ctx c = k :=
  sget_sput_same _ _ _
@[simp] theorem State.core_setCtx (s : State) (c j : Nat) (k : Ctx) : (s.setCtx c k).core j = s.core j := rfl
@[simp] theorem State.pod_setCtx (s : State) (c j : Nat) (k : Ctx) : (s.setCtx c k).pod j = s.pod j := rfl
@[simp] theorem State.vd_setCtx (s : State) (c j : Nat) (k : Ctx) : (s.setCtx c k).vd j = s.vd j := rfl
@[simp] theorem State.timeline_setCtx (s : State) (c j : Nat) (k : Ctx) : (s.setCtx c k).timeline j = s.timeline j := rfl
@[simp] theorem State.obj_setCtx (s : State) (c j : Nat) (k : Ctx) : (s.setCtx c k).obj j = s.obj j := rfl
@[simp] theorem State.cmd_setCtx (s : State) (c j : Nat) (k : Ctx) : (s.setCtx c k).cmd j = s.cmd j := rfl
@[simp] theorem State.pair_setCtx (s : State) (c j : Nat) (k : Ctx) : (s.setCtx c k).pair j = s.pair j := rfl
@[simp] theorem State.port_setCtx (s : State) (c j : Nat) (k : Ctx) : (s.setCtx c k).port j = s.port j := rfl
theorem State.timeline_setTimeline (s : State) (t j : Nat) (k : Timeline) : (s.setTimeline t k).timeline j = if j = t then k else s.timeline j :=
  sget_sput _ _ _ _
@[simp] theorem State.timeline_setTimeline_same (s : State) (t : Nat) (k : Timeline) : (s.setTimeline t k).timeline t = k :=
  sget_sput_same _ _ _
@[simp] theorem State.core_setTimeline (s : State) (t j : Nat) (k : Timeline) : (s.setTimeline t k).core j = s.core j := rfl
@[simp] theorem State.pod_setTimeline (s : State) (t j : Nat) (k : Timeline) : (s.setTimeline t k).pod j = s.pod j := rfl
@[simp] theorem State.vd_setTimeline (s : State) (t j : Nat) (k : Timeline) : (s.setTimeline t k).vd j = s.vd j := rfl
@[simp] theorem State.ctx_setTimeline (s : State) (t j : Nat) (k : Timeline) : (s.setTimeline t k).ctx j = s.ctx j := rfl
@[simp] theorem State.obj_setTimeline (s : State) (t j : Nat) (k : Timeline) : (s.setTimeline t k).obj j = s.obj j := rfl
@[simp] theorem State.cmd_setTimeline (s : State) (t j : Nat) (k : Timeline) : (s.setTimeline t k).cmd j = s.cmd j := rfl
@[simp] theorem State.pair_setTimeline (s : State) (t j : Nat) (k : Timeline) : (s.setTimeline t k).pair j = s.pair j := rfl
@[simp] theorem State.port_setTimeline (s : State) (t j : Nat) (k : Timeline) : (s.setTimeline t k).port j = s.port j := rfl
theorem State.obj_setObj (s : State) (i j : Nat) (k : Obj) : (s.setObj i k).obj j = if j = i then k else s.obj j :=
  sget_sput _ _ _ _
@[simp] theorem State.obj_setObj_same (s : State) (i : Nat) (k : Obj) : (s.setObj i k).obj i = k :=
  sget_sput_same _ _ _
@[simp] theorem State.core_setObj (s : State) (i j : Nat) (k : Obj) : (s.setObj i k).core j = s.core j := rfl
@[simp] theorem State.pod_setObj (s : State) (i j : Nat) (k : Obj) : (s.setObj i k).pod j = s.pod j := rfl
@[simp] theorem State.vd_setObj (s : State) (i j : Nat) (k : Obj) : (s.setObj i k).vd j = s.vd j := rfl
@[simp] theorem State.ctx_setObj (s : State) (i j : Nat) (k : Obj) : (s.setObj i k).ctx j = s.ctx j := rfl
@[simp] theorem State.timeline_setObj (s : State) (i j : Nat) (k : Obj) : (s.setObj i k).timeline j = s.timeline j := rfl
@[simp] theorem State.cmd_setObj (s : State) (i j : Nat) (k : Obj) : (s.setObj i k).cmd j = s.cmd j := rfl
@[simp] theorem State.pair_setObj (s : State) (i j : Nat) (k : Obj) : (s.setObj i k).pair j = s.pair j := rfl
@[simp] theorem State.port_setObj (s : State) (i j : Nat) (k : Obj) : (s.setObj i k).port j = s.port j := rfl
theorem State.cmd_setCmd (s : State) (q j : Nat) (k : Cmd) : (s.setCmd q k).cmd j = if j = q then k else s.cmd j :=
  sget_sput _ _ _ _
@[simp] theorem State.cmd_setCmd_same (s : State) (q : Nat) (k : Cmd) : (s.setCmd q k).cmd q = k :=
  sget_sput_same _ _ _
@[simp] theorem State.core_setCmd (s : State) (q j : Nat) (k : Cmd) : (s.setCmd q k).core j = s.core j := rfl
@[simp] theorem State.pod_setCmd (s : State) (q j : Nat) (k : Cmd) : (s.setCmd q k).pod j = s.pod j := rfl
@[simp] theorem State.vd_setCmd (s : State) (q j : Nat) (k : Cmd) : (s.setCmd q k).vd j = s.vd j := rfl
@[simp] theorem State.ctx_setCmd (s : State) (q j : Nat) (k : Cmd) : (s.setCmd q k).ctx j = s.ctx j := rfl
@[simp] theorem State.timeline_setCmd (s : State) (q j : Nat) (k : Cmd) : (s.setCmd q k).timeline j = s.timeline j := rfl
@[simp] theorem State.obj_setCmd (s : State) (q j : Nat) (k : Cmd) : (s.setCmd q k).obj j = s.obj j := rfl
@[simp] theorem State.pair_setCmd (s : State) (q j : Nat) (k : Cmd) : (s.setCmd q k).pair j = s.pair j := rfl
@[simp] theorem State.port_setCmd (s : State) (q j : Nat) (k : Cmd) : (s.setCmd q k).port j = s.port j := rfl
theorem State.pair_setPair (s : State) (q j : Nat) (k : QueuePair) : (s.setPair q k).pair j = if j = q then k else s.pair j :=
  sget_sput _ _ _ _
@[simp] theorem State.pair_setPair_same (s : State) (q : Nat) (k : QueuePair) : (s.setPair q k).pair q = k :=
  sget_sput_same _ _ _
@[simp] theorem State.core_setPair (s : State) (q j : Nat) (k : QueuePair) : (s.setPair q k).core j = s.core j := rfl
@[simp] theorem State.pod_setPair (s : State) (q j : Nat) (k : QueuePair) : (s.setPair q k).pod j = s.pod j := rfl
@[simp] theorem State.vd_setPair (s : State) (q j : Nat) (k : QueuePair) : (s.setPair q k).vd j = s.vd j := rfl
@[simp] theorem State.ctx_setPair (s : State) (q j : Nat) (k : QueuePair) : (s.setPair q k).ctx j = s.ctx j := rfl
@[simp] theorem State.timeline_setPair (s : State) (q j : Nat) (k : QueuePair) : (s.setPair q k).timeline j = s.timeline j := rfl
@[simp] theorem State.obj_setPair (s : State) (q j : Nat) (k : QueuePair) : (s.setPair q k).obj j = s.obj j := rfl
@[simp] theorem State.cmd_setPair (s : State) (q j : Nat) (k : QueuePair) : (s.setPair q k).cmd j = s.cmd j := rfl
@[simp] theorem State.port_setPair (s : State) (q j : Nat) (k : QueuePair) : (s.setPair q k).port j = s.port j := rfl
theorem State.port_setPort (s : State) (p j : Nat) (k : HostPort) : (s.setPort p k).port j = if j = p then k else s.port j :=
  sget_sput _ _ _ _
@[simp] theorem State.port_setPort_same (s : State) (p : Nat) (k : HostPort) : (s.setPort p k).port p = k :=
  sget_sput_same _ _ _
@[simp] theorem State.core_setPort (s : State) (p j : Nat) (k : HostPort) : (s.setPort p k).core j = s.core j := rfl
@[simp] theorem State.pod_setPort (s : State) (p j : Nat) (k : HostPort) : (s.setPort p k).pod j = s.pod j := rfl
@[simp] theorem State.vd_setPort (s : State) (p j : Nat) (k : HostPort) : (s.setPort p k).vd j = s.vd j := rfl
@[simp] theorem State.ctx_setPort (s : State) (p j : Nat) (k : HostPort) : (s.setPort p k).ctx j = s.ctx j := rfl
@[simp] theorem State.timeline_setPort (s : State) (p j : Nat) (k : HostPort) : (s.setPort p k).timeline j = s.timeline j := rfl
@[simp] theorem State.obj_setPort (s : State) (p j : Nat) (k : HostPort) : (s.setPort p k).obj j = s.obj j := rfl
@[simp] theorem State.cmd_setPort (s : State) (p j : Nat) (k : HostPort) : (s.setPort p k).cmd j = s.cmd j := rfl
@[simp] theorem State.pair_setPort (s : State) (p j : Nat) (k : HostPort) : (s.setPort p k).pair j = s.pair j := rfl
@[simp] theorem State.core_reply (s : State) (j : Nat) (l : List DWord) : (s.reply l).core j = s.core j := rfl
@[simp] theorem State.core_setReg (s : State) (a v j : Nat) : (s.setReg a v).core j = s.core j := rfl
@[simp] theorem State.pod_reply (s : State) (j : Nat) (l : List DWord) : (s.reply l).pod j = s.pod j := rfl
@[simp] theorem State.pod_setReg (s : State) (a v j : Nat) : (s.setReg a v).pod j = s.pod j := rfl
@[simp] theorem State.vd_reply (s : State) (j : Nat) (l : List DWord) : (s.reply l).vd j = s.vd j := rfl
@[simp] theorem State.vd_setReg (s : State) (a v j : Nat) : (s.setReg a v).vd j = s.vd j := rfl
@[simp] theorem State.ctx_reply (s : State) (j : Nat) (l : List DWord) : (s.reply l).ctx j = s.ctx j := rfl
@[simp] theorem State.ctx_setReg (s : State) (a v j : Nat) : (s.setReg a v).ctx j = s.ctx j := rfl
@[simp] theorem State.timeline_reply (s : State) (j : Nat) (l : List DWord) : (s.reply l).timeline j = s.timeline j := rfl
@[simp] theorem State.timeline_setReg (s : State) (a v j : Nat) : (s.setReg a v).timeline j = s.timeline j := rfl
@[simp] theorem State.obj_reply (s : State) (j : Nat) (l : List DWord) : (s.reply l).obj j = s.obj j := rfl
@[simp] theorem State.obj_setReg (s : State) (a v j : Nat) : (s.setReg a v).obj j = s.obj j := rfl
@[simp] theorem State.cmd_reply (s : State) (j : Nat) (l : List DWord) : (s.reply l).cmd j = s.cmd j := rfl
@[simp] theorem State.cmd_setReg (s : State) (a v j : Nat) : (s.setReg a v).cmd j = s.cmd j := rfl
@[simp] theorem State.pair_reply (s : State) (j : Nat) (l : List DWord) : (s.reply l).pair j = s.pair j := rfl
@[simp] theorem State.pair_setReg (s : State) (a v j : Nat) : (s.setReg a v).pair j = s.pair j := rfl
@[simp] theorem State.port_reply (s : State) (j : Nat) (l : List DWord) : (s.reply l).port j = s.port j := rfl
@[simp] theorem State.port_setReg (s : State) (a v j : Nat) : (s.setReg a v).port j = s.port j := rfl

/-! ### The core's registers -/

theorem Core.getS_setS (k : Core) (r j : Nat) (v : Word) :
    (k.setS r v).getS j = if j = r ∧ r ≠ 0 then v else k.getS j := by
  by_cases hr : r = 0
  · simp [Core.setS, hr]
  · by_cases hj : j = 0
    · simp [Core.getS, hr, hj, Ne.symm hr]
    · simp [Core.setS, Core.getS, hr, hj, sget_sput]

/-- s0 reads as zero whatever was written (R56). -/
@[simp] theorem Core.getS_zero (k : Core) : k.getS 0 = 0#32 := rfl

/-- m0 reads as all ones whatever was written (R56). -/
@[simp] theorem Core.getM_zero (k : Core) : k.getM 0 = BitVec.allOnes 64 := rfl

theorem Core.getM_setM (k : Core) (r j : Nat) (v : DWord) :
    (k.setM r v).getM j = if j = r ∧ r ≠ 0 then v else k.getM j := by
  by_cases hr : r = 0
  · simp [Core.setM, hr]
  · by_cases hj : j = 0
    · simp [Core.getM, hr, hj, Ne.symm hr]
    · simp [Core.setM, Core.getM, hr, hj, sget_sput]

theorem Core.getV_setV (k : Core) (r j : Nat) (v : VReg) :
    (k.setV r v).getV j = if j = r then v else k.getV j := sget_sput _ _ _ _

end Sys2Proof.Machine
end

