-- ==== Sys2Proof/Laws/Translation.lean ====
section
/-!
SUPPORT. Walks over cached entries (R227, R231, R232): an entry that the caches hold and the table still has is the one a
walk takes, and it changes nothing.
-/
namespace Sys2Proof.Machine

/-- A cached entry that the table still holds is taken as it is. -/
theorem walkEntry_cached {s : State} {v level va addr : Nat} {e : DWord} {d : BitVec 512}
    (hr : (s.mpeRead v (s.carve v (bitsOf addr 41 40)).key (addr / 64 * 64) false .clean).1 = .ok [d])
    (hw : lineWord d addr = e) (hc : s.cachedEntry v level va = some e) :
    s.walkEntry v level va addr = ((.inr e, false), s) := by
  simp only [State.walkEntry, hc, hr, List.headD_cons, hw, if_true]

/-- One step down a walk over a cached entry that is valid, well formed and no leaf. -/
theorem walkFrom_down {s : State} {v va pf level base : Nat} {wr : Bool} {mk : WalkFault} {e : DWord}
    (h : s.walkEntry v (level + 1) va (base + 8 * vaIndex (level + 1) va) = ((.inr e, false), s))
    (hv : pteV e.toNat = true) (hm : malformed (level + 1) e.toNat = false) (hl : pteLeaf e.toNat = false) :
    s.walkFrom v va wr pf mk (level + 1) base =
      s.walkFrom v va wr pf { mk with level := level + 1 } level (pteAddr e.toNat) := by
  simp [State.walkFrom, h, hv, hm, hl]

/-- The end of a walk at a cached leaf that allows the access. -/
theorem walkFrom_leaf {s : State} {v va pf level base : Nat} {wr : Bool} {mk : WalkFault} {e : DWord}
    (h : s.walkEntry v (level + 1) va (base + 8 * vaIndex (level + 1) va) = ((.inr e, false), s))
    (hv : pteV e.toNat = true) (hm : malformed (level + 1) e.toNat = false) (hl : pteLeaf e.toNat = true)
    (hr : pteR e.toNat = true) (hw : pteW e.toNat = true) :
    s.walkFrom v va wr pf mk (level + 1) base =
      if pteTgt e.toNat = 1 then
        s.hostTrans (s.spaceFn v pf) (pteAddr e.toNat + va % 2 ^ leafShift (level + 1)) wr (ptePri e.toNat)
          { mk with level := level + 1 }
      else (.mem (pteAddr e.toNat + va % 2 ^ leafShift (level + 1)), s) := by
  simp [State.walkFrom, h, hv, hm, hl, hr, hw]

/-! ### Reads of host memory -/

theorem readBytes_append (m : Mem) (a i j : Nat) : readBytes m a (i + j) = readBytes m a i ++ readBytes m (a + i) j := by
  induction i generalizing a with
  | zero => simp [readBytes]
  | succ i ih => rw [Nat.succ_add]; simp only [readBytes, ih, List.cons_append]; rw [Nat.add_assoc, Nat.add_comm 1 i]

theorem readVa_zero (s : State) (v pf req seq ctx f va : Nat) : s.readVa v pf req seq ctx f va 0 = (.ok [] 0, s) := by
  cases f <;> simp [State.readVa]

/-- A read of a range that translates to host memory, at the host addresses from 0 on, is answered by its bytes. -/
theorem readVa_host {s : State} {v pf req seq ctx fn base m : Nat} (hb : base % 64 = 0)
    (h : ∀ y < m, s.translate v (base + y) false pf req seq ctx = (.host fn y, s)) (f x n : Nat) (hm : x + n ≤ m)
    (hf : x % 64 + n ≤ 64 * f) :
    s.readVa v pf req seq ctx f (base + x) n = (.ok (readBytes s.host.mem x n) 0, s) := by
  induction f generalizing x n with
  | zero => obtain rfl : n = 0 := by omega
            simp [State.readVa, readBytes]
  | succ f ih =>
    by_cases hn : n = 0
    · subst hn; simp [State.readVa, readBytes]
    · have e : (base + x) % 64 = x % 64 := by omega
      by_cases hl : n ≤ 64 - x % 64
      · simp [State.readVa, hn, e, Nat.min_eq_left hl, State.readVaLine, h x (by omega), readVa_zero, worseStatus]
      · have hk : min n (64 - x % 64) = 64 - x % 64 := by omega
        have hr := ih (x + (64 - x % 64)) (n - (64 - x % 64)) (by omega) (by omega)
        rw [← Nat.add_assoc] at hr
        have hs := readBytes_append s.host.mem x (64 - x % 64) (n - (64 - x % 64))
        rw [show 64 - x % 64 + (n - (64 - x % 64)) = n by omega] at hs
        simp [State.readVa, hn, e, hk, State.readVaLine, h x (by omega), hr, hs, worseStatus]

end Sys2Proof.Machine
end

