-- ==== Sys2Proof/Tests/Slice0.lean ====
section
/-!
SUPPORT. Tests.
-/
namespace Sys2Proof.Tests
open Sys2Proof.Machine
theorem test_nop : True := by simp
end Sys2Proof.Tests
end

section
/-!
PROOFS. Writes of the register space (spec/17 R455 to R458, R465): what a configuration register holds after a write
(R10, R11), how the two halves of a 64-bit register commit (R457), and the two registers that clear what is read or
written (R465, R171).
-/
namespace Sys2Proof.Machine

/-! ### Words packed from fields -/

/-- The word whose field f holds `code f`. -/
def packFields (code : RegField → Nat) (l : List RegField) : Nat := (l.map fun f => code f * 2 ^ f.lo).sum

/-- The fields lie below bit n, each below the one before it. -/
def fieldsBelow : Nat → List RegField → Bool
  | _, [] => true
  | n, f :: l => f.lo ≤ f.hi && f.hi < n && fieldsBelow f.lo l

/-- The code a written register's field holds (R11): the one written, or the old one where the code is reserved. -/
def RegField.codeAfter (old new : Nat) (f : RegField) : Nat :=
  if f.ok (bitsOf new f.hi f.lo) = true then bitsOf new f.hi f.lo else bitsOf old f.hi f.lo

@[simp] theorem packFields_nil (code : RegField → Nat) : packFields code [] = 0 := rfl

@[simp] theorem packFields_cons (code : RegField → Nat) (f : RegField) (l : List RegField) :
    packFields code (f :: l) = code f * 2 ^ f.lo + packFields code l := List.sum_cons

theorem fieldsBelow_cons {n : Nat} {f : RegField} {l : List RegField} :
    fieldsBelow n (f :: l) = true ↔ f.lo ≤ f.hi ∧ f.hi < n ∧ fieldsBelow f.lo l = true := by
  simp [fieldsBelow, and_assoc]

theorem fieldsBelow_hi_lt {n : Nat} {l : List RegField} (h : fieldsBelow n l = true) {f : RegField} (hf : f ∈ l) :
    f.hi < n := by
  induction l generalizing n with
  | nil => cases hf
  | cons g l ih =>
    obtain ⟨hg, hn, hl⟩ := fieldsBelow_cons.1 h
    rcases List.mem_cons.1 hf with rfl | hf
    · exact hn
    · have := ih hl hf
      omega

theorem bitsOf_lt (v : Nat) (f : RegField) : bitsOf v f.hi f.lo < 2 ^ (f.hi + 1 - f.lo) := Nat.mod_lt _ (Nat.two_pow_pos _)

theorem RegField.codeAfter_lt (old new : Nat) (f : RegField) : f.codeAfter old new < 2 ^ (f.hi + 1 - f.lo) := by
  unfold RegField.codeAfter
  split
  · exact bitsOf_lt new f
  · exact bitsOf_lt old f

section
variable {code : RegField → Nat} (hc : ∀ f, code f < 2 ^ (f.hi + 1 - f.lo))
include hc

/-- Codes that fit their fields make a word that fits below the top field. -/
theorem packFields_lt {n : Nat} {l : List RegField} (h : fieldsBelow n l = true) : packFields code l < 2 ^ n := by
  induction l generalizing n with
  | nil => exact Nat.two_pow_pos n
  | cons f l ih =>
    obtain ⟨hf, hn, hl⟩ := fieldsBelow_cons.1 h
    calc packFields code (f :: l) = code f * 2 ^ f.lo + packFields code l := packFields_cons ..
      _ < code f * 2 ^ f.lo + 2 ^ f.lo := Nat.add_lt_add_left (ih hl) _
      _ = (code f + 1) * 2 ^ f.lo := (Nat.succ_mul _ _).symm
      _ ≤ 2 ^ (f.hi + 1 - f.lo) * 2 ^ f.lo := Nat.mul_le_mul_right _ (hc f)
      _ = 2 ^ (f.hi + 1) := by rw [← Nat.pow_add, Nat.sub_add_cancel (by omega)]
      _ ≤ 2 ^ n := Nat.pow_le_pow_right (by omega) hn

/-- A field of a packed word holds its code. -/
theorem bitsOf_packFields {n : Nat} {l : List RegField} (h : fieldsBelow n l = true) {f : RegField} (hf : f ∈ l) :
    bitsOf (packFields code l) f.hi f.lo = code f := by
  induction l generalizing n with
  | nil => cases hf
  | cons g l ih =>
    obtain ⟨-, -, hl⟩ := fieldsBelow_cons.1 h
    have hlt := packFields_lt hc hl
    rw [packFields_cons]
    rcases List.mem_cons.1 hf with rfl | hf
    · rw [bitsOf, Nat.add_comm, Nat.add_mul_div_right _ _ (Nat.two_pow_pos _), Nat.div_eq_of_lt hlt, Nat.zero_add,
        Nat.mod_eq_of_lt (hc f)]
    · have hfg := fieldsBelow_hi_lt hl hf
      rw [← ih hl hf]
      apply Nat.eq_of_testBit_eq
      intro i
      simp only [bitsOf, Nat.testBit_mod_two_pow, Nat.testBit_div_two_pow, Nat.mul_comm (code g),
        Nat.testBit_two_pow_mul_add _ hlt]
      by_cases hi : i < f.hi + 1 - f.lo
      · rw [if_pos (by omega)]
      · simp [hi]
end

/-- The written bits that lie in some field are those of the field mask, the fields of a word of ones. -/
theorem packFields_bitsOf_eq_and (v : Nat) {n : Nat} (hn : n ≤ 32) {l : List RegField} (h : fieldsBelow n l = true) :
    packFields (fun f => bitsOf v f.hi f.lo) l = v &&& packFields (fun f => bitsOf (2 ^ 32 - 1) f.hi f.lo) l := by
  induction l generalizing n with
  | nil => simp
  | cons f l ih =>
    obtain ⟨hf, hfn, hl⟩ := fieldsBelow_cons.1 h
    apply Nat.eq_of_testBit_eq
    intro i
    rw [Nat.testBit_and, packFields_cons, packFields_cons, Nat.mul_comm, Nat.mul_comm (bitsOf (2 ^ 32 - 1) f.hi f.lo),
      Nat.testBit_two_pow_mul_add _ (packFields_lt (bitsOf_lt v) hl),
      Nat.testBit_two_pow_mul_add _ (packFields_lt (bitsOf_lt (2 ^ 32 - 1)) hl)]
    by_cases hi : i < f.lo
    · rw [if_pos hi, if_pos hi, ih (by omega) hl, Nat.testBit_and]
    · simp only [if_neg hi, bitsOf, Nat.testBit_mod_two_pow, Nat.testBit_div_two_pow, Nat.testBit_two_pow_sub_one,
        Nat.sub_add_cancel (Nat.le_of_not_lt hi)]
      by_cases hw : i - f.lo < f.hi + 1 - f.lo
      · simp [hw, show i < 32 by omega]
      · simp [hw]

/-! ### The write of a register's fields (R10, R11) -/

theorem RegDesc.covered_eq_packFields (d : RegDesc) (v : Nat) :
    d.covered v = packFields (fun f => bitsOf v f.hi f.lo) d.fields := rfl

theorem RegDesc.covered_eq_and {d : RegDesc} (h : fieldsBelow 32 d.fields = true) (v : Nat) :
    d.covered v = v &&& d.covered (2 ^ 32 - 1) := packFields_bitsOf_eq_and v (Nat.le_refl _) h

/-- Clearing the bits of no field changes no field. -/
theorem RegDesc.bitsOf_covered {d : RegDesc} (h : fieldsBelow 32 d.fields = true) (v : Nat) {f : RegField}
    (hf : f ∈ d.fields) : bitsOf (d.covered v) f.hi f.lo = bitsOf v f.hi f.lo := bitsOf_packFields (bitsOf_lt v) h hf

theorem RegDesc.covered_covered {d : RegDesc} (h : fieldsBelow 32 d.fields = true) (v : Nat) :
    d.covered (d.covered v) = d.covered v :=
  congrArg List.sum (List.map_congr_left fun f hf => congrArg (· * 2 ^ f.lo) (d.bitsOf_covered h v hf))

/-- Was a reserved code written to one of the fields? -/
def RegDesc.reservedCode (d : RegDesc) (v : Nat) : Bool := d.fields.any fun f => !f.ok (bitsOf v f.hi f.lo)

theorem RegDesc.reservedCode_iff (d : RegDesc) (v : Nat) :
    d.reservedCode v = true ↔ ∃ f ∈ d.fields, f.ok (bitsOf v f.hi f.lo) = false := by simp [RegDesc.reservedCode]

/-- One field of a register's write: the bits gathered so far and whether something reserved was met. -/
def writeField (old new : Nat) (a : Nat × Bool) (f : RegField) : Nat × Bool :=
  if f.ro then (a.1 + bitsOf old f.hi f.lo * 2 ^ f.lo, a.2)
  else if f.ok (bitsOf new f.hi f.lo) then (a.1 + bitsOf new f.hi f.lo * 2 ^ f.lo, a.2)
  else (a.1 + bitsOf old f.hi f.lo * 2 ^ f.lo, true)

theorem RegDesc.write_eq_foldl (d : RegDesc) (old new : Nat) :
    d.write old new = d.fields.foldl (writeField old new) (0, d.covered new != new) := rfl

theorem writeField_writable {f : RegField} (h : f.ro = false) (old new : Nat) (a : Nat × Bool) :
    writeField old new a f = (a.1 + f.codeAfter old new * 2 ^ f.lo, a.2 || !f.ok (bitsOf new f.hi f.lo)) := by
  by_cases hok : f.ok (bitsOf new f.hi f.lo) = true
  · simp [writeField, RegField.codeAfter, h, hok]
  · simp [writeField, RegField.codeAfter, h, hok]

theorem foldl_writeField {l : List RegField} (h : ∀ f ∈ l, f.ro = false) (old new : Nat) (a : Nat × Bool) :
    l.foldl (writeField old new) a =
      (a.1 + packFields (RegField.codeAfter old new) l, a.2 || l.any fun f => !f.ok (bitsOf new f.hi f.lo)) := by
  induction l generalizing a with
  | nil => simp
  | cons f l ih =>
    obtain ⟨hf, hl⟩ := List.forall_mem_cons.1 h
    rw [List.foldl_cons, ih hl, writeField_writable hf, packFields_cons, List.any_cons, Nat.add_assoc, Bool.or_assoc]

/-- A write of a register without read-only fields packs the fields' codes, and reports reserved bits and codes. -/
theorem RegDesc.write_eq {d : RegDesc} (hro : ∀ f ∈ d.fields, f.ro = false) (old new : Nat) :
    d.write old new =
      (packFields (RegField.codeAfter old new) d.fields, d.covered new != new || d.reservedCode new) := by
  rw [RegDesc.write_eq_foldl, foldl_writeField hro, Nat.zero_add]
  rfl

/-! ### The register file -/

theorem State.reg_setReg_same (s : State) (a : Nat) {v : Nat} (h : v < 2 ^ 64) : (s.setReg a v).reg a = v := by
  simpa [State.reg, State.setReg, sget_sput_same] using h

theorem State.reg_setReg_ne (s : State) {a x : Nat} (v : Nat) (h : x ≠ a) : (s.setReg a v).reg x = s.reg x := by
  simp [State.reg, State.setReg, sget_sput_ne _ _ h]

@[simp] theorem State.regEff_setReg (s : State) (a v x : Nat) : (s.setReg a v).regEff x = s.regEff x := rfl

/-- RSVW set where a write reported something reserved (R11). -/
def State.orRsvw (s : State) (bad : Bool) : State := { s with rst := { s.rst with rsvw := s.rst.rsvw || bad } }

theorem State.orRsvw_true (s : State) : s.orRsvw true = s.setRsvw := by simp [State.orRsvw, State.setRsvw]
theorem State.orRsvw_false (s : State) : s.orRsvw false = s := by simp [State.orRsvw]

theorem State.ite_setRsvw (s : State) (bad : Bool) : (if bad = true then s.setRsvw else s) = s.orRsvw bad := by
  cases bad
  · exact s.orRsvw_false.symm
  · exact s.orRsvw_true.symm

theorem State.orRsvw_orRsvw (s : State) (x y : Bool) : (s.orRsvw x).orRsvw y = s.orRsvw (y || x) := by
  simp [State.orRsvw, Bool.or_assoc, Bool.or_comm x]

theorem State.orRsvw_setReg (s : State) (a v : Nat) (x : Bool) : (s.setReg a v).orRsvw x = (s.orRsvw x).setReg a v := rfl

@[simp] theorem State.reg_orRsvw (s : State) (x : Bool) (a : Nat) : (s.orRsvw x).reg a = s.reg a := rfl
@[simp] theorem State.regEff_orRsvw (s : State) (x : Bool) (a : Nat) : (s.orRsvw x).regEff a = s.regEff a := rfl

/-! ### Configuration registers without effects of their own -/

/-- Does a write of the PF register at b do more than set the register's fields? -/
def writeHasEffect (b : Nat) : Bool :=
  [0x10, basePct + 0x04, basePct + 0x34, baseErr, baseErr + 0x08, baseErr + 0x10, baseErr + 0x14, baseSec, baseSec + 4,
    baseCmp + 0x10, baseCmp + 0x20, baseCmp + 0x30, baseXlt, baseXlt + 0x14, baseSbk + 0x3000, baseFwlDev].contains b ||
  (baseQue ≤ b && b < baseQue + 0x4000) || (baseFwl ≤ b && b < baseFwlDev && (b - baseFwl) % 0x4000 = 0)

theorem State.pfSet_eq_cfgWrite {b : Nat} (h : writeHasEffect b = false) (s : State) (f v : Nat) :
    s.pfSet f b v = s.cfgWrite b v := by
  simp only [writeHasEffect, Bool.or_eq_false_iff, List.contains_eq_mem, decide_eq_false_iff_not, List.mem_cons,
    List.not_mem_nil, or_false, not_or, Bool.and_eq_false_imp, Bool.and_eq_true, decide_eq_true_eq] at h
  obtain ⟨⟨hown, hque⟩, hfwl⟩ := h
  have hq : ¬(baseQue ≤ b ∧ b < baseQue + 0x4000) := fun h => hque h.1 h.2
  have hf : ¬(baseFwl ≤ b ∧ b < baseFwlDev ∧ (b - baseFwl) % 0x4000 = 0) := fun h => hfwl ⟨h.1, h.2.1⟩ h.2.2
  simp only [State.pfSet, hown, hq, hf, if_false]

/-- A 32-bit register of PF BAR0 whose bits are those of its read-write fields, and whose write only sets them: no limit
ties one field's codes to another's. -/
structure IsPlainReg (b : Nat) (d : RegDesc) (r : RegSpan) : Prop where
  desc : regAt b = some d
  span : findReg pfSpans b = some (b, r, false)
  narrow : r.wide = false
  layout : fieldsBelow 32 d.fields = true
  writable : ∀ f ∈ d.fields, f.ro = false
  mask : r.mask = d.covered (2 ^ 32 - 1)
  noEffect : writeHasEffect b = false
  aligned : b / 4 * 4 = b
  noLimit : b ≠ basePct + 0x24 ∧ (b / 0x40000 * 0x40000 = baseSch → b < baseSch + 0x1000)
  belowDbg : b < baseDbg

/-- `IsPlainReg` as a check. -/
def plainRegCheck (b : Nat) (d : RegDesc) : Bool :=
  match findReg pfSpans b with
  | some (b', r, false) => b' = b && !r.wide && fieldsBelow 32 d.fields && d.fields.all (fun f => !f.ro) &&
      r.mask = d.covered (2 ^ 32 - 1) && !writeHasEffect b && b / 4 * 4 = b &&
      (b ≠ basePct + 0x24 && (b / 0x40000 * 0x40000 ≠ baseSch || b < baseSch + 0x1000)) && b < baseDbg
  | _ => false

theorem isPlainReg_of_check {b : Nat} {d : RegDesc} (hd : regAt b = some d) (h : plainRegCheck b d = true) :
    ∃ r, IsPlainReg b d r := by
  unfold plainRegCheck at h
  split at h
  · rename_i b' r hs
    simp only [Bool.and_eq_true, decide_eq_true_eq, Bool.not_eq_true', List.all_eq_true, Bool.or_eq_true] at h
    obtain ⟨⟨⟨⟨⟨⟨⟨⟨rfl, hw⟩, hl⟩, hro⟩, hm⟩, he⟩, ha⟩, hp, hq⟩, hb⟩ := h
    exact ⟨r, hd, hs, hw, hl, hro, hm, he, ha, ⟨hp, fun h => hq.resolve_left (not_not_intro h)⟩, hb⟩
  · cases h

section
variable {b : Nat} {d : RegDesc} {r : RegSpan} (h : IsPlainReg b d r)
include h

/-- A configuration write of a plain register: the fields' codes after it, and RSVW for a reserved code. -/
theorem IsPlainReg.cfgWrite_eq (s : State) (v : Nat) : s.cfgWrite b (d.covered v) =
    (s.orRsvw (d.reservedCode v)).setReg b (packFields (RegField.codeAfter (s.reg b) v) d.fields) := by
  have hcov := d.covered_covered h.layout v
  have hcode : d.write (s.reg b) (d.covered (d.covered v)) =
      (packFields (RegField.codeAfter (s.reg b) v) d.fields, d.reservedCode v) := by
    rw [hcov, RegDesc.write_eq h.writable, hcov, bne_self_eq_false, Bool.false_or]
    congr 1
    · exact congrArg List.sum (List.map_congr_left fun f hf => by
        simp only [RegField.codeAfter, d.bitsOf_covered h.layout v hf])
    · rw [Bool.eq_iff_iff, RegDesc.reservedCode_iff, RegDesc.reservedCode_iff]
      exact exists_congr fun f => and_congr_right fun hf => by rw [d.bitsOf_covered h.layout v hf]
  obtain ⟨hpct, hsch⟩ := h.noLimit
  simp only [State.cfgWrite, h.desc, hcode, State.ite_setRsvw]
  split
  · rename_i hblock
    have hlow : b < baseSch + 0x1000 := by
      rcases hblock with hb | hb
      · simp only [basePct, baseSch] at hb ⊢
        omega
      · exact hsch hb
    rw [if_pos (by rw [fieldsAgree, if_neg hpct, if_neg (by omega)])]
  · rfl

/-- A full write of a plain register: the fields' codes after it, and RSVW for reserved bits and codes (R10, R11). -/
theorem IsPlainReg.pfSetR_eq (s : State) (f w : Nat) : s.pfSetR f b r w =
    (s.orRsvw (decide (d.covered w ≠ w) || d.reservedCode w)).setReg b
      (packFields (RegField.codeAfter (s.reg b) w) d.fields) := by
  have hm : w &&& r.mask = d.covered w := by rw [h.mask, ← d.covered_eq_and h.layout]
  rw [State.pfSetR, hm, State.pfSet_eq_cfgWrite h.noEffect, h.cfgWrite_eq]
  by_cases hw : d.covered w = w
  · simp [hw]
  · rw [if_neg hw, ← State.orRsvw_true, State.orRsvw_setReg, State.orRsvw_orRsvw, decide_eq_true hw]
end

/-! ### Writes that reach a PF -/

section
variable {a : Access} {s : State}

/-- A PF's write that the gate passes acts where every byte is enabled, and only sets RSVW where one is not (R456). -/
theorem State.hostWrite_pf {addr : Nat} (hf : a.fn < 2) (hg : s.pfGate a.fn addr = .pass) (act : State → State) :
    s.hostWrite a addr act = if a.full = true then act s else s.setRsvw := by
  simp [State.hostWrite, hf, hg]

/-- A PF's whole DWORD write at an aligned address that the gate passes. -/
theorem State.hostWrite32_pf {addr v : Nat} (hf : a.fn < 2) (ha : addr / 4 * 4 = addr) (hg : s.pfGate a.fn addr = .pass)
    (hfull : a.full = true) : s.hostWrite32 a addr v = s.pfWrite a.fn addr (v % 2 ^ 32) := by
  simp only [State.hostWrite32, ha, State.hostWrite_pf hf hg, if_pos hfull, if_pos hf]

/-- REGISTER_WRITE of a plain register writes its low 32 bits. -/
theorem exec_registerWrite_plain {b : Nat} {d : RegDesc} {r : RegSpan} (h : IsPlainReg b d r) (hf : a.fn < 2)
    (hg : s.pfGate a.fn b = .pass) (v : DWord) : exec (.registerWrite a b v) s = .next
      (if a.full = true then s.pfSetR a.fn b r (v.toNat % 2 ^ 32) else s.setRsvw) := by
  change execRegisterWrite a b v s = _
  simp only [execRegisterWrite, if_pos hf, h.span, h.narrow, State.hostWrite32, h.aligned, State.hostWrite_pf hf hg,
    State.pfWrite, if_neg (Nat.not_le.2 h.belowDbg), Bool.false_eq_true, if_false]

/-- REGISTER_WRITE of a 64-bit register writes both halves. -/
theorem exec_registerWrite_wide {b : Nat} {r : RegSpan} (hs : findReg pfSpans b = some (b, r, false)) (hw : r.wide = true)
    (hf : a.fn < 2) (hfull : a.full = true) (hg : s.pfGate a.fn b = .pass) (v : DWord) :
    exec (.registerWrite a b v) s = .next (s.pfSetR a.fn b r v.toNat) := by
  change execRegisterWrite a b v s = _
  simp only [execRegisterWrite, if_pos hf, hs, hw, State.hostWrite64, State.hostWrite_pf hf hg, if_pos hfull, if_true]

/-- LOW_DWORD_WRITE of a 64-bit register stages the low half (R457). -/
theorem exec_lowDwordWrite_wide {b : Nat} {r : RegSpan} (hs : findReg pfSpans b = some (b, r, false)) (hw : r.wide = true)
    (hb : b < baseDbg) (ha : b / 4 * 4 = b) (hf : a.fn < 2) (hfull : a.full = true) (hg : s.pfGate a.fn b = .pass)
    (v : Word) : exec (.lowDwordWrite a b v) s = .next (s.stageLow a.fn b v.toNat) := by
  change execLowDwordWrite a b v s = _
  simp only [execLowDwordWrite, State.hostWrite32_pf hf ha hg hfull, State.pfWrite, if_neg (Nat.not_le.2 hb), hs, hw,
    Nat.mod_eq_of_lt v.isLt, Bool.false_eq_true, if_false, if_true]

/-- HIGH_DWORD_WRITE of a 64-bit register writes it whole, the low half being the one staged (R457). -/
theorem exec_highDwordWrite_wide {b : Nat} {r : RegSpan} (hs : findReg pfSpans (b + 4) = some (b, r, true))
    (hb : b + 4 < baseDbg) (ha : (b + 4) / 4 * 4 = b + 4) (hf : a.fn < 2) (hfull : a.full = true)
    (hg : s.pfGate a.fn (b + 4) = .pass) (v : Word) : exec (.highDwordWrite a (b + 4) v) s =
      .next ((s.takeStaged a.fn b (s.pfValue a.fn b)).2.pfSetR a.fn b r
        (v.toNat * 2 ^ 32 + (s.takeStaged a.fn b (s.pfValue a.fn b)).1)) := by
  change execHighDwordWrite a (b + 4) v s = _
  simp only [execHighDwordWrite, State.hostWrite32_pf hf ha hg hfull, State.pfWrite, if_neg (Nat.not_le.2 hb), hs,
    Nat.mod_eq_of_lt v.isLt, if_true]
end

/-- The low half taken by the high write is the one its function staged for the register, and it is staged no more. -/
theorem State.takeStaged_stageLow (s : State) (f b cur : Nat) (v : Word) :
    (s.stageLow f b v.toNat).takeStaged f b cur =
      (v.toNat, { s with glb := { s.glb with staged := sput none f none (s.stageLow f b v.toNat).glb.staged } }) := by
  simp [State.takeStaged, State.stageLow, sget_sput_same]

/-! ### The clauses of R10, R11, R456, R457 and R465 -/

/-- Registers of seven blocks that are plain: GLB's scratch, ERR, SBK, XLT, HBM, CMP and SCH_POLICY. -/
theorem plainRegCheck_of_mem : ∀ b ∈ [0x30, baseErr + 0x20, baseSbk + 0x2000, baseXlt + 0x08, baseHbm + 0x10,
    baseCmp + 0x04, baseCmp + 0x08, baseSch + 0x100], (regAt b).any (plainRegCheck b) = true := by decide

/-- What a full write of a plain register leaves: each field its code after the write, RSVW for what was reserved, every
other register and the values in force as they were. -/
theorem registerWrite_full {a : Access} {b : Nat} {d : RegDesc} {r : RegSpan} {s : State} (h : IsPlainReg b d r)
    (hf : a.fn < 2) (hg : s.pfGate a.fn b = .pass) (hfull : a.full = true) {v : DWord} {w : Nat}
    (hw : v.toNat % 2 ^ 32 = w) :
    ∃ s', exec (.registerWrite a b v) s = .next s' ∧
      (∀ f ∈ d.fields, bitsOf (s'.reg b) f.hi f.lo =
        if f.ok (bitsOf w f.hi f.lo) = true then bitsOf w f.hi f.lo else bitsOf (s.reg b) f.hi f.lo) ∧
      (s'.rst.rsvw = true ↔
        s.rst.rsvw = true ∨ d.covered w ≠ w ∨ ∃ f ∈ d.fields, f.ok (bitsOf w f.hi f.lo) = false) ∧
      (∀ x, x ≠ b → s'.reg x = s.reg x) ∧ (∀ x, s'.regEff x = s.regEff x) ∧
      s' = { s with glb := s'.glb, rst := { s.rst with rsvw := s'.rst.rsvw } } := by
  have hcode := RegField.codeAfter_lt (s.reg b) w
  have hlt := packFields_lt hcode h.layout
  refine ⟨_, by rw [exec_registerWrite_plain h hf hg, if_pos hfull, hw, h.pfSetR_eq], ?_, ?_, ?_, ?_, rfl⟩
  · intro f hfm
    rw [State.reg_setReg_same _ _ (hlt.trans (by decide)), bitsOf_packFields hcode h.layout hfm]
    rfl
  · simp only [State.setReg_rst, State.orRsvw, Bool.or_eq_true, decide_eq_true_eq, RegDesc.reservedCode_iff]
  · intro x hx
    rw [State.reg_setReg_ne _ _ hx, State.reg_orRsvw]
  · intro x
    rw [State.regEff_setReg, State.regEff_orRsvw]

/-- A write of the low half stages it, and the write of the high half that follows is a write of both (R457). -/
theorem lowDwordWrite_highDwordWrite {a : Access} {b : Nat} {r : RegSpan} {s : State} (hf : a.fn < 2)
    (hfull : a.full = true) (hal : b % 8 = 0) (hb : b < baseDbg) (hg : s.pfGate a.fn b = .pass)
    (hg' : s.pfGate a.fn (b + 4) = .pass) (hs : findReg pfSpans b = some (b, r, false))
    (hs' : findReg pfSpans (b + 4) = some (b, r, true)) (hw : r.wide = true) (lo hi : Word) :
    ∃ t, exec (.lowDwordWrite a b lo) s = .next t ∧ t = { s with glb := { s.glb with staged := t.glb.staged } } ∧
      exec (.highDwordWrite a (b + 4) hi) t =
        exec (.registerWrite a b (BitVec.ofNat 64 (hi.toNat * 2 ^ 32 + lo.toNat)))
          { s with glb := { s.glb with staged := sput none a.fn none t.glb.staged } } := by
  have hb' : b + 4 < baseDbg := by simp only [baseDbg] at hb ⊢; omega
  have hval : (BitVec.ofNat 64 (hi.toNat * 2 ^ 32 + lo.toNat)).toNat = hi.toNat * 2 ^ 32 + lo.toNat := by
    rw [BitVec.toNat_ofNat]; omega
  have hhigh := exec_highDwordWrite_wide (s := s.stageLow a.fn b lo.toNat) hs' hb' (by omega) hf hfull hg' hi
  rw [State.takeStaged_stageLow] at hhigh
  have hboth := exec_registerWrite_wide
    (s := { s with glb := { s.glb with staged := sput none a.fn none (s.stageLow a.fn b lo.toNat).glb.staged } })
    hs hw hf hfull hg (BitVec.ofNat 64 (hi.toNat * 2 ^ 32 + lo.toNat))
  rw [hval] at hboth
  exact ⟨_, exec_lowDwordWrite_wide hs hw hb (by omega) hf hfull hg lo, rfl, hhigh.trans hboth.symm⟩

/-- A W1C write of GLB_NMECAUSE clears the causes written with 1, and VALID with the last of them (R465). -/
theorem nmecauseClear_clears (v : Word) (s : State) :
    ∃ s', exec (.nmecauseClear v) s = .next s' ∧
      (∀ i < 15, s'.glb.nme.getLsbD i = (s.glb.nme.getLsbD i && !v.getLsbD i)) ∧
      s'.glb.nmeValid = (s.glb.nmeValid && decide (s'.glb.nme ≠ 0#15)) ∧ s'.glb.nmeBit = s.glb.nmeBit ∧
      s'.glb.nmeTime = s.glb.nmeTime ∧ s'.rst.rsvw = (s.rst.rsvw || decide (2 ^ 15 ≤ v.toNat)) := by
  have hexec : exec (.nmecauseClear v) s =
      .next ((s.clearNme (v.toNat % 2 ^ 15)).orRsvw (decide (2 ^ 15 ≤ v.toNat))) := by
    change execNmecauseClear v s = _
    by_cases h : v.toNat < 2 ^ 15
    · rw [decide_eq_false (Nat.not_le.2 h), State.orRsvw_false]
      simp only [execNmecauseClear, if_pos h]
    · rw [decide_eq_true (Nat.not_lt.1 h), State.orRsvw_true]
      simp only [execNmecauseClear, if_neg h]
  refine ⟨_, hexec, ?_, rfl, rfl, rfl, rfl⟩
  intro i hi
  have hbit : (BitVec.ofNat 15 (v.toNat % 2 ^ 15)).getLsbD i = v.getLsbD i := by
    rw [BitVec.getLsbD_ofNat, Nat.testBit_mod_two_pow, BitVec.testBit_toNat]
    simp [hi]
  simp only [State.orRsvw, State.clearNme, BitVec.getLsbD_and, BitVec.getLsbD_not, hbit, hi, decide_true, Bool.true_and]

/-- A write of SBK_ARBSEL selects an arbiter and class, latches its counts and clears them (R10). -/
theorem sbkArbselWrite_latches {v : Word} (hv : v.toNat < 2 ^ 13) (ha : bitsOf v.toNat 12 4 < 280) (s : State) :
    ∃ s', exec (.sbkArbselWrite v) s = .next s' ∧ s'.sbk.arbSel = v.toNat ∧
      s'.sbk.latched = sget {} s.sbk.stats v.toNat ∧ sget ({} : ArbStat) s'.sbk.stats v.toNat = {} ∧
      (∀ k, k ≠ v.toNat → sget ({} : ArbStat) s'.sbk.stats k = sget {} s.sbk.stats k) ∧ s'.sbk.mem = s.sbk.mem ∧
      s'.rst = s.rst := by
  have hkey : 16 * bitsOf v.toNat 12 4 + v.toNat % 16 = v.toNat := by simp only [bitsOf]; omega
  have hexec : exec (.sbkArbselWrite v) s = .next { s with sbk := { s.sbk with
      arbSel := v.toNat, latched := sget {} s.sbk.stats v.toNat, stats := sput {} v.toNat {} s.sbk.stats } } := by
    change execSbkArbselWrite v s = _
    simp only [execSbkArbselWrite, ge_iff_le, Nat.not_le.2 ha, Nat.not_le.2 hv, or_self, if_false, hkey]
  exact ⟨_, hexec, rfl, rfl, sget_sput_same _ _ _, fun k hk => sget_sput_ne _ _ hk, rfl, rfl⟩

/-- A device in RUN with host port A up. -/
def State.runPortA : State :=
  ({ State.reset with glb := { State.reset.glb with stage := .run }, rst := { State.reset.rst with heldInReset := false } } :
    State).setPort 0 { State.reset.port 0 with up := true }

/-- Witness of the gates: in RUN every address of BAR0 answers PF A. -/
theorem pfGate_runPortA (b : Nat) : State.runPortA.pfGate 0 b = .pass := rfl

/-- Witness of the 64-bit registers: the one at ERR + 0x28, found from either half. -/
theorem findReg_err28 : ∃ r, findReg pfSpans (baseErr + 0x28) = some (baseErr + 0x28, r, false) ∧
    findReg pfSpans (baseErr + 0x28 + 4) = some (baseErr + 0x28, r, true) ∧ r.wide = true := ⟨_, rfl, rfl, rfl⟩

/-- Settles O38: the registers named are plain, so a write packs the codes of their fields; a staged low half is the one the
high write commits; and the two clear registers by their own rules. -/
theorem registerWrites : Obligations.RegisterWrites := by
  unfold Obligations.RegisterWrites
  refine ⟨?_, ?_, nmecauseClear_clears, fun v s hv ha => sbkArbselWrite_latches hv ha s⟩
  · intro a b d v s hf hg hb hd
    have hcheck : plainRegCheck b d = true := by simpa [hd] using plainRegCheck_of_mem b hb
    obtain ⟨r, hr⟩ := isPlainReg_of_check hd hcheck
    refine ⟨fun hfull => registerWrite_full hr hf hg hfull rfl, fun hpart => ?_⟩
    rw [exec_registerWrite_plain hr hf hg, if_neg (by simp [hpart])]
    rfl
  · intro a b r lo hi s hf hfull hal hb hg hg' hs hs' hw
    exact lowDwordWrite_highDwordWrite hf hfull hal hb hg hg' hs hs' hw lo hi

end Sys2Proof.Machine
end

section
/-!
PROOFS. The conversions of the convert unit (spec/02 R38, spec/04 R99, R108, R112): what a retired core shows of CVT,
VQNT and VDQNT, the lanes and the packed image of a vector register, and the words the decode rules exclude.
-/
namespace Sys2Proof.Machine

/-! ### Issue -/

theorem issue_of_canIssue {c : Nat} {s : State} (h : s.canIssue c = true) (r : Core → State) :
    issue c s r = .next (r (s.core c)) := by rw [issue, if_pos h]

theorem issueCore_of_canIssue {c : Nat} {s : State} (h : s.canIssue c = true) (f : Core → Core) :
    issueCore c s f = .next (s.setCore c (f (s.core c))) := issue_of_canIssue h _

/-- Putting a core back without a free value drawn changes the core alone. -/
theorem State.putCore_freeCount (s : State) (c : Nat) (k : Core) : s.putCore c (k, s.freeCount) = s.setCore c k := rfl

theorem Core.raised_fault (k : Core) (c : Cause) (info : Nat) : k.Raised (k.fault c info) c info := rfl

/-! ### What sequencing and timing leave unchanged -/

/-- What the passing of a slot starts from: slot, pc, loop stack, and exception. -/
def Core.flow (k : Core) : Nat × Nat × List LoopEnt × Option Exc := (k.slot, k.pc, k.loops, k.exc)

@[simp] theorem Core.flow_setV (k : Core) (r : Nat) (v : VReg) : (k.setV r v).flow = k.flow := rfl
@[simp] theorem Core.flow_validVAt (k : Core) (r lat : Nat) : (k.validVAt r lat).flow = k.flow := rfl
@[simp] theorem Core.flow_occupy (k : Core) (u occ : Nat) : (k.occupy u occ).flow = k.flow := rfl
@[simp] theorem Core.flow_useTile (k : Core) (t n ch : Nat) : (k.useTile t n ch).flow = k.flow := rfl
@[simp] theorem Core.flow_count (k : Core) (lat : Nat) (e : Events) : (k.count lat e).flow = k.flow := by
  unfold Core.count; split <;> rfl

@[simp] theorem Core.results_validVAt (k : Core) (r lat : Nat) : (k.validVAt r lat).results = k.results := rfl
@[simp] theorem Core.results_occupy (k : Core) (u occ : Nat) : (k.occupy u occ).results = k.results := rfl
@[simp] theorem Core.results_useTile (k : Core) (t n ch : Nat) : (k.useTile t n ch).results = k.results := rfl
@[simp] theorem Core.results_count (k : Core) (lat : Nat) (e : Events) : (k.count lat e).results = k.results := by
  unfold Core.count; split <;> rfl
@[simp] theorem Core.results_retire (k : Core) : k.retire.results = k.results := by
  simp only [Core.retire, Core.retireN]; split <;> rfl

/-- A core that is where `k` is, whatever its results, has passed `k`'s slot once it retires (R71, R73). -/
theorem Core.passed_retire {k k1 : Core} (h : k1.flow = k.flow) : k.Passed k1.retire := by
  simp only [Core.flow, Prod.mk.injEq] at h
  obtain ⟨hslot, hpc, hloops, hexc⟩ := h
  simp only [Core.Passed, Core.retire, Core.retireN, hslot, hpc, hloops, hexc]
  split <;> exact ⟨rfl, rfl, rfl, rfl⟩

/-- Cores of equal results hold the same vector registers. -/
theorem Core.getV_of_results {k k1 : Core} (h : k1.results = k.results) (r : Nat) : k1.getV r = k.getV r := by
  have hv : k1.v = k.v := (congrArg Core.v h : k1.results.v = k.results.v)
  rw [Core.getV, Core.getV, hv]

/-! ### Lanes and packed images of a vector register (R56, R112) -/

theorem getLsbD_lane (v : VReg) (j i : Nat) : (lane v j).getLsbD i = (decide (i < 32) && v.getLsbD (32 * j + i)) := by
  rw [lane, BitVec.getLsbD_ofNat, Nat.testBit_div_two_pow, BitVec.testBit_toNat, Nat.add_comm]

theorem getLsbD_ofLanes_cons (w : Word) (l : List Word) {i : Nat} (hi : i < 2048) :
    (ofLanes (w :: l)).getLsbD i = if i < 32 then w.getLsbD i else (ofLanes l).getLsbD (i - 32) := by
  rw [ofLanes, BitVec.getLsbD_ofNat, Nat.add_comm, Nat.testBit_two_pow_mul_add _ w.isLt]
  simp only [hi, decide_true, Bool.true_and, BitVec.testBit_toNat]

/-- Lane j of a register built from lanes is the j-th of them. -/
theorem lane_ofLanes (l : List Word) {j : Nat} (hj : j < 64) : lane (ofLanes l) j = l.getD j 0#32 := by
  induction l generalizing j with
  | nil =>
    apply BitVec.eq_of_getLsbD_eq
    intro i _
    rw [getLsbD_lane, ofLanes, List.getD_nil, BitVec.getLsbD_zero, BitVec.getLsbD_zero, Bool.and_false]
  | cons w l ih =>
    cases j with
    | zero =>
      apply BitVec.eq_of_getLsbD_eq
      intro i hi
      rw [getLsbD_lane, Nat.mul_zero, Nat.zero_add, getLsbD_ofLanes_cons w l (by omega), if_pos hi]
      simp [hi]
    | succ j =>
      rw [List.getD_cons_succ, ← ih (by omega)]
      apply BitVec.eq_of_getLsbD_eq
      intro i hi
      rw [getLsbD_lane, getLsbD_lane, getLsbD_ofLanes_cons w l (by omega), if_neg (by omega),
        show 32 * (j + 1) + i - 32 = 32 * j + i by omega]

/-- The low n bytes of a number are those of its low m bytes. -/
theorem leBytes_mod {n m : Nat} (h : n ≤ m) (w : Nat) : leBytes n (w % 2 ^ (8 * m)) = leBytes n w := by
  induction n generalizing m w with
  | zero => rfl
  | succ n ih =>
    obtain ⟨m, rfl⟩ := Nat.exists_eq_succ_of_ne_zero (by omega : m ≠ 0)
    rw [leBytes, leBytes, Nat.mul_succ, Nat.add_comm, Nat.pow_add, Nat.mod_mul_right_div_self, ih (by omega)]
    congr 1
    apply BitVec.eq_of_toNat_eq
    rw [BitVec.toNat_ofNat, BitVec.toNat_ofNat, Nat.mod_mul_right_mod]

/-- The bytes of the number some bytes make are those bytes, with zeros after them. -/
theorem leBytes_leNat {n m : Nat} (h : n ≤ m) (l : List Byte) :
    leBytes n (leNat l) = (l ++ List.replicate m 0#8).take n := by
  induction n generalizing m l with
  | zero => rfl
  | succ n ih =>
    cases l with
    | nil =>
      obtain ⟨m, rfl⟩ := Nat.exists_eq_succ_of_ne_zero (by omega : m ≠ 0)
      rw [List.nil_append, List.replicate_succ, List.take_succ_cons, ← List.nil_append (List.replicate m _),
        ← ih (by omega)]
      rfl
    | cons b l =>
      rw [List.cons_append, List.take_succ_cons, ← ih (by omega), leNat, leBytes]
      congr 1
      · apply BitVec.eq_of_toNat_eq
        have := b.isLt
        rw [BitVec.toNat_ofNat]
        omega
      · have := b.isLt
        congr 1
        omega

theorem leBytes_toNat_ofNat (n w : Nat) : leBytes n (BitVec.ofNat (8 * n) w).toNat = leBytes n w := by
  rw [BitVec.toNat_ofNat, leBytes_mod (Nat.le_refl n)]

/-- The packed image of a register made from bytes is those bytes, with zeros beyond them. -/
theorem vBytes_bytesToV (bs : List Byte) : vBytes (bytesToV bs) = (bs ++ List.replicate 256 0#8).take 256 :=
  (leBytes_toNat_ofNat 256 (leNat bs)).trans (leBytes_leNat (Nat.le_refl 256) bs)

/-! ### VQNT and VDQNT (R38, R112) -/

@[simp] theorem Core.draws_false (k : Core) (n : Nat) : k.draws false n = (none, k.lfsr) := rfl

@[simp] theorem Core.endSr_false (k : Core) (st : Word) (lat : Nat) : k.endSr false st lat = k := rfl

/-- What VQNT and VDQNT do with their result: it is written, counted, valid after the latency, and the slot passes. -/
def Core.convertTo (k : Core) (a : Nat) (v : VReg) (ev : Events) : Core :=
  ((((k.setV a v).count 6 ev).validVAt a 6).occupy unitConvert 2).retire

theorem Core.passed_convertTo (k : Core) (a : Nat) (v : VReg) (ev : Events) : k.Passed (k.convertTo a v ev) :=
  Core.passed_retire (by simp)

theorem Core.results_convertTo (k : Core) (a : Nat) (v : VReg) (ev : Events) :
    (k.convertTo a v ev).results = (k.setV a v).results := by simp [Core.convertTo]

theorem Core.getV_convertTo (k : Core) (a r : Nat) (v : VReg) (ev : Events) :
    (k.convertTo a v ev).getV r = if r = a then v else k.getV r :=
  (Core.getV_of_results (k.results_convertTo a v ev) r).trans (k.getV_setV a r v)

/-- A conversion to a vector register shows in its results by that register alone. -/
theorem Core.results_convertTo_frame (k : Core) (a : Nat) (v : VReg) (ev : Events) :
    (k.convertTo a v ev).results = ({ k with v := (k.convertTo a v ev).v } : Core).results := by
  have h := k.results_convertTo a v ev
  have hv : (k.convertTo a v ev).v = (k.setV a v).v := (congrArg Core.v h : (k.convertTo a v ev).results.v = _)
  rw [h, hv]
  rfl

/-- Lane j of the image `bs`, decoded by the exact value of its element and its block's scale (R38, R112). -/
def imageLane (fs : Fmt) (ssc : Bool) (bs : List Byte) (j : Nat) : Word :=
  (decode32 (elemValue fs (unpackAt fs (bs.take fs.chunkBytes) j)
    (if !ssc then .unit else if fs = .t3 then .fp16 (leNat ((bs.drop (128 + 2 * (j / 32))).take 2))
     else .e8m0 (bs.getD (128 + j / 32) 0#8).toNat))).1

/-- The image in `b` to the 64 FP32 lanes of `a`. -/
theorem exec_vdqnt {c a b f1 : Nat} {fs : Fmt} {ssc : Bool} {s : State} (hi : s.canIssue c = true)
    (hf : Fmt.ofCode f1 = some fs) (hs : fs.scaleBitOk ssc = true) :
    ∃ ev, exec (.vdqnt c { a := a, b := b, c := 0, d := 0, f1 := f1, f2 := 0, mod := 65536 * b2n ssc }) s =
      .next (s.setCore c ((s.core c).convertTo a
        (ofLanes ((List.range 64).map (imageLane fs ssc (vBytes ((s.core c).getV b))))) ev)) := by
  have hbit : bitOf (65536 * b2n ssc) 16 = ssc := by cases ssc <;> rfl
  change ∃ ev, execVdqnt c _ s = _
  simp only [execVdqnt, issueCore_of_canIssue hi, hf, hbit, hs, and_self, if_true, List.map_map]
  exact ⟨_, rfl⟩

/-- The packed image of `b`, encoded without scales, to `a`. -/
theorem exec_vqnt_unscaled {c a b f2 : Nat} {fd : Fmt} {sat : Bool} {s : State} (hi : s.canIssue c = true)
    (hf : Fmt.ofCode f2 = some fd) (hs : fd.scaleBitOk false = true) :
    let ls := lanes ((s.core c).getV b)
    ∃ ev, exec (.vqnt c { a := a, b := b, c := 0, d := 0, f1 := 0, f2 := f2, mod := 2 * b2n sat }) s =
      .next (s.setCore c ((s.core c).convertTo a (bytesToV (packChunk fd
        ((encodeFor fd false sat none none (ls.take 32)).codes ++
          (encodeFor fd false sat none none ((ls.drop 32).take 32)).codes))) ev)) := by
  intro ls
  have hsr : bitOf (2 * b2n sat) 0 = false := by cases sat <;> rfl
  have hsat : bitOf (2 * b2n sat) 1 = sat := by cases sat <;> rfl
  have ht : bitsOf (2 * b2n sat) 9 2 = 0 := by cases sat <;> rfl
  have hmask : bitOf (2 * b2n sat) 10 = false := by cases sat <;> rfl
  have hdsc : bitOf (2 * b2n sat) 17 = false := by cases sat <;> rfl
  change ∃ ev, execVqnt c _ s = _
  simp only [execVqnt, issueCore_of_canIssue hi, hf, hsr, hsat, ht, hmask, hdsc, hs, Core.draws_false, Core.endSr_false]
  rw [if_pos (by simp [b2n])]
  exact ⟨_, rfl⟩

/-! ### CVT (R107, R108) -/

/-- The core with other bytes and poison in its pocket. -/
def Core.setPocket (k : Core) (m : Mem) (p : SMap Bool) : Core := { k with pocket := m, poison := p }

/-- The core with one more window of R121 open. -/
def Core.openWindow (k : Core) (h : Hazard) : Core := { k with hazards := h :: k.liveHazards }

@[simp] theorem Core.flow_setPocket (k : Core) (m : Mem) (p : SMap Bool) : (k.setPocket m p).flow = k.flow := rfl
@[simp] theorem Core.flow_openWindow (k : Core) (h : Hazard) : (k.openWindow h).flow = k.flow := rfl
@[simp] theorem Core.results_openWindow (k : Core) (h : Hazard) : (k.openWindow h).results = k.results := rfl

section
variable {k : Core} (h : k.hazards = [])
include h

theorem Core.readyImage_eq (n : Nat) (sps : List Span) : k.readyImage n sps = (k.pocket, n) := by
  simp [Core.readyImage, h]

theorem Core.breakHazards_eq (n a len : Nat) : k.breakHazards n a len = (k, n) := by
  simp [Core.breakHazards, h]

theorem Core.foldl_breakHazards_eq (n : Nat) (ws : List (Nat × List Byte)) :
    ws.foldl (fun (kn : Core × Nat) w => kn.1.breakHazards kn.2 w.1 w.2.length) (k, n) = (k, n) := by
  induction ws with
  | nil => rfl
  | cons w ws ih => rw [List.foldl_cons, Core.breakHazards_eq h, ih]

/-- With no window open, writes of several runs change bytes and poison of the pocket only. -/
theorem Core.writeAll_eq (n : Nat) (ws : List (Nat × List Byte)) :
    ∃ p, k.writeAll n ws = (k.setPocket (ws.foldl (fun m w => writeBytes m w.1 w.2) k.pocket) p, n) := by
  simp only [Core.writeAll, Core.foldl_breakHazards_eq h]
  exact ⟨_, rfl⟩
end

/-- The chunks, shadow and mask words a CVT writes (R108, R110). -/
def Core.cvtWrites (k : Core) (d : CvtDec) (a : Nat) : List Span :=
  (k.desc (a + 0x10)).chunk d.fd d.dsc (k.cvtRows a) (k.cvtBlk a) ++
    (if d.shadow then (k.desc (a + 0x20)).chunk .e4m3 true (k.cvtRows a) (k.cvtBlk a) else []) ++
    (if d.mask then [cvtMaskSpan (k.pword (a + 0x30) % 2 ^ 17) (k.pword (a + 0x34) % 2 ^ 17) (k.cvtRows a)
      (k.cvtBlk a)] else [])

/-- The source a CVT reads from the pocket. -/
def Core.cvtReads (k : Core) (d : CvtDec) (a : Nat) : List Span :=
  if d.srcacc then [] else (k.desc a).spans d.fs d.ssc (k.cvtRows a) 64

/-- The runs of bytes each row of a CVT encodes to, the source read from the pocket as it is (R108). -/
def Core.cvtBytes (k : Core) (d : CvtDec) (a : Nat) : List (Nat × List Byte) :=
  ((List.range (k.cvtRows a)).map fun i =>
    (cvtRow d (k.desc (a + 0x10)) (k.desc (a + 0x20)) (k.pword (a + 0x30) % 2 ^ 17) (k.pword (a + 0x34) % 2 ^ 17)
      (k.cvtBlk a) i k.pocket (k.cvtSource k.pocket d (k.desc a) i).1 none).1).flatten

/-- The pocket with those bytes stored. -/
def Core.cvtImage (k : Core) (d : CvtDec) (a : Nat) : Mem :=
  (k.cvtBytes d a).foldl (fun m w => writeBytes m w.1 w.2) k.pocket

/-- The source of a CVT shares no byte with what it writes. -/
def Core.cvtApart (k : Core) (d : CvtDec) (a : Nat) : Prop :=
  ∀ p ∈ k.cvtReads d a, ∀ r ∈ p.runs, ∀ q ∈ k.cvtWrites d a, q.meets r.1 r.2 = false

/-- What a CVT does once its bytes are written: it counts, uses its unit and its tile, and opens its window. -/
def Core.endCvt (k : Core) (d : CvtDec) (lat occ : Nat) (ev : Events) (h : Hazard) : Core :=
  let k1 := (k.count lat ev).occupy unitConvert occ
  (if d.srcacc then k1.useTile d.acc occ 0 else k1).openWindow h

section
variable (k : Core) (d : CvtDec) (lat occ : Nat) (ev : Events) (h : Hazard)

theorem Core.flow_endCvt : (k.endCvt d lat occ ev h).flow = k.flow := by
  cases hd : d.srcacc <;> simp [Core.endCvt, hd]

theorem Core.results_endCvt : (k.endCvt d lat occ ev h).results = k.results := by
  cases hd : d.srcacc <;> simp [Core.endCvt, hd]
end

/-- With no window open, its source apart from what it writes and no stochastic rounding, a CVT stores the bytes of its
rows and ends. -/
theorem Core.cvtRun_eq {k : Core} {d : CvtDec} {a : Nat} (hz : k.hazards = []) (hsr : d.sr = false)
    (hapart : k.cvtApart d a) (n : Nat) :
    ∃ p lat occ ev h,
      k.cvtRun n d a = (((k.setPocket (k.cvtImage d a) p).endCvt d lat occ ev h).retire, n) := by
  have hclash : ((k.cvtReads d a).any fun x => x.runs.any fun r => (k.cvtWrites d a).any fun y => y.meets r.1 r.2) =
      false := by simpa [Core.cvtApart] using hapart
  have hn (ws) : (k.writeAll n ws).2 = n := by
    obtain ⟨p, hp⟩ := Core.writeAll_eq hz n ws
    rw [hp]
  have hrun : ∃ lat occ ev h,
      k.cvtRun n d a = (((k.writeAll n (k.cvtBytes d a)).1.endCvt d lat occ ev h).retire, n) := by
    simp only [Core.cvtReads, Core.cvtWrites] at hclash
    simp only [Core.cvtRun, Core.readyImage_eq hz, hsr, Core.draws_false, Core.endSr_false, hclash, List.map_map,
      Bool.false_eq_true, if_false, hn]
    exact ⟨_, _, _, _, rfl⟩
  obtain ⟨lat, occ, ev, h, hrun⟩ := hrun
  obtain ⟨p, hp⟩ := Core.writeAll_eq hz n (k.cvtBytes d a)
  exact ⟨p, lat, occ, ev, h, by rw [hrun, hp, Core.cvtImage]⟩

/-- A core whose results are those of `k` with another pocket shows the change by its pocket and poison alone. -/
theorem Core.pocket_of_results {k k1 : Core} {m : Mem} {p : SMap Bool} (h : k1.results = (k.setPocket m p).results) :
    k1.pocket = m ∧ k1.results = ({ k with pocket := k1.pocket, poison := k1.poison } : Core).results := by
  have hm : k1.pocket = m := (congrArg Core.pocket h : k1.results.pocket = (k.setPocket m p).results.pocket)
  have hp : k1.poison = p := (congrArg Core.poison h : k1.results.poison = (k.setPocket m p).results.poison)
  exact ⟨hm, by rw [h, hm, hp]; rfl⟩

/-- A CVT whose checks pass stores the bytes of its rows; nothing else of the core's results changes but poison. -/
theorem exec_cvt {c a : Nat} {x : XFields} {d : CvtDec} {s : State} {k : Core} (hk : s.core c = k)
    (ha : (k.getS x.a).toNat = a) (hi : s.canIssue c = true) (hd : cvtDecode x = some d) (hok : k.cvtFail d a = none)
    (hz : k.hazards = []) (hsr : d.sr = false) (hapart : k.cvtApart d a) :
    ∃ k', exec (.cvt c x) s = .next (s.setCore c k') ∧ k.Passed k' ∧ k'.pocket = k.cvtImage d a ∧
      k'.results = ({ k with pocket := k'.pocket, poison := k'.poison } : Core).results := by
  obtain ⟨p, lat, occ, ev, h, hrun⟩ := Core.cvtRun_eq hz hsr hapart s.freeCount
  have hexec : exec (.cvt c x) s = execCvt c x s := rfl
  simp only [execCvt, issue_of_canIssue hi, hk, ha, hd, hok, hrun, State.putCore_freeCount] at hexec
  refine ⟨_, hexec, Core.passed_retire ?_, Core.pocket_of_results (p := p) ?_⟩
  · rw [Core.flow_endCvt, Core.flow_setPocket]
  · rw [Core.results_retire, Core.results_endCvt]

/-! ### Excluded words (R99, R108, R112) -/

/-- An instruction of the tensor and convert units whose word the decode rules of R99 exclude. -/
def excludedWord (c : Nat) (x : XFields) (i : Instr) : Prop :=
  (i = .mma c x ∧ mmaDecode x false = none) ∨ (i = .mmae c x ∧ mmaDecode x true = none) ∨
  (i = .cvt c x ∧ cvtDecode x = none) ∨ (i = .vqnt c x ∧ Fmt.ofCode x.f2 = none) ∨
  (i = .vdqnt c x ∧ Fmt.ofCode x.f1 = none)

theorem exec_excludedWord {c : Nat} {x : XFields} {i : Instr} {s : State} (hi : s.canIssue c = true)
    (h : excludedWord c x i) : exec i s = .next (s.setCore c ((s.core c).fault .illegalInstr 0)) := by
  rcases h with ⟨rfl, hd⟩ | ⟨rfl, hd⟩ | ⟨rfl, hd⟩ | ⟨rfl, hd⟩ | ⟨rfl, hd⟩
  · change mmaStep c x false s = _
    simp only [mmaStep, issue_of_canIssue hi, hd]
  · change mmaStep c x true s = _
    simp only [mmaStep, issue_of_canIssue hi, hd]
  · change execCvt c x s = _
    simp only [execCvt, issue_of_canIssue hi, hd]
  · change execVqnt c x s = _
    simp only [execVqnt, issueCore_of_canIssue hi, hd]
  · change execVdqnt c x s = _
    simp only [execVdqnt, issueCore_of_canIssue hi, hd]

/-! ### Witnesses of the hypotheses -/

/-- A convert descriptor at address 0 (one row from 0x1000, its elements to 0x2000 and its scales to 0x3000), and a row
that begins with 3.0. -/
def convertPocket : Mem :=
  [(0, 0x1000), (0x10, 0x2000), (0x18, 0x3000), (0x38, 0x10000), (0x1000, 0x40400000)].foldl
    (fun m w => writeLE m w.1 4 w.2) []

/-- A device whose core 0 runs with that pocket. -/
def State.convertReady : State := State.reset.setCore 0 { running := true, pocket := convertPocket }

/-- The word of a CVT from FP32 to block-scaled E4M3, its descriptor at s0. -/
def convertWord : XFields := { a := 0, b := 0, c := 0, d := 0, f1 := 0, f2 := 3, mod := 2 ^ 17 }

theorem canIssue_convertReady : State.convertReady.canIssue 0 = true := by decide

/-- What `convertWord` decodes to. -/
def convertWordDec : CvtDec where
  fs := .fp32
  fd := .e4m3
  dsc := true
  ssc := false
  acc := 0
  srcacc := false
  scalein := false
  shadow := false
  mask := false
  t := 0
  sat := false
  sr := false

theorem cvtDecode_convertWord : cvtDecode convertWord = some convertWordDec := rfl

theorem cvtApart_convertReady : (State.convertReady.core 0).cvtApart convertWordDec 0 := by
  unfold Core.cvtApart
  decide

theorem exec_cvt_convertReady :
    ∃ k', exec (.cvt 0 convertWord) State.convertReady = .next (State.convertReady.setCore 0 k') ∧
      k'.pocket = (State.convertReady.core 0).cvtImage convertWordDec 0 := by
  obtain ⟨k', hexec, -, hpocket, -⟩ :=
    exec_cvt rfl rfl canIssue_convertReady cvtDecode_convertWord (by decide) rfl rfl cvtApart_convertReady
  exact ⟨k', hexec, hpocket⟩

theorem exec_vdqnt_convertReady : ∃ v ev,
    exec (.vdqnt 0 { convertWord with a := 1, b := 2, f1 := 11, f2 := 0, mod := 65536 }) State.convertReady =
      .next (State.convertReady.setCore 0 ((State.convertReady.core 0).convertTo 1 v ev)) :=
  ⟨_, exec_vdqnt (fs := .t3) (ssc := true) canIssue_convertReady rfl rfl⟩

theorem exec_vqnt_convertReady : ∃ v ev, exec (.vqnt 0 { convertWord with a := 1, b := 2, f2 := 8, mod := 2 })
    State.convertReady = .next (State.convertReady.setCore 0 ((State.convertReady.core 0).convertTo 1 v ev)) :=
  ⟨_, exec_vqnt_unscaled (fd := .int8) (sat := true) canIssue_convertReady rfl rfl⟩

/-- Operand d of a CVT must be 0 (R99). -/
theorem exec_excludedWord_convertReady : exec (.cvt 0 { convertWord with d := 1 }) State.convertReady =
    .next (State.convertReady.setCore 0 ((State.convertReady.core 0).fault .illegalInstr 0)) :=
  exec_excludedWord canIssue_convertReady (.inr (.inr (.inl ⟨rfl, rfl⟩)))

/-- Settles O13: each of the four clauses is the effect of its instruction as stated above, read through what a retired
core shows. -/
theorem conversions : Obligations.Conversions := by
  unfold Obligations.Conversions
  refine ⟨?cvt, ?vdqnt, ?vqnt, ?excluded⟩
  case cvt =>
    intro c x d s hi _ _ hd hok hz hsr _ _ _ _ hapart
    exact exec_cvt rfl rfl hi hd hok hz hsr hapart
  case vdqnt =>
    intro c a b f1 fs ssc s hi hf hs
    obtain ⟨ev, hexec⟩ := exec_vdqnt (a := a) (b := b) hi hf hs
    refine ⟨_, hexec, Core.passed_convertTo .., fun j hj => ?_, fun r hr => ?_, Core.results_convertTo_frame ..⟩
    · rw [Core.getV_convertTo, if_pos rfl, lane_ofLanes _ hj]
      simp [hj, imageLane]
    · rw [Core.getV_convertTo, if_neg hr]
  case vqnt =>
    intro c a b f2 fd sat s hi hf hs
    obtain ⟨ev, hexec⟩ := exec_vqnt_unscaled (a := a) (b := b) (sat := sat) hi hf hs
    refine ⟨_, hexec, Core.passed_convertTo .., ?_, fun r hr => ?_, Core.results_convertTo_frame ..⟩
    · rw [Core.getV_convertTo, if_pos rfl, vBytes_bytesToV]
    · rw [Core.getV_convertTo, if_neg hr]
  case excluded =>
    intro c x s hi i h
    exact ⟨_, exec_excludedWord hi h, Core.raised_fault ..⟩

end Sys2Proof.Machine
end

section
/-!
PROOFS. Instruction words (spec/03 R66 to R69, spec/04 R98, R99, R123): the fields of a word packed from fields, the
word of a decoded instruction, and that decoding and encoding undo each other.
-/
namespace Sys2Proof.Machine

/-! ### Function codes (R69, R123) -/

theorem aluOfFn_fnOfAlu (op : AluOp) : aluOfFn (fnOfAlu op) = some op := by cases op <;> rfl
theorem condOfFn_fnOfCond (cd : Cond) : condOfFn (fnOfCond cd) = some cd := by cases cd <;> rfl
theorem vfOfFn_fnOfVf (op : VfOp) : vfOfFn (fnOfVf op) = some op := by cases op <;> rfl
theorem viOfFn_fnOfVi (op : ViOp) : viOfFn (fnOfVi op) = some op := by cases op <;> rfl
theorem vcOfFn_fnOfVc (op : VcOp) : vcOfFn (fnOfVc op) = some op := by cases op <;> rfl
theorem vcOfFn_fnOfMask (op : MaskOp) : vcOfFn (fnOfMask op) = none := by cases op <;> rfl
theorem maskOfFn_fnOfMask (op : MaskOp) : maskOfFn (fnOfMask op) = some op := by cases op <;> rfl
theorem redOfFn_fnOfRed (op : RedOp) : redOfFn (fnOfRed op) = some op := by cases op <;> rfl
theorem fnOfAlu_lt (op : AluOp) : fnOfAlu op < 256 := by cases op <;> decide
theorem fnOfCond_lt (cd : Cond) : fnOfCond cd < 256 := by cases cd <;> decide
theorem fnOfLoad_lt (l : LoadKind) : fnOfLoad l < 256 := by cases l <;> decide
theorem fnOfStore_lt (t : StoreKind) : fnOfStore t < 256 := by cases t <;> decide
theorem fnOfVf_lt (op : VfOp) : fnOfVf op < 256 := by cases op <;> decide
theorem fnOfVi_lt (op : ViOp) : fnOfVi op < 256 := by cases op <;> decide
theorem fnOfVc_lt (op : VcOp) : fnOfVc op < 256 := by cases op <;> decide
theorem fnOfMask_lt (op : MaskOp) : fnOfMask op < 256 := by cases op <;> decide
theorem fnOfRed_lt (op : RedOp) : fnOfRed op < 256 := by cases op <;> decide

/-! ### Words from fields (R66) -/

/-- The word of a scalar load or store names no mask and no type (R69). -/
def plainPocket (n : Nat) : Bool := bitsOf n 35 32 = 0 && bitsOf n 39 37 = 0 && !bitOf n 36

theorem decodePocket_fnOfLoad (c : Nat) (l : LoadKind) (op f45 f40 f35 f30 low n : Nat) :
    decodePocket c ⟨op, fnOfLoad l, f45, f40, f35, f30, low, n⟩ =
      keep (plainPocket n) (.scalarLoad c l f45 f40 (BitVec.ofNat 32 low)) := by cases l <;> rfl

theorem decodePocket_fnOfStore (c : Nat) (t : StoreKind) (op f45 f40 f35 f30 low n : Nat) :
    decodePocket c ⟨op, fnOfStore t, f45, f40, f35, f30, low, n⟩ =
      keep (plainPocket n) (.scalarStore c t f45 f40 (BitVec.ofNat 32 low)) := by cases t <;> rfl

theorem keep_eq_some {b : Bool} {i j : Instr} : keep b i = some j ↔ b = true ∧ i = j := by
  cases b <;> simp [keep]

theorem ofNat_eq_word {n : Nat} {x : Word} : BitVec.ofNat 32 n = x ↔ n % 2 ^ 32 = x.toNat := by
  rw [BitVec.toNat_eq, BitVec.toNat_ofNat]

/-- `decide_eq_true_iff` for any decision procedure: the decoder decides let-bound propositions. -/
theorem decide_iff {p : Prop} {inst : Decidable p} : @decide p inst = true ↔ p := decide_eq_true_iff

/-- The fields of the word with these codes, registers and low 40 bits (R66). -/
def fieldsOf (op fn a b rest : Nat) : WordFields :=
  { op := op, fn := fn, f45 := a, f40 := b, f35 := bitsOf rest 39 35, f30 := bitsOf rest 34 30,
    low := rest % 2 ^ 32, n := op * 2 ^ 58 + fn * 2 ^ 50 + a * 2 ^ 45 + b * 2 ^ 40 + rest }

section
variable {fn a b rest : Nat} (h : fn < 256 ∧ a < 32 ∧ b < 32 ∧ rest < 2 ^ 40)
include h

theorem wordFields_wordOf {op : Nat} (hop : op < 64) :
    wordFields (wordOf op fn a b rest) = fieldsOf op fn a b rest := by
  have hn : (wordOf op fn a b rest).toNat = op * 2 ^ 58 + fn * 2 ^ 50 + a * 2 ^ 45 + b * 2 ^ 40 + rest :=
    (BitVec.toNat_ofNat _ _).trans (Nat.mod_eq_of_lt (by omega))
  simp only [wordFields, fieldsOf, hn, WordFields.mk.injEq, and_true]
  simp only [bitsOf]
  omega

variable (c : Nat)

theorem decodeWord_system : decodeWord c (wordOf 0x00 fn a b rest) = decodeSystem c (fieldsOf 0x00 fn a b rest) := by
  rw [decodeWord, wordFields_wordOf h (by decide)]; rfl

theorem decodeWord_alu : decodeWord c (wordOf 0x01 fn a b rest) = decodeAlu c (fieldsOf 0x01 fn a b rest) := by
  rw [decodeWord, wordFields_wordOf h (by decide)]; rfl

theorem decodeWord_aluImm : decodeWord c (wordOf 0x02 fn a b rest) = decodeAluImm c (fieldsOf 0x02 fn a b rest) := by
  rw [decodeWord, wordFields_wordOf h (by decide)]; rfl

theorem decodeWord_branch : decodeWord c (wordOf 0x03 fn a b rest) = decodeBranch c (fieldsOf 0x03 fn a b rest) := by
  rw [decodeWord, wordFields_wordOf h (by decide)]; rfl

theorem decodeWord_pocket : decodeWord c (wordOf 0x04 fn a b rest) = decodePocket c (fieldsOf 0x04 fn a b rest) := by
  rw [decodeWord, wordFields_wordOf h (by decide)]; rfl

theorem decodeWord_transfer :
    decodeWord c (wordOf 0x05 fn a b rest) = decodeTransfer c (fieldsOf 0x05 fn a b rest) := by
  rw [decodeWord, wordFields_wordOf h (by decide)]; rfl

theorem decodeWord_timeline :
    decodeWord c (wordOf 0x06 fn a b rest) = decodeTimeline c (fieldsOf 0x06 fn a b rest) := by
  rw [decodeWord, wordFields_wordOf h (by decide)]; rfl
end

/-- A word of format V is decoded from its fields (R98). -/
theorem decodeWord_wordV {c op fn d a b e mk imm : Nat} {i : Instr}
    (hop : op = 0x10 ∨ op = 0x11 ∨ op = 0x12 ∨ op = 0x13 ∨ op = 0x14)
    (h : fn < 256 ∧ d < 32 ∧ a < 32 ∧ b < 32 ∧ e < 32 ∧ mk < 8 ∧ imm < 2 ^ 27)
    (hd : ∀ low n, bitsOf n 29 27 = mk → n % 2 ^ 27 = imm →
      decodeVector c ⟨op, fn, d, a, b, e, low, n⟩ = some i) :
    decodeWord c (wordV op fn d a b e mk imm) = some i := by
  have hb : bitsOf (b * 2 ^ 35 + e * 2 ^ 30 + mk * 2 ^ 27 + imm) 39 35 = b := by
    simp only [bitsOf, Nat.reduceAdd, Nat.reduceSub]; omega
  have he : bitsOf (b * 2 ^ 35 + e * 2 ^ 30 + mk * 2 ^ 27 + imm) 34 30 = e := by
    simp only [bitsOf, Nat.reduceAdd, Nat.reduceSub]; omega
  rw [decodeWord, wordV, wordFields_wordOf (by omega) (by omega), fieldsOf, hb, he]
  rcases hop with rfl | rfl | rfl | rfl | rfl <;>
    exact hd _ _ (by simp only [bitsOf, Nat.reduceAdd, Nat.reduceSub]; omega) (by omega)

/-- A word of format X is decoded from its fields (R99). -/
theorem decodeWord_wordX {c op fn : Nat} {x : XFields} {i : Instr} (hop : op = 0x20 ∨ op = 0x21 ∨ op = 0x22)
    (hfn : fn < 256) (hx : x.inRange = true)
    (hd : ∀ low n, ⟨x.a, x.b, x.c, x.d, bitsOf n 29 26, bitsOf n 25 22, n % 2 ^ 22⟩ = x →
      decodeTensor c ⟨op, fn, x.a, x.b, x.c, x.d, low, n⟩ = some i) :
    decodeWord c (wordX op fn x) = some i := by
  obtain ⟨a, b, cc, d, f1, f2, m⟩ := x
  simp only [XFields.inRange, Bool.and_eq_true, decide_eq_true_eq] at hx
  dsimp only at hd ⊢
  have hc' : bitsOf (cc * 2 ^ 35 + d * 2 ^ 30 + f1 * 2 ^ 26 + f2 * 2 ^ 22 + m) 39 35 = cc := by
    simp only [bitsOf, Nat.reduceAdd, Nat.reduceSub]; omega
  have hd' : bitsOf (cc * 2 ^ 35 + d * 2 ^ 30 + f1 * 2 ^ 26 + f2 * 2 ^ 22 + m) 34 30 = d := by
    simp only [bitsOf, Nat.reduceAdd, Nat.reduceSub]; omega
  rw [decodeWord, wordX, wordFields_wordOf (by dsimp only; omega) (by omega), fieldsOf, hc', hd']
  rcases hop with rfl | rfl | rfl <;>
    exact hd _ _ (by simp only [XFields.mk.injEq, bitsOf, Nat.reduceAdd, Nat.reduceSub, true_and]; omega)

/-! ### Decoding what was encoded (R66 to R69, R98, R99) -/

/-- The word of instruction `i` of core `c`, where it is well formed, decodes to it. -/
def RoundTrips (c : Nat) (i : Instr) : Prop := wellFormed i = true → decodeWord c (encodeWord i) = some i

section
variable (c d a b : Nat)

theorem roundTrips_scalarAlu (op : AluOp) (e : Nat) : RoundTrips c (.scalarAlu c op d a b e) := by
  intro hw
  simp only [wellFormed, Bool.and_eq_true, Bool.or_eq_true, decide_eq_true_eq, and_assoc, beq_iff_eq] at hw
  have hfn := fnOfAlu_lt op
  have hb : bitsOf (b * 2 ^ 35 + e * 2 ^ 30) 39 35 = b := by
    simp only [bitsOf, Nat.reduceAdd, Nat.reduceSub]; omega
  have he : bitsOf (b * 2 ^ 35 + e * 2 ^ 30) 34 30 = e := by
    simp only [bitsOf, Nat.reduceAdd, Nat.reduceSub]; omega
  rw [encodeWord, decodeWord_alu (by omega), fieldsOf]
  simp only [decodeAlu, aluOfFn_fnOfAlu, keep_eq_some, Bool.and_eq_true, Bool.or_eq_true, decide_iff, hb, he, hw,
    and_true]
  simp only [bitsOf, Nat.reduceAdd, Nat.reduceSub, Nat.pow_zero]
  omega

theorem roundTrips_scalarAluImmediate (op : AluOp) (imm : Word) : RoundTrips c (.scalarAluImmediate c op d a imm) := by
  intro hw
  simp only [wellFormed, Bool.and_eq_true, Bool.or_eq_true, decide_eq_true_eq, and_assoc,
    Bool.not_eq_true'] at hw
  have hfn := fnOfAlu_lt op
  have hl : imm.toNat % 2 ^ 32 = imm.toNat := Nat.mod_eq_of_lt imm.isLt
  rw [encodeWord, decodeWord_aluImm (by omega), fieldsOf]
  simp only [decodeAluImm, aluOfFn_fnOfAlu, keep_eq_some, Bool.and_eq_true, Bool.or_eq_true, decide_iff, and_true,
    Instr.scalarAluImmediate.injEq, ofNat_eq_word, hl, hw, Nat.le_iff_lt_add_one, Bool.not_eq_true']
  simp only [bitsOf, Nat.reduceAdd, Nat.reduceSub]
  omega

theorem roundTrips_branch (cd : Cond) (off : Word) : RoundTrips c (.branch c cd a b off) := by
  intro hw
  simp only [wellFormed, Bool.and_eq_true, decide_eq_true_eq, and_assoc, beq_iff_eq] at hw
  have hfn := fnOfCond_lt cd
  rw [encodeWord, decodeWord_branch (by omega), fieldsOf]
  simp only [decodeBranch, condOfFn_fnOfCond, keep_eq_some, Bool.and_eq_true, decide_iff, Instr.branch.injEq,
    ofNat_eq_word, true_and]
  simp only [bitsOf, Nat.reduceAdd, Nat.reduceSub]
  omega

theorem roundTrips_scalarLoad (l : LoadKind) (imm : Word) : RoundTrips c (.scalarLoad c l d a imm) := by
  intro hw
  simp only [wellFormed, Bool.and_eq_true, decide_eq_true_eq, and_assoc] at hw
  have hfn := fnOfLoad_lt l
  rw [encodeWord, decodeWord_pocket (by omega), fieldsOf, decodePocket_fnOfLoad]
  simp only [plainPocket, keep_eq_some, Bool.and_eq_true, decide_iff, Instr.scalarLoad.injEq, ofNat_eq_word, true_and,
    Bool.not_eq_true', bitOf, decide_eq_false_iff_not]
  simp only [bitsOf, Nat.reduceAdd, Nat.reduceSub]
  omega

theorem roundTrips_scalarStore (t : StoreKind) (imm : Word) : RoundTrips c (.scalarStore c t d a imm) := by
  intro hw
  simp only [wellFormed, Bool.and_eq_true, decide_eq_true_eq, and_assoc] at hw
  have hfn := fnOfStore_lt t
  rw [encodeWord, decodeWord_pocket (by omega), fieldsOf, decodePocket_fnOfStore]
  simp only [plainPocket, keep_eq_some, Bool.and_eq_true, decide_iff, Instr.scalarStore.injEq, ofNat_eq_word, true_and,
    Bool.not_eq_true', bitOf, decide_eq_false_iff_not]
  simp only [bitsOf, Nat.reduceAdd, Nat.reduceSub]
  omega

theorem roundTrips_accld (ty : Bool) (imm : Word) : RoundTrips c (.accld c d a ty imm) := by
  intro hw
  simp only [wellFormed, Bool.and_eq_true, decide_eq_true_eq, and_assoc] at hw
  have hty : b2n ty < 2 ∧ (ty = true ↔ b2n ty = 1) := by cases ty <;> decide
  rw [encodeWord, decodeWord_pocket (by omega), fieldsOf]
  simp only [decodePocket, keep_eq_some, Bool.and_eq_true, decide_iff, Instr.accld.injEq, ofNat_eq_word, true_and,
    bitOf, Bool.eq_iff_iff (b := ty), hty.2]
  simp only [bitsOf, Nat.reduceAdd, Nat.reduceSub]
  omega

variable (mk : Nat)

theorem roundTrips_vectorFpArithmetic (op : VfOp) (e : Nat) : RoundTrips c (.vectorFpArithmetic c op d a b e mk) := by
  intro hw
  simp only [wellFormed, Bool.and_eq_true, Bool.or_eq_true, decide_eq_true_eq, and_assoc, beq_iff_eq,
    Bool.not_eq_true'] at hw
  have hfn := fnOfVf_lt op
  refine decodeWord_wordV (by decide) (by omega) fun low n hmk himm => ?_
  simp only [decodeVector, vfOfFn_fnOfVf, keep_eq_some, Bool.and_eq_true, Bool.or_eq_true, decide_iff, hmk, himm, hw,
    and_true, Bool.not_eq_true']

theorem roundTrips_vectorInteger (op : ViOp) (imm : Nat) : RoundTrips c (.vectorInteger c op d a b mk imm) := by
  intro hw
  simp only [wellFormed, Bool.and_eq_true, decide_eq_true_eq, and_assoc] at hw
  have hfn := fnOfVi_lt op
  refine decodeWord_wordV (by decide) (by omega) fun low n hmk himm => ?_
  obtain ⟨-, -, -, -, -, hi, hx⟩ := hw
  simp only [decodeVector, viOfFn_fnOfVi, keep_eq_some, Bool.and_eq_true, decide_iff, hmk, himm, hi, true_and, and_true]
  cases hv : viImm op <;> simpa [hv] using hx

theorem roundTrips_vectorCompare (op : VcOp) : RoundTrips c (.vectorCompare c op d a b mk) := by
  intro hw
  simp only [wellFormed, Bool.and_eq_true, decide_eq_true_eq, and_assoc] at hw
  have hfn := fnOfVc_lt op
  refine decodeWord_wordV (by decide) (by omega) fun low n hmk himm => ?_
  simp only [decodeVector, vcOfFn_fnOfVc, keep_eq_some, Bool.and_eq_true, decide_iff, hmk, himm, hw, and_self]

theorem roundTrips_maskLogic (op : MaskOp) : RoundTrips c (.maskLogic c op d a b) := by
  intro hw
  simp only [wellFormed, Bool.and_eq_true, decide_eq_true_eq, and_assoc] at hw
  have hfn := fnOfMask_lt op
  refine decodeWord_wordV (by decide) (by omega) fun low n hmk himm => ?_
  simp only [decodeVector, vcOfFn_fnOfMask, maskOfFn_fnOfMask, keep_eq_some, Bool.and_eq_true, decide_iff, hmk, himm,
    hw, and_self]

theorem roundTrips_vectorReduction (op : RedOp) : RoundTrips c (.vectorReduction c op d a mk) := by
  intro hw
  simp only [wellFormed, Bool.and_eq_true, decide_eq_true_eq, and_assoc] at hw
  have hfn := fnOfRed_lt op
  refine decodeWord_wordV (by decide) (by omega) fun low n hmk himm => ?_
  simp only [decodeVector, redOfFn_fnOfRed, keep_eq_some, Bool.and_eq_true, decide_iff, hmk, himm, and_self]
end

/-- Every core instruction round-trips: the operations with codes of their own by the lemmas above, the rest by the
fields of their formats, one group for each OP. -/
theorem roundTrips_of_coreOf {i : Instr} {c : Nat} (hc : coreOf i = some c) : RoundTrips c i := by
  unfold coreOf at hc
  split at hc
  case h_47 => cases hc
  all_goals cases hc
  case h_7 op _ _ _ e => exact roundTrips_scalarAlu _ _ _ _ op e
  case h_8 op _ _ imm => exact roundTrips_scalarAluImmediate _ _ _ op imm
  case h_9 cd _ _ off => exact roundTrips_branch _ _ _ cd off
  case h_13 l _ _ imm => exact roundTrips_scalarLoad _ _ _ l imm
  case h_14 t _ _ imm => exact roundTrips_scalarStore _ _ _ t imm
  case h_17 ty imm => exact roundTrips_accld _ _ _ ty imm
  case h_26 op _ _ _ e _ => exact roundTrips_vectorFpArithmetic _ _ _ _ _ op e
  case h_27 op _ _ _ _ imm => exact roundTrips_vectorInteger _ _ _ _ _ op imm
  case h_28 op _ _ _ _ => exact roundTrips_vectorCompare _ _ _ _ _ op
  case h_29 op _ _ _ => exact roundTrips_maskLogic _ _ _ _ op
  case h_41 op _ _ _ => exact roundTrips_vectorReduction _ _ _ _ op
  all_goals
    intro hw
    simp only [wellFormed, Bool.and_eq_true, decide_eq_true_eq, and_assoc, beq_iff_eq] at hw
  case h_1 | h_2 | h_3 | h_4 | h_5 | h_6 => -- OP 0x00
    rw [encodeWord, decodeWord_system (by omega), fieldsOf]
    simp only [decodeSystem, keep_eq_some, Bool.and_eq_true, decide_iff, Instr.waitb.injEq, Instr.brk.injEq,
      Instr.csrr.injEq, Instr.csrw.injEq, ofNat_eq_word, true_and, and_true]
    simp only [bitsOf, Nat.reduceAdd, Nat.reduceSub]
    omega
  case h_10 | h_11 | h_12 => -- OP 0x03
    rw [encodeWord, decodeWord_branch (by omega), fieldsOf]
    simp only [decodeBranch, condOfFn, keep_eq_some, Bool.and_eq_true, decide_iff, Nat.mod_eq_of_lt (BitVec.isLt _),
      BitVec.ofNat_toNat, BitVec.setWidth_eq, and_true]
    simp only [bitsOf, Nat.reduceAdd, Nat.reduceSub]
    omega
  case h_15 | h_16 | h_18 => -- OP 0x04
    rw [encodeWord, decodeWord_pocket (by omega), fieldsOf]
    simp only [decodePocket, keep_eq_some, Bool.and_eq_true, decide_iff, Instr.vld.injEq, Instr.vst.injEq,
      Instr.accst.injEq, ofNat_eq_word, true_and, Bool.not_eq_true', bitOf, decide_eq_false_iff_not]
    simp only [bitsOf, Nat.reduceAdd, Nat.reduceSub]
    omega
  case h_19 | h_20 | h_21 | h_22 => -- OP 0x05
    rw [encodeWord, decodeWord_transfer (by omega), fieldsOf]
    simp only [decodeTransfer, keep_eq_some, Bool.and_eq_true, decide_iff, Instr.sbld.injEq, Instr.sbst.injEq,
      Instr.sbwait.injEq, Instr.isld.injEq, true_and, and_true]
    simp only [bitsOf, Nat.reduceAdd, Nat.reduceSub]
    omega
  case h_23 | h_24 | h_25 => -- OP 0x06
    rw [encodeWord, decodeWord_timeline (by omega), fieldsOf]
    simp only [decodeTimeline, keep_eq_some, Bool.and_eq_true, decide_iff, Instr.tlsig.injEq, Instr.tlwait.injEq,
      Instr.tlrd.injEq, true_and, and_true, hw]
    simp only [bitsOf, Nat.reduceAdd, Nat.reduceSub]
    omega
  case h_30 | h_31 | h_32 | h_33 | h_34 | h_35 | h_36 | h_37 | h_38 | h_39 | h_40 => -- OP 0x13
    refine decodeWord_wordV (by decide) (by omega) fun low n hmk himm => ?_
    simp only [decodeVector, keep_eq_some, Bool.and_eq_true, decide_iff, hmk, himm, hw, and_self]
  case h_42 | h_43 | h_44 | h_45 | h_46 => -- OP 0x20 to 0x22
    refine decodeWord_wordX (by decide) (by decide) (by simp only [hw]) fun low n hx => ?_
    simp only [decodeTensor, hx, keep_eq_some, hw, and_self]

/-- Witness: a VMVS of lane 63 is well formed, and its word is decoded. -/
theorem decodeWord_encodeWord_vmvs : decodeWord 7 (encodeWord (.vmvs 7 31 30 63)) = some (.vmvs 7 31 30 63) :=
  roundTrips_of_coreOf rfl (by decide)

/-- Settles O14: each instruction's word splits into the fields it was packed from, and its row of the decoder keeps
them. -/
theorem instructionWordsRoundTrip : Obligations.InstructionWordsRoundTrip := by
  unfold Obligations.InstructionWordsRoundTrip
  exact fun i c hc hw => roundTrips_of_coreOf hc hw

/-! ### Encoding what was decoded (R67) -/

theorem fnOfAlu_of_aluOfFn {n : Nat} {op : AluOp} (h : aluOfFn n = some op) : fnOfAlu op = n := by
  unfold aluOfFn at h; split at h <;> cases h <;> rfl
theorem fnOfCond_of_condOfFn {n : Nat} {cd : Cond} (h : condOfFn n = some cd) : fnOfCond cd = n := by
  unfold condOfFn at h; split at h <;> cases h <;> rfl
theorem fnOfVf_of_vfOfFn {n : Nat} {op : VfOp} (h : vfOfFn n = some op) : fnOfVf op = n := by
  unfold vfOfFn at h; split at h <;> cases h <;> rfl
theorem fnOfVi_of_viOfFn {n : Nat} {op : ViOp} (h : viOfFn n = some op) : fnOfVi op = n := by
  unfold viOfFn at h; split at h <;> cases h <;> rfl
theorem fnOfVc_of_vcOfFn {n : Nat} {op : VcOp} (h : vcOfFn n = some op) : fnOfVc op = n := by
  unfold vcOfFn at h; split at h <;> cases h <;> rfl
theorem fnOfMask_of_maskOfFn {n : Nat} {op : MaskOp} (h : maskOfFn n = some op) : fnOfMask op = n := by
  unfold maskOfFn at h; split at h <;> cases h <;> rfl
theorem fnOfRed_of_redOfFn {n : Nat} {op : RedOp} (h : redOfFn n = some op) : fnOfRed op = n := by
  unfold redOfFn at h; split at h <;> cases h <;> rfl

theorem wordOf_congr {op fn fn' a a' b b' r r' : Nat} (hfn : fn = fn') (ha : a = a') (hb : b = b') (hr : r = r') :
    wordOf op fn a b r = wordOf op fn' a' b' r' := by rw [hfn, ha, hb, hr]

/-- The word of instruction `i`, of core `c`, is the one of OP `op` whose fields are `f` (R66). -/
def IsWordOf (c : Nat) (f : WordFields) (op : Nat) (i : Instr) : Prop :=
  encodeWord i = wordOf op f.fn f.f45 f.f40 (f.n % 2 ^ 40) ∧ coreOf i = some c

section
variable {c : Nat} {f : WordFields} {i : Instr}

section
variable (hlow : f.low = f.n % 2 ^ 32)
include hlow

theorem toNat_ofNat_low : (BitVec.ofNat 32 f.low).toNat = f.low := by rw [BitVec.toNat_ofNat, hlow, Nat.mod_mod]

theorem isWordOf_of_decodeSystem (h : decodeSystem c f = some i) : IsWordOf c f 0x00 i := by
  have himm := toNat_ofNat_low hlow
  simp only [decodeSystem] at h
  split at h
  case h_7 => cases h
  all_goals
    obtain ⟨hk, rfl⟩ := keep_eq_some.1 h
    simp only [Bool.and_eq_true, decide_iff] at hk
    simp only [bitsOf, Nat.reduceAdd, Nat.reduceSub] at hk
    exact ⟨wordOf_congr (by omega) (by omega) (by omega) (by omega), rfl⟩

theorem isWordOf_of_decodeAluImm (h : decodeAluImm c f = some i) : IsWordOf c f 0x02 i := by
  have himm := toNat_ofNat_low hlow
  simp only [decodeAluImm] at h
  split at h
  · obtain ⟨hk, rfl⟩ := keep_eq_some.1 h
    simp only [Bool.and_eq_true, decide_iff] at hk
    simp only [bitsOf, Nat.reduceAdd, Nat.reduceSub] at hk
    exact ⟨wordOf_congr (fnOfAlu_of_aluOfFn ‹_›) rfl rfl (by omega), rfl⟩
  · cases h

theorem isWordOf_of_decodeBranch (h : decodeBranch c f = some i) : IsWordOf c f 0x03 i := by
  have himm := toNat_ofNat_low hlow
  simp only [decodeBranch] at h
  split at h
  case h_1 =>
    obtain ⟨hk, rfl⟩ := keep_eq_some.1 h
    simp only [Bool.and_eq_true, decide_iff] at hk
    simp only [bitsOf, Nat.reduceAdd, Nat.reduceSub] at hk
    exact ⟨wordOf_congr (fnOfCond_of_condOfFn ‹_›) rfl rfl (by omega), rfl⟩
  case h_2 =>
    split at h
    case h_4 => cases h
    all_goals
      obtain ⟨hk, rfl⟩ := keep_eq_some.1 h
      simp only [Bool.and_eq_true, decide_iff] at hk
      simp only [bitsOf, Nat.reduceAdd, Nat.reduceSub] at hk
      exact ⟨wordOf_congr (by omega) (by omega) (by omega) (by omega), rfl⟩

/-- The low 40 bits of a word in format M (R66). -/
theorem rest_formatM : f.n % 2 ^ 40 =
    bitsOf f.n 39 37 * 2 ^ 37 + b2n (bitOf f.n 36) * 2 ^ 36 + bitsOf f.n 35 32 * 2 ^ 32 + f.low := by
  have hty : b2n (bitOf f.n 36) = f.n / 2 ^ 36 % 2 := by simp only [b2n, bitOf, decide_eq_true_eq]; split <;> omega
  simp only [hty, bitsOf, Nat.reduceAdd, Nat.reduceSub]
  omega

theorem isWordOf_of_decodePocket (h : decodePocket c f = some i) : IsWordOf c f 0x04 i := by
  have himm := toNat_ofNat_low hlow
  have hrest := rest_formatM hlow
  simp only [decodePocket] at h
  split at h
  case h_13 => cases h
  all_goals
    obtain ⟨hk, rfl⟩ := keep_eq_some.1 h
    simp only [Bool.and_eq_true, decide_iff, Bool.not_eq_true'] at hk
    exact ⟨wordOf_congr (‹f.fn = _›.symm) rfl rfl (by rw [hrest, himm]; simp [hk, b2n]), rfl⟩

theorem isWordOf_of_decodeTransfer (h : decodeTransfer c f = some i) : IsWordOf c f 0x05 i := by
  have htag : bitsOf f.n 39 36 = f.n / 2 ^ 36 % 2 ^ 4 := rfl
  simp only [decodeTransfer] at h
  split at h
  case h_5 => cases h
  all_goals
    obtain ⟨hk, rfl⟩ := keep_eq_some.1 h
    simp only [Bool.and_eq_true, decide_iff] at hk
    simp only [bitsOf, Nat.reduceAdd, Nat.reduceSub] at hk
    exact ⟨wordOf_congr (by omega) (by omega) (by omega) (by omega), rfl⟩

theorem isWordOf_of_decodeTimeline (h : decodeTimeline c f = some i) : IsWordOf c f 0x06 i := by
  simp only [decodeTimeline] at h
  split at h
  case h_4 => cases h
  all_goals
    obtain ⟨hk, rfl⟩ := keep_eq_some.1 h
    simp only [Bool.and_eq_true, decide_iff] at hk
    simp only [bitsOf, Nat.reduceAdd, Nat.reduceSub] at hk
    exact ⟨wordOf_congr (by omega) (by omega) (by omega) (by omega), rfl⟩
end

section
variable (h35 : f.f35 = bitsOf f.n 39 35) (h30 : f.f30 = bitsOf f.n 34 30)
include h35 h30

theorem isWordOf_of_decodeAlu (h : decodeAlu c f = some i) : IsWordOf c f 0x01 i := by
  simp only [decodeAlu] at h
  split at h
  · obtain ⟨hk, rfl⟩ := keep_eq_some.1 h
    simp only [Bool.and_eq_true, decide_iff] at hk
    simp only [bitsOf, Nat.reduceAdd, Nat.reduceSub, Nat.pow_zero] at hk h35 h30
    exact ⟨wordOf_congr (fnOfAlu_of_aluOfFn ‹_›) rfl rfl (by omega), rfl⟩
  · cases h

/-- The low 40 bits of a word in format V (R98). -/
theorem rest_formatV : f.n % 2 ^ 40 =
    f.f35 * 2 ^ 35 + f.f30 * 2 ^ 30 + bitsOf f.n 29 27 * 2 ^ 27 + f.n % 2 ^ 27 := by
  simp only [bitsOf, Nat.reduceAdd, Nat.reduceSub] at h35 h30 ⊢
  omega

theorem isWordOf_of_decodeVector (h : decodeVector c f = some i) : IsWordOf c f f.op i := by
  have hrest := rest_formatV h35 h30
  simp only [decodeVector] at h
  split at h
  case h_16 => cases h
  all_goals simp only [IsWordOf, ‹f.op = _›]
  case h_1 =>
    split at h
    · obtain ⟨hk, rfl⟩ := keep_eq_some.1 h
      simp only [Bool.and_eq_true, decide_iff] at hk
      exact ⟨wordOf_congr (fnOfVf_of_vfOfFn ‹_›) rfl rfl (by omega), rfl⟩
    · cases h
  case h_2 =>
    split at h
    · obtain ⟨hk, rfl⟩ := keep_eq_some.1 h
      simp only [Bool.and_eq_true, decide_iff] at hk
      exact ⟨wordOf_congr (fnOfVi_of_viOfFn ‹_›) rfl rfl (by omega), rfl⟩
    · cases h
  case h_3 =>
    split at h
    · obtain ⟨hk, rfl⟩ := keep_eq_some.1 h
      simp only [Bool.and_eq_true, decide_iff] at hk
      exact ⟨wordOf_congr (fnOfVc_of_vcOfFn ‹_›) rfl rfl (by omega), rfl⟩
    · obtain ⟨hk, rfl⟩ := keep_eq_some.1 h
      simp only [Bool.and_eq_true, decide_iff] at hk
      exact ⟨wordOf_congr (fnOfMask_of_maskOfFn ‹_›) rfl rfl (by omega), rfl⟩
    · cases h
  case h_15 =>
    split at h
    · obtain ⟨hk, rfl⟩ := keep_eq_some.1 h
      simp only [Bool.and_eq_true, decide_iff] at hk
      exact ⟨wordOf_congr (fnOfRed_of_redOfFn ‹_›) rfl rfl (by omega), rfl⟩
    · cases h
  all_goals
    obtain ⟨hk, rfl⟩ := keep_eq_some.1 h
    simp only [Bool.and_eq_true, decide_iff] at hk
    exact ⟨wordOf_congr ‹f.fn = _›.symm (by omega) (by omega) (by simp only [hrest, hk, Nat.zero_mul]), rfl⟩

/-- The low 40 bits of a word in format X (R99). -/
theorem rest_formatX : f.n % 2 ^ 40 =
    f.f35 * 2 ^ 35 + f.f30 * 2 ^ 30 + bitsOf f.n 29 26 * 2 ^ 26 + bitsOf f.n 25 22 * 2 ^ 22 + f.n % 2 ^ 22 := by
  simp only [bitsOf, Nat.reduceAdd, Nat.reduceSub] at h35 h30 ⊢
  omega

theorem isWordOf_of_decodeTensor (h : decodeTensor c f = some i) : IsWordOf c f f.op i := by
  have hrest := rest_formatX h35 h30
  simp only [decodeTensor] at h
  split at h
  case h_6 => cases h
  all_goals simp only [IsWordOf, ‹f.op = _›]
  case h_1 | h_2 | h_3 =>
    obtain ⟨-, rfl⟩ := keep_eq_some.1 h
    exact ⟨wordOf_congr ‹f.fn = _›.symm rfl rfl hrest.symm, rfl⟩
  case h_4 | h_5 =>
    cases h
    exact ⟨wordOf_congr ‹f.fn = _›.symm rfl rfl hrest.symm, rfl⟩
end
end

/-- A word is the one of its fields (R66). -/
theorem wordOf_wordFields (w : DWord) :
    wordOf (wordFields w).op (wordFields w).fn (wordFields w).f45 (wordFields w).f40 ((wordFields w).n % 2 ^ 40) =
      w := by
  apply BitVec.eq_of_toNat_eq
  simp only [wordOf, wordFields, bitsOf, BitVec.toNat_ofNat, Nat.reduceAdd, Nat.reduceSub]
  omega

/-- Settles O15: each row of the decoder keeps a word only where the fields its instruction does not name are zero, so the
word is rebuilt from its fields. -/
theorem acceptedWordsAreCanonical : Obligations.AcceptedWordsAreCanonical := by
  unfold Obligations.AcceptedWordsAreCanonical
  intro c w i h
  suffices hw : IsWordOf c (wordFields w) (wordFields w).op i from ⟨hw.1.trans (wordOf_wordFields w), hw.2⟩
  rw [decodeWord] at h
  generalize hf : wordFields w = f at h ⊢
  obtain ⟨hlow, h35, h30⟩ : f.low = f.n % 2 ^ 32 ∧ f.f35 = bitsOf f.n 39 35 ∧ f.f30 = bitsOf f.n 34 30 := by
    subst hf; exact ⟨rfl, rfl, rfl⟩
  split at h
  case h_8 | h_9 | h_10 | h_11 | h_12 => exact isWordOf_of_decodeVector h35 h30 h
  case h_13 | h_14 | h_15 => exact isWordOf_of_decodeTensor h35 h30 h
  case h_16 => cases h
  all_goals simp only [‹f.op = _›]
  case h_1 => exact isWordOf_of_decodeSystem hlow h
  case h_2 => exact isWordOf_of_decodeAlu h35 h30 h
  case h_3 => exact isWordOf_of_decodeAluImm hlow h
  case h_4 => exact isWordOf_of_decodeBranch hlow h
  case h_5 => exact isWordOf_of_decodePocket hlow h
  case h_6 => exact isWordOf_of_decodeTransfer hlow h
  case h_7 => exact isWordOf_of_decodeTimeline hlow h

end Sys2Proof.Machine
end

section
/-!
PROOFS. Scalar operations (spec/03 R56, R69, R70): their results as numbers, and what a scalar operation writes.
-/
namespace Sys2Proof.Machine

/-! ### The results of the scalar operations (R69, R70) -/

theorem toNat_mulhu_lt (a b : Word) : a.toNat * b.toNat / 2 ^ 32 < 2 ^ 32 :=
  Nat.div_lt_of_lt_mul (Nat.mul_lt_mul'' a.isLt b.isLt)

theorem toInt_bounds (a : Word) : -2 ^ 31 ≤ a.toInt ∧ a.toInt ≤ 2 ^ 31 - 1 := by
  have h1 := BitVec.le_toInt a
  have h2 := BitVec.toInt_lt (x := a)
  norm_num at h1 h2 ⊢
  omega

/-- The high word of a signed product is in the range of a word. -/
theorem toInt_mulh_bounds (a b : Word) :
    -2 ^ 31 ≤ a.toInt * b.toInt / 2 ^ 32 ∧ a.toInt * b.toInt / 2 ^ 32 < 2 ^ 31 := by
  obtain ⟨ha1, ha2⟩ := toInt_bounds a
  obtain ⟨hb1, hb2⟩ := toInt_bounds b
  have hlo : -(2 ^ 62) ≤ a.toInt * b.toInt := by nlinarith
  have hhi : a.toInt * b.toInt ≤ 2 ^ 62 := by nlinarith
  omega

theorem toInt_ofInt_of_bounds {x : Int} (h : -2 ^ 31 ≤ x ∧ x < 2 ^ 31) : (BitVec.ofInt 32 x).toInt = x := by
  rw [BitVec.toInt_ofInt]
  exact Int.bmod_eq_of_le (by omega) (by omega)

theorem aluResult_spec (a b d : Word) :
     (aluResult .add a b d).toNat = (a.toNat + b.toNat) % 2 ^ 32 ∧
     (aluResult .sub a b d).toNat = (a.toNat + 2 ^ 32 - b.toNat) % 2 ^ 32 ∧
     (aluResult .mul a b d).toNat = a.toNat * b.toNat % 2 ^ 32 ∧
     (aluResult .mulhu a b d).toNat = a.toNat * b.toNat / 2 ^ 32 ∧
     (aluResult .mulh a b d).toInt = a.toInt * b.toInt / 2 ^ 32 ∧
     (aluResult .sll a b d).toNat = a.toNat * 2 ^ (b.toNat % 32) % 2 ^ 32 ∧
     (aluResult .srl a b d).toNat = a.toNat / 2 ^ (b.toNat % 32) ∧
     (aluResult .sra a b d).toInt = a.toInt / 2 ^ (b.toNat % 32) ∧
     (aluResult .slt a b d).toNat = (if a.toInt < b.toInt then 1 else 0) ∧
     (aluResult .sltu a b d).toNat = (if a.toNat < b.toNat then 1 else 0) ∧
     (aluResult .min a b d).toInt = min a.toInt b.toInt ∧ (aluResult .max a b d).toInt = max a.toInt b.toInt ∧
     (aluResult .minu a b d).toNat = min a.toNat b.toNat ∧ (aluResult .maxu a b d).toNat = max a.toNat b.toNat ∧
     (∀ i, (aluResult .and a b d).getLsbD i = (a.getLsbD i && b.getLsbD i)) ∧
     (∀ i, (aluResult .or a b d).getLsbD i = (a.getLsbD i || b.getLsbD i)) ∧
     (∀ i, (aluResult .xor a b d).getLsbD i = (a.getLsbD i ^^ b.getLsbD i)) ∧
     aluResult .sel a b d = if d = 0#32 then b else a := by
  refine ⟨BitVec.toNat_add .., ?sub, BitVec.toNat_mul .., ?mulhu, toInt_ofInt_of_bounds (toInt_mulh_bounds a b), ?sll,
    ?srl, ?sra, ?slt, ?sltu, ?min, ?max, ?minu, ?maxu, fun i => BitVec.getLsbD_and, fun i => BitVec.getLsbD_or,
    fun i => BitVec.getLsbD_xor, rfl⟩
  case sub => rw [aluResult, BitVec.toNat_sub]; congr 1; omega
  case mulhu => rw [aluResult, BitVec.toNat_ofNat, Nat.mod_eq_of_lt (toNat_mulhu_lt a b)]
  case sll => rw [aluResult, BitVec.toNat_shiftLeft, Nat.shiftLeft_eq]
  case srl => rw [aluResult, BitVec.toNat_ushiftRight, Nat.shiftRight_eq_div_pow]
  case sra => rw [aluResult, BitVec.toInt_sshiftRight, Int.shiftRight_eq_div_pow]; rfl
  case slt => simp only [aluResult]; split <;> rfl
  case sltu => simp only [aluResult]; split <;> rfl
  case min => simp only [aluResult, min_def, apply_ite BitVec.toInt]
  case max => simp only [aluResult, max_def, apply_ite BitVec.toInt]
  case minu => simp only [aluResult, min_def, apply_ite BitVec.toNat]
  case maxu => simp only [aluResult, max_def, apply_ite BitVec.toNat]

/-! ### Scalar registers of a core that has passed a slot (R56) -/

@[simp] theorem Core.flow_setS (k : Core) (r : Nat) (v : Word) : (k.setS r v).flow = k.flow := by
  unfold Core.setS; split <;> rfl

/-- A core whose results are those of `k` with scalar register `r` written shows the change by its scalar registers
alone. -/
theorem Core.scalars_of_results {k k1 : Core} {r : Nat} {v : Word} (h : k1.results = (k.setS r v).results) :
    (∀ j, k1.getS j = if j = r ∧ r ≠ 0 then v else k.getS j) ∧
      k1.results = ({ k with s := k1.s } : Core).results := by
  have hs : k1.s = (k.setS r v).s := (congrArg Core.s h : k1.results.s = (k.setS r v).results.s)
  refine ⟨fun j => ?_, ?_⟩
  · rw [← Core.getS_setS, Core.getS, Core.getS, hs]
  · rw [h, hs]
    unfold Core.setS; split <;> rfl

theorem exec_scalarAlu {c : Nat} {s : State} (hi : s.canIssue c = true) (op : AluOp) (rd rs1 rs2 rs3 : Nat) :
    exec (.scalarAlu c op rd rs1 rs2 rs3) s = .next (s.setCore c (((s.core c).setS rd
      (aluResult op ((s.core c).getS rs1) ((s.core c).getS rs2) ((s.core c).getS rs3))).retire)) :=
  issueCore_of_canIssue hi fun k => (k.setS rd (aluResult op (k.getS rs1) (k.getS rs2) (k.getS rs3))).retire

theorem exec_scalarAluImmediate {c : Nat} {s : State} (hi : s.canIssue c = true) {op : AluOp} {imm : Word}
    (h : aluHasImm op = true ∧ (aluIsShift op = true → imm.toNat ≤ 31)) (rd rs1 : Nat) :
    exec (.scalarAluImmediate c op rd rs1 imm) s = .next (s.setCore c (((s.core c).setS rd
      (aluResult op ((s.core c).getS rs1) imm 0#32)).retire)) := by
  change execScalarAluImmediate c op rd rs1 imm s = _
  rw [execScalarAluImmediate, issueCore_of_canIssue hi, if_pos h]

/-- Settles O3: the results are those of the library's bit vectors, and a retired write of `rd` shows in the scalar
registers alone. -/
theorem scalarOperations : Obligations.ScalarOperations := by
  unfold Obligations.ScalarOperations
  refine ⟨aluResult_spec, ?register, ?immediate⟩
  case register =>
    intro c op rd rs1 rs2 rs3 s hi
    obtain ⟨hget, hframe⟩ := Core.scalars_of_results (Core.results_retire _)
    exact ⟨_, exec_scalarAlu hi .., Core.passed_retire (Core.flow_setS ..), hget, hframe⟩
  case immediate =>
    intro c op rd rs1 imm s hi himm hshift
    obtain ⟨hget, hframe⟩ := Core.scalars_of_results (Core.results_retire _)
    exact ⟨_, exec_scalarAluImmediate hi ⟨himm, hshift⟩ .., Core.passed_retire (Core.flow_setS ..), hget, hframe⟩

end Sys2Proof.Machine
end

section
/-!
PROOFS. Branches, jumps and hardware loops (spec/03 R64, R69, R71).
-/
namespace Sys2Proof.Machine

/-! ### Taken branches and jumps (R64, R71) -/

/-- The core at its target, one slot lost, after a taken branch or jump. -/
def Core.jumped (k : Core) (t : Nat) : Core :=
  { k with pc := t, slot := k.slot + 2, lead := k.lead.drop 2, waitWord := none }

@[simp] theorem Core.results_jumped (k : Core) (t : Nat) : (k.jumped t).results = k.results := rfl

section
variable {k0 k : Core} {t : Nat}

theorem Core.jump_taken (h8 : t % 8 = 0) (ht : t ≤ 0x7FF8) (hd : k0.depthBad t = false) : k0.jump k t = k.jumped t := by
  rw [Core.jump, if_neg (by omega), if_neg (by simp [hd]), Core.jumped]

theorem Core.jump_outside (h : t % 8 ≠ 0 ∨ 0x7FF8 < t) : k0.jump k t = k0.fault .fetchRange t := by
  rw [Core.jump, if_pos h]

theorem Core.jump_depthBad (h8 : t % 8 = 0) (ht : t ≤ 0x7FF8) (hd : k0.depthBad t = true) :
    k0.jump k t = k0.fault .loopDepth t := by
  rw [Core.jump, if_neg (by omega), if_pos hd]
end

section
variable {c : Nat} {s : State} (hi : s.canIssue c = true)
include hi

theorem exec_branch {cond : Cond} {rs1 rs2 : Nat} {off : Word} (h8 : off.toNat % 8 = 0) :
    exec (.branch c cond rs1 rs2 off) s = .next (s.setCore c
      (if condHolds cond ((s.core c).getS rs1) ((s.core c).getS rs2) = true then
        (s.core c).jump (s.core c) (BitVec.ofNat 32 (s.core c).pc + off).toNat else (s.core c).retire)) := by
  change execBranch c cond rs1 rs2 off s = _
  rw [execBranch, issueCore_of_canIssue hi, if_neg (by omega)]

/-- JAL and JALR are jumps to their targets with the link register written. -/
theorem exec_jump {rd t : Nat} {i : Instr}
    (h : (∃ imm, i = .jal c rd imm ∧ t = (BitVec.ofNat 32 (s.core c).pc + imm).toNat) ∨
    ∃ rs1 imm, i = .jalr c rd rs1 imm ∧ t = ((s.core c).getS rs1 + imm).toNat) :
    exec i s = .next (s.setCore c
      ((s.core c).jump ((s.core c).setS rd (BitVec.ofNat 32 ((s.core c).pc + 8))) t)) := by
  rcases h with ⟨imm, rfl, rfl⟩ | ⟨rs1, imm, rfl, rfl⟩
  · exact issueCore_of_canIssue hi fun k =>
      k.jump (k.setS rd (BitVec.ofNat 32 (k.pc + 8))) (BitVec.ofNat 32 k.pc + imm).toNat
  · exact issueCore_of_canIssue hi fun k => k.jump (k.setS rd (BitVec.ofNat 32 (k.pc + 8))) (k.getS rs1 + imm).toNat

/-! ### Hardware loops (R71) -/

theorem exec_loop_zero {rs1 : Nat} {off : Word} (h8 : off.toNat % 8 = 0) (ho : 8 ≤ off.toInt)
    (hz : (s.core c).getS rs1 = 0#32) : exec (.loop c rs1 off) s =
      .next (s.setCore c ((s.core c).jump (s.core c) ((s.core c).pc + off.toNat + 8))) := by
  change execLoop c rs1 off s = _
  rw [execLoop, issueCore_of_canIssue hi, if_neg (by omega), if_pos hz]

theorem exec_loop_fifth {rs1 : Nat} {off : Word} (h8 : off.toNat % 8 = 0) (ho : 8 ≤ off.toInt)
    (hz : (s.core c).getS rs1 ≠ 0#32) (hl : 4 ≤ (s.core c).loops.length) :
    exec (.loop c rs1 off) s = .next (s.setCore c ((s.core c).fault .loopDepth 0)) := by
  change execLoop c rs1 off s = _
  rw [execLoop, issueCore_of_canIssue hi, if_neg (by omega), if_neg hz, if_pos hl]

/-- A LOOP that starts: its entry is pushed and the body's first word is next. -/
theorem exec_loop_push {rs1 : Nat} {off : Word} (h8 : off.toNat % 8 = 0) (ho : 8 ≤ off.toInt)
    (hz : (s.core c).getS rs1 ≠ 0#32) (hl : (s.core c).loops.length < 4) :
    ∃ k', exec (.loop c rs1 off) s = .next (s.setCore c k') ∧ k'.slot = (s.core c).slot + 1 ∧
      k'.pc = (s.core c).pc + 8 ∧
      k'.loops = ⟨(s.core c).pc + 8, (s.core c).pc + off.toNat, ((s.core c).getS rs1).toNat⟩ :: (s.core c).loops ∧
      k'.results = (s.core c).results := by
  change ∃ k', execLoop c rs1 off s = _ ∧ _
  rw [execLoop, issueCore_of_canIssue hi, if_neg (by omega), if_neg hz, if_neg (by omega)]
  refine ⟨_, rfl, ?_⟩
  dsimp only
  split <;> exact ⟨rfl, rfl, rfl, rfl⟩
end

/-- Entries that end at the word and have run out are popped. -/
theorem loopAdvance_append {pc : Nat} {done : List LoopEnt} (h : ∀ x ∈ done, x.last = pc ∧ x.count ≤ 1)
    (l : List LoopEnt) : loopAdvance pc (done ++ l) = loopAdvance pc l := by
  induction done with
  | nil => rfl
  | cons x done ih =>
    obtain ⟨⟨hlast, hcount⟩, hdone⟩ := List.forall_mem_cons.1 h
    rw [List.cons_append, loopAdvance, if_pos hlast, if_neg (by omega), ih hdone]

/-- Settles O5: a taken branch is a jump of the core, whose three outcomes are above; the loop stack by induction on the
entries that have run out. -/
theorem branchesJumpsAndLoops : Obligations.BranchesJumpsAndLoops := by
  unfold Obligations.BranchesJumpsAndLoops
  refine ⟨⟨?branch, ?jump⟩, ?loop, ?advance⟩
  case branch =>
    intro c rs1 rs2 cond off s hi h8
    have hexec := exec_branch hi (cond := cond) (rs1 := rs1) (rs2 := rs2) h8
    refine ⟨fun hc ht8 ht hd => ?_, fun hc => ?_⟩
    · rw [if_pos hc, Core.jump_taken ht8 ht hd] at hexec
      exact ⟨_, hexec, rfl, rfl, rfl, rfl⟩
    · rw [if_neg (by simp [hc])] at hexec
      exact ⟨_, hexec, Core.passed_retire rfl, Core.results_retire _⟩
  case jump =>
    intro c rd i s t hi _ h
    have hexec := exec_jump hi h
    refine ⟨fun h8 ht hd => ?_, fun hout => ?_, fun h8 ht hd => ?_⟩
    · rw [Core.jump_taken h8 ht hd] at hexec
      obtain ⟨hget, hframe⟩ := Core.scalars_of_results (Core.results_jumped _ t)
      have hflow := Core.flow_setS (s.core c) rd (BitVec.ofNat 32 ((s.core c).pc + 8))
      simp only [Core.flow, Prod.mk.injEq] at hflow
      obtain ⟨hslot, -, hloops, -⟩ := hflow
      exact ⟨_, hexec, rfl, congrArg (· + 2) hslot, hloops, hget, hframe⟩
    · rw [Core.jump_outside hout] at hexec
      exact ⟨_, hexec, Core.raised_fault ..⟩
    · rw [Core.jump_depthBad h8 ht hd] at hexec
      exact ⟨_, hexec, Core.raised_fault ..⟩
  case loop =>
    intro c rs1 off s hi h8 ho
    refine ⟨fun hz hl => exec_loop_push hi h8 ho hz hl, fun hz hl => ?_, fun hz ht8 ht hd => ?_⟩
    · exact ⟨_, exec_loop_fifth hi h8 ho hz hl, Core.raised_fault ..⟩
    · have hexec := exec_loop_zero hi h8 ho hz
      rw [Core.jump_taken ht8 ht hd] at hexec
      exact ⟨_, hexec, rfl, rfl, rfl, rfl⟩
  case advance =>
    intro pc done live e hdone
    refine ⟨loopAdvance_append hdone [], fun hne => ?_, fun heq hc => ?_⟩
    · rw [loopAdvance_append hdone, loopAdvance, if_neg hne]
    · rw [loopAdvance_append hdone, loopAdvance, if_pos heq, if_pos hc]

end Sys2Proof.Machine
end

section
/-!
PROOFS. Excluded operands, and the transfers SBLD, SBST and ISLD issue (spec/03 R58, R60, R61, R64, R65, R67, R79,
R80).
-/
namespace Sys2Proof.Machine

/-! ### Issue, and words that are excluded (R58, R60, R64, R65, R67, R72, R76, R86) -/

/-- Every core instruction is issued on its core: nothing changes where the core cannot issue. -/
theorem exec_eq_issue {i : Instr} {c : Nat} (hc : coreOf i = some c) (s : State) :
    ∃ t, exec i s = .next (if s.canIssue c = true then t else s) := by
  unfold coreOf at hc
  split at hc
  case h_47 => cases hc
  all_goals
    cases hc
    exact ⟨_, rfl⟩

theorem pairOk_eq_false {n : Nat} (h : n % 2 = 1 ∨ n = 0) : pairOk n = false := by
  simp only [pairOk, Bool.and_eq_false_iff, decide_eq_false_iff_not]
  omega

theorem lenOk_eq_false {n : Nat} (h : n = 0 ∨ 2048 < n) : lenOk n = false := by
  simp only [lenOk, Bool.and_eq_false_iff, decide_eq_false_iff_not]
  omega

/-- An instruction of core `c` with operands its table excludes. -/
def ExcludedOperands (c : Nat) (s : State) (i : Instr) : Prop :=
  (∃ imm : Word, i = .waitb c imm ∧ (imm = 0#32 ∨ 4096 < imm.toNat)) ∨
  (∃ op rd rs1, ∃ imm : Word, i = .scalarAluImmediate c op rd rs1 imm ∧
     (aluHasImm op = false ∨ (aluIsShift op = true ∧ 31 < imm.toNat))) ∨
  (∃ rd, ∃ imm : Word, i = .csrr c rd imm ∧ (s.core c).csrValue s.toll imm.toNat = none) ∨
  (∃ rs1, ∃ imm : Word, i = .csrw c rs1 imm ∧ (s.core c).csrWrite imm.toNat ((s.core c).getS rs1) = none) ∨
  (∃ cond rs1 rs2, ∃ off : Word, i = .branch c cond rs1 rs2 off ∧ off.toNat % 8 ≠ 0) ∨
  (∃ rs1, ∃ off : Word, i = .loop c rs1 off ∧ (off.toNat % 8 ≠ 0 ∨ off.toInt < 8)) ∨
  (∃ rp rl tag n, i = .sbld c rp rl tag n ∧ (n = 0 ∨ 2048 < n)) ∨
  (∃ rp rl tag n, i = .sbst c rp rl tag n ∧ (n = 0 ∨ 2048 < n)) ∨
  (∃ rp rl n, i = .isld c rp rl n ∧ (n = 0 ∨ 2048 < n)) ∨
  (∃ d a, i = .mtos c d a ∧ (d % 2 = 1 ∨ d = 0)) ∨
  (∃ d a, i = .stom c d a ∧ (a % 2 = 1 ∨ a = 0))

theorem exec_excludedOperands {c : Nat} {s : State} {i : Instr} (hi : s.canIssue c = true)
    (h : ExcludedOperands c s i) : exec i s = .next (s.setCore c ((s.core c).fault .illegalInstr 0)) := by
  rcases h with ⟨imm, rfl, h⟩ | ⟨op, rd, rs1, imm, rfl, h⟩ | ⟨rd, imm, rfl, h⟩ | ⟨rs1, imm, rfl, h⟩ |
    ⟨cond, rs1, rs2, off, rfl, h⟩ | ⟨rs1, off, rfl, h⟩ | ⟨rp, rl, tag, n, rfl, h⟩ | ⟨rp, rl, tag, n, rfl, h⟩ |
    ⟨rp, rl, n, rfl, h⟩ | ⟨d, a, rfl, h⟩ | ⟨d, a, rfl, h⟩
  · change execWaitb c imm s = _
    have hn : imm.toNat = 0 ∨ 4096 < imm.toNat := h.imp_left fun h => by rw [h]; rfl
    rw [execWaitb, issueCore_of_canIssue hi, if_neg (by omega)]
  · change execScalarAluImmediate c op rd rs1 imm s = _
    rw [execScalarAluImmediate, issueCore_of_canIssue hi, if_neg]
    rintro ⟨himm, hshift⟩
    rcases h with h | ⟨hs, hgt⟩
    · simp [h] at himm
    · have := hshift hs
      omega
  · change execCsrr c rd imm s = _
    rw [execCsrr, issueCore_of_canIssue hi, h]
  · change execCsrw c rs1 imm s = _
    rw [execCsrw, issueCore_of_canIssue hi, h]
  · change execBranch c cond rs1 rs2 off s = _
    rw [execBranch, issueCore_of_canIssue hi, if_pos h]
  · change execLoop c rs1 off s = _
    rw [execLoop, issueCore_of_canIssue hi, if_pos h]
  · change execSbld c rp rl tag n s = _
    rw [execSbld, issue_of_canIssue hi, if_pos (by simp [lenOk_eq_false h])]
  · change execSbst c rp rl tag n s = _
    rw [execSbst, issue_of_canIssue hi, if_pos (by simp [lenOk_eq_false h])]
  · change execIsld c rp rl n s = _
    rw [execIsld, issue_of_canIssue hi]
    simp only [lenOk_eq_false h, Bool.not_false, if_true]
  · change execMtos c d a s = _
    rw [execMtos, issueCore_of_canIssue hi, if_neg (by simp [pairOk_eq_false h])]
  · change execStom c d a s = _
    rw [execStom, issueCore_of_canIssue hi, if_neg (by simp [pairOk_eq_false h])]

/-- Settles O2: a core instruction is issued or changes nothing, and each excluded word raises at its own slot. -/
theorem earlyAndExcludedInstructions : Obligations.EarlyAndExcludedInstructions := by
  unfold Obligations.EarlyAndExcludedInstructions
  refine ⟨fun i c s hc hno => ?_, fun c s hi i h => ⟨_, exec_excludedOperands hi h, Core.raised_fault ..⟩⟩
  obtain ⟨t, ht⟩ := exec_eq_issue hc s
  rw [ht, if_neg (by simp [hno])]

/-! ### Transfers (R61, R65, R79, R80) -/

/-- The transfer an instruction at the core's slot issues. -/
def Core.newXfer (k : Core) (kind : XferKind) (rp rl : Word) (tag n : Nat) : CoreXfer :=
  { id := k.nextXid, kind := kind, tag := tag, rp := rp.toNat, rl := rl.toNat, n := n, left := List.range n,
    pc := k.pc, instr := k.instrWord }

/-- The core with one more transfer outstanding. -/
def Core.addXfer (k : Core) (x : CoreXfer) : Core :=
  { k with xfers := k.xfers ++ [x], nextXid := k.nextXid + 1,
           isld := if x.kind = XferKind.isld then some x.id else k.isld }

section
variable {s : State} {c : Nat} {k : Core} {kind : XferKind} {rp rl : Word} {tag n : Nat} (hx : k.xfers.length < 16)
include hx

theorem State.issueXfer_ok (hr : storeRangeBad rl.toNat n (s.ctxSlots k.vd k.ctx).length = false) :
    s.issueXfer c k kind rp rl tag n = s.setCore c (k.addXfer (k.newXfer kind rp rl tag n)).retire := by
  rw [State.issueXfer, if_neg (by omega), if_neg (by simp [hr])]; rfl

theorem State.issueXfer_storeRange (hr : storeRangeBad rl.toNat n (s.ctxSlots k.vd k.ctx).length = true) :
    s.issueXfer c k kind rp rl tag n = s.setCore c (k.fault .storeRange rl.toNat) := by
  rw [State.issueXfer, if_neg (by omega), if_pos hr]
end

theorem pocketBad_none {a len al : Nat} (hr : a + len ≤ 0x20000) (ha : a % al = 0) : pocketBad a len al = none := by
  rw [pocketBad, if_neg (by omega)]

theorem pocketBad_some {a len al : Nat} (h : 0x20000 < a + len ∨ a % al ≠ 0) : pocketBad a len al = some a := by
  rw [pocketBad, if_pos h]

theorem lenOk_iff {n : Nat} : lenOk n = true ↔ 1 ≤ n ∧ n ≤ 2048 := by simp [lenOk]

section
variable {c rp rl tag n : Nat} {s : State} {i : Instr} {kind : XferKind} (hi : s.canIssue c = true)
  (hn : 1 ≤ n ∧ n ≤ 2048)
include hi hn

section
variable (ht : tag < 16) (h : i = .sbld c rp rl tag n ∧ kind = .sbld ∨ i = .sbst c rp rl tag n ∧ kind = .sbst)
include ht h

/-- SBLD and SBST of a legal length in the pocket are issued. -/
theorem exec_pocketXfer_issue (hb : pocketBad ((s.core c).getS rp).toNat (64 * n) 64 = none) :
    exec i s = .next (s.issueXfer c (s.core c) kind ((s.core c).getS rp) ((s.core c).getS rl) tag n) := by
  have hlen : ¬((!lenOk n) = true ∨ tag ≥ 16) := by simp [lenOk_iff.2 hn]; omega
  rcases h with ⟨rfl, rfl⟩ | ⟨rfl, rfl⟩
  · change execSbld c rp rl tag n s = _
    rw [execSbld, issue_of_canIssue hi, if_neg hlen, hb]
  · change execSbst c rp rl tag n s = _
    rw [execSbst, issue_of_canIssue hi, if_neg hlen, hb]

/-- SBLD and SBST of a legal length out of the pocket raise POCKET_RANGE. -/
theorem exec_pocketXfer_range {a : Nat} (hb : pocketBad ((s.core c).getS rp).toNat (64 * n) 64 = some a) :
    exec i s = .next (s.setCore c ((s.core c).fault .pocketRange a)) := by
  have hlen : ¬((!lenOk n) = true ∨ tag ≥ 16) := by simp [lenOk_iff.2 hn]; omega
  rcases h with ⟨rfl, rfl⟩ | ⟨rfl, rfl⟩
  · change execSbld c rp rl tag n s = _
    rw [execSbld, issue_of_canIssue hi, if_neg hlen, hb]
  · change execSbst c rp rl tag n s = _
    rw [execSbst, issue_of_canIssue hi, if_neg hlen, hb]
end

/-- ISLD of a legal length in the instruction store is issued; out of it it raises FETCH_RANGE. -/
theorem exec_isld :
    exec (.isld c rp rl n) s = .next
      (if ((s.core c).getS rp).toNat % 64 ≠ 0 ∨ ((s.core c).getS rp).toNat + 64 * n > 0x8000 then
        s.setCore c ((s.core c).fault .fetchRange ((s.core c).getS rp).toNat)
      else s.issueXfer c (s.core c) .isld ((s.core c).getS rp) ((s.core c).getS rl) 0 n) := by
  change execIsld c rp rl n s = _
  rw [execIsld, issue_of_canIssue hi]
  simp only [lenOk_iff.2 hn, Bool.not_true, Bool.false_eq_true, if_false]

/-- A transfer whose ranges are those of its memory reaches the check of its store lines. -/
theorem exec_xfer (ha : ((s.core c).getS rp).toNat % 64 = 0)
    (h : (i = .sbld c rp rl tag n ∧ kind = .sbld ∧ tag < 16 ∧ ((s.core c).getS rp).toNat + 64 * n ≤ 0x20000) ∨
      (i = .sbst c rp rl tag n ∧ kind = .sbst ∧ tag < 16 ∧ ((s.core c).getS rp).toNat + 64 * n ≤ 0x20000) ∨
      (i = .isld c rp rl n ∧ kind = .isld ∧ tag = 0 ∧ ((s.core c).getS rp).toNat + 64 * n ≤ 0x8000)) :
    exec i s = .next (s.issueXfer c (s.core c) kind ((s.core c).getS rp) ((s.core c).getS rl) tag n) := by
  rcases h with ⟨rfl, rfl, ht, hr⟩ | ⟨rfl, rfl, ht, hr⟩ | ⟨rfl, rfl, rfl, hr⟩
  · exact exec_pocketXfer_issue hi hn ht (.inl ⟨rfl, rfl⟩) (pocketBad_none hr ha)
  · exact exec_pocketXfer_issue hi hn ht (.inr ⟨rfl, rfl⟩) (pocketBad_none hr ha)
  · rw [exec_isld hi hn, if_neg (by omega)]
end

/-- What the issue of a transfer shows: it passes its slot and one more transfer of all its lines is outstanding. -/
theorem Core.retire_addXfer (k : Core) (x : CoreXfer) :
    k.Passed (k.addXfer x).retire ∧ (k.addXfer x).retire.xfers = k.xfers ++ [x] ∧
      (k.addXfer x).retire.isld = (if x.kind = .isld then some x.id else k.isld) ∧
      (k.addXfer x).retire.results = ({ k with
        xfers := (k.addXfer x).retire.xfers, nextXid := (k.addXfer x).retire.nextXid,
        isld := (k.addXfer x).retire.isld } : Core).results := by
  have h := Core.results_retire (k.addXfer x)
  have hxfers : (k.addXfer x).retire.xfers = k.xfers ++ [x] := congrArg Core.xfers h
  have hxid : (k.addXfer x).retire.nextXid = k.nextXid + 1 := congrArg Core.nextXid h
  have hisld : (k.addXfer x).retire.isld = if x.kind = .isld then some x.id else k.isld := congrArg Core.isld h
  exact ⟨Core.passed_retire rfl, hxfers, hisld, by rw [h, hxfers, hxid, hisld]; rfl⟩

/-- Settles O8: the range of its own memory, then the store lines of the context decide between the transfer's exceptions
and its issue. -/
theorem transferInstructions : Obligations.TransferInstructions := by
  unfold Obligations.TransferInstructions
  refine ⟨?issued, ?raised⟩
  case issued =>
    intro c s rp rl tag n i kind hi _ _ hn1 hn2 hx hr ha h
    have hexec := exec_xfer hi ⟨hn1, hn2⟩ ha h
    rw [State.issueXfer_ok hx hr] at hexec
    obtain ⟨hpassed, hxfers, hisld, hframe⟩ :=
      (s.core c).retire_addXfer ((s.core c).newXfer kind ((s.core c).getS rp) ((s.core c).getS rl) tag n)
    exact ⟨_, _, hexec, hpassed, hxfers, rfl, rfl, rfl, rfl, rfl, rfl, hisld, hframe⟩
  case raised =>
    intro c s rp rl tag n hi hn1 hn2 ht
    have hn := And.intro hn1 hn2
    refine ⟨fun hbad i h => ?_, fun hbad => ?_, fun ha hx hr i h => ?_⟩
    · have hb := pocketBad_some (al := 64) hbad.symm
      rcases h with rfl | rfl
      · exact ⟨_, exec_pocketXfer_range hi hn ht (.inl ⟨rfl, rfl⟩) hb, Core.raised_fault ..⟩
      · exact ⟨_, exec_pocketXfer_range hi hn ht (.inr ⟨rfl, rfl⟩) hb, Core.raised_fault ..⟩
    · rw [exec_isld hi hn, if_pos hbad]
      exact ⟨_, rfl, Core.raised_fault ..⟩
    · rcases h with ⟨rfl | rfl, hin⟩ | ⟨rfl, hin⟩
      · exact ⟨_, by rw [exec_xfer hi hn ha (.inl ⟨rfl, rfl, ht, hin⟩), State.issueXfer_storeRange hx hr],
          Core.raised_fault ..⟩
      · exact ⟨_, by rw [exec_xfer hi hn ha (.inr (.inl ⟨rfl, rfl, ht, hin⟩)), State.issueXfer_storeRange hx hr],
          Core.raised_fault ..⟩
      · exact ⟨_, by rw [exec_xfer hi hn ha (.inr (.inr ⟨rfl, rfl, rfl, hin⟩)), State.issueXfer_storeRange hx hr],
          Core.raised_fault ..⟩

end Sys2Proof.Machine
end

section
/-!
PROOFS. Timeline instructions (spec/03 R74, R83, R84, spec/10 R287).
-/
namespace Sys2Proof.Machine

/-! ### Timelines (R74, R83, R84, R287) -/

/-- A second write at a key replaces the first, where the first was listed. -/
theorem sput_sput {α : Type} [DecidableEq α] {d v w : α} (hv : v ≠ d) (k : Nat) (m : SMap α) :
    sput d k w (sput d k v m) = sput d k w m := by
  induction m with
  | nil => by_cases hw : w = d <;> simp [sput, hv, hw]
  | cons e m ih =>
    obtain ⟨k', v'⟩ := e
    by_cases hlt : k < k'
    · by_cases hw : w = d <;> simp [sput, hv, hw, hlt]
    · by_cases heq : k = k'
      · by_cases hw : w = d <;> simp [sput, hv, hw, heq]
      · simp [sput, hlt, heq, ih]

theorem State.setCore_setCore {k : Core} (h : k.running = true) (s : State) (c : Nat) (k' : Core) :
    (s.setCore c k).setCore c k' = s.setCore c k' := by
  have hk : k ≠ {} := by rintro rfl; simp at h
  simp only [State.setCore, sput_sput hk]

theorem running_of_canIssue {s : State} {c : Nat} (h : s.canIssue c = true) : (s.core c).running = true := by
  simp only [State.canIssue, Bool.and_eq_true] at h
  tauto

/-- A signal by SET of a timeline that is neither mirrored nor poisoned raises it to the value (R287). -/
theorem State.signal_set {s : State} {t : Nat} (hm : (s.timeline t).mirror = 0) (hp : (s.timeline t).poisoned = false)
    (v : Nat) : ∃ x, (s.signal t v false).2 = s.setTimeline t x ∧ x.value = max (s.timeline t).value v := by
  by_cases hv : (s.timeline t).value < v
  · refine ⟨{ s.timeline t with value := v }, ?_, (max_eq_right hv.le).symm⟩
    simp [State.signal, hp, hv, State.mirror, hm]
  · refine ⟨{ s.timeline t with nonadv := satAdd 16 (s.timeline t).nonadv 1 }, ?_, (max_eq_left (not_lt.1 hv)).symm⟩
    simp [State.signal, hp, hv, State.countNonadv]

section
variable {s : State} {c : Nat} {k : Core} {q : SigReq}

/-- The one signal of a core that waits for no transfer is performed. -/
theorem State.performSigs_due (hq : k.sigs = [q]) (ha : q.after = []) (h : k.running = true) :
    (s.setCore c k).performSigs c =
      ((s.setCore c { k with sigs := [], wrote := true }).signal q.tl q.value false).2 := by
  simp [State.performSigs, hq, ha, State.setCore_setCore h]

/-- The one signal of a core that waits for a transfer stays. -/
theorem State.performSigs_wait (hq : k.sigs = [q]) (ha : q.after ≠ []) (h : k.running = true) :
    (s.setCore c k).performSigs c = s.setCore c k := by
  have he : q.after.isEmpty = false := by simpa using ha
  simp [State.performSigs, hq, he, State.setCore_setCore h]
  rw [← hq]
end

/-- The core with one more signal to perform. -/
def Core.addSig (k : Core) (q : SigReq) : Core := { k with sigs := k.sigs ++ [q] }

/-- The signal a TLSIG issues: it waits for the SBSTs outstanding (R84). -/
def Core.newSig (k : Core) (t sn : Nat) : SigReq :=
  { tl := t, value := (k.getPair sn).toNat, after := (k.xfers.filter fun x => x.kind = .sbst).map (·.id) }

section
variable {c sn slot t : Nat} {s : State} (hi : s.canIssue c = true) (hp : pairOk sn = true) (hs : slot < 256)
include hi hp hs

theorem exec_tlsig (ht : s.tlSlot (s.core c).ctx slot true = some t) : exec (.tlsig c sn slot) s =
    .next ((s.setCore c ((s.core c).addSig ((s.core c).newSig t sn)).retire).performSigs c) := by
  change execTlsig c sn slot s = _
  rw [execTlsig, issue_of_canIssue hi, if_neg (by simp [hp]; omega), ht]
  rfl

theorem exec_tlsig_noSlot (ht : s.tlSlot (s.core c).ctx slot true = none) :
    exec (.tlsig c sn slot) s = .next (s.setCore c ((s.core c).fault .timelineSlot slot)) := by
  change execTlsig c sn slot s = _
  rw [execTlsig, issue_of_canIssue hi, if_neg (by simp [hp]; omega), ht]

theorem exec_tlwait (ht : s.tlSlot (s.core c).ctx slot false = some t) : exec (.tlwait c sn slot) s =
    .next (if (s.timeline t).value ≥ ((s.core c).getPair sn).toNat then s.setCore c (s.core c).retire
      else if (s.timeline t).poisoned = true then s.setCore c ((s.core c).fault .timelinePoisoned 0) else s) := by
  change execTlwait c sn slot s = _
  rw [execTlwait, issue_of_canIssue hi, if_neg (by simp [hp]; omega), ht]

theorem exec_tlrd (ht : s.tlSlot (s.core c).ctx slot false = some t) : exec (.tlrd c sn slot) s =
    .next (s.setCore c { (s.core c).retire with tlrds := (s.core c).tlrds ++ [⟨sn, t⟩] }) := by
  change execTlrd c sn slot s = _
  rw [execTlrd, issue_of_canIssue hi, if_neg (by simp [hp]; omega), ht]

theorem exec_tlread_noSlot {i : Instr} (ht : s.tlSlot (s.core c).ctx slot false = none)
    (h : i = .tlwait c sn slot ∨ i = .tlrd c sn slot) :
    exec i s = .next (s.setCore c ((s.core c).fault .timelineSlot slot)) := by
  rcases h with rfl | rfl
  · change execTlwait c sn slot s = _
    rw [execTlwait, issue_of_canIssue hi, if_neg (by simp [hp]; omega), ht]
  · change execTlrd c sn slot s = _
    rw [execTlrd, issue_of_canIssue hi, if_neg (by simp [hp]; omega), ht]

/-- A TLSIG with no SBST outstanding raises its timeline (R84, R287). -/
theorem exec_tlsig_performed (ht : s.tlSlot (s.core c).ctx slot true = some t) (hq : (s.core c).sigs = [])
    (hx : ∀ x ∈ (s.core c).xfers, x.kind ≠ .sbst) (hm : (s.timeline t).mirror = 0)
    (hpo : (s.timeline t).poisoned = false) :
    ∃ s', exec (.tlsig c sn slot) s = .next s' ∧ (s.core c).Passed (s'.core c) ∧
      (s'.timeline t).value = max (s.timeline t).value ((s.core c).getPair sn).toNat ∧
      (∀ u, u ≠ t → s'.timeline u = s.timeline u) ∧
      (s'.core c).results = ({ s.core c with wrote := true } : Core).results := by
  generalize hk : s.core c = k at *
  generalize hnew : (k.addSig (k.newSig t sn)).retire = k1
  have hr : k1.results = (k.addSig (k.newSig t sn)).results := hnew ▸ Core.results_retire _
  have hsigs : k1.sigs = [k.newSig t sn] := (congrArg Core.sigs hr).trans (by simp [Core.results, Core.addSig, hq])
  have hrun : k1.running = true := (congrArg Core.running hr).trans (hk ▸ running_of_canIssue hi)
  have hafter : (k.newSig t sn).after = [] := by simpa [Core.newSig, List.filter_eq_nil_iff] using hx
  obtain ⟨x, hsig, hval⟩ := State.signal_set (s := s.setCore c { k1 with sigs := [], wrote := true }) hm hpo
    (k.getPair sn).toNat
  have hexec := exec_tlsig hi hp hs (hk ▸ ht)
  rw [hk, hnew, State.performSigs_due hsigs hafter hrun] at hexec
  refine ⟨_, hexec.trans (congrArg _ hsig), ?_, ?_, fun u hu => ?_, ?_⟩
  · rw [State.core_setTimeline, State.core_setCore_same, ← hnew]
    exact Core.passed_retire (k1 := k.addSig (k.newSig t sn)) rfl
  · rw [State.timeline_setTimeline_same]; exact hval
  · rw [State.timeline_setTimeline, if_neg hu]; rfl
  · rw [State.core_setTimeline, State.core_setCore_same]
    calc ({ k1 with sigs := [], wrote := true } : Core).results
        = { k1.results with sigs := [], wrote := true } := rfl
      _ = ({ k with wrote := true } : Core).results := by rw [hr, ← hq]; rfl

/-- A TLSIG with an SBST outstanding waits for it (R84). -/
theorem exec_tlsig_waits (ht : s.tlSlot (s.core c).ctx slot true = some t) (hq : (s.core c).sigs = [])
    (hx : ∃ x ∈ (s.core c).xfers, x.kind = .sbst) :
    ∃ k', exec (.tlsig c sn slot) s = .next (s.setCore c k') ∧ (s.core c).Passed k' ∧
      k'.sigs = [(s.core c).newSig t sn] := by
  generalize hk : s.core c = k at *
  generalize hnew : (k.addSig (k.newSig t sn)).retire = k1
  have hr : k1.results = (k.addSig (k.newSig t sn)).results := hnew ▸ Core.results_retire _
  have hsigs : k1.sigs = [k.newSig t sn] := (congrArg Core.sigs hr).trans (by simp [Core.results, Core.addSig, hq])
  have hrun : k1.running = true := (congrArg Core.running hr).trans (hk ▸ running_of_canIssue hi)
  have hafter : (k.newSig t sn).after ≠ [] := by simpa [Core.newSig, List.filter_eq_nil_iff] using hx
  have hexec := exec_tlsig hi hp hs (hk ▸ ht)
  rw [hk, hnew, State.performSigs_wait hsigs hafter hrun] at hexec
  exact ⟨k1, hexec, hnew ▸ Core.passed_retire (k1 := k.addSig (k.newSig t sn)) rfl, hsigs⟩
end

/-- The core whose oldest TLRD has its reply: the pair holds the value and is valid from now on (R83). -/
def Core.replied (k : Core) (sn value : Nat) (rest : List TlrdReq) : Core :=
  let k1 := k.setPair sn (BitVec.ofNat 64 value)
  { k1 with tlrds := rest, validS := sput 0 (sn + 1) k1.wall (sput 0 sn k1.wall k1.validS) }

theorem pairOk_iff {n : Nat} : pairOk n = true ↔ n % 2 = 0 ∧ 2 ≤ n ∧ n ≤ 30 := by
  simp [pairOk, and_assoc]

theorem Core.getS_setPair_other (k : Core) {n j : Nat} (v : DWord) (h1 : j ≠ n) (h2 : j ≠ n + 1) :
    (k.setPair n v).getS j = k.getS j := by
  simp [Core.setPair, Core.getS_setS, h1, h2]

/-- A pair reads back the value written to it (R58). -/
theorem Core.getPair_setPair (k : Core) {n : Nat} (hn : pairOk n = true) (v : DWord) :
    (k.setPair n v).getPair n = v := by
  obtain ⟨-, hn, -⟩ := pairOk_iff.1 hn
  simp only [Core.getPair, Core.setPair, Core.getS_setS]
  rw [if_pos ⟨trivial, by omega⟩, if_neg (by omega), if_pos ⟨trivial, by omega⟩]
  ext i hi
  simp only [BitVec.getElem_append]
  split <;> simp <;> grind

theorem exec_tlrdReply {c : Nat} {s : State} {r : TlrdReq} {rest : List TlrdReq} (h : (s.core c).tlrds = r :: rest) :
    exec (.tlrdReply c) s = .next (s.setCore c ((s.core c).replied r.sn (s.timeline r.tl).value rest)) := by
  change execTlrdReply c s = _
  rw [execTlrdReply, h]
  rfl

/-- Settles O10: each form by its equation, the signal's two cases by what `performSigs` does with it. -/
theorem timelineInstructions : Obligations.TimelineInstructions := by
  refine ⟨fun c sn slot t s hi hp hs => ?_, fun c sn slot t s hi hp hs ht => ?_, fun c sn slot s hi hp hs => ?_,
    fun c s r rest hr hp => ?_⟩
  · intro k ht hq
    exact ⟨exec_tlsig_performed hi hp hs ht hq, exec_tlsig_waits hi hp hs ht hq⟩
  · have hwait := exec_tlwait hi hp hs ht
    refine ⟨fun hle => ?_, fun hlt hpo => ?_, ?_⟩
    · exact ⟨_, by rw [hwait, if_pos hle], Core.passed_retire rfl, Core.results_retire _⟩
    · exact ⟨_, by rw [hwait, if_neg (by omega), if_pos hpo], Core.raised_fault _ _ _⟩
    · exact ⟨_, exec_tlrd hi hp hs ht, Core.passed_retire (k1 := s.core c) rfl, rfl⟩
  · exact ⟨fun ht => ⟨_, exec_tlsig_noSlot hi hp hs ht, Core.raised_fault _ _ _⟩,
      fun ht i h => ⟨_, exec_tlread_noSlot hi hp hs ht h, Core.raised_fault _ _ _⟩⟩
  · refine ⟨_, exec_tlrdReply hr, rfl, ?_, fun j h1 h2 => Core.getS_setPair_other _ _ h1 h2⟩
    have := Core.getPair_setPair (s.core c) hp (BitVec.ofNat 64 (s.timeline r.tl).value)
    exact (congrArg BitVec.toNat this).trans (BitVec.toNat_ofNat _ _)

end Sys2Proof.Machine
end

section
/-!
PROOFS. Pocket accesses: scalar, vector and tile loads and stores (spec/03 R59, R61, R63, R69, R499).
-/
namespace Sys2Proof.Machine

/-! ### Words in a byte memory -/

@[simp] theorem length_leBytes (n v : Nat) : (leBytes n v).length = n := by
  induction n generalizing v with
  | zero => rfl
  | succ n ih => rw [leBytes, List.length_cons, ih]

theorem leNat_leBytes (n v : Nat) : leNat (leBytes n v) = v % 2 ^ (8 * n) := by
  induction n generalizing v with
  | zero => simp [leBytes, leNat, Nat.mod_one]
  | succ n ih =>
    rw [leBytes, leNat, ih, BitVec.toNat_ofNat, Nat.mul_succ, Nat.add_comm (8 * n), Nat.pow_add, Nat.mod_mul]

theorem readLE_writeLE_same (m : Mem) (a n v : Nat) : readLE (writeLE m a n v) a n = v % 2 ^ (8 * n) := by
  have h := readBytes_writeBytes (leBytes n v) m a
  rw [length_leBytes] at h
  rw [readLE, writeLE, h, leNat_leBytes]

theorem readBytes_congr {m m' : Mem} {a n : Nat} (h : ∀ j, a ≤ j → j < a + n → readByte m' j = readByte m j) :
    readBytes m' a n = readBytes m a n := by
  induction n generalizing a with
  | zero => rfl
  | succ n ih =>
    rw [readBytes, readBytes, h a (by omega) (by omega), ih fun j h1 h2 => h j (by omega) (by omega)]

theorem readLE_writeBytes_other {m : Mem} {a b n : Nat} {l : List Byte} (h : a + n ≤ b ∨ b + l.length ≤ a) :
    readLE (writeBytes m b l) a n = readLE m a n := by
  rw [readLE, readBytes_congr fun j h1 h2 => readByte_writeBytes_other l m b j (by omega), readLE]

theorem writeBytes_append (m : Mem) (a : Nat) (l1 l2 : List Byte) :
    writeBytes m a (l1 ++ l2) = writeBytes (writeBytes m a l1) (a + l1.length) l2 := by
  induction l1 generalizing m a with
  | nil => rfl
  | cons b l ih => rw [List.cons_append, writeBytes, ih, writeBytes, List.length_cons]; congr 1; omega

/-- The words of a run of bytes are the words of the memory there, four bytes apart. -/
theorem bytesToWords_readBytes (m : Mem) (a n : Nat) :
    bytesToWords (readBytes m a (4 * n)) = (List.range n).map fun i => BitVec.ofNat 32 (readLE m (a + 4 * i) 4) := by
  induction n generalizing a with
  | zero => rfl
  | succ n ih =>
    have hbytes : readBytes m a (4 * (n + 1)) =
        readByte m a :: readByte m (a + 1) :: readByte m (a + 2) :: readByte m (a + 3) :: readBytes m (a + 4) (4 * n) :=
      rfl
    rw [hbytes, bytesToWords, ih, List.range_succ_eq_map, List.map_cons, List.map_map]
    congr 1
    refine List.map_congr_left fun i _ => ?_
    rw [Function.comp_apply, show a + 4 * i.succ = a + 4 + 4 * i by omega]

theorem wordsToBytes_cons (w : Word) (ws : List Word) :
    wordsToBytes (w :: ws) = leBytes 4 w.toNat ++ wordsToBytes ws := rfl

theorem length_wordsToBytes (ws : List Word) : (wordsToBytes ws).length = 4 * ws.length := by
  induction ws with
  | nil => rfl
  | cons w ws ih => rw [wordsToBytes_cons, List.length_append, ih, length_leBytes, List.length_cons]; omega

/-- Words stored in a row read back, four bytes apart. -/
theorem readLE_writeBytes_words (ws : List Word) (m : Mem) (a : Nat) {i : Nat} (h : i < ws.length) :
    readLE (writeBytes m a (wordsToBytes ws)) (a + 4 * i) 4 = (ws.getD i 0#32).toNat := by
  induction ws generalizing m a i with
  | nil => simp at h
  | cons w ws ih =>
    rw [wordsToBytes_cons, writeBytes_append, length_leBytes]
    cases i with
    | zero =>
      rw [readLE_writeBytes_other (.inl (by omega)), ← writeLE, Nat.mul_zero, Nat.add_zero, readLE_writeLE_same]
      exact Nat.mod_eq_of_lt w.isLt
    | succ i =>
      rw [List.length_cons] at h
      rw [show a + 4 * (i + 1) = a + 4 + 4 * i by omega, ih _ _ (by omega), List.getD_cons_succ]

/-- Stores of single words of a row at `a`: each word of the list is stored, each other word of the row stays. -/
theorem readLE_foldl_writeLE (f : Nat → Word) (l : List Nat) (m : Mem) (a i : Nat) :
    readLE (l.foldl (fun m j => writeLE m (a + 4 * j) 4 (f j).toNat) m) (a + 4 * i) 4 =
      if i ∈ l then (f i).toNat else readLE m (a + 4 * i) 4 := by
  induction l generalizing m with
  | nil => rfl
  | cons j l ih =>
    rw [List.foldl_cons, ih]
    by_cases hij : i = j
    · subst hij
      rw [readLE_writeLE_same, Nat.mod_eq_of_lt (f i).isLt, ite_self, if_pos List.mem_cons_self]
    · rw [writeLE, readLE_writeBytes_other (by rw [length_leBytes]; omega)]
      simp only [List.mem_cons, hij, false_or]

theorem readByte_foldl_writeLE (f : Nat → Word) (l : List Nat) (m : Mem) (a j : Nat)
    (h : ∀ i ∈ l, j < a + 4 * i ∨ a + 4 * i + 4 ≤ j) :
    readByte (l.foldl (fun m j => writeLE m (a + 4 * j) 4 (f j).toNat) m) j = readByte m j := by
  induction l generalizing m with
  | nil => rfl
  | cons i l ih =>
    rw [List.foldl_cons, ih _ fun i hi => h i (List.mem_cons_of_mem _ hi), writeLE,
      readByte_writeBytes_other _ _ _ _ (by rw [length_leBytes]; exact h i List.mem_cons_self)]

/-! ### The checks of a pocket access (R61, R63, R499) -/

/-- The lower of a line found so far and another. -/
def lowerLine : Option Nat → Nat → Option Nat
  | none, l => some l
  | some x, l => some (min x l)

theorem foldl_lowerLine {l : Nat} {o : Option Nat} {ls : List Nat} (hmin : ∀ m ∈ ls, l ≤ m) (ho : ∀ x ∈ o, l ≤ x)
    (hl : l ∈ ls ∨ o = some l) : ls.foldl lowerLine o = some l := by
  induction ls generalizing o with
  | nil => simpa using hl
  | cons m ls ih =>
    have hm := hmin m List.mem_cons_self
    refine ih (fun x hx => hmin x (List.mem_cons_of_mem _ hx)) ?_ ?_
    · cases o with
      | none => simpa [lowerLine] using hm
      | some x => simpa [lowerLine] using ⟨ho x rfl, hm⟩
    · rw [List.mem_cons] at hl
      rcases hl with (rfl | hl) | rfl
      · cases o with
        | none => exact .inr rfl
        | some x => exact .inr (congrArg some (min_eq_right (ho x rfl)))
      · exact .inl hl
      · exact .inr (congrArg some (min_eq_left hm))

theorem Core.lowPoison_eq (k : Core) (ls : List Nat) :
    k.lowPoison ls = (ls.filter fun l => sget false k.poison l).foldl lowerLine none := by
  rw [Core.lowPoison]
  congr 1
  funext b l
  cases b <;> rfl

theorem Core.lowPoison_none {k : Core} {ls : List Nat} (h : ∀ l ∈ ls, sget false k.poison l = false) :
    k.lowPoison ls = none := by
  rw [Core.lowPoison_eq, List.filter_eq_nil_iff.2 fun l hl => by simp [h l hl]]
  rfl

theorem Core.lowPoison_some {k : Core} {ls : List Nat} {l : Nat} (hl : l ∈ ls) (hp : sget false k.poison l = true)
    (hmin : ∀ m ∈ ls, m < l → sget false k.poison m = false) : k.lowPoison ls = some l := by
  rw [Core.lowPoison_eq]
  refine foldl_lowerLine (fun m hm => ?_) (fun x hx => by cases hx) (.inl ?_)
  · obtain ⟨hm, hpm⟩ := List.mem_filter.1 hm
    by_contra hlt
    simp [hmin m hm (by omega)] at hpm
  · exact List.mem_filter.2 ⟨hl, hp⟩

section
variable {k : Core} {a len al : Nat} {reads : List Nat}

theorem Core.accessFail_range (h : 0x20000 < a + len ∨ a % al ≠ 0) :
    k.accessFail a len al reads = some (.pocketRange, a) := by
  rw [Core.accessFail, pocketBad_some h]

theorem Core.accessFail_none (ha : a % al = 0) (hr : a + len ≤ 0x20000)
    (hp : ∀ l ∈ reads, sget false k.poison l = false) : k.accessFail a len al reads = none := by
  rw [Core.accessFail, pocketBad_none hr ha, Core.lowPoison_none hp]

theorem Core.accessFail_poison {l : Nat} (ha : a % al = 0) (hr : a + len ≤ 0x20000) (hl : l ∈ reads)
    (hp : sget false k.poison l = true) (hmin : ∀ m ∈ reads, m < l → sget false k.poison m = false) :
    k.accessFail a len al reads = some (.poisonConsumed, 64 * l) := by
  rw [Core.accessFail, pocketBad_none hr ha, Core.lowPoison_some hl hp hmin]
end

/-- An access of the pocket by core `c`, with its base register, its offset, its length and alignment and the lines it
reads (R61, R69). -/
inductive PocketAccess (c : Nat) (k : Core) : Instr → Nat → Word → Nat → Nat → List Nat → Prop where
  | scalarLoad (l : LoadKind) (rd rs1 : Nat) (imm : Word) : PocketAccess c k (.scalarLoad c l rd rs1 imm) rs1 imm
      (loadShape l).1 (loadShape l).1 (linesOf (effAddr (k.getS rs1) imm) (loadShape l).1)
  | scalarStore (t : StoreKind) (sd rs1 : Nat) (imm : Word) : PocketAccess c k (.scalarStore c t sd rs1 imm) rs1 imm
      (storeBytes t) (storeBytes t) []
  | vld (v rs1 mk : Nat) (imm : Word) : PocketAccess c k (.vld c v rs1 mk imm) rs1 imm 256 256
      (maskedLines (effAddr (k.getS rs1) imm) (k.getM mk))
  | vst (v rs1 mk : Nat) (imm : Word) : PocketAccess c k (.vst c v rs1 mk imm) rs1 imm 256 256 []
  | accld (t rs1 : Nat) (ty : Bool) (imm : Word) : PocketAccess c k (.accld c t rs1 ty imm) rs1 imm 8192 256
      (linesOf (effAddr (k.getS rs1) imm) 8192)
  | accst (t rs1 : Nat) (imm : Word) : PocketAccess c k (.accst c t rs1 imm) rs1 imm 8192 256 []

/-- A pocket access whose check fails raises its exception and does nothing else. -/
theorem exec_pocketAccess_fault {c rs1 len al : Nat} {s : State} {i : Instr} {imm : Word} {reads : List Nat}
    {x : Cause} {info : Nat} (hi : s.canIssue c = true) (h : PocketAccess c (s.core c) i rs1 imm len al reads)
    (hf : (s.core c).accessFail (effAddr ((s.core c).getS rs1) imm) len al reads = some (x, info)) :
    exec i s = .next (s.setCore c ((s.core c).fault x info)) := by
  cases h with
  | scalarLoad l rd => change execScalarLoad c l rd rs1 imm s = _; simp only [execScalarLoad, issue_of_canIssue hi, hf]
  | scalarStore t sd =>
    change execScalarStore c t sd rs1 imm s = _
    simp only [execScalarStore, issue_of_canIssue hi, hf]
  | vld v _ mk => change execVld c v rs1 mk imm s = _; simp only [execVld, issue_of_canIssue hi, hf]
  | vst v _ mk => change execVst c v rs1 mk imm s = _; simp only [execVst, issue_of_canIssue hi, hf]
  | accld t _ ty => change execAccld c t rs1 ty imm s = _; simp only [execAccld, issue_of_canIssue hi, hf]
  | accst t => change execAccst c t rs1 imm s = _; simp only [execAccst, issue_of_canIssue hi, hf]

/-! ### Reads and writes of the pocket no window of R121 touches -/

theorem Core.readPocket_ready {k : Core} {a n : Nat} (h : k.readyAt a n) (f : Nat) :
    k.readPocket f a n = (readBytes k.pocket a n, f) := by
  rw [Core.readPocket, if_neg]
  simpa [Core.readyAt] using h

theorem Core.breakHazards_clear {k : Core} {a n : Nat} (h : k.clearAt a n) (f : Nat) :
    k.breakHazards f a n = (k, f) := by
  rw [Core.breakHazards, List.filter_eq_nil_iff.2]
  · rfl
  · intro w hw
    simpa using h w hw

/-- The poison left by a write of `n` bytes at `a`: lines the write covers whole lose theirs (R63). -/
def Core.poisonAfter (k : Core) (a n : Nat) : SMap Bool :=
  ((linesOf a n).filter fun l => a ≤ 64 * l && 64 * l + 64 ≤ a + n).foldl (fun p l => sput false l false p) k.poison

theorem Core.writePocket_clear {k : Core} {a : Nat} {bs : List Byte} (h : k.clearAt a bs.length) (f : Nat) :
    k.writePocket f a bs = (k.setPocket (writeBytes k.pocket a bs) (k.poisonAfter a bs.length), f) := by
  rw [Core.writePocket, Core.breakHazards_clear h]
  rfl

theorem Core.poisonAfter_short (k : Core) (a : Nat) {n : Nat} (h : n < 64) : k.poisonAfter a n = k.poison := by
  rw [Core.poisonAfter, List.filter_eq_nil_iff.2]
  · rfl
  · intro l _
    simp only [Bool.and_eq_true, decide_eq_true_eq]
    omega

/-- Core `k'` has passed the slot of `k`, with pocket `m` and poison `p` and nothing else of its results changed. -/
def Core.Stored (k k' : Core) (m : Mem) (p : SMap Bool) : Prop :=
  k.Passed k' ∧ k'.pocket = m ∧ k'.poison = p ∧
    k'.results = ({ k with pocket := k'.pocket, poison := k'.poison } : Core).results

theorem Core.stored_retire {k k1 : Core} {m : Mem} {p : SMap Bool} (hflow : k1.flow = k.flow)
    (hres : k1.results = (k.setPocket m p).results) : k.Stored k1.retire m p := by
  have h := (Core.results_retire k1).trans hres
  obtain ⟨hm, hframe⟩ := Core.pocket_of_results h
  exact ⟨Core.passed_retire hflow, hm, congrArg Core.poison h, hframe⟩

/-! ### Scalar loads and stores (R61, R69) -/

section
variable {c rs1 : Nat} {imm : Word} {s : State} {k : Core} {a : Nat} (hi : s.canIssue c = true)
include hi

theorem exec_scalarLoad {l : LoadKind} {n : Nat} (hn : (loadShape l).1 = n) (rd : Nat) (hk : s.core c = k)
    (ha : effAddr (k.getS rs1) imm = a) (hf : k.accessFail a n n (linesOf a n) = none) (hr : k.readyAt a n) :
    exec (.scalarLoad c l rd rs1 imm) s = .next (s.setCore c
      ((((k.setS rd (extendLoad n (loadShape l).2 (readLE k.pocket a n))).validSAt rd 4).occupy unitPocket
        1).retire)) := by
  change execScalarLoad c l rd rs1 imm s = _
  simp only [execScalarLoad, issue_of_canIssue hi, hk, ha, hn, hf, Core.readPocket_ready hr, State.putCore_freeCount,
    readLE]

theorem exec_scalarStore {t : StoreKind} {n : Nat} (hn : storeBytes t = n) (sd : Nat) (hk : s.core c = k)
    (ha : effAddr (k.getS rs1) imm = a) (hf : k.accessFail a n n [] = none) (hc : k.clearAt a n) :
    ∃ k', exec (.scalarStore c t sd rs1 imm) s = .next (s.setCore c k') ∧
      k.Stored k' (writeLE k.pocket a n (k.getS sd).toNat) (k.poisonAfter a n) := by
  change ∃ k', execScalarStore c t sd rs1 imm s = _ ∧ _
  have hw := Core.writePocket_clear (bs := leBytes n (k.getS sd).toNat) (by rwa [length_leBytes]) s.freeCount
  rw [length_leBytes] at hw
  simp only [execScalarStore, issue_of_canIssue hi, hk, ha, hn, hf, hw, State.putCore_freeCount]
  exact ⟨_, rfl, Core.stored_retire rfl rfl⟩
end

/-- Settles O6: loads and stores by their equations, the failing accesses by `exec_pocketAccess_fault`. -/
theorem pocketAccesses : Obligations.PocketAccesses := by
  unfold Obligations.PocketAccesses
  refine ⟨⟨?load, ?store⟩, ?fault⟩
  case load =>
    intro c rd rs1 l imm s hi k n a ha hr hp hready
    have hexec := exec_scalarLoad hi rfl rd rfl rfl (Core.accessFail_none ha hr hp) hready
    obtain ⟨hget, hframe⟩ := Core.scalars_of_results (Core.results_retire
      (((k.setS rd (extendLoad n (loadShape l).2 (readLE k.pocket a n))).validSAt rd 4).occupy unitPocket 1))
    exact ⟨_, hexec, Core.passed_retire (Core.flow_setS ..), hget, hframe⟩
  case store =>
    intro c sd rs1 t imm s hi k n a ha hr hclear
    have hn : n < 64 := by cases t <;> decide
    obtain ⟨k', hexec, hpassed, hpocket, hpoison, hframe⟩ :=
      exec_scalarStore hi rfl sd rfl rfl (Core.accessFail_none ha hr (by simp)) hclear
    refine ⟨_, hexec, hpassed, ?_, fun j hj => ?_, hframe, hpoison.trans (k.poisonAfter_short a hn)⟩
    · rw [hpocket, readLE_writeLE_same]
    · rw [hpocket, writeLE, readByte_writeBytes_other _ _ _ _ (by rwa [length_leBytes])]
  case fault =>
    intro c s i rs1 len al imm hi k a h
    obtain ⟨reads, hacc, hreads⟩ : ∃ reads, PocketAccess c k i rs1 imm len al reads ∧
        (((∃ q rd, i = .scalarLoad c q rd rs1 imm) ∨ ∃ t ty, i = .accld c t rs1 ty imm) → reads = linesOf a len) := by
      rcases h with ⟨l, rd, rfl, rfl, rfl⟩ | ⟨t, sd, rfl, rfl, rfl⟩ | ⟨v, mk, rfl, rfl, rfl⟩ | ⟨v, mk, rfl, rfl, rfl⟩ |
        ⟨t, ty, rfl, rfl, rfl⟩ | ⟨t, rfl, rfl, rfl⟩
      · exact ⟨_, .scalarLoad l rd rs1 imm, fun _ => rfl⟩
      · exact ⟨_, .scalarStore t sd rs1 imm, by simp⟩
      · exact ⟨_, .vld v rs1 mk imm, by simp⟩
      · exact ⟨_, .vst v rs1 mk imm, by simp⟩
      · exact ⟨_, .accld t rs1 ty imm, fun _ => rfl⟩
      · exact ⟨_, .accst t rs1 imm, by simp⟩
    refine ⟨fun hbad => ?_, fun hr ha l hload hl hp hmin => ?_⟩
    · exact ⟨_, exec_pocketAccess_fault hi hacc (Core.accessFail_range hbad), Core.raised_fault ..⟩
    · obtain rfl := hreads hload
      exact ⟨_, exec_pocketAccess_fault hi hacc (Core.accessFail_poison ha hr hl hp hmin), Core.raised_fault ..⟩

/-! ### Vector loads and stores (R63, R69) -/

theorem lane_mergeLanes (mask : DWord) (new old : List Word) {i : Nat} (h : i < 64) :
    lane (ofLanes (mergeLanes mask new old)) i = if mask.getLsbD i then new.getD i 0#32 else old.getD i 0#32 := by
  rw [lane_ofLanes _ h, mergeLanes]
  simp [List.getD_eq_getElem?_getD, h]

theorem getD_lanes (v : VReg) {i : Nat} (h : i < 64) : (lanes v).getD i 0#32 = lane v i := by
  simp [lanes, List.getD_eq_getElem?_getD, h]

/-- The lanes a mask enables. -/
def enabledLanes (mask : DWord) : List Nat := (List.range 64).filter fun i => mask.getLsbD i

theorem mem_enabledLanes {mask : DWord} {i : Nat} : i ∈ enabledLanes mask ↔ i < 64 ∧ mask.getLsbD i = true := by
  simp [enabledLanes]

/-- The pocket with the enabled lanes stored from `a` on. -/
def storedLanes (m : Mem) (a : Nat) (mask : DWord) (ws : List Word) : Mem :=
  (enabledLanes mask).foldl (fun m i => writeLE m (a + 4 * i) 4 (ws.getD i 0#32).toNat) m

theorem Core.foldl_breakHazards_clear {k : Core} {a : Nat} {l : List Nat} (h : ∀ i ∈ l, k.clearAt (a + 4 * i) 4)
    (f : Nat) : l.foldl (fun (kn : Core × Nat) i => kn.1.breakHazards kn.2 (a + 4 * i) 4) (k, f) = (k, f) := by
  induction l with
  | nil => rfl
  | cons i l ih =>
    rw [List.foldl_cons, Core.breakHazards_clear (h i List.mem_cons_self),
      ih fun j hj => h j (List.mem_cons_of_mem _ hj)]

theorem Core.storeLanes_clear {k : Core} {a : Nat} {mask : DWord}
    (h : ∀ i < 64, mask.getLsbD i = true → k.clearAt (a + 4 * i) 4) (ws : List Word) (f : Nat) :
    ∃ p, k.storeLanes f a mask ws = (k.setPocket (storedLanes k.pocket a mask ws) p, f) := by
  have hb := Core.foldl_breakHazards_clear (l := enabledLanes mask)
    (fun i hi => h i (mem_enabledLanes.1 hi).1 (mem_enabledLanes.1 hi).2) f
  rw [enabledLanes] at hb
  simp only [Core.storeLanes, hb]
  exact ⟨_, rfl⟩

theorem readLE_storedLanes (m : Mem) (a : Nat) (mask : DWord) (v : VReg) {i : Nat} (h : i < 64) :
    readLE (storedLanes m a mask (lanes v)) (a + 4 * i) 4 =
      if mask.getLsbD i then (lane v i).toNat else readLE m (a + 4 * i) 4 := by
  rw [storedLanes, readLE_foldl_writeLE fun i => (lanes v).getD i 0#32]
  simp only [mem_enabledLanes, h, true_and, getD_lanes]

theorem readByte_storedLanes_other (m : Mem) (a : Nat) (mask : DWord) (ws : List Word) {j : Nat}
    (h : j < a ∨ a + 256 ≤ j) : readByte (storedLanes m a mask ws) j = readByte m j := by
  refine readByte_foldl_writeLE (fun i => ws.getD i 0#32) _ _ _ _ fun i hi => ?_
  have := (mem_enabledLanes.1 hi).1
  omega

section
variable {c rs1 mk : Nat} {imm : Word} {s : State} {k : Core} {a : Nat} (hi : s.canIssue c = true)
  (hk : s.core c = k) (ha : effAddr (k.getS rs1) imm = a)
include hi hk ha

/-- The register a VLD writes: the words of its bytes in the enabled lanes. -/
def Core.vldLanes (k : Core) (a v mk : Nat) : List Word :=
  mergeLanes (k.getM mk) ((List.range 64).map fun i => BitVec.ofNat 32 (readLE k.pocket (a + 4 * i) 4))
    (lanes (k.getV v))

theorem exec_vld (v : Nat) (hf : k.accessFail a 256 256 (maskedLines a (k.getM mk)) = none) (hr : k.readyAt a 256) :
    exec (.vld c v rs1 mk imm) s = .next (s.setCore c
      ((((k.setV v (ofLanes (k.vldLanes a v mk))).validVAt v 4).occupy unitPocket 1).retire)) := by
  change execVld c v rs1 mk imm s = _
  simp only [execVld, issue_of_canIssue hi, hk, ha, hf, Core.readPocket_ready hr, State.putCore_freeCount]
  rw [bytesToWords_readBytes k.pocket a 64, Core.vldLanes]

theorem exec_vst (v : Nat) (hf : k.accessFail a 256 256 [] = none)
    (hc : ∀ i < 64, (k.getM mk).getLsbD i = true → k.clearAt (a + 4 * i) 4) :
    ∃ k' p, exec (.vst c v rs1 mk imm) s = .next (s.setCore c k') ∧
      k.Stored k' (storedLanes k.pocket a (k.getM mk) (lanes (k.getV v))) p := by
  obtain ⟨p, hp⟩ := Core.storeLanes_clear hc (lanes (k.getV v)) s.freeCount
  change ∃ k' p, execVst c v rs1 mk imm s = _ ∧ _
  simp only [execVst, issue_of_canIssue hi, hk, ha, hf, hp, State.putCore_freeCount]
  exact ⟨_, p, rfl, Core.stored_retire rfl rfl⟩
end

/-- A core whose results are those of `k` with vector register `r` written shows the change by its vector registers
alone. -/
theorem Core.vectors_of_results {k k1 : Core} {r : Nat} {x : VReg} (h : k1.results = (k.setV r x).results) :
    (∀ j, k1.getV j = if j = r then x else k.getV j) ∧ k1.results = ({ k with v := k1.v } : Core).results := by
  have hv : k1.v = (k.setV r x).v := (congrArg Core.v h : k1.results.v = (k.setV r x).results.v)
  exact ⟨fun j => (Core.getV_of_results h j).trans (k.getV_setV r j x), by rw [h, hv]; rfl⟩

theorem Core.lane_vldLanes (k : Core) (a v mk : Nat) {i : Nat} (h : i < 64) :
    lane (ofLanes (k.vldLanes a v mk)) i = if (k.getM mk).getLsbD i then BitVec.ofNat 32 (readLE k.pocket (a + 4 * i) 4)
      else lane (k.getV v) i := by
  rw [Core.vldLanes, lane_mergeLanes _ _ _ h, getD_lanes _ h]
  simp [List.getD_eq_getElem?_getD, h]

/-! ### Tile loads and stores (R59, R69) -/

theorem sget_accPut (m : SMap Word) (t e : Nat) (ws : List Word) (j : Nat) :
    sget 0#32 (accPut m t e ws) j =
      if 2048 * t + e ≤ j ∧ j < 2048 * t + e + ws.length then ws.getD (j - (2048 * t + e)) 0#32 else sget 0#32 m j := by
  induction ws generalizing m e with
  | nil => rw [accPut, List.length_nil, if_neg (by omega)]
  | cons w ws ih =>
    rw [accPut, ih, sget_sput, List.length_cons]
    by_cases hj : j = 2048 * t + e
    · rw [if_neg (by omega), if_pos hj, if_pos (by omega), hj, Nat.sub_self, List.getD_cons_zero]
    · rw [if_neg hj]
      by_cases hin : 2048 * t + (e + 1) ≤ j ∧ j < 2048 * t + (e + 1) + ws.length
      · rw [if_pos hin, if_pos (by omega), show j - (2048 * t + e) = j - (2048 * t + (e + 1)) + 1 by omega,
          List.getD_cons_succ]
      · rw [if_neg hin, if_neg (by omega)]

/-- The core with the words of a tile, and its type, replaced. -/
def Core.setTile (k : Core) (t : Nat) (ws : List Word) (int : Bool) : Core :=
  ({ k with acc := accPut k.acc t 0 ws } : Core).setAccType t int

theorem Core.acc_setTile (k : Core) (t : Nat) (ws : List Word) (int : Bool) :
    (k.setTile t ws int).acc = accPut k.acc t 0 ws := rfl

theorem Core.getAcc_setTile_same (k : Core) (t : Nat) (ws : List Word) (int : Bool) (h : ws.length = 2048)
    {row col : Nat} (hr : row < 32) (hc : col < 64) :
    (k.setTile t ws int).getAcc t row col = ws.getD (64 * row + col) 0#32 := by
  rw [Core.getAcc, Core.acc_setTile, sget_accPut, if_pos (by omega)]
  congr 1
  omega

theorem Core.getAcc_setTile_other (k : Core) {t u : Nat} (ws : List Word) (int : Bool) (h : ws.length = 2048)
    {row col : Nat} (hu : u ≠ t) (hr : row < 32) (hc : col < 64) :
    (k.setTile t ws int).getAcc u row col = k.getAcc u row col := by
  rw [Core.getAcc, Core.acc_setTile, sget_accPut, if_neg (by omega), Core.getAcc]

theorem Core.accInt_setTile (k : Core) {t u : Nat} (ws : List Word) (int : Bool) (ht : t < 4) (hu : u < 4) :
    (k.setTile t ws int).accInt.getLsbD u = if u = t then int else k.accInt.getLsbD u := by
  have hset : (k.setTile t ws int).accInt =
      if int then k.accInt ||| (1#4 <<< t) else k.accInt &&& ~~~(1#4 <<< t) := rfl
  have hbit : (1#4 <<< t).getLsbD u = decide (u = t) := by
    interval_cases t <;> interval_cases u <;> rfl
  rw [hset]
  cases int with
  | true =>
    simp only [if_true, BitVec.getLsbD_or, hbit]
    by_cases h : u = t <;> simp [h]
  | false =>
    simp only [Bool.false_eq_true, if_false, BitVec.getLsbD_and, BitVec.getLsbD_not, hbit, hu]
    by_cases h : u = t <;> simp [h]

/-- What an ACCLD does with the words it loaded. -/
def Core.loadTile (k : Core) (t : Nat) (ws : List Word) (int : Bool) : Core :=
  (((k.setTile t ws int).useTile t 34 0).occupy unitPocket 32).retire

theorem Core.passed_loadTile (k : Core) (t : Nat) (ws : List Word) (int : Bool) : k.Passed (k.loadTile t ws int) :=
  Core.passed_retire rfl

theorem Core.results_loadTile (k : Core) (t : Nat) (ws : List Word) (int : Bool) :
    (k.loadTile t ws int).results = (k.setTile t ws int).results := Core.results_retire _

/-- What an ACCST leaves: its bytes stored, its tile in use and a new window (R121). -/
theorem Core.stored_openWindow (k : Core) (m : Mem) (p : SMap Bool) (h : Hazard) (t : Nat) :
    k.Stored ((((k.setPocket m p).openWindow h).useTile t 32 0).occupy unitPocket 32).retire m p :=
  Core.stored_retire rfl rfl

/-- The words of a tile, row-major. -/
def Core.tileWords (k : Core) (t : Nat) : List Word := ((List.range 32).map fun r => k.accRow t r).flatten

/-- Rows of equal length, one after another, are one list read by quotient and remainder. -/
theorem flatten_map_rows {α : Type} (f : Nat → Nat → α) (n : Nat) {m : Nat} (hm : 0 < m) :
    ((List.range n).map fun r => (List.range m).map (f r)).flatten =
      (List.range (n * m)).map fun j => f (j / m) (j % m) := by
  induction n with
  | zero => simp
  | succ n ih =>
    rw [List.range_succ, List.map_append, List.flatten_append, ih, Nat.succ_mul, List.range_add, List.map_append]
    congr 1
    rw [List.map_singleton, List.flatten_singleton, List.map_map]
    refine List.map_congr_left fun j hj => ?_
    have hj := List.mem_range.1 hj
    rw [Function.comp_apply, Nat.mul_comm, Nat.mul_add_div hm, Nat.mul_add_mod, Nat.div_eq_of_lt hj,
      Nat.mod_eq_of_lt hj, Nat.add_zero]

theorem Core.tileWords_eq (k : Core) (t : Nat) :
    k.tileWords t = (List.range 2048).map fun j => k.getAcc t (j / 64) (j % 64) :=
  flatten_map_rows (k.getAcc t) 32 (by decide)

theorem Core.length_tileWords (k : Core) (t : Nat) : (k.tileWords t).length = 2048 := by
  rw [Core.tileWords_eq, List.length_map, List.length_range]

theorem Core.getD_tileWords (k : Core) (t : Nat) {row col : Nat} (hr : row < 32) (hc : col < 64) :
    (k.tileWords t).getD (64 * row + col) 0#32 = k.getAcc t row col := by
  have hlt : 64 * row + col < 2048 := by omega
  have hdiv : (64 * row + col) / 64 = row := by omega
  have hmod : (64 * row + col) % 64 = col := by omega
  simp [Core.tileWords_eq, List.getD_eq_getElem?_getD, hlt, hdiv, hmod]

/-- The words of the 8,192 bytes at `a`. -/
def Core.pocketTile (k : Core) (a : Nat) : List Word :=
  (List.range 2048).map fun i => BitVec.ofNat 32 (readLE k.pocket (a + 4 * i) 4)

theorem Core.length_pocketTile (k : Core) (a : Nat) : (k.pocketTile a).length = 2048 := by
  rw [Core.pocketTile, List.length_map, List.length_range]

theorem Core.getD_pocketTile (k : Core) (a : Nat) {row col : Nat} (hr : row < 32) (hc : col < 64) :
    (k.pocketTile a).getD (64 * row + col) 0#32 = BitVec.ofNat 32 (readLE k.pocket (a + 256 * row + 4 * col) 4) := by
  have hlt : 64 * row + col < 2048 := by omega
  have haddr : a + 4 * (64 * row + col) = a + 256 * row + 4 * col := by omega
  simp [Core.pocketTile, List.getD_eq_getElem?_getD, hlt, haddr]

section
variable {c t rs1 : Nat} {imm : Word} {s : State} {k : Core} {a : Nat} (hi : s.canIssue c = true)
  (hk : s.core c = k) (ha : effAddr (k.getS rs1) imm = a)
include hi hk ha

theorem exec_accld (ty : Bool) (hf : k.accessFail a 8192 256 (linesOf a 8192) = none) (hr : k.readyAt a 8192) :
    exec (.accld c t rs1 ty imm) s =
      .next (s.setCore c (k.loadTile t (k.pocketTile a) ty)) := by
  change execAccld c t rs1 ty imm s = _
  simp only [execAccld, issue_of_canIssue hi, hk, ha, hf, Core.readPocket_ready hr, State.putCore_freeCount]
  rw [bytesToWords_readBytes k.pocket a 2048]
  rfl

theorem exec_accst (hf : k.accessFail a 8192 256 [] = none) (hc : k.clearAt a 8192) :
    ∃ k' p, exec (.accst c t rs1 imm) s = .next (s.setCore c k') ∧
      k.Stored k' (writeBytes k.pocket a (wordsToBytes (k.tileWords t))) p := by
  have hlen : (wordsToBytes (k.tileWords t)).length = 8192 := by rw [length_wordsToBytes, Core.length_tileWords]
  have hw := Core.writePocket_clear (bs := wordsToBytes (k.tileWords t)) (by rwa [hlen]) s.freeCount
  change ∃ k' p, execAccst c t rs1 imm s = _ ∧ _
  simp only [execAccst, issue_of_canIssue hi, hk, ha, hf]
  rw [← Core.tileWords, hw]
  exact ⟨_, _, rfl, Core.stored_openWindow ..⟩
end

/-- A core whose results are those of `k` with a tile replaced shows the change by its tiles and their types alone. -/
theorem Core.tiles_of_results {k k1 : Core} {t : Nat} {ws : List Word} {int : Bool}
    (h : k1.results = (k.setTile t ws int).results) :
    (∀ u row col, k1.getAcc u row col = (k.setTile t ws int).getAcc u row col) ∧
      k1.accInt = (k.setTile t ws int).accInt ∧
      k1.results = ({ k with acc := k1.acc, accInt := k1.accInt } : Core).results := by
  have hacc : k1.acc = (k.setTile t ws int).acc :=
    (congrArg Core.acc h : k1.results.acc = (k.setTile t ws int).results.acc)
  have hint : k1.accInt = (k.setTile t ws int).accInt :=
    (congrArg Core.accInt h : k1.results.accInt = (k.setTile t ws int).results.accInt)
  refine ⟨fun u row col => ?_, hint, ?_⟩
  · rw [Core.getAcc, Core.getAcc, hacc]
  · rw [h, hacc, hint]
    rfl

/-- Settles O7: each form by its equation, and what its lanes or rows read back as. -/
theorem vectorAndTileAccesses : Obligations.VectorAndTileAccesses := by
  unfold Obligations.VectorAndTileAccesses
  refine ⟨⟨?vld, ?vst⟩, ?accld, ?accst⟩
  case vld =>
    intro c v rs1 mk imm s hi k a ha hr hp hready
    have hexec := exec_vld hi rfl rfl v (Core.accessFail_none ha hr hp) hready
    obtain ⟨hget, hframe⟩ := Core.vectors_of_results (k := k) (r := v) (x := ofLanes (k.vldLanes a v mk))
      (Core.results_retire (((k.setV v (ofLanes (k.vldLanes a v mk))).validVAt v 4).occupy unitPocket 1))
    refine ⟨_, hexec, Core.passed_retire rfl, fun i h => ?_, fun r h => (hget r).trans (if_neg h), hframe⟩
    rw [hget, if_pos rfl, Core.lane_vldLanes _ _ _ _ h]
  case vst =>
    intro c v rs1 mk imm s hi k a ha hr hclear
    obtain ⟨k', p, hexec, hpassed, hpocket, -, hframe⟩ :=
      exec_vst hi rfl rfl v (Core.accessFail_none ha hr (by simp)) hclear
    refine ⟨_, hexec, hpassed, fun i h => ?_, fun j h => ?_, hframe⟩
    · rw [hpocket, readLE_storedLanes _ _ _ _ h]
    · rw [hpocket, readByte_storedLanes_other _ _ _ _ h]
  case accld =>
    intro c t rs1 ty imm s hi ht k a ha hr hp hready
    have hexec := exec_accld (t := t) hi rfl rfl ty (Core.accessFail_none ha hr hp) hready
    have hlen := k.length_pocketTile a
    obtain ⟨hget, hint, hframe⟩ := Core.tiles_of_results (k.results_loadTile t (k.pocketTile a) ty)
    refine ⟨_, hexec, Core.passed_loadTile .., fun row h1 col h2 => ?_, fun u row col hu _ h1 h2 => ?_,
      fun u hu => ?_, hframe⟩
    · rw [hget, Core.getAcc_setTile_same _ _ _ _ hlen h1 h2, Core.getD_pocketTile _ _ h1 h2]
    · rw [hget, Core.getAcc_setTile_other _ _ _ hlen hu h1 h2]
    · rw [hint, Core.accInt_setTile _ _ _ ht hu]
  case accst =>
    intro c t rs1 imm s hi k a ha hr hclear
    obtain ⟨k', p, hexec, hpassed, hpocket, -, hframe⟩ :=
      exec_accst (t := t) hi rfl rfl (Core.accessFail_none ha hr (by simp)) hclear
    have hlen := (s.core c).length_tileWords t
    refine ⟨_, hexec, hpassed, fun row h1 col h2 => ?_, fun j h => ?_, hframe⟩
    · rw [hpocket, show a + 256 * row + 4 * col = a + 4 * (64 * row + col) by omega,
        readLE_writeBytes_words _ _ _ (by omega), Core.getD_tileWords _ _ h1 h2]
    · rw [hpocket, readByte_writeBytes_other _ _ _ _ (by rw [length_wordsToBytes, hlen]; omega)]

end Sys2Proof.Machine
end

section
/-!
PROOFS. The front end, holds and roll (spec/03 R73, R75, R76, R88, spec/15 R422).
-/
namespace Sys2Proof.Machine

/-! ### The front end's trial (R73, R75, R76) -/

theorem State.releaseHold_eq (s : State) (vd T : Nat) :
    s.releaseHold vd T = s ∨ ∃ v, s.releaseHold vd T = s.setVd vd v := by
  rw [State.releaseHold]
  split
  · exact .inl rfl
  · exact .inr ⟨_, rfl⟩

@[simp] theorem State.core_releaseHold (s : State) (vd T j : Nat) : (s.releaseHold vd T).core j = s.core j := by
  rcases s.releaseHold_eq vd T with h | ⟨v, h⟩ <;> rw [h]
  exact State.core_setVd ..

section
variable {c T : Nat} {s v : State} {k f : Core} {n p : Nat} {w : DWord}

/-- What lets the front end of core `c` try its next slot, and the view it tries it in (R73, R75, R86). -/
structure Tries (c T : Nat) (s v : State) (k f : Core) (n p : Nat) (w : DWord) : Prop where
  core : s.core c = k
  view : v.core c = f
  accepted : k.accepted = n
  projected : s.projected k n T = p
  word : sget 0#64 f.istore (f.pc / 8) = w
  running : k.running = true
  halted : k.halted = false
  stopped : k.stopped = false
  feStop : k.feStop = false
  room : k.lead.length < 12
  due : T ≤ p
  exc : k.exc = none
  stop : (s.ctx k.ctx).stop = .none
  frontView : s.frontView c T = some v
  slot : f.slot ≤ n

variable (h : Tries c T s v k f n p w)
include h

theorem exec_frontEndAccept_word {i : Instr} (hd : decodeWord c w = some i) :
    exec (.frontEndAccept c T) s = .next (if s.condition v c i p T = true then s.acceptSlot c T (.word f.pc w)
      else s.requestHold c n p T) := by
  obtain ⟨hcore, hview, hacc, hproj, hword, hrun, hhalt, hstop, hfe, hroom, hdue, hexc, hctx, hfv, hslot⟩ := h
  change execFrontEndAccept c T s = _
  simp only [execFrontEndAccept, hcore, hview, hacc, hproj, hword, hrun, hhalt, hstop, hfe, hexc, hctx, hfv, hd,
    not_le.2 hroom, not_lt.2 hdue, not_lt.2 hslot]
  simp

theorem exec_frontEndAccept_illegal (hd : decodeWord c w = none) :
    exec (.frontEndAccept c T) s = .next ((s.setCore c { k with feStop := true }).raiseExc c
      { cause := .illegalInstr, pc := f.pc, info := 0, instr := w, slot := n }) := by
  obtain ⟨hcore, hview, hacc, hproj, hword, hrun, hhalt, hstop, hfe, hroom, hdue, hexc, hctx, hfv, hslot⟩ := h
  change execFrontEndAccept c T s = _
  simp only [execFrontEndAccept, hcore, hview, hacc, hproj, hword, hrun, hhalt, hstop, hfe, hexc, hctx, hfv, hd,
    not_le.2 hroom, not_lt.2 hdue, not_lt.2 hslot]
  simp
end

theorem State.core_acceptSlot_same (s : State) (c T : Nat) (e : LeadSlot) :
    (s.acceptSlot c T e).core c = { s.core c with lead := (s.core c).lead ++ [e], feWait := false } := by
  rw [State.acceptSlot, State.core_releaseHold, State.core_setCore_same]

theorem State.core_acceptSlot_other (s : State) (c T : Nat) (e : LeadSlot) {j : Nat} (hj : j ≠ c) :
    (s.acceptSlot c T e).core j = s.core j := by
  rw [State.acceptSlot, State.core_releaseHold, State.core_setCore, if_neg hj]

/-- A trial whose condition is false leaves the lead queue as it was. -/
theorem State.lead_requestHold (s : State) (c n p T : Nat) :
    ((s.requestHold c n p T).core c).lead = (s.core c).lead := by
  simp only [State.requestHold]
  split
  · rw [State.core_setCore_same]
  · split
    · rw [State.core_setVd, State.core_setCore_same]
    · rfl

/-- With no hold of the VD waiting for its release, a slot that could execute at `T` begins one (R76). -/
theorem State.requestHold_new {s : State} {c n T : Nat} (h : ∀ x ∈ (s.vd (s.core c).vd).holds, x.rel ≠ none) :
    s.requestHold c n T T = (s.setCore c { s.core c with
        feWait := true,
        holdReq := if (s.core c).feWait then (s.core c).holdReq else satAdd 32 (s.core c).holdReq 1 }).setVd (s.core c).vd
      { s.vd (s.core c).vd with holds := (s.vd (s.core c).vd).holds ++ [{ slot := n, req := T }] } := by
  have hnone : ((s.vd (s.core c).vd).holds.any fun x => x.rel.isNone) = false := by simpa using h
  simp only [State.requestHold, hnone, Bool.false_eq_true, if_false, if_true]

/-- An exception raised on a core that has none, of a context that is not stopping for one. -/
theorem State.raiseExc_first {s : State} {c : Nat} (hx : (s.ctx (s.core c).ctx).stop = .none)
    (he : (s.core c).exc = none) (e : Exc) : s.raiseExc c e = s.setCore c { s.core c with exc := some e } := by
  simp [State.raiseExc, hx, he]

/-! ### Cores changed one after another -/

theorem State.core_mapCores_other {l : List Nat} {f : Core → Core} (s : State) {j : Nat} (h : j ∉ l) :
    (s.mapCores l f).core j = s.core j := by
  induction l generalizing s with
  | nil => rfl
  | cons c l ih =>
    rw [List.mem_cons, not_or] at h
    exact (ih (s.setCore c (f (s.core c))) h.2).trans (by rw [State.core_setCore, if_neg h.1])

/-- Every core of the list holds what the change makes of it, where no core is listed twice. -/
theorem State.core_mapCores_mem {l : List Nat} {f : Core → Core} (s : State) {j : Nat} (hl : l.Nodup) (h : j ∈ l) :
    (s.mapCores l f).core j = f (s.core j) := by
  induction l generalizing s with
  | nil => simp at h
  | cons c l ih =>
    obtain ⟨hc, hl⟩ := List.nodup_cons.1 hl
    by_cases hj : j = c
    · subst hj
      exact (State.core_mapCores_other _ hc).trans (State.core_setCore_same ..)
    · exact (ih (s.setCore c (f (s.core c))) hl ((List.mem_cons.1 h).resolve_left hj)).trans
        (by rw [State.core_setCore, if_neg hj])

/-- The same where the change made twice is the change. -/
theorem State.core_mapCores_idem {l : List Nat} {f : Core → Core} (hf : ∀ k, f (f k) = f k) (s : State) {j : Nat}
    (h : j ∈ l) : (s.mapCores l f).core j = f (s.core j) := by
  induction l generalizing s with
  | nil => simp at h
  | cons c l ih =>
    by_cases hj : j = c
    · subst hj
      by_cases hl : j ∈ l
      · exact (ih _ hl).trans (by rw [State.core_setCore_same, hf])
      · exact (State.core_mapCores_other _ hl).trans (State.core_setCore_same ..)
    · exact (ih (s.setCore c (f (s.core c))) ((List.mem_cons.1 h).resolve_left hj)).trans
        (by rw [State.core_setCore, if_neg hj])

@[simp] theorem State.vd_mapCores (s : State) (l : List Nat) (f : Core → Core) (v : Nat) :
    (s.mapCores l f).vd v = s.vd v := by
  induction l generalizing s with
  | nil => rfl
  | cons c l ih => exact (ih _).trans (State.vd_setCore ..)

/-! ### Holds and roll (R76, R88, R422) -/

/-- The core when a hold takes effect: roll starts at the level its busy beats give. -/
def Core.rolled (start : Nat) (k : Core) : Core :=
  if k.halted then k else { k with level := min 64 (k.busyBeats k.wall * start / 400) }

theorem Core.rolled_rolled (start : Nat) (k : Core) : (k.rolled start).rolled start = k.rolled start := by
  unfold Core.rolled
  by_cases h : k.halted = true
  · simp [h]
  · simp only [h]
    rfl

/-- The core when a hold of `n` beats ends. -/
def Core.resumed (n : Nat) (k : Core) : Core :=
  { k with heldTotal := k.heldTotal + n, holdBeats := satAdd 32 k.holdBeats n, level := 0 }

section
variable {vd : Nat} {s : State} {h : Hold} {rest : List Hold} (hh : (s.vd vd).holds = h :: rest)
include hh

theorem exec_holdTakesEffect (he : h.eff = false) (hr : h.rel = none)
    (hc : ∀ c ∈ s.coresOf vd, (s.core c).halted = true ∨ h.slot ≤ (s.core c).slot) :
    exec (.holdTakesEffect vd) s = .next ((s.setVd vd
      { s.vd vd with holds := { h with eff := true, since := s.toll } :: rest }).mapCores (s.coresOf vd)
        (Core.rolled s.rollStart)) := by
  have hany : ((s.coresOf vd).any fun c => !(s.core c).halted && decide ((s.core c).slot < h.slot)) = false := by
    refine List.any_eq_false.2 fun c hm => ?_
    rcases hc c hm with h | h
    · simp [h]
    · simp [not_lt.2 h]
  change execHoldTakesEffect vd s = _
  simp only [execHoldTakesEffect, hh, he, hr, hany, Bool.false_eq_true, or_self, if_false, Option.any_none]
  rfl

theorem exec_holdResume {r : Nat} (he : h.eff = true) (hr : h.rel = some r) :
    exec (.holdResume vd) s = .next ((s.setVd vd { s.vd vd with holds := rest }).mapCores (s.coresOf vd)
      (Core.resumed (r - h.req))) := by
  change execHoldResume vd s = _
  simp only [execHoldResume, hh, hr, he, Bool.not_true, Bool.false_eq_true, if_false]
  rfl
end

theorem exec_rollLevelDecay {c : Nat} {s : State} (hrun : (s.core c).running = true) (hhalt : (s.core c).halted = false)
    (hheld : s.held (s.core c).vd = true) (hl : s.rollFloor < (s.core c).level) :
    exec (.rollLevelDecay c) s = .next (s.setCore c { s.core c with level := (s.core c).level - 1 }) := by
  change execRollLevelDecay c s = _
  simp only [execRollLevelDecay, hrun, hhalt, hheld]
  rw [if_pos ⟨trivial, rfl, trivial, hl⟩]

/-- Settles O16: the trial's three outcomes, and the holds' two ends. -/
theorem frontEndHoldsAndRoll : Obligations.FrontEndHoldsAndRoll := by
  unfold Obligations.FrontEndHoldsAndRoll
  refine ⟨?trial, ?effect, ?resume, ?decay⟩
  case trial =>
    intro c T s v k n f w hrun hhalt hstop hfe hroom hdue hexc hctx hfv hslot
    have ht : Tries c T s v k f n (s.projected k n T) w :=
      ⟨rfl, rfl, rfl, rfl, rfl, hrun, hhalt, hstop, hfe, hroom, hdue, hexc, hctx, hfv, hslot⟩
    refine ⟨fun i hd hcond => ?_, fun i hd hcond => ?_, fun hd => ?_⟩
    · refine ⟨_, (exec_frontEndAccept_word ht hd).trans (by rw [if_pos hcond]), ?_, ?_, fun j hj =>
        State.core_acceptSlot_other _ _ _ _ hj⟩
      · rw [State.core_acceptSlot_same]
      · rw [State.core_acceptSlot_same]
    · refine ⟨_, (exec_frontEndAccept_word ht hd).trans (by rw [if_neg (by simp [hcond])]), State.lead_requestHold ..,
        fun hrel hp => ?_⟩
      rw [hp, State.requestHold_new hrel, State.core_setVd, State.core_setCore_same]
      refine ⟨by rw [State.vd_setVd_same], rfl, fun hw => ?_⟩
      have hw : (s.core c).feWait = false := hw
      simp only [hw, Bool.false_eq_true, if_false]
      rfl
    · refine ⟨_, exec_frontEndAccept_illegal ht hd, ?_⟩
      rw [State.raiseExc_first (by rw [State.core_setCore_same]; exact hctx)
        (by rw [State.core_setCore_same]; exact hexc), State.core_setCore_same, State.core_setCore_same]
      exact ⟨rfl, rfl⟩
  case effect =>
    intro vd s h rest hh he hr hc
    refine ⟨_, exec_holdTakesEffect hh he hr hc, ?_, ?_, fun c hc hhalt => ?_, fun c hc => ?_⟩
    · rw [State.held, State.vd_mapCores, State.vd_setVd_same]
      rfl
    · rw [State.vd_mapCores, State.vd_setVd_same]
    · rw [State.core_mapCores_idem (Core.rolled_rolled _) _ hc, State.core_setVd, Core.rolled, if_neg (by simp [hhalt])]
    · rw [State.core_mapCores_other _ hc, State.core_setVd]
  case resume =>
    intro vd s h rest r hh he hr hnodup
    refine ⟨_, exec_holdResume hh he hr, ?_, fun c hc => ?_, fun c hc => ?_⟩
    · rw [State.vd_mapCores, State.vd_setVd_same]
    · rw [State.core_mapCores_mem _ hnodup hc, State.core_setVd]
      exact ⟨rfl, rfl, rfl⟩
    · rw [State.core_mapCores_other _ hc, State.core_setVd]
  case decay =>
    exact fun c s => exec_rollLevelDecay

end Sys2Proof.Machine
end

section
/-!
PROOFS. Save records: what a core's record holds and what the restored core has of it (spec/03 R90, R91, R93,
R142).
-/
namespace Sys2Proof.Machine

/-! ### Sparse maps built over a range, and memories of lines -/

theorem sget_foldl_sput {α : Type} [DecidableEq α] {d : α} (f : Nat → α) (n : Nat) (j : Nat) :
    sget d ((List.range n).foldl (fun m i => sput d i (f i) m) []) j = if j < n then f j else d := by
  induction n with
  | zero => simp
  | succ n ih =>
    rw [List.range_succ, List.foldl_append, List.foldl_cons, List.foldl_nil, sget_sput, ih]
    by_cases hj : j = n
    · rw [if_pos hj, if_pos (by omega), hj]
    · rw [if_neg hj]
      by_cases hlt : j < n
      · rw [if_pos hlt, if_pos (by omega)]
      · rw [if_neg hlt, if_neg (by omega)]

/-- A memory that holds `n` lines from address 0 on. -/
def linesMem (f : Nat → BitVec 512) (n : Nat) : Mem := (List.range n).foldl (fun m i => writeLine m (64 * i) (f i)) []

theorem linesMem_succ (f : Nat → BitVec 512) (n : Nat) :
    linesMem f (n + 1) = writeLine (linesMem f n) (64 * n) (f n) := by
  rw [linesMem, List.range_succ, List.foldl_append, List.foldl_cons, List.foldl_nil, linesMem]

theorem readLine_writeLine_same (m : Mem) (a : Nat) (x : BitVec 512) : readLine (writeLine m a x) a = x := by
  rw [readLine, writeLine, readLE_writeLE_same, Nat.mod_eq_of_lt x.isLt, BitVec.ofNat_toNat, BitVec.setWidth_eq]

theorem readLine_linesMem (f : Nat → BitVec 512) {n i : Nat} (h : i < n) : readLine (linesMem f n) (64 * i) = f i := by
  induction n with
  | zero => omega
  | succ n ih =>
    rw [linesMem_succ]
    by_cases hi : i = n
    · rw [hi, readLine_writeLine_same]
    · rw [readLine, writeLine, writeLE, readLE_writeBytes_other (by rw [length_leBytes]; omega), ← readLine,
        ih (by omega)]

theorem length_readBytes (m : Mem) (a n : Nat) : (readBytes m a n).length = n := by
  induction n generalizing a with
  | zero => rfl
  | succ n ih => rw [readBytes, List.length_cons, ih]

theorem readBytes_getD (m : Mem) (a : Nat) {n i : Nat} (h : i < n) :
    (readBytes m a n).getD i 0#8 = readByte m (a + i) := by
  induction n generalizing a i with
  | zero => omega
  | succ n ih =>
    cases i with
    | zero => rfl
    | succ i => rw [readBytes, List.getD_cons_succ, ih _ (by omega)]; congr 1; omega

theorem leBytes_readLine (m : Mem) (a : Nat) : leBytes 64 (readLine m a).toNat = readBytes m a 64 := by
  rw [readLine, leBytes_toNat_ofNat 64, readLE, leBytes_leNat (Nat.le_refl 64),
    List.take_left' (length_readBytes m a 64)]

/-- A memory built of the lines of another from `b` on holds its bytes. -/
theorem readByte_linesMem {m : Mem} {f : Nat → BitVec 512} {b n : Nat} (hf : ∀ i < n, f i = readLine m (b + 64 * i))
    {a : Nat} (ha : a < 64 * n) : readByte (linesMem f n) a = readByte m (b + a) := by
  have hi : a / 64 < n := by omega
  have hl := congrArg (leBytes 64 ∘ BitVec.toNat) ((readLine_linesMem f hi).trans (hf _ hi))
  simp only [Function.comp_apply, leBytes_readLine] at hl
  have hb := congrArg (fun l => l.getD (a % 64) 0#8) hl
  simp only [readBytes_getD _ _ (Nat.mod_lt a (by decide : 64 > 0))] at hb
  rwa [Nat.div_add_mod, Nat.add_assoc, Nat.div_add_mod] at hb

theorem readBytes_congr_shift {m m' : Mem} {a b n : Nat} (h : ∀ i < n, readByte m' (a + i) = readByte m (b + i)) :
    readBytes m' a n = readBytes m b n := by
  induction n generalizing a b with
  | zero => rfl
  | succ n ih =>
    rw [readBytes, readBytes, ih fun i hi => by
      have := h (i + 1) (by omega)
      rwa [Nat.add_comm i 1, ← Nat.add_assoc, ← Nat.add_assoc] at this]
    congr 1
    exact h 0 (by omega)

theorem readLE_linesMem {m : Mem} {f : Nat → BitVec 512} {b n : Nat} (hf : ∀ i < n, f i = readLine m (b + 64 * i))
    {a w : Nat} (ha : a + w ≤ 64 * n) : readLE (linesMem f n) a w = readLE m (b + a) w := by
  rw [readLE, readBytes_congr_shift fun i hi => (readByte_linesMem hf (by omega)).trans (by rw [Nat.add_assoc]), readLE]

/-! ### Fields written one after another -/

/-- Two memories of which only the bytes from `lo` up to `hi` may differ. -/
def AgreeOutside (lo hi : Nat) (m m' : Mem) : Prop := ∀ a, a < lo ∨ hi ≤ a → readByte m' a = readByte m a

theorem AgreeOutside.trans {lo hi : Nat} {m m1 m2 : Mem} (h1 : AgreeOutside lo hi m m1)
    (h2 : AgreeOutside lo hi m1 m2) : AgreeOutside lo hi m m2 := fun a ha => (h2 a ha).trans (h1 a ha)

theorem AgreeOutside.mono {lo hi lo' hi' : Nat} {m m' : Mem} (h : AgreeOutside lo hi m m') (hl : lo' ≤ lo)
    (hh : hi ≤ hi') : AgreeOutside lo' hi' m m' := fun a ha => h a (by omega)

theorem AgreeOutside.readLE {lo hi a w : Nat} {m m' : Mem} (h : AgreeOutside lo hi m m')
    (ha : a + w ≤ lo ∨ hi ≤ a) : readLE m' a w = readLE m a w := by
  rw [Machine.readLE, readBytes_congr fun j _ _ => h j (by omega), Machine.readLE]

theorem agreeOutside_writeLE (m : Mem) {lo hi a w : Nat} (v : Nat) (h : lo ≤ a) (h' : a + w ≤ hi) :
    AgreeOutside lo hi m (writeLE m a w v) := fun j hj => by
  rw [writeLE, readByte_writeBytes_other _ _ _ _ (by rw [length_leBytes]; omega)]

theorem agreeOutside_writeByte (m : Mem) {lo hi a : Nat} (b : Byte) (h : lo ≤ a) (h' : a < hi) :
    AgreeOutside lo hi m (writeByte m a b) := fun j hj => by
  rw [readByte_writeByte, if_neg (by omega)]

theorem agreeOutside_foldl {α : Type} {lo hi : Nat} {g : Mem → α → Mem} {l : List α}
    (h : ∀ x ∈ l, ∀ m, AgreeOutside lo hi m (g m x)) (m : Mem) : AgreeOutside lo hi m (l.foldl g m) := by
  induction l generalizing m with
  | nil => exact fun _ _ => rfl
  | cons x l ih =>
    exact (h x List.mem_cons_self m).trans (ih (fun y hy => h y (List.mem_cons_of_mem _ hy)) _)

theorem readByte_nil (a : Nat) : readByte [] a = 0#8 := rfl

theorem readLE_nil (a w : Nat) : readLE [] a w = 0 := by
  induction w generalizing a with
  | zero => rfl
  | succ w ih =>
    have h := ih (a + 1)
    rw [readLE] at h
    rw [readLE, readBytes, leNat, h]
    rfl

/-- Fields of `w` bytes, each `p` bytes after the last, written from `b` on. -/
def putFields (b p w n : Nat) (f : Nat → Nat) (m : Mem) : Mem :=
  (List.range n).foldl (fun m i => writeLE m (b + p * i) w (f i)) m

theorem agreeOutside_putFields {lo hi b p w n : Nat} (f : Nat → Nat) (m : Mem) (hw : w ≤ p) (hl : lo ≤ b)
    (hh : b + p * n ≤ hi) : AgreeOutside lo hi m (putFields b p w n f m) :=
  agreeOutside_foldl (fun i hi m => by
    have := Nat.mul_le_mul_left p (List.mem_range.1 hi)
    rw [Nat.mul_succ] at this
    exact agreeOutside_writeLE m _ (by omega) (by omega)) m

theorem readLE_putFields (b p : Nat) {w n i : Nat} (f : Nat → Nat) (m : Mem) (hw : w ≤ p) (hi : i < n) :
    readLE (putFields b p w n f m) (b + p * i) w = f i % 2 ^ (8 * w) := by
  induction n with
  | zero => omega
  | succ n ih =>
    have hsucc : putFields b p w (n + 1) f m = writeLE (putFields b p w n f m) (b + p * n) w (f n) := by
      rw [putFields, List.range_succ, List.foldl_append, List.foldl_cons, List.foldl_nil, putFields]
    rw [hsucc]
    by_cases h : i = n
    · rw [h, readLE_writeLE_same]
    · have := Nat.mul_le_mul_left p (by omega : i + 1 ≤ n)
      rw [Nat.mul_succ] at this
      rw [(agreeOutside_writeLE _ (f n) (Nat.le_refl _) (Nat.le_refl _)).readLE (by omega), ih (by omega)]

/-! ### The control block of a save record (R91) -/

/-- The record's control block begins here: line 2,736 of its core's lines. -/
def ctlBase : Nat := 0x2AC00

/-- The scalar and the mask registers. -/
def Core.ctlRegs (k : Core) : Mem :=
  putFields (ctlBase + 0x80) 8 8 8 (fun i => (k.getM i).toNat) (putFields ctlBase 4 4 32 (fun i => (k.getS i).toNat) [])

/-- With the pc, SRCNT, roll window and flags. -/
def Core.ctlHead (k : Core) : Mem :=
  writeLE (writeLE (writeLE (writeLE k.ctlRegs (ctlBase + 0xC0) 4 k.pc) (ctlBase + 0xC4) 4 k.srcnt.toNat)
    (ctlBase + 0xC8) 4 k.rollWin) (ctlBase + 0xCC) 4 (k.accInt.toNat + 16 * b2n k.halted)

/-- A loop entry in its place, nothing where there is none. -/
def putLoop (m : Mem) (i : Nat) : Option LoopEnt → Mem
  | some e => writeLE (writeLE (writeLE m (ctlBase + 0xD0 + 16 * i) 4 e.first) (ctlBase + 0xD4 + 16 * i) 4 e.last)
      (ctlBase + 0xD8 + 16 * i) 4 e.count
  | none => m

/-- The first `n` loop entries. -/
def putLoops (ls : List LoopEnt) (n : Nat) (m : Mem) : Mem := (List.range n).foldl (fun m i => putLoop m i ls[i]?) m

/-- The event counters. -/
def Events.fields (e : Events) : List (Nat × Nat) :=
  (List.range 9).zip [e.elemSat, e.ovfInf, e.nanOut, e.specBlk, e.sclFloor, e.intSat, e.badTrit, e.chime, e.escal]

/-- All of the block but the poison of the pocket's lines. -/
def Core.ctlBody (k : Core) (measures : Nat) : Mem :=
  writeLE (writeLE (k.settleAll.cnt.fields.foldl (fun m p => writeLE m (ctlBase + 0x120 + 4 * p.1) 4 p.2)
    (writeLE (putLoops k.loops 4 k.ctlHead) (ctlBase + 0x118) 8 measures)) (ctlBase + 0x1A0) 4 k.holdReq)
    (ctlBase + 0x1A4) 4 k.holdBeats

/-- The poison bit of a line set. -/
def putPoison (m : Mem) (l : Nat) : Mem :=
  writeByte m (ctlBase + 0x200 + l / 8) (readByte m (ctlBase + 0x200 + l / 8) ||| (1#8 <<< (l % 8)))

theorem Core.control_eq (k : Core) (measures : Nat) :
    k.control measures = (skeys k.poison).foldl putPoison (k.ctlBody measures) := by
  simp only [Core.control, ← Nat.add_assoc]
  rfl

theorem Core.agree_ctlRegs (k : Core) : AgreeOutside ctlBase (ctlBase + 0xC0) [] k.ctlRegs :=
  (agreeOutside_putFields _ _ (by omega) (by omega) (by omega)).trans
    (agreeOutside_putFields _ _ (by omega) (by omega) (by omega))

theorem Core.agree_ctlHead (k : Core) : AgreeOutside (ctlBase + 0xC0) (ctlBase + 0xD0) k.ctlRegs k.ctlHead :=
  (((agreeOutside_writeLE _ _ (by omega) (by omega)).trans (agreeOutside_writeLE _ _ (by omega) (by omega))).trans
    (agreeOutside_writeLE _ _ (by omega) (by omega))).trans (agreeOutside_writeLE _ _ (by omega) (by omega))

theorem agree_putLoop (m : Mem) (i : Nat) (o : Option LoopEnt) :
    AgreeOutside (ctlBase + 0xD0 + 16 * i) (ctlBase + 0xD0 + 16 * (i + 1)) m (putLoop m i o) := by
  cases o with
  | none => exact fun _ _ => rfl
  | some e =>
    exact ((agreeOutside_writeLE _ _ (by omega) (by omega)).trans
      (agreeOutside_writeLE _ _ (by omega) (by omega))).trans (agreeOutside_writeLE _ _ (by omega) (by omega))

theorem agree_putLoops (ls : List LoopEnt) (n : Nat) (m : Mem) :
    AgreeOutside (ctlBase + 0xD0) (ctlBase + 0xD0 + 16 * n) m (putLoops ls n m) :=
  agreeOutside_foldl (fun i hi m => (agree_putLoop m i ls[i]?).mono (by omega)
    (by have := List.mem_range.1 hi; omega)) m

theorem Core.agree_ctlBody (k : Core) (measures : Nat) :
    AgreeOutside (ctlBase + 0x118) (ctlBase + 0x200) (putLoops k.loops 4 k.ctlHead) (k.ctlBody measures) := by
  refine AgreeOutside.trans (AgreeOutside.trans (AgreeOutside.trans ?_ (agreeOutside_foldl (fun p hp m => ?_) _))
    (agreeOutside_writeLE _ _ (by omega) (by omega))) (agreeOutside_writeLE _ _ (by omega) (by omega))
  · exact agreeOutside_writeLE _ _ (by omega) (by omega)
  · have := List.mem_range.1 (List.of_mem_zip hp).1
    exact agreeOutside_writeLE _ _ (by omega) (by omega)

theorem agree_putPoison (m : Mem) (l : Nat) :
    AgreeOutside (ctlBase + 0x200) (ctlBase + 0x200 + l / 8 + 1) m (putPoison m l) :=
  agreeOutside_writeByte _ _ (by omega) (by omega)

/-- Below the poison bits the block is its body. -/
theorem Core.readLE_control (k : Core) (measures : Nat) {a w : Nat} (h : a + w ≤ ctlBase + 0x200) :
    readLE (k.control measures) a w = readLE (k.ctlBody measures) a w := by
  rw [Core.control_eq]
  have hagree : ∀ (l : List Nat) (m : Mem), ∀ j < ctlBase + 0x200, readByte (l.foldl putPoison m) j = readByte m j := by
    intro l
    induction l with
    | nil => exact fun _ _ _ => rfl
    | cons x l ih => exact fun m j hj => (ih _ j hj).trans (agree_putPoison m x j (.inl hj))
  rw [readLE, readBytes_congr fun j _ h2 => hagree _ _ j (by omega), readLE]

/-- Below the measures it is the registers, the head and the loop entries. -/
theorem Core.readLE_control_loops (k : Core) (measures : Nat) {a w : Nat} (h : a + w ≤ ctlBase + 0x118) :
    readLE (k.control measures) a w = readLE (putLoops k.loops 4 k.ctlHead) a w := by
  rw [k.readLE_control measures (by omega), (k.agree_ctlBody measures).readLE (.inl h)]

theorem Core.readLE_control_head (k : Core) (measures : Nat) {a w : Nat} (h : a + w ≤ ctlBase + 0xD0) :
    readLE (k.control measures) a w = readLE k.ctlHead a w := by
  rw [k.readLE_control_loops measures (by omega), (agree_putLoops _ _ _).readLE (.inl h)]

theorem Core.control_getS (k : Core) (measures : Nat) {i : Nat} (hi : i < 32) :
    readLE (k.control measures) (ctlBase + 4 * i) 4 = (k.getS i).toNat := by
  rw [k.readLE_control_head measures (by omega), k.agree_ctlHead.readLE (.inl (by omega)), Core.ctlRegs,
    (agreeOutside_putFields (lo := ctlBase + 0x80) (hi := ctlBase + 0xC0) _ _ (by omega) (by omega)
      (by omega)).readLE (.inl (by omega)), readLE_putFields _ _ _ _ (by omega) hi]
  exact Nat.mod_eq_of_lt (k.getS i).isLt

theorem Core.control_getM (k : Core) (measures : Nat) {i : Nat} (hi : i < 8) :
    readLE (k.control measures) (ctlBase + 0x80 + 8 * i) 8 = (k.getM i).toNat := by
  rw [k.readLE_control_head measures (by omega), k.agree_ctlHead.readLE (.inl (by omega)), Core.ctlRegs,
    readLE_putFields _ _ _ _ (by omega) hi]
  exact Nat.mod_eq_of_lt (k.getM i).isLt

/-- A read of one of two fields written in turn: the earlier one, below the later. -/
theorem readLE_writeLE_below (m : Mem) {a b n w : Nat} (v : Nat) (h : a + n ≤ b) :
    readLE (writeLE m b w v) a n = readLE m a n :=
  (agreeOutside_writeLE _ v (Nat.le_refl _) (Nat.le_refl _)).readLE (.inl h)

theorem Core.control_pc (k : Core) (measures : Nat) (h : k.pc < 2 ^ 32) :
    readLE (k.control measures) (ctlBase + 0xC0) 4 = k.pc := by
  rw [k.readLE_control_head measures (by omega), Core.ctlHead, readLE_writeLE_below _ _ (by omega),
    readLE_writeLE_below _ _ (by omega), readLE_writeLE_below _ _ (by omega), readLE_writeLE_same]
  exact Nat.mod_eq_of_lt h

theorem Core.control_srcnt (k : Core) (measures : Nat) :
    readLE (k.control measures) (ctlBase + 0xC4) 4 = k.srcnt.toNat := by
  rw [k.readLE_control_head measures (by omega), Core.ctlHead, readLE_writeLE_below _ _ (by omega),
    readLE_writeLE_below _ _ (by omega), readLE_writeLE_same]
  exact Nat.mod_eq_of_lt k.srcnt.isLt

theorem Core.control_flags (k : Core) (measures : Nat) :
    readLE (k.control measures) (ctlBase + 0xCC) 4 = k.accInt.toNat + 16 * b2n k.halted := by
  rw [k.readLE_control_head measures (by omega), Core.ctlHead, readLE_writeLE_same]
  have := k.accInt.isLt
  exact Nat.mod_eq_of_lt (by cases k.halted <;> simp only [b2n] <;> norm_num <;> omega)

theorem Core.control_measures (k : Core) {measures : Nat} (h : measures < 2 ^ 64) :
    readLE (k.control measures) (ctlBase + 0x118) 8 = measures := by
  have hcnt : AgreeOutside (ctlBase + 0x120) (ctlBase + 0x200)
      (writeLE (putLoops k.loops 4 k.ctlHead) (ctlBase + 0x118) 8 measures)
      (k.settleAll.cnt.fields.foldl (fun m p => writeLE m (ctlBase + 0x120 + 4 * p.1) 4 p.2)
        (writeLE (putLoops k.loops 4 k.ctlHead) (ctlBase + 0x118) 8 measures)) :=
    agreeOutside_foldl (fun p hp m => by
      have := List.mem_range.1 (List.of_mem_zip hp).1
      exact agreeOutside_writeLE _ _ (by omega) (by omega)) _
  rw [k.readLE_control measures (by omega), Core.ctlBody, readLE_writeLE_below _ _ (by omega),
    readLE_writeLE_below _ _ (by omega), hcnt.readLE (.inl (by omega)), readLE_writeLE_same]
  exact Nat.mod_eq_of_lt h

/-! ### Loop entries and poison in the control block (R91) -/

theorem readLE_putLoops (ls : List LoopEnt) (m : Mem) {n i a w : Nat} (hi : i < n) (_ : ctlBase + 0xD0 + 16 * i ≤ a)
    (_ : a + w ≤ ctlBase + 0xD0 + 16 * (i + 1)) :
    readLE (putLoops ls n m) a w = readLE (putLoop (putLoops ls i m) i ls[i]?) a w := by
  have hsucc : ∀ n, putLoops ls (n + 1) m = putLoop (putLoops ls n m) n ls[n]? := fun n => by
    rw [putLoops, List.range_succ, List.foldl_append, List.foldl_cons, List.foldl_nil, putLoops]
  induction n with
  | zero => omega
  | succ n ih =>
    rw [hsucc]
    by_cases h : i = n
    · rw [h]
    · rw [(agree_putLoop _ n _).readLE (by omega), ih (by omega)]

section
variable (k : Core) (measures : Nat) {i : Nat} (hi : i < 4)
include hi

theorem Core.control_noLoop (h : k.loops[i]? = none) :
    readLE (k.control measures) (ctlBase + 0xD8 + 16 * i) 4 = 0 := by
  rw [k.readLE_control_loops measures (by omega), readLE_putLoops _ _ hi (by omega) (by omega), h, putLoop,
    (agree_putLoops _ _ _).readLE (.inr (by omega)), k.agree_ctlHead.readLE (.inr (by omega)),
    k.agree_ctlRegs.readLE (.inr (by omega)), readLE_nil]

theorem Core.control_loop {e : LoopEnt} (h : k.loops[i]? = some e)
    (he : e.count < 2 ^ 32 ∧ e.first < 2 ^ 32 ∧ e.last < 2 ^ 32) :
    readLE (k.control measures) (ctlBase + 0xD0 + 16 * i) 4 = e.first ∧
      readLE (k.control measures) (ctlBase + 0xD4 + 16 * i) 4 = e.last ∧
      readLE (k.control measures) (ctlBase + 0xD8 + 16 * i) 4 = e.count := by
  obtain ⟨hc, hf, hl⟩ := he
  refine ⟨?_, ?_, ?_⟩
  all_goals rw [k.readLE_control_loops measures (by omega), readLE_putLoops _ _ hi (by omega) (by omega), h, putLoop]
  · rw [readLE_writeLE_below _ _ (by omega), readLE_writeLE_below _ _ (by omega), readLE_writeLE_same]
    exact Nat.mod_eq_of_lt hf
  · rw [readLE_writeLE_below _ _ (by omega), readLE_writeLE_same]
    exact Nat.mod_eq_of_lt hl
  · rw [readLE_writeLE_same]
    exact Nat.mod_eq_of_lt hc
end

theorem getLsbD_one_shiftLeft {r t : Nat} (hr : r < 8) (ht : t < 8) : (1#8 <<< r).getLsbD t = decide (r = t) := by
  interval_cases r <;> interval_cases t <;> rfl

theorem getLsbD_putPoison (m : Mem) (l q : Nat) {t : Nat} (ht : t < 8) :
    (readByte (putPoison m l) (ctlBase + 0x200 + q)).getLsbD t =
      ((readByte m (ctlBase + 0x200 + q)).getLsbD t || decide (l = 8 * q + t)) := by
  rw [putPoison, readByte_writeByte]
  by_cases hq : q = l / 8
  · have hbit : (1#8 <<< (l % 8)).getLsbD t = decide (l = 8 * q + t) := by
      rw [decide_eq_decide.2 (show l = 8 * q + t ↔ l % 8 = t by omega)]
      exact getLsbD_one_shiftLeft (Nat.mod_lt l (by decide)) ht
    rw [if_pos (by rw [hq]), BitVec.getLsbD_or, hbit, hq]
  · rw [if_neg (by omega), decide_eq_false (by omega), Bool.or_false]

theorem getLsbD_foldl_putPoison (ls : List Nat) (m : Mem) (q : Nat) {t : Nat} (ht : t < 8) :
    (readByte (ls.foldl putPoison m) (ctlBase + 0x200 + q)).getLsbD t =
      ((readByte m (ctlBase + 0x200 + q)).getLsbD t || decide (8 * q + t ∈ ls)) := by
  induction ls generalizing m with
  | nil => simp
  | cons l ls ih =>
    rw [List.foldl_cons, ih, getLsbD_putPoison _ _ _ ht, Bool.or_assoc]
    congr 1
    rw [← Bool.decide_or, decide_eq_decide, List.mem_cons]
    exact or_congr_left eq_comm

/-- A canonical map lists exactly its values other than the default. -/
theorem SMap.mem_iff {α : Type} [DecidableEq α] {d : α} {m : SMap α} (h : SMap.wf d m = true) {k : Nat} {v : α} :
    (k, v) ∈ m ↔ sget d m k = v ∧ v ≠ d := by
  obtain ⟨hsort, hne⟩ := (SMap.wf_iff m).1 h
  clear h
  induction m with
  | nil => simp [eq_comm]
  | cons e m ih =>
    obtain ⟨hlt, hsort⟩ := List.pairwise_cons.1 hsort
    have ih := ih hsort fun f hf => hne f (List.mem_cons_of_mem _ hf)
    have hafter : (k, v) ∈ m → e.1 < k := fun hm => hlt _ hm
    rw [sget_cons, List.mem_cons, ih]
    rw [ih] at hafter
    have hd := hne e List.mem_cons_self
    obtain ⟨k', v'⟩ := e
    rw [Prod.mk.injEq]
    by_cases hk : k = k'
    · rw [if_pos hk]
      exact ⟨fun h => h.elim (fun h => ⟨h.2.symm, h.2 ▸ hd⟩) fun h => absurd (hafter h) (by simp only; omega),
        fun h => .inl ⟨hk, h.1.symm⟩⟩
    · rw [if_neg hk]
      by_cases hl : k < k'
      · rw [if_pos hl]
        exact ⟨fun h => h.elim (fun h => absurd h.1 hk) fun h => absurd (hafter h) (by simp only; omega),
          fun h => absurd h.1.symm h.2⟩
      · rw [if_neg hl]
        exact ⟨fun h => h.resolve_left fun h => hk h.1, .inr⟩

/-- A canonical map of flags lists the keys whose flag is set. -/
theorem mem_skeys_iff {m : SMap Bool} (h : SMap.wf false m = true) (j : Nat) : j ∈ skeys m ↔ sget false m j = true := by
  constructor
  · intro hj
    obtain ⟨⟨k, v⟩, he, rfl⟩ := List.mem_map.1 hj
    obtain ⟨hv, hne⟩ := (SMap.mem_iff h).1 he
    exact hv.trans (by simpa using hne)
  · exact fun hj => List.mem_map.2 ⟨(j, true), (SMap.mem_iff h).2 ⟨hj, by decide⟩, rfl⟩

theorem Core.control_poison (k : Core) (measures : Nat) (h : SMap.wf false k.poison = true) (l : Nat) :
    (readByte (k.control measures) (ctlBase + (0x200 + l / 8))).getLsbD (l % 8) = sget false k.poison l := by
  have hzero : readByte (k.ctlBody measures) (ctlBase + 0x200 + l / 8) = 0#8 := by
    rw [k.agree_ctlBody measures _ (.inr (by omega)), agree_putLoops _ _ _ _ (.inr (by omega)),
      k.agree_ctlHead _ (.inr (by omega)), k.agree_ctlRegs _ (.inr (by omega)), readByte_nil]
  rw [← Nat.add_assoc, Core.control_eq, getLsbD_foldl_putPoison _ _ _ (Nat.mod_lt l (by decide)), hzero,
    Nat.div_add_mod, BitVec.getLsbD_zero, Bool.false_or, Bool.eq_iff_iff, decide_eq_true_eq, mem_skeys_iff h]

/-! ### The lines of a save record (R90) -/

section
variable (k : Core) (ctl : Mem) (orient m : Nat)

theorem Core.saveLine_pocket {i : Nat} (h : i < 2048) : (k.saveLine ctl orient m i).1 = readLine k.pocket (64 * i) := by
  rw [Core.saveLine, if_pos h]

theorem Core.saveLine_acc {i : Nat} (h : i < 512) : (k.saveLine ctl orient m (2048 + i)).1 =
    BitVec.ofNat 512 (leNat (wordsToBytes ((List.range 16).map fun j => sget 0#32 k.acc (16 * i + j)))) := by
  rw [Core.saveLine, if_neg (by omega), if_pos (by omega), Nat.add_sub_cancel_left, wordsToBytes, List.map_map]
  rfl

theorem Core.saveLine_vector {i j : Nat} (h : i < 32) (hj : j < 4) : (k.saveLine ctl orient m (2560 + 4 * i + j)).1 =
    BitVec.ofNat 512 ((k.getV i).toNat / 2 ^ (512 * j)) := by
  rw [Core.saveLine, if_neg (by omega), if_neg (by omega), if_pos (by omega),
    show (2560 + 4 * i + j - 2560) / 4 = i by omega, show (2560 + 4 * i + j - 2560) % 4 = j by omega]

theorem Core.saveLine_control (i : Nat) : (k.saveLine ctl orient m (2736 + i)).1 = readLine ctl (ctlBase + 64 * i) := by
  rw [Core.saveLine, if_neg (by omega), if_neg (by omega), if_neg (by omega), if_neg (by omega)]
  simp only [Nat.mul_add, ctlBase]
end

theorem leNat_append (l l' : List Byte) : leNat (l ++ l') = leNat l + 2 ^ (8 * l.length) * leNat l' := by
  induction l with
  | nil => simp [leNat]
  | cons b l ih =>
    rw [List.cons_append, leNat, leNat, ih, List.length_cons, Nat.mul_succ, Nat.pow_add]
    ring

theorem leNat_lt (l : List Byte) : leNat l < 2 ^ (8 * l.length) := by
  induction l with
  | nil => simp [leNat]
  | cons b l ih =>
    have := b.isLt
    rw [leNat, List.length_cons, Nat.mul_succ, Nat.pow_add]
    omega

/-- Word j of a row of words, read out of the number its bytes make. -/
theorem leNat_wordsToBytes_div (ws : List Word) (j : Nat) :
    leNat (wordsToBytes ws) / 2 ^ (32 * j) % 2 ^ 32 = (ws.getD j 0#32).toNat := by
  induction ws generalizing j with
  | nil => simp [wordsToBytes, leNat]
  | cons w ws ih =>
    have hw := w.isLt
    rw [wordsToBytes_cons, leNat_append, length_leBytes, leNat_leBytes, Nat.mod_eq_of_lt hw]
    cases j with
    | zero => rw [Nat.mul_zero, Nat.pow_zero, Nat.div_one, Nat.add_mul_mod_self_left, Nat.mod_eq_of_lt hw,
        List.getD_cons_zero]
    | succ j =>
      rw [List.getD_cons_succ, ← ih, show 32 * (j + 1) = 8 * 4 + 32 * j by omega, Nat.pow_add, ← Nat.div_div_eq_div_mul,
        Nat.add_mul_div_left _ _ (by positivity), Nat.div_eq_of_lt hw, Nat.zero_add]

/-- Quarters of a number put together again. -/
theorem foldl_parts (v n : Nat) :
    (List.range n).foldl (fun a j => a + v / 2 ^ (512 * j) % 2 ^ 512 * 2 ^ (512 * j)) 0 = v % 2 ^ (512 * n) := by
  induction n with
  | zero => rw [Nat.mul_zero, Nat.pow_zero, Nat.mod_one]; rfl
  | succ n ih =>
    rw [List.range_succ, List.foldl_append, List.foldl_cons, List.foldl_nil, ih, Nat.mul_succ, Nat.pow_add, Nat.mod_mul]
    congr 1
    exact Nat.mul_comm _ _

/-! ### The core a record restores (R91, R93) -/

theorem Core.getS_setM (k : Core) (r j : Nat) (v : DWord) : (k.setM r v).getS j = k.getS j := by
  unfold Core.setM
  split <;> rfl

/-- The scalar registers 0 to `n - 1` written. -/
def Core.putScalars (k : Core) (n : Nat) (g : Nat → Word) : Core := (List.range n).foldl (fun k i => k.setS i (g i)) k

/-- The mask registers 0 to `n - 1` written. -/
def Core.putMasks (k : Core) (n : Nat) (g : Nat → DWord) : Core := (List.range n).foldl (fun k i => k.setM i (g i)) k

/-- The vector registers 0 to `n - 1` written. -/
def Core.putVectors (k : Core) (n : Nat) (g : Nat → VReg) : Core := (List.range n).foldl (fun k i => k.setV i (g i)) k

theorem Core.putScalars_succ (k : Core) (n : Nat) (g : Nat → Word) :
    k.putScalars (n + 1) g = (k.putScalars n g).setS n (g n) := by
  rw [Core.putScalars, List.range_succ, List.foldl_append, List.foldl_cons, List.foldl_nil, Core.putScalars]

theorem Core.putMasks_succ (k : Core) (n : Nat) (g : Nat → DWord) :
    k.putMasks (n + 1) g = (k.putMasks n g).setM n (g n) := by
  rw [Core.putMasks, List.range_succ, List.foldl_append, List.foldl_cons, List.foldl_nil, Core.putMasks]

theorem Core.putVectors_succ (k : Core) (n : Nat) (g : Nat → VReg) :
    k.putVectors (n + 1) g = (k.putVectors n g).setV n (g n) := by
  rw [Core.putVectors, List.range_succ, List.foldl_append, List.foldl_cons, List.foldl_nil, Core.putVectors]

theorem Core.getS_putScalars (k : Core) (g : Nat → Word) {n j : Nat} (hj : j < n) (h0 : j ≠ 0) :
    (k.putScalars n g).getS j = g j := by
  induction n with
  | zero => omega
  | succ n ih =>
    rw [Core.putScalars_succ, Core.getS_setS]
    by_cases h : j = n
    · rw [if_pos ⟨h, by omega⟩, h]
    · rw [if_neg (by omega), ih (by omega)]

theorem Core.getM_putMasks (k : Core) (g : Nat → DWord) {n j : Nat} (hj : j < n) (h0 : j ≠ 0) :
    (k.putMasks n g).getM j = g j := by
  induction n with
  | zero => omega
  | succ n ih =>
    rw [Core.putMasks_succ, Core.getM_setM]
    by_cases h : j = n
    · rw [if_pos ⟨h, by omega⟩, h]
    · rw [if_neg (by omega), ih (by omega)]

theorem Core.getS_putMasks (k : Core) (g : Nat → DWord) (n j : Nat) : (k.putMasks n g).getS j = k.getS j := by
  induction n with
  | zero => rfl
  | succ n ih => rw [Core.putMasks_succ, Core.getS_setM, ih]

theorem Core.getV_putVectors (k : Core) (g : Nat → VReg) {n j : Nat} (hj : j < n) : (k.putVectors n g).getV j = g j := by
  induction n with
  | zero => omega
  | succ n ih =>
    rw [Core.putVectors_succ, Core.getV_setV]
    by_cases h : j = n
    · rw [if_pos h, h]
    · rw [if_neg h, ih (by omega)]

theorem Core.putVectors_eq (k : Core) (n : Nat) (g : Nat → VReg) :
    k.putVectors n g = { k with v := (k.putVectors n g).v } := by
  induction n with
  | zero => rfl
  | succ n ih =>
    rw [Core.putVectors_succ]
    conv_lhs => rw [ih]
    rfl

/-- The loop stack a control block holds. -/
def ctlLoops (ctl : Mem) : List LoopEnt := (List.range 4).filterMap fun i =>
  let o := 0xD0 + 16 * i
  if readLE ctl (o + 8) 4 = 0 then none
  else some { first := readLE ctl o 4, last := readLE ctl (o + 4) 4, count := readLE ctl (o + 8) 4 }

/-- The poison a control block holds. -/
def ctlPoison (ctl : Mem) : SMap Bool :=
  (List.range 2048).foldl (fun p i => sput false i ((readByte ctl (0x200 + i / 8)).getLsbD (i % 8)) p) []

/-- The registers a control block gives a core. -/
def Core.takeRegs (k : Core) (ctl : Mem) : Core :=
  (k.putScalars 32 fun i => BitVec.ofNat 32 (readLE ctl (4 * i) 4)).putMasks 8 fun i =>
    BitVec.ofNat 64 (readLE ctl (0x80 + 8 * i) 8)

/-- What a core takes from its control block: registers, flow, flags, loop stack, counters and poison. -/
theorem Core.takeControl_eq (k : Core) (ctl : Mem) :
    ∃ rollWin cnt holdReq holdBeats, k.takeControl ctl =
      { k.takeRegs ctl with
        pc := readLE ctl 0xC0 4, srcnt := BitVec.ofNat 32 (readLE ctl 0xC4 4),
        accInt := BitVec.ofNat 4 (readLE ctl 0xCC 4), halted := bitOf (readLE ctl 0xCC 4) 4,
        feStop := bitOf (readLE ctl 0xCC 4) 4, loops := ctlLoops ctl,
        poison := ctlPoison ctl,
        rollWin := rollWin, cnt := cnt, holdReq := holdReq, holdBeats := holdBeats } := by
  rw [Core.takeControl]
  exact ⟨_, _, _, _, rfl⟩

/-- A list read place by place over a long enough range. -/
theorem filterMap_getElem?_range {α : Type} (l : List α) (n : Nat) :
    (List.range n).filterMap (fun i => l[i]?) = l.take n := by
  induction n with
  | zero => simp
  | succ n ih =>
    rw [List.range_succ, List.filterMap_append, ih, List.take_add_one]
    congr 1

section
variable (ls : List (BitVec 512 × Bool))

/-- Line i of a record. -/
def recordLine (i : Nat) : BitVec 512 := (ls.getD i (0#512, false)).1

/-- The control block of a record, from address 0. -/
def recordCtl : Mem := linesMem (fun i => recordLine ls (2736 + i)) 16

/-- Vector register i of a record. -/
def recordVector (i : Nat) : VReg :=
  BitVec.ofNat 2048 ((List.range 4).foldl (fun a j => a + (recordLine ls (2560 + 4 * i + j)).toNat * 2 ^ (512 * j)) 0)

/-- The accumulator tiles of a record. -/
def recordAcc : SMap Word := (List.range 8192).foldl (fun a i =>
  sput 0#32 i (BitVec.ofNat 32 ((recordLine ls (2048 + i / 16)).toNat / 2 ^ (32 * (i % 16)))) a) []

/-- The core with the record's vectors, pocket and tiles, at the boundary. -/
def Core.refill (k : Core) (v : SMap VReg) (pocket : Mem) (acc : SMap Word) (slot rbeat : Nat)
    (skid : SMap (List Datum)) : Core :=
  { k with v := v, pocket := pocket, acc := acc, slot := slot, rbeat := rbeat, skid := skid }

theorem Core.refill_putVectors (k : Core) (n : Nat) (g : Nat → VReg) (v : SMap VReg) (pocket : Mem) (acc : SMap Word)
    (slot rbeat : Nat) (skid : SMap (List Datum)) :
    (k.putVectors n g).refill v pocket acc slot rbeat skid = k.refill v pocket acc slot rbeat skid := by
  rw [Core.putVectors_eq]
  rfl

/-- A restored core is what its control block gives it, refilled. -/
theorem Core.restored_eq (k : Core) (orient ahead : Nat) :
    ∃ skid, k.restored ls orient ahead =
      (k.takeControl (recordCtl ls)).refill ((k.takeControl (recordCtl ls)).putVectors 32 (recordVector ls)).v
        (linesMem (fun i => recordLine ls (0 + i)) 2048) (recordAcc ls)
        (readLE (recordCtl ls) 0x118 8 * k.mlen + ahead) (readLE (recordCtl ls) 0x118 8 * k.mlen) skid := by
  have hr : ∃ skid, k.restored ls orient ahead =
      ((k.takeControl (recordCtl ls)).putVectors 32 (recordVector ls)).refill
        ((k.takeControl (recordCtl ls)).putVectors 32 (recordVector ls)).v
        (linesMem (fun i => recordLine ls (0 + i)) 2048) (recordAcc ls)
        (readLE (recordCtl ls) 0x118 8 * k.mlen + ahead) (readLE (recordCtl ls) 0x118 8 * k.mlen) skid := ⟨_, rfl⟩
  obtain ⟨skid, hr⟩ := hr
  exact ⟨skid, hr.trans (Core.refill_putVectors ..)⟩
end

section
variable (k : Core) (v : SMap VReg) (pocket : Mem) (acc : SMap Word) (slot rbeat : Nat) (skid : SMap (List Datum))

/-- What refilling a core leaves of it. -/
theorem Core.refill_control :
    (∀ i, (k.refill v pocket acc slot rbeat skid).getS i = k.getS i) ∧
      (∀ i, (k.refill v pocket acc slot rbeat skid).getM i = k.getM i) ∧
      (k.refill v pocket acc slot rbeat skid).pc = k.pc ∧ (k.refill v pocket acc slot rbeat skid).srcnt = k.srcnt ∧
      (k.refill v pocket acc slot rbeat skid).accInt = k.accInt ∧
      (k.refill v pocket acc slot rbeat skid).halted = k.halted ∧
      (k.refill v pocket acc slot rbeat skid).loops = k.loops ∧
      (k.refill v pocket acc slot rbeat skid).poison = k.poison :=
  ⟨fun _ => rfl, fun _ => rfl, rfl, rfl, rfl, rfl, rfl, rfl⟩

/-- What refilling a core gives it. -/
theorem Core.refill_record :
    (∀ i, (k.refill v pocket acc slot rbeat skid).getV i = sget 0#2048 v i) ∧
      (k.refill v pocket acc slot rbeat skid).pocket = pocket ∧ (k.refill v pocket acc slot rbeat skid).acc = acc ∧
      (k.refill v pocket acc slot rbeat skid).slot = slot ∧ (k.refill v pocket acc slot rbeat skid).rbeat = rbeat :=
  ⟨fun _ => rfl, rfl, rfl, rfl, rfl⟩
end

/-- What core `k` saves at boundary `m`. -/
def Core.record (k : Core) (orient m : Nat) : List (BitVec 512 × Bool) :=
  (List.range saveLines).map (k.saveLine (k.control (m / k.mlen)) orient m)

section
variable (k : Core) (orient m : Nat)

theorem Core.recordLine_record {i : Nat} (h : i < saveLines) :
    recordLine (k.record orient m) i = (k.saveLine (k.control (m / k.mlen)) orient m i).1 := by
  simp [recordLine, Core.record, List.getD_eq_getElem?_getD, h]

theorem Core.recordCtl_lines : ∀ i < 16, recordLine (k.record orient m) (2736 + i) =
    readLine (k.control (m / k.mlen)) (ctlBase + 64 * i) := fun i hi => by
  rw [Core.recordLine_record _ _ _ (by rw [saveLines]; omega), Core.saveLine_control]

theorem Core.readLE_recordCtl {a w : Nat} (h : a + w ≤ 1024) :
    readLE (recordCtl (k.record orient m)) a w = readLE (k.control (m / k.mlen)) (ctlBase + a) w :=
  readLE_linesMem (k.recordCtl_lines orient m) h

theorem Core.readByte_recordCtl {a : Nat} (h : a < 1024) :
    readByte (recordCtl (k.record orient m)) a = readByte (k.control (m / k.mlen)) (ctlBase + a) :=
  readByte_linesMem (k.recordCtl_lines orient m) h

theorem Core.recordVector_record {i : Nat} (h : i < 32) : recordVector (k.record orient m) i = k.getV i := by
  have hline : ∀ j < 4, (recordLine (k.record orient m) (2560 + 4 * i + j)).toNat =
      (k.getV i).toNat / 2 ^ (512 * j) % 2 ^ 512 := fun j hj => by
    rw [Core.recordLine_record _ _ _ (by rw [saveLines]; omega), Core.saveLine_vector _ _ _ _ h hj,
      BitVec.toNat_ofNat]
  have hsum := foldl_parts (k.getV i).toNat 4
  rw [Nat.mod_eq_of_lt (k.getV i).isLt] at hsum
  rw [recordVector, List.foldl_ext _ _ _ fun a j hj => by rw [hline j (List.mem_range.1 hj)], hsum,
    BitVec.ofNat_toNat, BitVec.setWidth_eq]

theorem Core.sget_recordAcc {i : Nat} (h : i < 8192) :
    sget 0#32 (recordAcc (k.record orient m)) i = sget 0#32 k.acc i := by
  have hq : i / 16 < 512 := by omega
  have hr : i % 16 < 16 := by omega
  have hlen : (wordsToBytes ((List.range 16).map fun j => sget 0#32 k.acc (16 * (i / 16) + j))).length = 64 := by
    rw [length_wordsToBytes, List.length_map, List.length_range]
  have hlt := leNat_lt (wordsToBytes ((List.range 16).map fun j => sget 0#32 k.acc (16 * (i / 16) + j)))
  rw [hlen] at hlt
  rw [recordAcc, sget_foldl_sput _ 8192, if_pos h, Core.recordLine_record _ _ _ (by rw [saveLines]; omega),
    Core.saveLine_acc _ _ _ _ hq, BitVec.toNat_ofNat, Nat.mod_eq_of_lt hlt]
  apply BitVec.eq_of_toNat_eq
  rw [BitVec.toNat_ofNat, leNat_wordsToBytes_div]
  simp [List.getD_eq_getElem?_getD, hr, Nat.div_add_mod]

/-- The registers restored are those saved (R91). -/
theorem Core.getS_takeRegs (f : Core) {i : Nat} (h : i < 32) :
    (f.takeRegs (recordCtl (k.record orient m))).getS i = k.getS i := by
  rw [Core.takeRegs, Core.getS_putMasks]
  by_cases h0 : i = 0
  · rw [h0, Core.getS_zero, Core.getS_zero]
  · rw [Core.getS_putScalars _ _ h h0, Core.readLE_recordCtl _ _ _ (by omega), Core.control_getS _ _ h,
      BitVec.ofNat_toNat, BitVec.setWidth_eq]

theorem Core.getM_takeRegs (f : Core) {i : Nat} (h : i < 8) :
    (f.takeRegs (recordCtl (k.record orient m))).getM i = k.getM i := by
  rw [Core.takeRegs]
  by_cases h0 : i = 0
  · rw [h0, Core.getM_zero, Core.getM_zero]
  · rw [Core.getM_putMasks _ _ h h0, Core.readLE_recordCtl _ _ _ (by omega), ← Nat.add_assoc, Core.control_getM _ _ h,
      BitVec.ofNat_toNat, BitVec.setWidth_eq]

theorem Core.ctlLoops_record (hlen : k.loops.length ≤ 4)
    (hl : ∀ e ∈ k.loops, 0 < e.count ∧ e.count < 2 ^ 32 ∧ e.first < 2 ^ 32 ∧ e.last < 2 ^ 32) :
    ctlLoops (recordCtl (k.record orient m)) = k.loops := by
  have hentry : ∀ i ∈ List.range 4, (let o := 0xD0 + 16 * i
      if readLE (recordCtl (k.record orient m)) (o + 8) 4 = 0 then none
      else some { first := readLE (recordCtl (k.record orient m)) o 4,
                  last := readLE (recordCtl (k.record orient m)) (o + 4) 4,
                  count := readLE (recordCtl (k.record orient m)) (o + 8) 4 }) = k.loops[i]? := by
    intro i hi
    have hi := List.mem_range.1 hi
    simp only [Core.readLE_recordCtl k orient m (show 0xD0 + 16 * i + 8 + 4 ≤ 1024 by omega),
      Core.readLE_recordCtl k orient m (show 0xD0 + 16 * i + 4 + 4 ≤ 1024 by omega),
      Core.readLE_recordCtl k orient m (show 0xD0 + 16 * i + 4 ≤ 1024 by omega),
      show ctlBase + (0xD0 + 16 * i + 8) = ctlBase + 0xD8 + 16 * i by omega,
      show ctlBase + (0xD0 + 16 * i + 4) = ctlBase + 0xD4 + 16 * i by omega,
      show ctlBase + (0xD0 + 16 * i) = ctlBase + 0xD0 + 16 * i by omega]
    cases he : k.loops[i]? with
    | none => rw [if_pos (k.control_noLoop _ hi he)]
    | some e =>
      obtain ⟨hpos, hlt⟩ := hl e (List.mem_of_getElem? he)
      obtain ⟨hf, hlast, hc⟩ := k.control_loop (m / k.mlen) hi he hlt
      rw [hf, hlast, hc, if_neg (by omega)]
  rw [ctlLoops, List.filterMap_congr hentry, filterMap_getElem?_range, List.take_of_length_le hlen]

theorem Core.poison_record (hw : SMap.wf false k.poison = true) {l : Nat} (h : l < 2048) :
    sget false (ctlPoison (recordCtl (k.record orient m))) l = sget false k.poison l := by
  rw [ctlPoison, sget_foldl_sput _ 2048, if_pos h, Core.readByte_recordCtl _ _ _ (by omega), Core.control_poison _ _ hw]

/-- The boundary restored is the one saved (R93). -/
theorem Core.measures_record {len : Nat} (hlen : len = k.mlen) (hm : m % k.mlen = 0) (hlt : m / k.mlen < 2 ^ 64) :
    readLE (recordCtl (k.record orient m)) 0x118 8 * len = m := by
  rw [Core.readLE_recordCtl _ _ _ (by omega), Core.control_measures _ hlt, hlen]
  exact Nat.div_mul_cancel (Nat.dvd_of_mod_eq_zero hm)
end

theorem bitOf_flags (a : BitVec 4) (h : Bool) : bitOf (a.toNat + 16 * b2n h) 4 = h := by
  have := a.isLt
  cases h <;> simp only [bitOf, b2n, decide_eq_true_eq] <;> norm_num <;> omega

theorem ofNat_flags (a : BitVec 4) (h : Bool) : BitVec.ofNat 4 (a.toNat + 16 * b2n h) = a := by
  apply BitVec.eq_of_toNat_eq
  have := a.isLt
  rw [BitVec.toNat_ofNat]
  omega

/-- A control block's registers, flow, flags, loop stack and poison as the core that takes them has them. -/
theorem Core.takeControl_fields (f : Core) (ctl : Mem) :
    (∀ i, (f.takeControl ctl).getS i = (f.takeRegs ctl).getS i) ∧
      (∀ i, (f.takeControl ctl).getM i = (f.takeRegs ctl).getM i) ∧ (f.takeControl ctl).pc = readLE ctl 0xC0 4 ∧
      (f.takeControl ctl).srcnt = BitVec.ofNat 32 (readLE ctl 0xC4 4) ∧
      (f.takeControl ctl).accInt = BitVec.ofNat 4 (readLE ctl 0xCC 4) ∧
      (f.takeControl ctl).halted = bitOf (readLE ctl 0xCC 4) 4 ∧ (f.takeControl ctl).loops = ctlLoops ctl ∧
      (f.takeControl ctl).poison = ctlPoison ctl := by
  obtain ⟨rollWin, cnt, holdReq, holdBeats, h⟩ := f.takeControl_eq ctl
  rw [h]
  generalize f.takeRegs ctl = c
  generalize ctlPoison ctl = p
  generalize ctlLoops ctl = l
  exact ⟨fun _ => rfl, fun _ => rfl, rfl, rfl, rfl, rfl, rfl, rfl⟩

section
variable (ls : List (BitVec 512 × Bool)) (f : Core) (orient ahead : Nat)

/-- What a restored core has of the core its control block gave. -/
theorem Core.restored_control :
    (∀ i, (f.restored ls orient ahead).getS i = (f.takeControl (recordCtl ls)).getS i) ∧
      (∀ i, (f.restored ls orient ahead).getM i = (f.takeControl (recordCtl ls)).getM i) ∧
      (f.restored ls orient ahead).pc = (f.takeControl (recordCtl ls)).pc ∧
      (f.restored ls orient ahead).srcnt = (f.takeControl (recordCtl ls)).srcnt ∧
      (f.restored ls orient ahead).accInt = (f.takeControl (recordCtl ls)).accInt ∧
      (f.restored ls orient ahead).halted = (f.takeControl (recordCtl ls)).halted ∧
      (f.restored ls orient ahead).loops = (f.takeControl (recordCtl ls)).loops ∧
      (f.restored ls orient ahead).poison = (f.takeControl (recordCtl ls)).poison := by
  obtain ⟨skid, hr⟩ := Core.restored_eq ls f orient ahead
  rw [hr]
  exact Core.refill_control ..

/-- What a restored core has of the record's other lines. -/
theorem Core.restored_record :
    (∀ i, (f.restored ls orient ahead).getV i =
        ((f.takeControl (recordCtl ls)).putVectors 32 (recordVector ls)).getV i) ∧
      (f.restored ls orient ahead).pocket = linesMem (fun i => recordLine ls (0 + i)) 2048 ∧
      (f.restored ls orient ahead).acc = recordAcc ls ∧
      (f.restored ls orient ahead).slot = readLE (recordCtl ls) 0x118 8 * f.mlen + ahead ∧
      (f.restored ls orient ahead).rbeat = readLE (recordCtl ls) 0x118 8 * f.mlen := by
  obtain ⟨skid, hr⟩ := Core.restored_eq ls f orient ahead
  rw [hr]
  exact Core.refill_record ..
end

/-- Settles O32: the record's lines read back, field by field. -/
theorem restoredCoreIsTheSavedOne : Obligations.RestoredCoreIsTheSavedOne := by
  intro k f orient m ahead _ hlen hm hlt hpc hloops hwf hentries ctl r
  obtain ⟨hs, hmask, hpc', hsr, hint, hhalt, hloop, hpoison⟩ := f.takeControl_fields (recordCtl (k.record orient m))
  obtain ⟨hs', hmask', hpc'', hsr', hint', hhalt', hloop', hpoison'⟩ :=
    Core.restored_control (k.record orient m) f orient ahead
  obtain ⟨hv, hpocket, hacc, hslot, hbeat⟩ := Core.restored_record (k.record orient m) f orient ahead
  rw [k.measures_record orient m hlen hm hlt] at hslot hbeat
  have hr : r = f.restored (k.record orient m) orient ahead := rfl
  clear_value r
  subst hr
  refine ⟨fun i hi => ?_, fun i hi => ?_, fun i hi => ?_, fun i hi => ?_, fun i hi => ?_, ?_, ?_, ?_, ?_, ?_,
    fun l hl => ?_, hbeat, hslot⟩
  · rw [hpocket, readLine_linesMem _ hi, Nat.zero_add, Core.recordLine_record _ _ _ (by rw [saveLines]; omega),
      Core.saveLine_pocket _ _ _ _ hi]
  · rw [hacc, Core.sget_recordAcc _ _ _ hi]
  · rw [hv, Core.getV_putVectors _ _ hi, Core.recordVector_record _ _ _ hi]
  · rw [hs', hs, Core.getS_takeRegs _ _ _ _ hi]
  · rw [hmask', hmask, Core.getM_takeRegs _ _ _ _ hi]
  · rw [hpc'', hpc', Core.readLE_recordCtl _ _ _ (by omega), Core.control_pc _ _ hpc]
  · rw [hsr', hsr, Core.readLE_recordCtl _ _ _ (by omega), Core.control_srcnt, BitVec.ofNat_toNat, BitVec.setWidth_eq]
  · rw [hint', hint, Core.readLE_recordCtl _ _ _ (by omega), Core.control_flags, ofNat_flags]
  · rw [hhalt', hhalt, Core.readLE_recordCtl _ _ _ (by omega), Core.control_flags, bitOf_flags]
  · rw [hloop', hloop, Core.ctlLoops_record _ _ _ hloops hentries]
  · rw [hpoison', hpoison, Core.poison_record _ _ _ hwf hl]

end Sys2Proof.Machine
end

section
/-!
PROOFS. The end of an exec, slices and deadlines (spec/03 R72, R89, spec/10 R281, R282, spec/12 R325, R326, R329,
R330).
-/
namespace Sys2Proof.Machine

/-! ### The end of an exec (R72, R282, R330) -/

@[simp] theorem State.que_mapCores (s : State) (l : List Nat) (f : Core → Core) : (s.mapCores l f).que = s.que := by
  induction l generalizing s with
  | nil => rfl
  | cons c l ih => exact ih _

/-- A context leaves its cores: each is cleared, and besides at most its VD changes. -/
theorem State.leaveCores_cases (s : State) (n : Nat) :
    s.leaveCores n = s.mapCores (s.ctxCores n) Core.cleared ∨
      ∃ v, s.leaveCores n = (s.mapCores (s.ctxCores n) Core.cleared).setVd (s.ctx n).vd v := by
  rw [State.leaveCores]
  split
  · exact .inr ⟨_, rfl⟩
  · exact .inl rfl

/-- The VD that ran the context runs nothing, and its holds are gone. -/
theorem State.vd_leaveCores {s : State} {n : Nat} (h : (s.vd (s.ctx n).vd).ctx = some n) :
    (s.leaveCores n).vd (s.ctx n).vd = { s.vd (s.ctx n).vd with holds := [], ctx := none, switching := false } := by
  have hvd : ((s.ctxCores n).foldl (fun s c => s.setCore c (s.core c).cleared) s).vd (s.ctx n).vd = s.vd (s.ctx n).vd :=
    State.vd_mapCores s (s.ctxCores n) Core.cleared _
  rw [State.leaveCores]
  simp only [hvd, h, if_true, State.vd_setVd_same]

@[simp] theorem State.que_leaveCores (s : State) (n : Nat) : (s.leaveCores n).que = s.que := by
  rcases s.leaveCores_cases n with h | ⟨v, h⟩ <;> rw [h]
  · exact State.que_mapCores ..
  · exact State.que_mapCores ..

theorem State.core_leaveCores_mem (s : State) {n j : Nat} (h : j ∈ s.ctxCores n) :
    (s.leaveCores n).core j = (s.core j).cleared := by
  have hmap := State.core_mapCores_idem (f := Core.cleared) (fun _ => rfl) s h
  rcases s.leaveCores_cases n with hl | ⟨v, hl⟩ <;> rw [hl]
  · exact hmap
  · exact hmap

theorem State.core_leaveCores_other (s : State) {n j : Nat} (h : j ∉ s.ctxCores n) :
    (s.leaveCores n).core j = s.core j := by
  have hmap := State.core_mapCores_other (f := Core.cleared) s h
  rcases s.leaveCores_cases n with hl | ⟨v, hl⟩ <;> rw [hl]
  · exact hmap
  · exact hmap

theorem State.ctx_of_que {s t : State} (h : t.que = s.que) (n : Nat) : t.ctx n = s.ctx n := by
  rw [State.ctx, State.ctx, h]

theorem State.cmd_of_que {s t : State} (h : t.que = s.que) (q : Nat) : t.cmd q = s.cmd q := by
  rw [State.cmd, State.cmd, h]

/-- The exec of a context ends: its cores left, its command ready with the status, and the context idle. -/
theorem State.endExec_eq {s : State} {n : Nat} (h : s.hasCmd (s.ctx n).cur = true) (st d : Nat)
    (ext : Option (BitVec 512)) :
    ∃ c x, s.endExec n st d ext = ((s.leaveCores n).setCmd (s.ctx n).cur c).setCtx n x ∧ c.phase = .ready ∧
      c.status = st ∧ c.result1 = s.ctxMeasures n ∧ x.cur = 0 := by
  have hctx := State.ctx_of_que (s.que_leaveCores n) n
  have hcmd : (s.leaveCores n).hasCmd (s.ctx n).cur = true := by
    rw [State.hasCmd, State.cmd_of_que (s.que_leaveCores n)]
    exact h
  simp only [State.endExec, hctx, State.modCmd, hcmd, if_true]
  exact ⟨_, _, rfl, rfl, rfl, rfl, rfl⟩

section
variable {s : State} {n : Nat} (h : s.hasCmd (s.ctx n).cur = true) (st d : Nat) (ext : Option (BitVec 512))
include h

theorem State.ended_endExec :
    (s.endExec n st d ext).Ended (s.ctx n).cur st ∧
      ((s.endExec n st d ext).cmd (s.ctx n).cur).result1 = s.ctxMeasures n ∧ ((s.endExec n st d ext).ctx n).cur = 0 := by
  obtain ⟨c, x, heq, hphase, hstatus, hresult, hcur⟩ := State.endExec_eq h st d ext
  rw [heq]
  have hcmd : (((s.leaveCores n).setCmd (s.ctx n).cur c).setCtx n x).cmd (s.ctx n).cur = c := by
    rw [State.cmd_setCtx, State.cmd_setCmd, if_pos rfl]
  rw [State.Ended, hcmd, State.ctx_setCtx_same]
  exact ⟨⟨hphase, hstatus⟩, hresult, hcur⟩

theorem State.core_endExec (j : Nat) : (s.endExec n st d ext).core j = (s.leaveCores n).core j := by
  obtain ⟨c, x, heq, -⟩ := State.endExec_eq h st d ext
  rw [heq]
  rfl

theorem State.vd_endExec (v : Nat) : (s.endExec n st d ext).vd v = (s.leaveCores n).vd v := by
  obtain ⟨c, x, heq, -⟩ := State.endExec_eq h st d ext
  rw [heq]
  rfl
end

/-- With no pool versions named, nothing is written back. -/
theorem State.poolWriteBack_none {s : State} {c : Cmd} (h : c.fld 0x24 0 32 = 0) : s.poolWriteBack c = s := by
  rw [State.poolWriteBack]
  cases hk : s.poolKey c.vd with
  | none => rfl
  | some key => simp only [h, true_or, if_true]

theorem exec_execComplete {v n : Nat} {s : State} (hctx : (s.vd v).ctx = some n) (hdone : s.execDone n = true)
    (hstop : (s.ctx n).stop = .none) (hreplay : (s.ctx n).replay = 0) (hpos : (s.cmd (s.ctx n).cur).fpos = 0)
    (hpool : (s.cmd (s.ctx n).cur).fld 0x24 0 32 = 0) :
    exec (.execComplete v) s = .next (s.endExec n (if (s.cmd (s.ctx n).cur).fld 0x28 0 64 ≠ 0 ∧
      (s.cmd (s.ctx n).cur).fld 0x28 0 64 < s.toll then stDeadline else stOK) 0 none) := by
  change execExecComplete v s = _
  simp only [execExecComplete, hctx, hdone, hstop, hreplay, hpos, State.poolWriteBack_none hpool]
  by_cases hlate : (s.cmd (s.ctx n).cur).fld 0x28 0 64 ≠ 0 ∧ (s.cmd (s.ctx n).cur).fld 0x28 0 64 < s.toll
  · simp [hlate, stDeadline, stFallback]
  · simp [hlate, stOK, stFallback]

/-! ### Stops at a measure boundary (R89, R325) -/

/-- The measure of a context, as its first core has it. -/
def State.ctxMlen (s : State) (n : Nat) : Nat := max 1 (((s.ctxCores n).head?.map fun c => (s.core c).mlen).getD 1)

/-- The first boundary whose slot no front end of the context has accepted. -/
def State.stopBoundary (s : State) (n : Nat) : Nat :=
  (((s.ctxCores n).map fun c => max (s.core c).accepted (s.core c).rbeat).foldl max 0 + s.ctxMlen n - 1) / s.ctxMlen n *
    s.ctxMlen n

theorem State.requestStop_eq {s : State} {r : Nat} (v : Nat) (sw : Bool) (h : (s.ctx r).stop = .none) :
    s.requestStop v r sw = (s.setCtx r { s.ctx r with stop := .boundary (s.stopBoundary r) }).setVd v
      { s.vd v with switching := sw } := by
  rw [State.requestStop]
  simp only [h, ne_eq, not_true_eq_false, if_false]
  rfl

theorem le_foldl_max {l : List Nat} {a x : Nat} (h : x ≤ a ∨ x ∈ l) : x ≤ l.foldl max a := by
  induction l generalizing a with
  | nil => simpa using h
  | cons b l ih =>
    rw [List.foldl_cons]
    refine ih ?_
    rcases h with h | h
    · exact .inl (h.trans (le_max_left _ _))
    · rcases List.mem_cons.1 h with rfl | h
      · exact .inl (le_max_right _ _)
      · exact .inr h

theorem le_ceil_mul {a b : Nat} (hb : 0 < b) : a ≤ (a + b - 1) / b * b := by
  have h := Nat.div_add_mod (a + b - 1) b
  have hm := Nat.mod_lt (a + b - 1) hb
  rw [Nat.mul_comm] at h
  omega

theorem State.le_stopBoundary (s : State) {n c : Nat} (h : c ∈ s.ctxCores n) :
    (s.core c).accepted ≤ s.stopBoundary n ∧ (s.core c).rbeat ≤ s.stopBoundary n := by
  have hmax := le_foldl_max (a := 0)
    (.inr (List.mem_map_of_mem (f := fun c => max (s.core c).accepted (s.core c).rbeat) h))
  have hpos : 0 < s.ctxMlen n := Nat.lt_of_lt_of_le Nat.zero_lt_one (le_max_left ..)
  have hle := hmax.trans (le_ceil_mul hpos)
  exact ⟨(le_max_left _ _).trans hle, (le_max_right _ _).trans hle⟩

theorem State.stopBoundary_mod (s : State) {n c : Nat} (h : (s.ctxCores n).head? = some c) (hm : 0 < (s.core c).mlen) :
    s.stopBoundary n % (s.core c).mlen = 0 := by
  have hlen : s.ctxMlen n = (s.core c).mlen := by
    rw [State.ctxMlen, h]
    exact max_eq_right hm
  rw [State.stopBoundary, hlen, Nat.mul_mod_left]

theorem exec_sliceExpiry {v r m : Nat} {s : State} (hctx : (s.vd v).ctx = some r) (hlong : (s.ctx r).long = false)
    (hsave : (s.ctx r).noSave = false) (hslice : 4 ≤ (s.vd v).sliceBoundaries) (hch : s.choose v = some m) (hne : m ≠ r)
    (hprio : (s.ctx r).prio ≤ (s.ctx m).prio) :
    exec (.sliceExpiry v) s = .next (s.requestStop v r true) := by
  change execSliceExpiry v s = _
  simp only [execSliceExpiry, hctx, hlong, hsave, hch, hne, Nat.not_lt.2 hslice, Nat.not_lt.2 hprio]
  simp

/-! ### Data that land at a boundary (R139, R141) -/

@[simp] theorem State.que_raise (s : State) (f v : Nat) : (s.raise f v).que = s.que := by
  unfold State.raise
  split <;> rfl

@[simp] theorem State.que_raisePfs (s : State) (v : Nat) : (s.raisePfs v).que = s.que := by
  unfold State.raisePfs
  split <;> simp

@[simp] theorem State.que_ringPut (s : State) (a : ErrArgs) : (s.ringPut a).que = s.que := by
  unfold State.ringPut
  dsimp only
  split
  · rfl
  · split
    · rfl
    · split
      · rfl
      · exact State.que_raisePfs ..

/-- A DEFERRED error of no VD leaves the queues as they were. -/
theorem State.que_logErr_deferred (s : State) {a : ErrArgs} (hs : a.sev = sevDeferred) (hv : a.vd = 0) :
    (s.logErr a).que = s.que := by
  simp [State.logErr, State.record, hs, hv, sevDeferred, sevFatal, sevContained]

theorem State.que_arrive (s : State) (c port : Nat) (d : Datum) : (s.arrive c port d .clean).que = s.que := by
  unfold State.arrive
  dsimp only
  split
  · exact State.que_logErr_deferred _ rfl rfl
  · rfl

theorem State.que_arriveNext (s : State) (c port : Nat) : (s.arriveNext c port .clean).que = s.que := by
  unfold State.arriveNext
  dsimp only
  split
  · rfl
  · exact State.que_arrive ..

theorem State.que_arriveDue (s : State) (c port b n : Nat) : (s.arriveDue c port b n).que = s.que := by
  induction n generalizing s with
  | zero => rfl
  | succ n ih =>
    rw [State.arriveDue]
    split
    · split
      · exact (ih _).trans (State.que_arriveNext ..)
      · rfl
    · rfl

/-- What leaves the queues as they were at each step of a fold leaves them so in all. -/
theorem State.que_foldl {α : Type} {g : State → α → State} (h : ∀ s x, (g s x).que = s.que) (l : List α) (s : State) :
    (l.foldl g s).que = s.que := by
  induction l generalizing s with
  | nil => rfl
  | cons x l ih => exact (ih _).trans (h s x)

theorem State.que_landLinks (s : State) (c m : Nat) : (s.landLinks c m).que = s.que :=
  State.que_foldl (fun s p => State.que_arriveDue s c p (m + 12) 64) _ s

/-! ### MEASURE_BOUNDARY_STOP (R89, R326) -/

/-- Every core of the context has reached boundary `m` with nothing outstanding. -/
def State.AtBoundary (s : State) (n m : Nat) : Prop :=
  ∀ c ∈ s.ctxCores n, ((s.core c).halted = true ∨ m ≤ (s.core c).slot) ∧ m ≤ (s.core c).rbeat ∧ (s.core c).xfers = [] ∧
    (s.core c).sigs = [] ∧ (s.core c).exc = none ∧ (s.core c).isld = none ∧ (s.core c).tlrds = []

theorem exec_measureBoundaryStop {v n m : Nat} {s : State} (hctx : (s.vd v).ctx = some n)
    (hstop : (s.ctx n).stop = .boundary m) (hholds : (s.vd v).holds = []) (hdone : s.execDone n = false)
    (hthere : s.AtBoundary n m) :
    exec (.measureBoundaryStop v) s = .next (if (s.ctx n).noSave = true ∧ (s.vd v).switching = true then
      s.endExec n stPreempted (b2n (s.ctxWrote n)) none
    else ((s.ctxCores n).foldl (fun s c => s.landLinks c m) s).setCtx n { s.ctx n with stop := .saving }) := by
  have hall : ((s.ctxCores n).all fun c => ((s.core c).halted || decide (m ≤ (s.core c).slot)) &&
      decide (m ≤ (s.core c).rbeat) && (s.core c).xfers.isEmpty && (s.core c).sigs.isEmpty && (s.core c).exc.isNone &&
      (s.core c).isld.isNone && (s.core c).tlrds.isEmpty) = true := by
    refine List.all_eq_true.2 fun c hc => ?_
    obtain ⟨hslot, hbeat, hx, hs, he, hi, ht⟩ := hthere c hc
    simp [hslot, hbeat, hx, hs, he, hi, ht]
  change execMeasureBoundaryStop v s = _
  simp only [execMeasureBoundaryStop, hctx, hstop, hall, hholds, hdone]
  simp

/-! ### DEADLINE_CHECK (R329) -/

/-- Position `p` of the chain fits the deadline by the margin in force. -/
def State.fitsDeadline (s : State) (ch : BitVec 512) (d p : Nat) : Prop :=
  s.toll + chainEst ch p * 1000 + s.effField (baseSch + 0x100) 15 0 * 1000 ≤ d

/-- The first number of a range that passes a test. -/
theorem find?_range_first {p : Nat → Bool} {n q : Nat} (h : (List.range n).find? p = some q) :
    p q = true ∧ q < n ∧ ∀ j < q, p j = false := by
  obtain ⟨hp, hq⟩ := List.find?_eq_some_iff_getElem.1 h
  obtain ⟨i, hi, hiq, hlt⟩ := hq
  simp only [List.getElem_range] at hiq hlt
  subst hiq
  exact ⟨hp, by simpa using hi, fun j hj => by simpa using hlt j hj⟩

/-- The position a deadline step leaves: the first from the present one on that fits, else the last. -/
theorem State.deadlineStep_spec {s : State} {c : Cmd} {ch : BitVec 512} (hch : c.chain = some ch)
    (hpos : c.fpos ≤ ch.toNat % 4) :
    ∃ p, s.deadlineStep c = { c with fpos := p } ∧ (c.fld 0x28 0 64 = 0 → p = c.fpos) ∧
      (c.fld 0x28 0 64 ≠ 0 → (∃ q, c.fpos ≤ q ∧ q ≤ ch.toNat % 4 ∧ s.fitsDeadline ch (c.fld 0x28 0 64) q) →
        s.fitsDeadline ch (c.fld 0x28 0 64) p ∧ c.fpos ≤ p ∧
          ∀ q, c.fpos ≤ q → q < p → ¬ s.fitsDeadline ch (c.fld 0x28 0 64) q) ∧
      (c.fld 0x28 0 64 ≠ 0 → (∀ q, c.fpos ≤ q → q ≤ ch.toNat % 4 → ¬ s.fitsDeadline ch (c.fld 0x28 0 64) q) →
        p = ch.toNat % 4) := by
  generalize hd : c.fld 0x28 0 64 = d
  generalize hn : ch.toNat % 4 = n at *
  by_cases hstay : d = 0 ∨ s.fitsDeadline ch d c.fpos
  · refine ⟨c.fpos, ?_, fun _ => rfl, fun hne _ => ?_, fun hne hnone => ?_⟩
    · simp only [State.deadlineStep, hch, hd]
      rw [if_pos (by simpa [State.fitsDeadline] using hstay), ← hch]
    · exact ⟨hstay.resolve_left hne, Nat.le_refl _, fun q h1 h2 => absurd h1 (by omega)⟩
    · exact absurd (hstay.resolve_left hne) (hnone _ (Nat.le_refl _) hpos)
  · have hne : d ≠ 0 := fun h => hstay (.inl h)
    have hfirst : ¬ s.fitsDeadline ch d c.fpos := fun h => hstay (.inr h)
    have hstep : s.deadlineStep c = { c with fpos := ((List.range (n + 1)).find? fun q => decide (c.fpos < q) &&
        decide (s.toll + chainEst ch q * 1000 + s.effField (baseSch + 0x100) 15 0 * 1000 ≤ d)).getD n } := by
      simp only [State.deadlineStep, hch, hd, hn]
      rw [if_neg (by simpa [State.fitsDeadline] using hstay)]
    refine ⟨_, hstep, fun h => absurd h hne, fun _ hex => ?_, fun _ hnone => ?_⟩
    · cases hf : (List.range (n + 1)).find? fun q => decide (c.fpos < q) &&
          decide (s.toll + chainEst ch q * 1000 + s.effField (baseSch + 0x100) 15 0 * 1000 ≤ d) with
      | none =>
        obtain ⟨q, h1, h2, hq⟩ := hex
        have hlt : c.fpos < q := Nat.lt_of_le_of_ne h1 fun h => hfirst (h ▸ hq)
        have := List.find?_eq_none.1 hf q (List.mem_range.2 (by omega))
        simp only [Bool.and_eq_true, decide_eq_true_eq] at this
        exact absurd ⟨hlt, hq⟩ this
      | some q =>
        obtain ⟨hq, -, hbefore⟩ := find?_range_first hf
        simp only [Bool.and_eq_true, decide_eq_true_eq] at hq
        refine ⟨hq.2, hq.1.le, fun j h1 h2 hj => ?_⟩
        have hlt : c.fpos < j := Nat.lt_of_le_of_ne h1 fun h => hfirst (h ▸ hj)
        have := hbefore j h2
        simp only [Bool.and_eq_false_iff, decide_eq_false_iff_not] at this
        exact this.elim (fun h => h hlt) fun h => h hj
    · rw [List.find?_eq_none.2 fun q hq => ?_]
      · rfl
      · have := List.mem_range.1 hq
        simp only [Bool.and_eq_true, decide_eq_true_eq, not_and]
        exact fun h => hnone q h.le (by omega)

/-- The check of one command: it moves unless its exec runs. -/
def State.deadlineAt (s : State) (e : Nat × Cmd) : State :=
  if (s.ctx e.2.ctx).cur = e.1 ∧ (s.ctx e.2.ctx).started = true then s else s.setCmd e.1 (s.deadlineStep (s.cmd e.1))

theorem State.deadlineAt_frame (s : State) (e : Nat × Cmd) :
    (∀ n, (s.deadlineAt e).ctx n = s.ctx n) ∧ (∀ c, (s.deadlineAt e).deadlineStep c = s.deadlineStep c) ∧
      ∀ q, q ≠ e.1 → (s.deadlineAt e).cmd q = s.cmd q := by
  unfold State.deadlineAt
  split
  · exact ⟨fun _ => rfl, fun _ => rfl, fun _ _ => rfl⟩
  · exact ⟨fun _ => rfl, fun _ => rfl, fun q hq => by rw [State.cmd_setCmd, if_neg hq]⟩

theorem State.cmd_deadlineAt_same {s : State} {q : Nat} {c : Cmd}
    (h : (s.ctx c.ctx).cur ≠ q ∨ (s.ctx c.ctx).started = false) :
    (s.deadlineAt (q, c)).cmd q = s.deadlineStep (s.cmd q) := by
  rw [State.deadlineAt, if_neg (by rintro ⟨h1, h2⟩; simp [h1, h2] at h), State.cmd_setCmd, if_pos rfl]

theorem State.cmd_foldl_deadlineAt_other {l : List (Nat × Cmd)} {q : Nat} (h : q ∉ l.map Prod.fst) (s : State) :
    (l.foldl State.deadlineAt s).cmd q = s.cmd q := by
  induction l generalizing s with
  | nil => rfl
  | cons e l ih =>
    rw [List.map_cons, List.mem_cons, not_or] at h
    obtain ⟨-, -, hcmd⟩ := s.deadlineAt_frame e
    exact (ih h.2 _).trans (hcmd q h.1)

/-- Each command of a list without repeats is checked once, in the state before any was. -/
theorem State.cmd_foldl_deadlineAt {l : List (Nat × Cmd)} {q : Nat} {c : Cmd} (hl : (l.map Prod.fst).Nodup)
    (hm : (q, c) ∈ l) {s : State} (h : (s.ctx c.ctx).cur ≠ q ∨ (s.ctx c.ctx).started = false) :
    (l.foldl State.deadlineAt s).cmd q = s.deadlineStep (s.cmd q) := by
  induction l generalizing s with
  | nil => simp at hm
  | cons e l ih =>
    obtain ⟨hnot, hl⟩ := List.nodup_cons.1 hl
    rcases List.mem_cons.1 hm with rfl | hm
    · exact (State.cmd_foldl_deadlineAt_other hnot _).trans (State.cmd_deadlineAt_same h)
    · obtain ⟨hctx, hstep, hcmd⟩ := s.deadlineAt_frame e
      have hne : q ≠ e.1 := fun h => hnot (h ▸ List.mem_map_of_mem (f := Prod.fst) hm)
      rw [List.foldl_cons, ih hl hm (by rwa [hctx]), hstep, hcmd q hne]

theorem exec_deadlineCheck (s : State) : exec .deadlineCheck s = .next
    ((s.que.cmds.filter fun e => e.2.opc = 0x30 && e.2.phase ≠ .ready).foldl State.deadlineAt s) := rfl

/-- A command the engine holds is listed under its number. -/
theorem State.mem_cmds {s : State} {q : Nat} (hw : SMap.wf ({} : Cmd) s.que.cmds = true) (h : s.hasCmd q = true) :
    (q, s.cmd q) ∈ s.que.cmds := by
  refine (SMap.mem_iff hw).2 ⟨rfl, fun hd => ?_⟩
  simp only [State.hasCmd, Bool.and_eq_true, decide_eq_true_eq] at h
  rw [hd] at h
  exact h.1 h.2.symm

theorem SMap.nodup_keys {α : Type} [DecidableEq α] {d : α} {m : SMap α} (h : SMap.wf d m = true) :
    (m.map Prod.fst).Nodup := by
  obtain ⟨hsort, -⟩ := (SMap.wf_iff m).1 h
  exact List.pairwise_map.2 (hsort.imp Nat.ne_of_lt)

/-- Settles O30: the exec's three ends and the deadline's check, each by its equation. -/
theorem execsStop : Obligations.ExecsStop := by
  unfold Obligations.ExecsStop
  refine ⟨?complete, ?slice, ?boundary, ?deadline⟩
  case complete =>
    intro v n s hctx hdone hstop hreplay hvd hcmd c d hpos hpool
    obtain ⟨hended, hresult, hcur⟩ :=
      State.ended_endExec hcmd (if d ≠ 0 ∧ d < s.toll then stDeadline else stOK) 0 none
    have hv : (s.leaveCores n).vd v = { s.vd v with holds := [], ctx := none, switching := false } := by
      have h := State.vd_leaveCores (s := s) (n := n) (by rw [hvd, hctx])
      rwa [hvd] at h
    refine ⟨_, exec_execComplete hctx hdone hstop hreplay hpos hpool, hended, hresult, hcur, ?_, ?_, fun k hk => ?_,
      fun k hk => ?_⟩
    · rw [State.vd_endExec hcmd, hv]
    · rw [State.vd_endExec hcmd, hv]
    · rw [State.core_endExec hcmd, State.core_leaveCores_mem s hk]
    · rw [State.core_endExec hcmd, State.core_leaveCores_other s hk]
  case slice =>
    intro v r m s hctx hlong hsave hslice hch hne hprio hstop
    have hexec := exec_sliceExpiry hctx hlong hsave hslice hch hne hprio
    rw [State.requestStop_eq v true hstop] at hexec
    refine ⟨_, s.stopBoundary r, hexec, ?_, ?_, fun c hc => s.le_stopBoundary hc,
      fun c hc hm => s.stopBoundary_mod hc hm, rfl, fun x hx => ?_⟩
    · rw [State.ctx_setVd, State.ctx_setCtx_same]
    · rw [State.vd_setVd_same]
    · rw [State.ctx_setVd, State.ctx_setCtx, if_neg hx]
  case boundary =>
    intro v n m s hctx hstop hholds hdone hcmd hthere
    have hexec := exec_measureBoundaryStop hctx hstop hholds hdone hthere
    refine ⟨fun h => ?_, fun h1 h2 => ?_⟩
    · rw [if_neg (by rintro ⟨h1, h2⟩; simp [h1, h2] at h)] at hexec
      refine ⟨_, hexec, by rw [State.ctx_setCtx_same], ?_⟩
      rw [State.setCtx_que_cmds, State.que_foldl fun s c => State.que_landLinks s c m]
    · rw [if_pos ⟨h1, h2⟩] at hexec
      obtain ⟨hended, -, hcur⟩ := State.ended_endExec hcmd stPreempted (b2n (s.ctxWrote n)) none
      refine ⟨_, hexec, hended, hcur, fun c hc => ?_⟩
      rw [State.core_endExec hcmd, State.core_leaveCores_mem s hc]
      rfl
  case deadline =>
    intro s seq ch hw hcmd hopc hphase hch hidle c d n fits hpos
    obtain ⟨p, hstep, hzero, hfits, hlast⟩ := State.deadlineStep_spec (s := s) hch hpos
    have hmem : (seq, s.cmd seq) ∈ s.que.cmds.filter fun e => e.2.opc = 0x30 && e.2.phase ≠ .ready :=
      List.mem_filter.2 ⟨State.mem_cmds hw hcmd, by simp [hopc, hphase]⟩
    have hnodup := (SMap.nodup_keys hw).sublist (List.filter_sublist.map Prod.fst
      (l₁ := s.que.cmds.filter fun e => e.2.opc = 0x30 && e.2.phase ≠ .ready))
    refine ⟨_, p, exec_deadlineCheck s, ?_, hzero, hfits, hlast⟩
    rw [State.cmd_foldl_deadlineAt hnodup hmem (hidle.imp_right (by simp)), hstep]

end Sys2Proof.Machine
end

section
/-!
PROOFS. Witnesses: concrete states that meet the hypotheses of the statements above, each run through the lemma or
the theorem.
-/
namespace Sys2Proof.Machine

/-! ### A running core, its context, its VD and a timeline -/

/-- A device whose core 0 runs context 1 of VD 1 with 7 in s2 and the pocket of `convertPocket`; the context may wait for
and signal timeline 0 by its slot 0, and the VD has one working slot. -/
def State.programReady : State :=
  ((State.reset.setCore
    0 { running := true, vd := 1, ctx := 1, mlen := 4, pocket := convertPocket, s := [(2, 7#32)] }).setCtx
    1 { used := true, vd := 1, cur := 9, tls := [(0, { tl := 0, sig := true, wait := true })] }).setVd
    1 { place := { slots := [0] }, ctx := some 1 }

theorem canIssue_programReady : State.programReady.canIssue 0 = true := by decide

/-- s2 minus 8, to s3. -/
theorem exec_scalarAluImmediate_programReady : exec (.scalarAluImmediate 0 .add 3 2 0xFFFFFFF8#32) State.programReady =
    .next (State.programReady.setCore 0 (((State.programReady.core 0).setS 3 0xFFFFFFFF#32).retire)) :=
  exec_scalarAluImmediate canIssue_programReady ⟨rfl, fun h => absurd h (by decide)⟩ 3 2

/-- A loop of s2 iterations over two words. -/
theorem exec_loop_programReady : ∃ k', exec (.loop 0 2 16#32) State.programReady =
    .next (State.programReady.setCore 0 k') ∧ k'.loops = [⟨8, 16, 7⟩] := by
  obtain ⟨hpush, -⟩ := branchesJumpsAndLoops.2.1 0 2 16#32 State.programReady canIssue_programReady rfl (by decide)
  obtain ⟨k', hexec, -, -, hloops, -⟩ := hpush (by decide) (by decide)
  exact ⟨k', hexec, hloops⟩

/-- LDW of the row's first element. -/
theorem exec_scalarLoad_programReady : ∃ k', exec (.scalarLoad 0 .ldw 1 0 0x1000#32) State.programReady =
    .next (State.programReady.setCore 0 k') ∧ k'.getS 1 = 0x40400000#32 := by
  obtain ⟨k', hexec, -, hget, -⟩ := pocketAccesses.1.1 0 1 0 .ldw 0x1000#32 State.programReady canIssue_programReady
    rfl (by decide) (by decide) (by intro i _; rfl)
  exact ⟨k', hexec, (hget 1).trans (by decide)⟩

/-- A word access at an odd address. -/
theorem exec_scalarStore_range_programReady : exec (.scalarStore 0 .stw 2 0 1#32) State.programReady =
    .next (State.programReady.setCore 0 ((State.programReady.core 0).fault .pocketRange 1)) :=
  exec_pocketAccess_fault canIssue_programReady (.scalarStore .stw 2 0 1#32)
    (Core.accessFail_range (.inr (by decide)))

theorem clearAt_programReady (a n : Nat) : (State.programReady.core 0).clearAt a n :=
  fun _ h => absurd h List.not_mem_nil

/-- VST of every lane of v1. -/
theorem exec_vst_programReady : ∃ k', exec (.vst 0 1 0 0 0x1000#32) State.programReady =
    .next (State.programReady.setCore 0 k') ∧ readLE k'.pocket 0x1000 4 =
      (lane ((State.programReady.core 0).getV 1) 0).toNat := by
  obtain ⟨k', hexec, -, hword, -⟩ := vectorAndTileAccesses.1.2 0 1 0 0 0x1000#32 State.programReady canIssue_programReady
    (by decide) (by decide) fun i _ _ => clearAt_programReady _ _
  exact ⟨k', hexec, (hword 0 (by decide)).trans (if_pos (by decide))⟩

/-- An SBLD of one line from the VD's store. -/
theorem exec_sbld_programReady : ∃ x k', exec (.sbld 0 0 0 5 1) State.programReady =
    .next (State.programReady.setCore 0 k') ∧ k'.xfers = [x] ∧ x.tag = 5 := by
  obtain ⟨k', x, hexec, -, hxfers, -, htag, -⟩ := transferInstructions.1 0 State.programReady 0 0 5 1
    (.sbld 0 0 0 5 1) .sbld canIssue_programReady (by decide) (by decide) (by decide) (by decide) (by decide) (.inl ⟨rfl, rfl, by decide, by decide⟩)
  exact ⟨x, k', hexec, hxfers, htag⟩

/-- A TLSIG raises its timeline to the pair's 7. -/
theorem exec_tlsig_programReady : ∃ s', exec (.tlsig 0 2 0) State.programReady = .next s' ∧
    (s'.timeline 0).value = 7 := by
  obtain ⟨s', hexec, -, hvalue, -⟩ := exec_tlsig_performed (s := State.programReady) (c := 0) (sn := 2)
    (slot := 0) (t := 0) canIssue_programReady rfl (by decide) rfl rfl (by decide) rfl rfl
  exact ⟨s', hexec, hvalue.trans (by decide)⟩

/-- An odd pair is none. -/
theorem exec_excludedOperands_programReady : exec (.mtos 0 3 1) State.programReady =
    .next (State.programReady.setCore 0 ((State.programReady.core 0).fault .illegalInstr 0)) :=
  exec_excludedOperands canIssue_programReady (.inr (.inr (.inr (.inr (.inr (.inr (.inr (.inr (.inr (.inl
    ⟨3, 1, rfl, .inl rfl⟩))))))))))

/-! ### The front end, a hold and the end of an exec -/

/-- The front end's trial of the core's first word, an all-zero NOP. -/
theorem tries_programReady : Tries 0 0 State.programReady (State.programReady.ahead 0) (State.programReady.core 0)
    ((State.programReady.ahead 0).core 0) 0 0 0#64 :=
  ⟨rfl, rfl, rfl, rfl, rfl, rfl, rfl, rfl, rfl, by decide, by decide, rfl, rfl, rfl, by decide⟩

theorem exec_frontEndAccept_programReady : ∃ s', exec (.frontEndAccept 0 0) State.programReady = .next s' ∧
    (s'.core 0).lead = [.word 0 0#64] := by
  have hexec := exec_frontEndAccept_word tries_programReady (i := .nop 0) rfl
  rw [if_pos (by decide)] at hexec
  exact ⟨_, hexec, by rw [State.core_acceptSlot_same]; rfl⟩

/-- The device with a hold of VD 1 requested for slot 0. -/
def State.holdReady : State :=
  State.programReady.setVd 1 { State.programReady.vd 1 with holds := [{ slot := 0, req := 12 }] }

theorem exec_holdTakesEffect_holdReady : ∃ s', exec (.holdTakesEffect 1) State.holdReady = .next s' ∧
    s'.held 1 = true := by
  obtain ⟨s', hexec, hheld, -⟩ := frontEndHoldsAndRoll.2.1 1 State.holdReady { slot := 0, req := 12 } [] rfl rfl rfl
    (by decide)
  exact ⟨s', hexec, hheld⟩

/-- The device whose core 0 has halted, with the command of its exec. -/
def State.haltReady : State :=
  (State.programReady.setCore 0 { State.programReady.core 0 with halted := true, slot := 9 }).setCmd 9 { seq := 9 }

theorem exec_execComplete_haltReady : ∃ s', exec (.execComplete 1) State.haltReady = .next s' ∧
    s'.Ended 9 stOK ∧ (s'.cmd 9).result1 = State.haltReady.ctxMeasures 1 := by
  have hfld (o w : Nat) : (State.haltReady.cmd 9).fld o 0 w = 0 := by
    have hslot : (State.haltReady.cmd 9).slot = 0#512 := rfl
    rw [Cmd.fld, hslot]
    simp [slotField]
  have hexec := exec_execComplete (v := 1) (n := 1) (s := State.haltReady) rfl (by decide) rfl rfl rfl (hfld 0x24 32)
  have hcur : (State.haltReady.ctx 1).cur = 9 := rfl
  rw [hcur, if_neg (by rw [hfld]; exact fun h => h.1 rfl)] at hexec
  obtain ⟨hended, hresult, -⟩ := State.ended_endExec (s := State.haltReady) (n := 1) rfl stOK 0 none
  exact ⟨_, hexec, hended, hresult⟩

/-- The device whose context 1 is told to stop at its first boundary, none of its words executed. -/
def State.boundaryReady : State :=
  (State.programReady.setCtx 1 { State.programReady.ctx 1 with stop := .boundary 0 }).setCmd 9 { seq := 9 }

theorem exec_measureBoundaryStop_boundaryReady : ∃ s', exec (.measureBoundaryStop 1) State.boundaryReady = .next s' ∧
    (s'.ctx 1).stop = .saving := by
  obtain ⟨s', hexec, hstop, -⟩ :=
    (execsStop.2.2.1 1 1 0 State.boundaryReady rfl rfl rfl rfl rfl (by decide)).1 (.inl rfl)
  exact ⟨s', hexec, hstop⟩

/-- A core two measures of four beats in, in a loop and with a poisoned line. -/
def savedCore : Core := { pc := 16, mlen := 4, loops := [⟨8, 16, 7⟩], s := [(2, 7#32)], poison := [(3, true)] }

theorem restored_savedCore :
    (({ mlen := 4 } : Core).restored (savedCore.record 0 8) 0 1).loops = [⟨8, 16, 7⟩] ∧
      (({ mlen := 4 } : Core).restored (savedCore.record 0 8) 0 1).slot = 9 := by
  obtain ⟨-, -, -, -, -, -, -, -, -, hloops, -, -, hslot⟩ :=
    restoredCoreIsTheSavedOne savedCore { mlen := 4 } 0 8 1 (by decide) rfl rfl (by decide) (by decide) (by decide) rfl
      (by decide)
  exact ⟨hloops, hslot⟩

end Sys2Proof.Machine
end

section
/-!
PROOFS. Vector instructions (spec/04 R113 to R118): lane results, masks, the moves to and from scalars, reductions, and
the exchange of a vector register with a row of a tile.
-/
namespace Sys2Proof.Machine

/-! ### Lane results (R113, R114, R115, R117) -/

/-- Core `k'` has passed the slot of `k` with the lanes of vector register `d` those of `f` and nothing else of its results
changed. -/
def Core.WroteLanes (k k' : Core) (d : Nat) (f : Nat → Word) : Prop :=
  k.Passed k' ∧ (∀ j < 64, lane (k'.getV d) j = f j) ∧ (∀ r, r ≠ d → k'.getV r = k.getV r) ∧
    k'.results = ({ k with v := k'.v } : Core).results

theorem Core.results_setV {k k1 : Core} (h : k1.results = k.results) (r : Nat) (x : VReg) :
    (k1.setV r x).results = (k.setV r x).results :=
  congrArg (fun q => q.setV r x) h

/-- A vector result written on a core that differs from `k` in timing alone. -/
theorem Core.wroteLanes_finishV {k k1 : Core} (hflow : k1.flow = k.flow) (hres : k1.results = k.results) {d : Nat}
    {r : List Word × Events} {f : Nat → Word} (hf : ∀ j < 64, r.1.getD j 0#32 = f j) (lat occ : Nat) :
    k.WroteLanes (k1.finishV d lat occ r) d f := by
  have hr : (k1.finishV d lat occ r).results = (k.setV d (ofLanes r.1)).results := by
    rw [Core.finishV, Core.results_retire, Core.results_occupy, Core.results_validVAt, Core.results_count,
      Core.results_setV hres]
  obtain ⟨hget, hframe⟩ := Core.vectors_of_results hr
  refine ⟨Core.passed_retire (by simpa using hflow), fun j hj => ?_, fun r hr => (hget r).trans (if_neg hr), hframe⟩
  rw [hget, if_pos rfl, lane_ofLanes _ hj, hf j hj]

theorem getD_map_range {α : Type} {n i : Nat} (h : i < n) (f : Nat → α) (a : α) :
    ((List.range n).map f).getD i a = f i := by
  simp [List.getD_eq_getElem?_getD, h]

theorem length_lanes (v : VReg) : (lanes v).length = 64 := by rw [lanes, List.length_map, List.length_range]

theorem getD_maskedLanes (mask : DWord) (g : Nat → Word × Events) (v : VReg) {j : Nat} (hj : j < 64) :
    (maskedLanes mask g (lanes v)).1.getD j 0#32 = if mask.getLsbD j then (g j).1 else lane v j := by
  rw [maskedLanes, List.map_map, getD_map_range hj, Function.comp_apply, getD_lanes v hj]
  exact apply_ite Prod.fst ..

theorem getD_lanes_set (v : VReg) (l : Nat) (w : Word) {j : Nat} (hj : j < 64) :
    ((lanes v).set (l % 64) w).getD j 0#32 = if j = l % 64 then w else lane v j := by
  by_cases h : j = l % 64
  · subst h
    simp [List.getD_eq_getElem?_getD, lanes, hj]
  · rw [if_neg h, ← getD_lanes v hj, List.getD_eq_getElem?_getD, List.getD_eq_getElem?_getD,
      List.getElem?_set_ne (Ne.symm h)]

theorem getD_mergeLanes (mask : DWord) (a b : VReg) {j : Nat} (hj : j < 64) :
    (mergeLanes mask (lanes a) (lanes b)).getD j 0#32 = if mask.getLsbD j then lane a j else lane b j := by
  rw [← lane_ofLanes _ hj, lane_mergeLanes _ _ _ hj, getD_lanes _ hj, getD_lanes _ hj]

theorem Core.getD_accRow (k : Core) (t row : Nat) {j : Nat} (hj : j < 64) :
    (k.accRow t row).getD j 0#32 = k.getAcc t row j := getD_map_range hj _ _

section
variable {c d lat occ : Nat} {s : State} {i : Instr} {f : Nat → Word} (hi : s.canIssue c = true)
include hi

/-- An instruction that ends in a vector result writes its lanes. -/
theorem exec_laneResult {r : Core → List Word × Events}
    (hexec : exec i s = issueCore c s fun k => k.finishV d lat occ (r k))
    (hf : ∀ j < 64, (r (s.core c)).1.getD j 0#32 = f j) :
    ∃ k', exec i s = .next (s.setCore c k') ∧ (s.core c).WroteLanes k' d f :=
  ⟨_, hexec.trans (issueCore_of_canIssue hi _), Core.wroteLanes_finishV rfl rfl hf lat occ⟩

/-- A masked instruction of lane function `g` writes the lanes its mask enables (R113). -/
theorem exec_maskedLanes {mk : Nat} {g : Core → Nat → Word × Events}
    (hexec : exec i s = issueCore c s fun k =>
      k.finishV d lat occ (maskedLanes (k.getM mk) (g k) (lanes (k.getV d))))
    (hf : ∀ j, f j = if ((s.core c).getM mk).getLsbD j then (g (s.core c) j).1 else lane ((s.core c).getV d) j) :
    ∃ k', exec i s = .next (s.setCore c k') ∧ (s.core c).WroteLanes k' d f :=
  exec_laneResult hi hexec fun j hj => by rw [getD_maskedLanes _ _ _ hj, hf j]

theorem exec_vaccr {a b : Nat} (hrow : ((s.core c).getS b).toNat ≤ 31) :
    ∃ k', exec (.vaccr c d a b) s = .next (s.setCore c k') ∧
      (s.core c).WroteLanes k' d ((s.core c).getAcc a ((s.core c).getS b).toNat) := by
  have hexec : exec (.vaccr c d a b) s = .next (s.setCore c
      (((s.core c).useTile a 1 0).finishV d 3 1 ((s.core c).accRow a ((s.core c).getS b).toNat, {}))) := by
    change execVaccr c d a b s = _
    rw [execVaccr, issueCore_of_canIssue hi, if_neg (by omega)]
  refine ⟨_, hexec, Core.wroteLanes_finishV (Core.flow_useTile ..) (Core.results_useTile ..) (fun j hj => ?_) 3 1⟩
  exact Core.getD_accRow _ a _ hj
end

/-! ### Masks (R116, R117) -/

/-- Core `k'` has passed the slot of `k` with the bits of mask `d` those of `f`, unless it is m0, and nothing else of its
results changed. -/
def Core.WroteMask (k k' : Core) (d : Nat) (f : Nat → Bool) : Prop :=
  k.Passed k' ∧ (∀ r, ∀ j < 64, (k'.getM r).getLsbD j = if r = d ∧ d ≠ 0 then f j else (k.getM r).getLsbD j) ∧
    k'.results = ({ k with m := k'.m } : Core).results

@[simp] theorem Core.flow_setM (k : Core) (r : Nat) (x : DWord) : (k.setM r x).flow = k.flow := by
  unfold Core.setM; split <;> rfl
@[simp] theorem Core.flow_validMAt (k : Core) (r lat : Nat) : (k.validMAt r lat).flow = k.flow := rfl
@[simp] theorem Core.results_validMAt (k : Core) (r lat : Nat) : (k.validMAt r lat).results = k.results := rfl

/-- A core whose results are those of `k` with mask register `r` written shows the change by its masks alone. -/
theorem Core.masks_of_results {k k1 : Core} {r : Nat} {x : DWord} (h : k1.results = (k.setM r x).results) :
    (∀ j, k1.getM j = if j = r ∧ r ≠ 0 then x else k.getM j) ∧ k1.results = ({ k with m := k1.m } : Core).results := by
  have hm : k1.m = (k.setM r x).m := (congrArg Core.m h : k1.results.m = (k.setM r x).results.m)
  refine ⟨fun j => ?_, ?_⟩
  · rw [← Core.getM_setM, Core.getM, Core.getM, hm]
  · rw [h, hm]
    unfold Core.setM; split <;> rfl

theorem Core.wroteMask_finishM {k : Core} {d : Nat} {x : DWord} {f : Nat → Bool} (hf : ∀ j < 64, x.getLsbD j = f j)
    (lat : Nat) : k.WroteMask (k.finishM d lat x) d f := by
  have hr : (k.finishM d lat x).results = (k.setM d x).results := by
    rw [Core.finishM, Core.results_retire, Core.results_occupy, Core.results_validMAt]
  obtain ⟨hget, hframe⟩ := Core.masks_of_results hr
  refine ⟨Core.passed_retire (by simp), fun r j hj => ?_, hframe⟩
  rw [hget, apply_ite (fun y : DWord => y.getLsbD j), hf j hj]

theorem getLsbD_bit {i j : Nat} (hj : j < 64) : (1#64 <<< i).getLsbD j = decide (j = i) := by
  rw [BitVec.getLsbD_shiftLeft, BitVec.getLsbD_one]
  simp only [hj, decide_true, Bool.true_and]
  by_cases h : j = i
  · simp [h]
  · simp only [h, decide_false, Bool.and_eq_false_iff, Bool.not_eq_false', decide_eq_true_eq, decide_eq_false_iff_not]
    omega

theorem getLsbD_foldl_setBits (f : Nat → Bool) (l : List Nat) (m : DWord) {j : Nat} (hj : j < 64) :
    (l.foldl (fun m i => if f i then m ||| (1#64 <<< i) else m) m).getLsbD j =
      (m.getLsbD j || (decide (j ∈ l) && f j)) := by
  induction l generalizing m with
  | nil => simp
  | cons i l ih =>
    have hstep : (if f i then m ||| (1#64 <<< i) else m).getLsbD j = (m.getLsbD j || (decide (j = i) && f j)) := by
      by_cases hfi : f i
      · rw [if_pos hfi, BitVec.getLsbD_or, getLsbD_bit hj]
        by_cases h : j = i <;> simp [h, hfi]
      · rw [if_neg hfi]
        by_cases h : j = i <;> simp [h, hfi]
    rw [List.foldl_cons, ih, hstep, Bool.or_assoc, ← Bool.and_or_distrib_right]
    simp only [List.mem_cons, Bool.decide_or]

theorem getLsbD_maskOf (f : Nat → Bool) {j : Nat} (hj : j < 64) : (maskOf f).getLsbD j = f j := by
  rw [maskOf, getLsbD_foldl_setBits f _ _ hj]
  simp [hj]

section
variable {c d : Nat} {s : State} {f : Nat → Bool} (hi : s.canIssue c = true)
include hi

/-- An instruction that ends in a mask result writes its bits. -/
theorem exec_maskResult {i : Instr} {lat : Nat} {x : Core → DWord}
    (hexec : exec i s = issueCore c s fun k => k.finishM d lat (x k)) (hf : ∀ j < 64, (x (s.core c)).getLsbD j = f j) :
    ∃ k', exec i s = .next (s.setCore c k') ∧ (s.core c).WroteMask k' d f :=
  ⟨_, hexec.trans (issueCore_of_canIssue hi _), Core.wroteMask_finishM hf lat⟩

/-- Mask logic by what its operation gives for each bit. -/
theorem exec_maskLogic (op : MaskOp) {a b : Nat}
    (hf : ∀ j < 64, (maskResult op ((s.core c).getM a) ((s.core c).getM b)).getLsbD j = f j) :
    ∃ k', exec (.maskLogic c op d a b) s = .next (s.setCore c k') ∧ (s.core c).WroteMask k' d f :=
  exec_maskResult hi (x := fun k => maskResult op (k.getM a) (k.getM b)) rfl hf

theorem exec_stom {a : Nat} (ha : pairOk a = true) :
    ∃ k', exec (.stom c d a) s = .next (s.setCore c k') ∧
      (s.core c).WroteMask k' d ((s.core c).getPair a).getLsbD := by
  refine ⟨_, ?_, Core.wroteMask_finishM (fun _ _ => rfl) 1⟩
  change execStom c d a s = _
  rw [execStom, issueCore_of_canIssue hi, if_pos ha]
end

/-! ### Moves to scalars (R117) -/

@[simp] theorem Core.flow_validSAt (k : Core) (r lat : Nat) : (k.validSAt r lat).flow = k.flow := rfl
@[simp] theorem Core.results_validSAt (k : Core) (r lat : Nat) : (k.validSAt r lat).results = k.results := rfl
@[simp] theorem Core.flow_setPair (k : Core) (n : Nat) (x : DWord) : (k.setPair n x).flow = k.flow := by
  rw [Core.setPair, Core.flow_setS, Core.flow_setS]

theorem Core.setPair_eq (k : Core) (n : Nat) (x : DWord) :
    k.setPair n x = { k with s := (k.setPair n x).s } := by
  simp only [Core.setPair, Core.setS]
  split <;> split <;> rfl

/-- Core `k'` has passed the slot of `k` with the pair at `n` written and nothing else of its results changed. -/
def Core.WrotePair (k k' : Core) (n : Nat) (x : DWord) : Prop :=
  k.Passed k' ∧ k'.getPair n = x ∧ (∀ r, r ≠ n → r ≠ n + 1 → k'.getS r = k.getS r) ∧
    k'.results = ({ k with s := k'.s } : Core).results

theorem Core.wrotePair_retire {k k1 : Core} {n : Nat} {x : DWord} (hn : pairOk n = true) (hflow : k1.flow = k.flow)
    (hres : k1.results = (k.setPair n x).results) : k.WrotePair k1.retire n x := by
  have h := (Core.results_retire k1).trans hres
  have hs : k1.retire.s = (k.setPair n x).s := (congrArg Core.s h : k1.retire.results.s = (k.setPair n x).results.s)
  have hget (j : Nat) : k1.retire.getS j = (k.setPair n x).getS j := by rw [Core.getS, Core.getS, hs]
  refine ⟨Core.passed_retire hflow, ?_, fun r h1 h2 => (hget r).trans (Core.getS_setPair_other _ _ h1 h2), ?_⟩
  · rw [Core.getPair, hget, hget]
    exact Core.getPair_setPair _ hn _
  · rw [h, hs, ← Core.setPair_eq]

section
variable {c d : Nat} {s : State} (hi : s.canIssue c = true)
include hi

/-- VMVS and MPOP write a word to their scalar. -/
theorem exec_scalarResult {i : Instr} {w : Core → Word}
    (hexec : exec i s = issueCore c s fun k => (((k.setS d (w k)).validSAt d 2).occupy unitVector 1).retire) :
    ∃ k', exec i s = .next (s.setCore c k') ∧ (s.core c).Passed k' ∧
      (∀ r, k'.getS r = if r = d ∧ d ≠ 0 then w (s.core c) else (s.core c).getS r) ∧
      k'.results = ({ s.core c with s := k'.s } : Core).results :=
  ⟨_, hexec.trans (issueCore_of_canIssue hi _), Core.passed_retire (Core.flow_setS ..),
    Core.scalars_of_results (Core.results_retire _)⟩

theorem exec_mtos (hd : pairOk d = true) (a : Nat) :
    ∃ k', exec (.mtos c d a) s = .next (s.setCore c k') ∧ (s.core c).WrotePair k' d ((s.core c).getM a) := by
  refine ⟨_, ?_, Core.wrotePair_retire
    (k1 := ((((s.core c).setPair d ((s.core c).getM a)).validSAt d 2).validSAt (d + 1) 2).occupy unitVector 1)
    hd (by simp) (by simp)⟩
  change execMtos c d a s = _
  rw [execMtos, issueCore_of_canIssue hi, if_pos hd]
end

/-! ### Reductions (R118) -/

theorem sum_redLevel : (l : List Word) → (redLevel .sum l).1.sum = l.sum
  | [] | [_] => rfl
  | a :: b :: l => by
    have hl : (redLevel .sum (a :: b :: l)).1 = (a + b) :: (redLevel .sum l).1 := rfl
    rw [hl, List.sum_cons, sum_redLevel l, List.sum_cons, List.sum_cons, BitVec.add_assoc]

theorem length_redLevel (op : RedOp) : (l : List Word) → (redLevel op l).1.length = (l.length + 1) / 2
  | [] => rfl
  | [_] => by simp [redLevel]
  | a :: b :: l => by
    have hl : (redLevel op (a :: b :: l)).1 = (redPair op a b).1 :: (redLevel op l).1 := rfl
    rw [hl, List.length_cons, length_redLevel op l, List.length_cons, List.length_cons]
    omega

/-- Enough levels of the pairwise tree bring a list of words to its wrapping sum. -/
theorem headD_redTree_sum (n : Nat) (l : List Word) (h : l.length ≤ 2 ^ n) :
    (redTree .sum n l).1.headD 0#32 = l.sum := by
  induction n generalizing l with
  | zero =>
    match l, h with
    | [], _ => rfl
    | [w], _ => exact (BitVec.add_zero w).symm
  | succ n ih =>
    rw [Nat.pow_succ] at h
    have hlen := length_redLevel .sum l
    rw [← sum_redLevel, ← ih (redLevel .sum l).1 (by omega)]
    rfl

/-- The value of a reduction: the root of the tree over what each lane contributes. -/
def Core.reduced (k : Core) (op : RedOp) (a mk : Nat) : List Word × Events :=
  redTree op 6 ((List.range 64).map fun i =>
    if (k.getM mk).getLsbD i then redLane op (lane (k.getV a) i) else redIdentity op)

theorem exec_vectorReduction {c : Nat} {s : State} (hi : s.canIssue c = true) (op : RedOp) (d a mk : Nat) :
    ∃ k', exec (.vectorReduction c op d a mk) s = .next (s.setCore c k') ∧
      (s.core c).WroteLanes k' d fun j => if j = 0 then ((s.core c).reduced op a mk).1.headD 0#32 else 0#32 := by
  refine exec_laneResult hi (lat := 8) (occ := 1) (r := fun k =>
    ((k.reduced op a mk).1.headD 0#32 :: List.replicate 63 0#32, (k.reduced op a mk).2)) rfl fun j hj => ?_
  cases j with
  | zero => rfl
  | succ j => exact List.getD_replicate _ (by omega)

theorem Core.headD_reduced_sum (k : Core) (a mk : Nat) : (k.reduced .sum a mk).1.headD 0#32 =
    ((List.range 64).map fun j => if (k.getM mk).getLsbD j then lane (k.getV a) j else 0#32).sum :=
  headD_redTree_sum 6 _ (by rw [List.length_map, List.length_range]; decide)

/-! ### Rows of a tile (R117) -/

/-- An element after a row of 64 words is written (R59). -/
theorem Core.getAcc_setAccRow (k : Core) {t row u r j : Nat} {ws : List Word} (hws : ws.length = 64) (hrow : row < 32)
    (hr : r < 32) (hj : j < 64) :
    (k.setAccRow t row ws).getAcc u r j = if u = t ∧ r = row then ws.getD j 0#32 else k.getAcc u r j := by
  rw [Core.getAcc, Core.setAccRow, sget_accPut, hws]
  by_cases h : u = t ∧ r = row
  · obtain ⟨rfl, rfl⟩ := h
    rw [if_pos (by omega), if_pos ⟨rfl, rfl⟩]
    congr 1
    omega
  · rw [if_neg (by omega), if_neg h, Core.getAcc]

@[simp] theorem Core.flow_setAccRow (k : Core) (t row : Nat) (ws : List Word) : (k.setAccRow t row ws).flow = k.flow :=
  rfl

theorem Core.getAcc_of_acc {k k1 : Core} (h : k1.acc = k.acc) (t r j : Nat) : k1.getAcc t r j = k.getAcc t r j := by
  rw [Core.getAcc, Core.getAcc, h]

/-- A core whose results are those of `k` with other tile elements shows the change by its elements alone. -/
theorem Core.acc_of_results {k k1 : Core} {m : SMap Word} (h : k1.results = ({ k with acc := m } : Core).results) :
    k1.acc = m ∧ k1.results = ({ k with acc := k1.acc } : Core).results := by
  have hm : k1.acc = m := (congrArg Core.acc h : k1.results.acc = ({ k with acc := m } : Core).results.acc)
  exact ⟨hm, by rw [h, hm]⟩

section
variable {c d a b : Nat} {s : State} (hi : s.canIssue c = true)
include hi

/-- VACCW: the register to its row, and no other element, nor anything else of the core's results. -/
theorem exec_vaccw {row : Nat} (hb : ((s.core c).getS b).toNat = row) (hrow : row ≤ 31) :
    ∃ k', exec (.vaccw c d a b) s = .next (s.setCore c k') ∧ (s.core c).Passed k' ∧
      k'.acc = ((s.core c).setAccRow d row (lanes ((s.core c).getV a))).acc ∧
      k'.results = ({ s.core c with acc := k'.acc } : Core).results := by
  refine ⟨_, ?_, Core.passed_retire (k1 :=
    (((s.core c).setAccRow d row (lanes ((s.core c).getV a))).useTile d 3 0).occupy unitVector 1) (by simp),
    Core.acc_of_results ?_⟩
  · change execVaccw c d a b s = _
    simp only [execVaccw, issueCore_of_canIssue hi, hb]
    rw [if_neg (by omega)]
  · rw [Core.results_retire, Core.results_occupy, Core.results_useTile, Core.setAccRow]

theorem exec_accRow_outside (hrow : 31 < ((s.core c).getS b).toNat) {i : Instr}
    (h : i = .vaccw c d a b ∨ i = .vaccr c d a b) :
    exec i s = .next (s.setCore c ((s.core c).fault .operandShape 0)) := by
  rcases h with rfl | rfl
  · change execVaccw c d a b s = _
    rw [execVaccw, issueCore_of_canIssue hi, if_pos hrow]
  · change execVaccr c d a b s = _
    rw [execVaccr, issueCore_of_canIssue hi, if_pos hrow]
end

/-- Settles O11: each form ends in a vector, mask, scalar or row result; what the result holds lane by lane is the lemma of
its form. -/
theorem vectorInstructions : Obligations.VectorInstructions := by
  unfold Obligations.VectorInstructions
  refine ⟨?lanes, ⟨?masks, ?scalars⟩, ?reduction, ?rows⟩
  case lanes =>
    intro c d i f s hi k keep h
    rcases h with ⟨op, a, b, e, mk, rfl, hf⟩ | ⟨op, a, b, mk, imm, rfl, hf⟩ | ⟨a, mk, rfl, hf⟩ | ⟨a, b, mk, rfl, hf⟩ |
      ⟨mk, rfl, hf⟩ | ⟨a, b, mk, rfl, hf⟩ | ⟨a, ln, rfl, hf⟩ | ⟨a, b, rfl, hrow, hf⟩
    · exact exec_maskedLanes hi (g := fun k j => vfLane op (lane (k.getV a) j) (lane (k.getV b) j) (lane (k.getV e) j))
        rfl hf
    · exact exec_maskedLanes hi (g := fun k j => (viLane op (lane (k.getV a) j) (lane (k.getV b) j) imm, {})) rfl hf
    · exact exec_maskedLanes hi (g := fun k _ => (k.getS a, {})) rfl hf
    · exact exec_maskedLanes hi (g := fun k j => (lane (k.getV a) ((lane (k.getV b) j).toNat % 64), {})) rfl hf
    · exact exec_maskedLanes hi (g := fun _ j => (BitVec.ofNat 32 j, {})) rfl hf
    · exact exec_laneResult hi (r := fun k => (mergeLanes (k.getM mk) (lanes (k.getV a)) (lanes (k.getV b)), {})) rfl
        fun j hj => (getD_mergeLanes _ _ _ hj).trans (hf j).symm
    · exact exec_laneResult hi (r := fun k => ((lanes (k.getV d)).set (ln % 64) (k.getS a), {})) rfl
        fun j hj => (getD_lanes_set _ _ _ hj).trans (hf j).symm
    · obtain rfl : f = _ := funext hf
      exact exec_vaccr hi hrow
  case masks =>
    intro c d i f s hi k h
    rcases h with ⟨op, a, b, mk, rfl, hf⟩ | ⟨a, b, rfl, hf⟩ | ⟨a, b, rfl, hf⟩ | ⟨a, b, rfl, hf⟩ | ⟨a, b, rfl, hf⟩ |
      ⟨a, rfl, ha, hf⟩
    · exact exec_maskResult hi (x := fun k => maskOf fun j =>
        (k.getM mk).getLsbD j && vcLane op (lane (k.getV a) j) (lane (k.getV b) j)) rfl
        fun j hj => (getLsbD_maskOf _ hj).trans (hf j).symm
    · exact exec_maskLogic hi .and fun j _ => BitVec.getLsbD_and.trans (hf j).symm
    · exact exec_maskLogic hi .or fun j _ => BitVec.getLsbD_or.trans (hf j).symm
    · exact exec_maskLogic hi .xor fun j _ => BitVec.getLsbD_xor.trans (hf j).symm
    · refine exec_maskLogic hi .andn fun j hj => ?_
      rw [hf j, maskResult, BitVec.getLsbD_and, BitVec.getLsbD_not, decide_eq_true hj, Bool.true_and]
    · obtain rfl : f = _ := funext hf
      exact exec_stom hi ha
  case scalars =>
    intro c d i w s hi k
    refine ⟨fun h => ?_, fun a hd => exec_mtos hi hd a⟩
    rcases h with ⟨a, ln, rfl, rfl⟩ | ⟨a, rfl, rfl⟩
    · exact exec_scalarResult hi (w := fun k => lane (k.getV a) (ln % 64)) rfl
    · exact exec_scalarResult hi (w := fun k => BitVec.ofNat 32 (popCount (k.getM a))) rfl
  case reduction =>
    intro c d a mk op s hi k
    obtain ⟨k', hexec, hpassed, hlane, hother, hframe⟩ := exec_vectorReduction hi op d a mk
    refine ⟨k', hexec, hpassed, fun j h0 hj => ?_, fun hop => ?_, hother, hframe⟩
    · exact (hlane j hj).trans (if_neg (by omega))
    · rw [hop] at hlane
      exact (hlane 0 (by omega)).trans (Core.headD_reduced_sum ..)
  case rows =>
    intro c d a b s hi k row
    refine ⟨fun hrow _ => ?_, fun hrow i h => ⟨_, exec_accRow_outside hi hrow h, Core.raised_fault ..⟩⟩
    obtain ⟨k', hexec, hpassed, hacc, hframe⟩ := exec_vaccw (d := d) (a := a) hi rfl hrow
    have hget (t r j : Nat) (hr : r < 32) (hj : j < 64) : k'.getAcc t r j =
        if t = d ∧ r = row then lane (k.getV a) j else k.getAcc t r j := by
      rw [Core.getAcc_of_acc hacc, Core.getAcc_setAccRow _ (length_lanes _) (Nat.lt_succ_of_le hrow) hr hj,
        getD_lanes _ hj]
    refine ⟨k', hexec, hpassed, fun j hj => ?_, fun t r j hne hr hj => ?_, hframe⟩
    · rw [hget d row j (by omega) hj, if_pos ⟨rfl, rfl⟩]
    · rw [hget t r j hr hj, if_neg fun h => hne (Prod.ext h.1 h.2)]

end Sys2Proof.Machine
end

section
/-!
PROOFS. Matrix multiplication (spec/04 R101 to R103, R105): what MMA and MMAE leave in every element of their tiles.
-/
namespace Sys2Proof.Machine

/-! ### Operands and output elements (R101 to R103, R105) -/

theorem pairShape_rows {fa fb : Fmt} {sh : PairShape} (h : pairShape fa fb = some sh) : sh.rows = 32 ∨ sh.rows = 64 := by
  unfold pairShape at h
  dsimp only at h
  split_ifs at h <;> simp only [Option.some.injEq] at h <;> subst h <;> decide

/-- An MMA writes one tile or a pair of them (R101, R102). -/
theorem mmaDecode_rows {x : XFields} {esc : Bool} {d : MmaDec} (h : mmaDecode x esc = some d) :
    d.sh.rows = 32 ∨ d.sh.rows = 64 := by
  unfold mmaDecode at h
  dsimp only at h
  split at h
  · split at h
    next sh hsh =>
      split at h
      · obtain rfl := Option.some.inj h
        exact pairShape_rows hsh
      · cases h
    next => cases h
  · cases h

/-- One side of the escalation of an MMAE, none for an MMA. -/
def Core.mmaEsc (k : Core) (x : XFields) (esc : Bool) (o : Nat) : EscSide :=
  if esc then k.escSide (k.getS x.d).toNat o else EscSide.off

/-- The exact values of a row of the first operand, its marked blocks from their shadow (R105). -/
def Core.mmaA (k : Core) (d : MmaDec) (x : XFields) (esc : Bool) (row : Nat) : List FV :=
  rowValues k.pocket (k.desc (k.getS x.a).toNat) d.fa d.sa (k.mmaEsc x esc 0) row (k.getS x.c).toNat

/-- The exact values of a row of the second operand. -/
def Core.mmaB (k : Core) (d : MmaDec) (x : XFields) (esc : Bool) (col : Nat) : List FV :=
  rowValues k.pocket (k.desc (k.getS x.b).toNat) d.fb d.sb (k.mmaEsc x esc 32) col (k.getS x.c).toNat

/-- An output element: the groups of products of two rows of `kn` values onto the tile's element, or onto zero (R103). -/
def Core.mmaElem (k : Core) (d : MmaDec) (kn row col : Nat) (av bv : List FV) : Word :=
  let old := if d.init then 0#32 else k.getAcc (d.acc + row / 32) (row % 32) col
  if d.sh.int then
    BitVec.ofInt 32 (intGroups (kn / 32) (old.toInt, false) (List.zipWith (fun a b => fvInt a * fvInt b) av bv)).1
  else (accGroups d.sh.group (kn / d.sh.group) (old, {}) (List.zipWith fvMul av bv)).1

/-- The rows an MMA stores hold its output elements. -/
theorem mmaCompute_rows (k : Core) (d : MmaDec) (av bv : List (List FV)) (kn : Nat) :
    (mmaCompute k d av bv kn).1 = (List.range d.sh.rows).map fun i =>
      (d.acc + i / 32, i % 32, (List.range 64).map fun j => k.mmaElem d kn i j (av.getD i []) (bv.getD j [])) := by
  simp only [mmaCompute, List.map_map]
  refine List.map_congr_left fun i _ => ?_
  refine congrArg (fun ws => (d.acc + i / 32, i % 32, ws)) (List.map_congr_left fun j _ => ?_)
  exact apply_ite Prod.fst ..

/-- Bytes no instruction is still writing are read as they stand (R121). -/
theorem Core.readyImage_settled {k : Core} (h : ∀ w ∈ k.hazards, w.resUntil ≤ k.slot) (n : Nat) (sps : List Span) :
    k.readyImage n sps = (k.pocket, n) := by
  rw [Core.readyImage, List.filter_eq_nil_iff.2]
  · rfl
  · intro w hw
    simpa using h w hw

/-! ### Rows stored in the tiles (R56, R59) -/

/-- The core with rows of words stored in its tiles. -/
def Core.setRows (k : Core) (rs : List (Nat × Nat × List Word)) : Core :=
  rs.foldl (fun k t => k.setAccRow t.1 t.2.1 t.2.2) k

theorem Core.setRows_append (k : Core) (l m : List (Nat × Nat × List Word)) :
    k.setRows (l ++ m) = (k.setRows l).setRows m := List.foldl_append

theorem Core.setRows_singleton (k : Core) (t row : Nat) (ws : List Word) :
    k.setRows [(t, row, ws)] = k.setAccRow t row ws := rfl

/-- The core with the types an init of `d` sets (R102). -/
def Core.initTypes (k : Core) (d : MmaDec) : Core :=
  if d.init then d.tiles.foldl (fun k t => k.setAccType t d.sh.int) k else k

/-- The core with the tiles of `d` in use. -/
def Core.useTiles (k : Core) (d : MmaDec) (beats chain : Nat) : Core :=
  d.tiles.foldl (fun k t => k.useTile t beats chain) k

/-- What a fold's steps each leave unchanged, the fold does. -/
theorem foldl_unchanged {α β γ : Type} (g : α → γ) (f : α → β → α) (l : List β) (a : α)
    (h : ∀ a b, g (f a b) = g a) : g (l.foldl f a) = g a := by
  induction l generalizing a with
  | nil => rfl
  | cons b l ih => rw [List.foldl_cons, ih, h]

/-- What an MMA leaves alone: the slot's start, and the results without the tiles. -/
def Core.untiled (k : Core) : (Nat × Nat × List LoopEnt × Option Exc) × Core :=
  (k.flow, { k.results with acc := [], accInt := 0 })

theorem Core.untiled_setRows (k : Core) (rs : List (Nat × Nat × List Word)) : (k.setRows rs).untiled = k.untiled :=
  foldl_unchanged Core.untiled _ rs k fun _ _ => rfl

theorem Core.untiled_initTypes (k : Core) (d : MmaDec) : (k.initTypes d).untiled = k.untiled := by
  unfold Core.initTypes
  split
  · exact foldl_unchanged Core.untiled _ d.tiles k fun _ _ => rfl
  · rfl

theorem Core.acc_initTypes (k : Core) (d : MmaDec) : (k.initTypes d).acc = k.acc := by
  unfold Core.initTypes
  split
  · exact foldl_unchanged Core.acc _ d.tiles k fun _ _ => rfl
  · rfl

theorem Core.untiled_useTiles (k : Core) (d : MmaDec) (n ch : Nat) : (k.useTiles d n ch).untiled = k.untiled :=
  foldl_unchanged Core.untiled _ d.tiles k fun _ _ => rfl

theorem Core.acc_useTiles (k : Core) (d : MmaDec) (n ch : Nat) : (k.useTiles d n ch).acc = k.acc :=
  foldl_unchanged Core.acc _ d.tiles k fun _ _ => rfl

theorem Core.untiled_count (k : Core) (lat : Nat) (ev : Events) : (k.count lat ev).untiled = k.untiled := by
  rw [Core.untiled, Core.flow_count, Core.results_count, ← Core.untiled]

theorem Core.acc_count (k : Core) (lat : Nat) (ev : Events) : (k.count lat ev).acc = k.acc :=
  (congrArg Core.acc (k.results_count lat ev) : (k.count lat ev).results.acc = k.results.acc)

theorem Core.acc_retire (k : Core) : k.retire.acc = k.acc :=
  (congrArg Core.acc k.results_retire : k.retire.results.acc = k.results.acc)

/-- A core that differs from `k` in its tiles and in timing has passed `k`'s slot once it retires, and shows the change by
its tiles and their types alone. -/
theorem Core.passed_of_untiled {k k1 : Core} (h : k1.untiled = k.untiled) : k.Passed k1.retire ∧
    k1.retire.results = ({ k with acc := k1.retire.acc, accInt := k1.retire.accInt } : Core).results := by
  obtain ⟨hflow, hres⟩ := Prod.mk.inj h
  refine ⟨Core.passed_retire hflow, ?_⟩
  have hret := k1.results_retire
  have hint : k1.retire.accInt = k1.accInt := (congrArg Core.accInt hret : k1.retire.results.accInt = k1.results.accInt)
  rw [hret, k1.acc_retire, hint]
  exact congrArg (fun q : Core => { q with acc := k1.acc, accInt := k1.accInt }) hres

/-- Output row i of an MMA stored in its tile and row, for the first n rows: the elements of those rows, and no other. -/
theorem Core.getAcc_setRows (k : Core) (base : Nat) (w : Nat → Nat → Word) (n : Nat) {t r j : Nat} (hr : r < 32)
    (hj : j < 64) :
    (k.setRows ((List.range n).map fun i => (base + i / 32, i % 32, (List.range 64).map (w i)))).getAcc t r j =
      if base ≤ t ∧ 32 * (t - base) + r < n then w (32 * (t - base) + r) j else k.getAcc t r j := by
  induction n with
  | zero => rw [if_neg (by omega)]; rfl
  | succ n ih =>
    rw [List.range_succ (n := n), List.map_append, Core.setRows_append, List.map_singleton, Core.setRows_singleton,
      Core.getAcc_setAccRow _ (by simp) (Nat.mod_lt n (by decide)) hr hj, ih]
    by_cases h : t = base + n / 32 ∧ r = n % 32
    · have hn : 32 * (t - base) + r = n := by omega
      rw [if_pos h, if_pos (by omega), hn, getD_map_range hj]
    · rw [if_neg h]
      by_cases h' : base ≤ t ∧ 32 * (t - base) + r < n
      · rw [if_pos h', if_pos (by omega)]
      · rw [if_neg h', if_neg (by omega)]

/-! ### MMA and MMAE -/

/-- The rows of output elements an MMA stores, each with its tile and its row there. -/
def Core.mmaRows (k : Core) (d : MmaDec) (x : XFields) (esc : Bool) : List (Nat × Nat × List Word) :=
  (List.range d.sh.rows).map fun i => (d.acc + i / 32, i % 32, (List.range 64).map fun j =>
    k.mmaElem d (k.getS x.c).toNat i j (k.mmaA d x esc i) (k.mmaB d x esc j))

theorem mmaCompute_mmaRows (k : Core) (d : MmaDec) (x : XFields) (esc : Bool) :
    (mmaCompute k d ((List.range d.sh.rows).map (k.mmaA d x esc)) ((List.range 64).map (k.mmaB d x esc))
      (k.getS x.c).toNat).1 = k.mmaRows d x esc := by
  rw [mmaCompute_rows, Core.mmaRows]
  refine List.map_congr_left fun i hi => ?_
  refine congrArg (fun ws => (d.acc + i / 32, i % 32, ws)) (List.map_congr_left fun j hj => ?_)
  rw [getD_map_range (List.mem_range.1 hi), getD_map_range (List.mem_range.1 hj)]

/-- The tensor unit taken by an MMA of `kn` products deep, and its window of R121. -/
def Core.openMma (k : Core) (esc : Bool) (kn occ : Nat) (h : Hazard) : Core :=
  let k1 := k.occupy unitTensor occ
  { k1.openWindow h with mmaeKnown := if esc then k1.wall + 4 + (kn + 511) / 512 else k1.mmaeKnown }

theorem Core.untiled_openMma (k : Core) (esc : Bool) (kn occ : Nat) (h : Hazard) :
    (k.openMma esc kn occ h).untiled = k.untiled := rfl

theorem Core.acc_openMma (k : Core) (esc : Bool) (kn occ : Nat) (h : Hazard) : (k.openMma esc kn occ h).acc = k.acc :=
  rfl

/-- What an MMA does once its rows are stored and its types set: its tiles are in use, it counts, uses its unit and opens
its window. -/
def Core.endMma (k : Core) (d : MmaDec) (esc : Bool) (kn occ : Nat) (ev : Events) (h : Hazard) : Core :=
  ((k.useTiles d (occ + 10) (if d.sh.int then 2 else 1)).count (occ + 10) ev).openMma esc kn occ h

section
variable (k : Core) (d : MmaDec) (esc : Bool) (kn occ : Nat) (ev : Events) (h : Hazard)

theorem Core.untiled_endMma : (k.endMma d esc kn occ ev h).untiled = k.untiled := by
  rw [Core.endMma, Core.untiled_openMma, Core.untiled_count, Core.untiled_useTiles]

theorem Core.acc_endMma : (k.endMma d esc kn occ ev h).acc = k.acc := by
  rw [Core.endMma, Core.acc_openMma, Core.acc_count, Core.acc_useTiles]
end

/-- An MMA that reads no byte still being written stores its rows, sets its types and ends. -/
theorem Core.mmaRun_eq {k : Core} (h : ∀ w ∈ k.hazards, w.resUntil ≤ k.slot) (n : Nat) (d : MmaDec) (x : XFields)
    (esc : Bool) : ∃ occ ev w, k.mmaRun n d x esc =
      ((((k.setRows (k.mmaRows d x esc)).initTypes d).endMma d esc (k.getS x.c).toNat occ ev w).retire, n) := by
  unfold Core.mmaRun
  extract_lets +lift a b kn de ea eb reads im m av bv r e bad occ bound w
  have him : im = (k.pocket, n) := Core.readyImage_settled h n reads
  have hm : m = k.pocket := congrArg Prod.fst him
  have hav : av = (List.range d.sh.rows).map (k.mmaA d x esc) := by unfold av; rw [hm]; rfl
  have hbv : bv = (List.range 64).map (k.mmaB d x esc) := by unfold bv; rw [hm]; rfl
  have hr : r.1 = k.mmaRows d x esc := by
    unfold r
    rw [hav, hbv]
    exact mmaCompute_mmaRows ..
  refine ⟨occ, (r.2.add { badTrit := bad }).add { escal := e }, w, ?_⟩
  rw [← hr, him]
  rfl

/-- An MMA or MMAE whose checks pass, with no byte still being written, stores its rows of output elements; nothing else of
the core's results changes but the types of its tiles. -/
theorem exec_mma {c : Nat} {x : XFields} {esc : Bool} {d : MmaDec} {s : State} {k : Core} (hk : s.core c = k)
    (hi : s.canIssue c = true) (hd : mmaDecode x esc = some d) (hok : k.mmaFail d x esc = none)
    (hz : ∀ w ∈ k.hazards, w.resUntil ≤ k.slot) :
    ∃ k', exec (if esc then .mmae c x else .mma c x) s = .next (s.setCore c k') ∧ k.Passed k' ∧
      k'.acc = (k.setRows (k.mmaRows d x esc)).acc ∧
      k'.results = ({ k with acc := k'.acc, accInt := k'.accInt } : Core).results := by
  obtain ⟨occ, ev, w, hrun⟩ := Core.mmaRun_eq hz s.freeCount d x esc
  have hexec : exec (if esc then .mmae c x else .mma c x) s = mmaStep c x esc s := by cases esc <;> rfl
  simp only [mmaStep, issue_of_canIssue hi, hk, hd, hok, hrun, State.putCore_freeCount] at hexec
  obtain ⟨hpassed, hframe⟩ := Core.passed_of_untiled (k := k) (by
    rw [Core.untiled_endMma _ d esc (k.getS x.c).toNat occ ev w, Core.untiled_initTypes _ d,
      Core.untiled_setRows _ (k.mmaRows d x esc)])
  refine ⟨_, hexec, hpassed, ?_, hframe⟩
  rw [Core.acc_retire, Core.acc_endMma, Core.acc_initTypes]

/-- Settles O12: the rows an MMA stores, read back element by element. -/
theorem matrixMultiply : Obligations.MatrixMultiply := by
  unfold Obligations.MatrixMultiply
  intro c x esc d i s hi k hinstr hd hok hz kn de ea eb
  subst hinstr
  obtain ⟨k', hexec, hpassed, hacc, hframe⟩ := exec_mma rfl hi hd hok hz
  have hget (t r j : Nat) (hr : r < 32) (hj : j < 64) := (Core.getAcc_of_acc hacc t r j).trans
    (k.getAcc_setRows d.acc (fun i j => k.mmaElem d kn i j (k.mmaA d x esc i) (k.mmaB d x esc j)) d.sh.rows hr hj)
  have hrows := mmaDecode_rows hd
  refine ⟨k', hexec, hpassed, fun row hrow col hcol => ?_, fun t r col ht hr hcol => ?_, hframe⟩
  · have hidx : 32 * (d.acc + row / 32 - d.acc) + row % 32 = row := by omega
    have helem := hget (d.acc + row / 32) (row % 32) col (Nat.mod_lt row (by decide)) hcol
    rw [hidx, if_pos ⟨Nat.le_add_right .., hrow⟩] at helem
    exact helem
  · rw [hget t r col hr hcol, if_neg fun hin => ht ?_]
    rcases hrows with h32 | h64
    · rw [MmaDec.tiles, if_neg (by omega), List.mem_singleton]
      omega
    · rw [MmaDec.tiles, if_pos h64, List.mem_pair]
      omega

end Sys2Proof.Machine
end

section
/-!
PROOFS. Witnesses for vector and tensor instructions: a concrete core that meets the hypotheses of O11 and O12, each
clause run through its theorem.
-/
namespace Sys2Proof.Machine

/-! ### Vector instructions -/

/-- A device whose core 0 runs with 5 and 7 in lanes 0 and 1 of v1 and 3 in both of v2, lane 0 alone enabled in m1, 31, 32
and 7 in s2, s3 and s4, and 9 in the first element of row 31 of tile 0. -/
def State.vectorReady : State :=
  State.reset.setCore 0
    { running := true, s := [(2, 31#32), (3, 32#32), (4, 7#32)], m := [(1, 1#64)], acc := [(64 * 31, 9#32)],
      v := [(1, ofLanes [5#32, 7#32]), (2, ofLanes [3#32, 3#32])] }

theorem canIssue_vectorReady : State.vectorReady.canIssue 0 = true := by decide

theorem lane_vectorReady_one {j : Nat} (hj : j < 64) :
    lane ((State.vectorReady.core 0).getV 1) j = [5#32, 7#32].getD j 0#32 := lane_ofLanes _ hj

theorem lane_vectorReady_two {j : Nat} (hj : j < 64) :
    lane ((State.vectorReady.core 0).getV 2) j = [3#32, 3#32].getD j 0#32 := lane_ofLanes _ hj

/-- An integer add of v1 and v2 under m1: lane 0 is 8, and lane 1 of the destination stays. -/
theorem exec_vectorInteger_vectorReady : ∃ k', exec (.vectorInteger 0 .add 2 1 2 1 0) State.vectorReady =
    .next (State.vectorReady.setCore 0 k') ∧ lane (k'.getV 2) 0 = 8#32 ∧ lane (k'.getV 2) 1 = 3#32 := by
  obtain ⟨k', hexec, -, hlane, -⟩ := vectorInstructions.1 0 2 (.vectorInteger 0 .add 2 1 2 1 0) _ State.vectorReady
    canIssue_vectorReady (.inr (.inl ⟨.add, 1, 2, 1, 0, rfl, fun _ => rfl⟩))
  refine ⟨k', hexec, (hlane 0 (by decide)).trans ?_, (hlane 1 (by decide)).trans ?_⟩
  · rw [lane_vectorReady_one (by decide), lane_vectorReady_two (by decide)]
    decide
  · exact (if_neg (by decide)).trans (lane_vectorReady_two (by decide))

/-- Row 31, the last, of tile 0 to v3. -/
theorem exec_vaccr_vectorReady : ∃ k', exec (.vaccr 0 3 0 2) State.vectorReady =
    .next (State.vectorReady.setCore 0 k') ∧ lane (k'.getV 3) 0 = 9#32 := by
  obtain ⟨k', hexec, -, hlane, -⟩ := exec_vaccr (d := 3) (a := 0) (b := 2) canIssue_vectorReady (by decide)
  exact ⟨k', hexec, (hlane 0 (by decide)).trans (by decide)⟩

/-- An unsigned compare of v2 with v1 under m1: bit 0 is set, and bit 1, masked off, is not. -/
theorem exec_vectorCompare_vectorReady : ∃ k', exec (.vectorCompare 0 .cltu 2 2 1 1) State.vectorReady =
    .next (State.vectorReady.setCore 0 k') ∧ (k'.getM 2).getLsbD 0 = true ∧ (k'.getM 2).getLsbD 1 = false := by
  obtain ⟨k', hexec, -, hbit, -⟩ := vectorInstructions.2.1.1 0 2 (.vectorCompare 0 .cltu 2 2 1 1) _ State.vectorReady
    canIssue_vectorReady (.inl ⟨.cltu, 2, 1, 1, rfl, fun _ => rfl⟩)
  refine ⟨k', hexec, (hbit 2 0 (by decide)).trans ?_, (hbit 2 1 (by decide)).trans ?_⟩
  · rw [lane_vectorReady_one (by decide), lane_vectorReady_two (by decide)]
    decide
  · rw [lane_vectorReady_one (by decide), lane_vectorReady_two (by decide)]
    decide

/-- MPOP of m0, all of whose bits are set. -/
theorem exec_mpop_vectorReady : ∃ k', exec (.mpop 0 5 0) State.vectorReady =
    .next (State.vectorReady.setCore 0 k') ∧ k'.getS 5 = 64#32 := by
  obtain ⟨k', hexec, -, hget, -⟩ := (vectorInstructions.2.1.2 0 5 (.mpop 0 5 0) _ State.vectorReady
    canIssue_vectorReady).1 (.inr ⟨0, rfl, rfl⟩)
  exact ⟨k', hexec, (hget 5).trans (by decide)⟩

/-- m1 to the pair at s6. -/
theorem exec_mtos_vectorReady : ∃ k', exec (.mtos 0 6 1) State.vectorReady =
    .next (State.vectorReady.setCore 0 k') ∧ k'.getPair 6 = 1#64 := by
  obtain ⟨k', hexec, -, hpair, -⟩ := exec_mtos (d := 6) canIssue_vectorReady rfl 1
  exact ⟨k', hexec, hpair.trans (by decide)⟩

/-- The wrapping sum of every lane of v1. -/
theorem exec_vectorReduction_vectorReady : ∃ k', exec (.vectorReduction 0 .sum 3 1 0) State.vectorReady =
    .next (State.vectorReady.setCore 0 k') ∧ lane (k'.getV 3) 0 = 12#32 := by
  obtain ⟨k', hexec, -, -, hsum, -⟩ := vectorInstructions.2.2.1 0 3 1 0 .sum State.vectorReady canIssue_vectorReady
  refine ⟨k', hexec, (hsum rfl).trans ?_⟩
  rw [List.map_congr_left fun j hj => by
    rw [Core.getM_zero, lane_vectorReady_one (List.mem_range.1 hj)]]
  simp [List.range_succ]

/-- v1 to row 31 of tile 3. -/
theorem exec_vaccw_vectorReady : ∃ k', exec (.vaccw 0 3 1 2) State.vectorReady =
    .next (State.vectorReady.setCore 0 k') ∧ k'.getAcc 3 31 1 = 7#32 := by
  obtain ⟨k', hexec, -, hrow, -⟩ := (vectorInstructions.2.2.2 0 3 1 2 State.vectorReady canIssue_vectorReady).1
    (by decide) (by decide)
  exact ⟨k', hexec, (hrow 1 (by decide)).trans (lane_vectorReady_one (by decide))⟩

/-- A tile has no row 32. -/
theorem exec_vaccw_outside_vectorReady : exec (.vaccw 0 3 1 3) State.vectorReady =
    .next (State.vectorReady.setCore 0 ((State.vectorReady.core 0).fault .operandShape 0)) :=
  exec_accRow_outside canIssue_vectorReady (by decide) (.inl rfl)

/-! ### Matrix multiplication -/

/-- An operand descriptor at 0: every row the elements from 0x1000 on, the first bytes of which are 1 and 3, under the
scale byte 127 (a factor of 1) at 0x3000.  An escalation descriptor at 0x100: its first side has its mask at 0x2000, 4 bytes
a row, the one block of row 0 marked, and its shadow at 0x2800 (2.0 and zeros) under a factor of 1; its second side is
off. -/
def tensorPocket : Mem :=
  [(0, 0x1000), (8, 0x3000), (0x1000, 0x0301), (0x3000, 127), (0x100, 0x2000), (0x104, 4), (0x108, 0x10000),
   (0x110, 0x2800), (0x118, 0x2900), (0x2000, 1), (0x2800, 0x40), (0x2900, 127)].foldl
    (fun m w => writeLE m w.1 4 w.2) []

/-- A device whose core 0 runs with that pocket, 32 in s2 and the escalation descriptor at s3. -/
def State.tensorReady : State :=
  State.reset.setCore 0 { running := true, s := [(2, 32#32), (3, 0x100#32)], pocket := tensorPocket }

theorem canIssue_tensorReady : State.tensorReady.canIssue 0 = true := by decide

/-- The word of an MMA of INT8 by INT8 that starts from zero, both descriptors at s0, 32 products deep. -/
def mmaWord : XFields := { a := 0, b := 0, c := 2, d := 0, f1 := 8, f2 := 8, mod := 4 }

/-- What `mmaWord` decodes to. -/
def mmaWordDec : MmaDec :=
  { fa := .int8, fb := .int8, sh := ⟨true, 32, 1024, 32⟩, sa := false, sb := false, init := true, acc := 0 }

theorem mmaDecode_mmaWord : mmaDecode mmaWord false = some mmaWordDec := rfl

theorem mmaFail_mmaWord : (State.tensorReady.core 0).mmaFail mmaWordDec mmaWord false = none := by decide

/-- 1 × 1 + 3 × 3 in every element, and the other tiles as they were. -/
theorem exec_mma_tensorReady : ∃ k', exec (.mma 0 mmaWord) State.tensorReady =
    .next (State.tensorReady.setCore 0 k') ∧ k'.getAcc 0 31 63 = 10#32 ∧ k'.getAcc 1 0 0 = 0#32 := by
  obtain ⟨k', hexec, -, helem, hother, -⟩ := matrixMultiply 0 mmaWord false mmaWordDec (.mma 0 mmaWord)
    State.tensorReady canIssue_tensorReady rfl mmaDecode_mmaWord mmaFail_mmaWord (by decide)
  exact ⟨k', hexec, (helem 31 (by decide) 63 (by decide)).trans (by decide),
    (hother 1 0 0 (by decide) (by decide) (by decide)).trans (by decide)⟩

/-- The word of an MMAE of block-scaled INT4 by INT4 that starts from zero. -/
def mmaeWord : XFields := { a := 0, b := 0, c := 2, d := 3, f1 := 9, f2 := 9, mod := 28 }

/-- What `mmaeWord` decodes to. -/
def mmaeWordDec : MmaDec :=
  { fa := .int4, fb := .int4, sh := ⟨false, 32, 2048, 32⟩, sa := true, sb := true, init := true, acc := 0 }

theorem mmaDecode_mmaeWord : mmaDecode mmaeWord true = some mmaeWordDec := rfl

theorem mmaFail_mmaeWord : (State.tensorReady.core 0).mmaFail mmaeWordDec mmaeWord true = none := by decide

/-- Row 0, marked, multiplies the 2.0 of its shadow (2.0 × 1); row 1 its own elements (1 × 1 + 3 × 3). -/
theorem exec_mmae_tensorReady : ∃ k', exec (.mmae 0 mmaeWord) State.tensorReady =
    .next (State.tensorReady.setCore 0 k') ∧ k'.getAcc 0 0 0 = 0x40000000#32 ∧ k'.getAcc 0 1 0 = 0x41200000#32 := by
  obtain ⟨k', hexec, -, helem, -⟩ := matrixMultiply 0 mmaeWord true mmaeWordDec (.mmae 0 mmaeWord)
    State.tensorReady canIssue_tensorReady rfl mmaDecode_mmaeWord mmaFail_mmaeWord (by decide)
  exact ⟨k', hexec, (helem 0 (by decide) 0 (by decide)).trans (by decide),
    (helem 1 (by decide) 0 (by decide)).trans (by decide)⟩

end Sys2Proof.Machine
end

section
/-!
PROOFS. Queue commands that take effect, and the hot set (spec/06 R180 to R183, spec/10 R275, R278): what an ended
command and a released reference leave alone, bins sent to clearing, and the last line of a load.
-/
namespace Sys2Proof.Machine

/-! ### Commands held by the engine (R278) -/

theorem State.seq_of_hasCmd {s : State} {q : Nat} (h : s.hasCmd q = true) : (s.cmd q).seq = q := by
  simp only [State.hasCmd, Bool.and_eq_true, decide_eq_true_eq] at h
  exact h.2

theorem State.modCmd_eq {s : State} {q : Nat} (h : s.hasCmd q = true) (f : Cmd → Cmd) :
    s.modCmd q f = s.setCmd q (f (s.cmd q)) := by rw [State.modCmd, if_pos h]

/-- A command that keeps its number is still held. -/
theorem State.hasCmd_setCmd {s : State} {q : Nat} {c : Cmd} (h : s.hasCmd q = true) (hc : c.seq = q) :
    (s.setCmd q c).hasCmd q = true := by
  simp only [State.hasCmd, Bool.and_eq_true] at h ⊢
  rw [State.cmd_setCmd_same]
  exact ⟨h.1, decide_eq_true hc⟩

theorem State.hasCmd_of_cmds {s t : State} (h : t.que.cmds = s.que.cmds) (q : Nat) : t.hasCmd q = s.hasCmd q := by
  rw [State.hasCmd, State.hasCmd, State.cmd, State.cmd, h]

theorem State.cmd_of_cmds {s t : State} (h : t.que.cmds = s.que.cmds) (q : Nat) : t.cmd q = s.cmd q := by
  rw [State.cmd, State.cmd, h]

@[simp] theorem State.sbk_finish (s : State) (q st d : Nat) : (s.finish q st d).sbk = s.sbk := by
  unfold State.finish State.modCmd
  split <;> rfl

/-- A command whose effect ends with OK has ended so, if it met no other status. -/
theorem State.ended_finish {s : State} {q : Nat} (h : s.hasCmd q = true) (hst : (s.cmd q).status = stOK) (d : Nat) :
    (s.finish q stOK d).Ended q stOK := by
  rw [State.finish, State.modCmd_eq h, State.Ended, State.cmd_setCmd_same, Cmd.meet, hst, if_neg (lt_irrefl _)]
  exact ⟨rfl, hst⟩

/-- A command whose turn has come is run on the state in which it has started. -/
theorem State.Startable.runCmd_eq {s : State} {seq opc : Nat} (h : s.Startable seq opc) (f : Cmd → State → State) :
    runCmd seq opc s f = .next (f { s.cmd seq with phase := .running } (s.started seq)) := by
  obtain ⟨hcmd, hopc, -, hgo⟩ := h
  rw [runCmd, if_pos ⟨hcmd, hopc, hgo⟩, State.started]

section
variable {s : State} {seq opc : Nat} (h : s.Startable seq opc)
include h

theorem State.Startable.hasCmd_started : (s.started seq).hasCmd seq = true :=
  State.hasCmd_setCmd h.1 (State.seq_of_hasCmd h.1)

theorem State.Startable.status_started : ((s.started seq).cmd seq).status = stOK := by
  obtain ⟨-, -, hstatus, -⟩ := h
  rw [State.started, State.cmd_setCmd_same]
  exact hstatus

end

/-- A released reference changes objects only (R285). -/
theorem State.dropRef_frame (s : State) (i : Nat) :
    (s.dropRef i).sbk = s.sbk ∧ (s.dropRef i).que.cmds = s.que.cmds := by
  unfold State.dropRef State.settleObj
  dsimp only
  split
  · exact ⟨rfl, rfl⟩
  · split
    · exact ⟨rfl, rfl⟩
    · exact ⟨rfl, rfl⟩

/-! ### Bins and entries (R157, R176, R180) -/

theorem State.bin_of_sbk {s t : State} (h : t.sbk = s.sbk) (b : Nat) : t.bin b = s.bin b := by
  rw [State.bin, State.bin, h]

theorem State.hotEntry_of_sbk {s t : State} (h : t.sbk = s.sbk) (e : Nat) : t.hotEntry e = s.hotEntry e := by
  rw [State.hotEntry, State.hotEntry, h]

theorem State.bin_setBin (s : State) (b c : Nat) (x : Bin) : (s.setBin b x).bin c = if c = b then x else s.bin c :=
  sget_sput _ _ _ _

theorem State.hotEntry_setHot (s : State) (e j : Nat) (x : HotEntry) :
    (s.setHot e x).hotEntry j = if j = e then x else s.hotEntry j := sget_sput _ _ _ _

@[simp] theorem State.hotEntry_setHot_same (s : State) (e : Nat) (x : HotEntry) : (s.setHot e x).hotEntry e = x :=
  sget_sput_same _ _ _

/-- Bins leave their owner, one after another, and are to be cleared (R176). -/
def State.clearBins (s : State) (l : List Nat) : State := l.foldl (fun s b => s.toClearing b) s

theorem State.clearBins_frame (s : State) (l : List Nat) :
    (s.clearBins l).que = s.que ∧ (s.clearBins l).sbk.mem = s.sbk.mem :=
  List.foldlRecOn (motive := fun t : State => t.que = s.que ∧ t.sbk.mem = s.sbk.mem) l _ ⟨rfl, rfl⟩ fun _ ht _ _ => ht

theorem State.bin_clearBins_other {l : List Nat} {c : Nat} (h : c ∉ l) (s : State) :
    (s.clearBins l).bin c = s.bin c :=
  List.foldlRecOn (motive := fun t : State => t.bin c = s.bin c) l _ rfl fun t ht b hb => by
    rw [State.toClearing, State.bin_setBin, if_neg (by rintro rfl; exact h hb), ht]

/-- Every bin of the list ends in CLEARING without an owner, one listed twice too. -/
theorem State.bin_clearBins_mem {l : List Nat} {c : Nat} (h : c ∈ l) (s : State) :
    ((s.clearBins l).bin c).st = .clearing ∧ ((s.clearBins l).bin c).owner = 0 := by
  induction l generalizing s with
  | nil => exact absurd h List.not_mem_nil
  | cons b l ih =>
    by_cases hl : c ∈ l
    · exact ih hl (s.toClearing b)
    · obtain rfl : c = b := (List.mem_cons.1 h).resolve_right hl
      have hlast : (s.clearBins (c :: l)).bin c = (s.toClearing c).bin c := State.bin_clearBins_other hl _
      rw [hlast, State.toClearing, State.bin_setBin, if_pos rfl]
      exact ⟨rfl, rfl⟩

theorem State.dropHot_eq (s : State) (e : Nat) : s.dropHot e = (s.clearBins (s.hotEntry e).bins).setHot e {} := rfl

/-! ### The last line of a load (R181, R183) -/

/-- A repetition ends at the first step that does not go on. -/
theorem State.loop_stop {f : State → Bool × State} {s t : State} (h : f s = (false, t)) (n : Nat) :
    State.loop f (n + 1) s = t := by simp only [State.loop, h]

/-- A command begins to fill an entry. -/
def State.beginFill (s : State) (q e : Nat) : State :=
  let s := s.modCmd q fun c => { c with fill := some e }
  s.setHot e { s.hotEntry e with loading := true }

/-- The image of an entry has landed: the entry is resident, and its command fills nothing. -/
def State.endFill (s : State) (q e : Nat) : State :=
  let s := s.setHot e { s.hotEntry e with loading := false, resident := true, lastUse := s.toll }
  s.modCmd q fun c => { c with fill := none, pos := 0 }

/-- An entry that has its bins and whose image has landed becomes resident, and the command goes on. -/
theorem State.fillHot_landed {s : State} {c : Cmd} {e : Nat} (ready : State → State)
    (hkind : (s.obj (s.hotEntry e).obj).kind ≠ 3) (hbins : (s.hotEntry e).bins ≠ [])
    (hpos : ((s.beginFill c.seq e).obj (s.hotEntry e).obj).size ≤ ((s.beginFill c.seq e).cmd c.seq).pos) :
    s.fillHot c e ready = ready ((s.beginFill c.seq e).endFill c.seq e) := by
  unfold State.fillHot
  simp only [if_neg hkind, List.isEmpty_eq_false_iff.2 hbins, Bool.not_false, if_true, Bool.not_true,
    Bool.false_eq_true, if_false]
  change State.loop _ _ (s.beginFill c.seq e) = _
  exact State.loop_stop (if_pos hpos) _

section
variable {s : State} {q : Nat} (h : s.hasCmd q = true) (e : Nat)
include h

theorem State.beginFill_eq : s.beginFill q e =
    (s.setCmd q { s.cmd q with fill := some e }).setHot e { s.hotEntry e with loading := true } := by
  rw [State.beginFill, State.modCmd_eq h]
  rfl

theorem State.endFill_eq : s.endFill q e =
    (s.setHot e { s.hotEntry e with loading := false, resident := true, lastUse := s.toll }).setCmd q
      { s.cmd q with fill := none, pos := 0 } := by
  have hset : (s.setHot e { s.hotEntry e with loading := false, resident := true, lastUse := s.toll }).hasCmd q = true := h
  rw [State.endFill, State.modCmd_eq hset]
  rfl

theorem State.hasCmd_beginFill : (s.beginFill q e).hasCmd q = true := by
  rw [State.beginFill_eq h]
  exact State.hasCmd_setCmd h (State.seq_of_hasCmd h)

theorem State.cmd_beginFill : (s.beginFill q e).cmd q = { s.cmd q with fill := some e } := by
  rw [State.beginFill_eq h]
  exact State.cmd_setCmd_same ..

theorem State.obj_beginFill (i : Nat) : (s.beginFill q e).obj i = s.obj i := by
  rw [State.beginFill_eq h]
  rfl

theorem State.hasCmd_endFill : (s.endFill q e).hasCmd q = true := by
  rw [State.endFill_eq h]
  exact State.hasCmd_setCmd h (State.seq_of_hasCmd h)

theorem State.cmd_endFill : (s.endFill q e).cmd q = { s.cmd q with fill := none, pos := 0 } := by
  rw [State.endFill_eq h]
  exact State.cmd_setCmd_same ..

theorem State.hotEntry_endFill : (s.endFill q e).hotEntry e =
    { s.hotEntry e with loading := false, resident := true, lastUse := s.toll } := by
  rw [State.endFill_eq h]
  exact State.hotEntry_setHot_same ..

/-- Filling moves no byte of Seedbank but by the lines it lands. -/
theorem State.mem_endFill_beginFill : ((s.beginFill q e).endFill q e).sbk.mem = s.sbk.mem := by
  rw [State.endFill_eq (State.hasCmd_beginFill h e), State.beginFill_eq h]
  rfl

theorem State.bins_beginFill : ((s.beginFill q e).hotEntry e).bins = (s.hotEntry e).bins := by
  rw [State.beginFill_eq h, State.hotEntry_setHot_same]

end

/-! ### The three commands (R180, R183) -/

theorem exec_hotSet {seq : Nat} {s : State} (h : s.Startable seq 0x25)
    (hquota : (s.cmd seq).fld 0x14 2 1 = 0 ∨ (s.hotEntry ((s.cmd seq).fld 0x10 0 9)).pin = true ∨
      s.pinnedBins (s.cmd seq).vd + (s.hotEntry ((s.cmd seq).fld 0x10 0 9)).need ≤ s.hotQuota (s.cmd seq).vd) :
    exec (.hotSet seq) s = .next (((s.started seq).setHot ((s.cmd seq).fld 0x10 0 9)
      { s.hotEntry ((s.cmd seq).fld 0x10 0 9) with
        prio := (s.cmd seq).fld 0x14 0 2, pin := (s.cmd seq).fld 0x14 2 1 = 1 }).finish seq stOK 0) := by
  change execHotSet seq s = _
  rw [execHotSet, h.runCmd_eq]
  refine congrArg _ (if_neg ?_)
  rintro ⟨hpin, hnot, hover⟩
  rcases hquota with hzero | hpinned | hle
  · exact absurd (hzero.symm.trans (of_decide_eq_true hpin)) (by decide)
  · exact absurd ((congrArg not hpinned).symm.trans hnot) (by decide)
  · exact absurd hover (Nat.not_lt.2 hle)

theorem exec_hotRelease {seq : Nat} {s : State} (h : s.Startable seq 0x26) :
    exec (.hotRelease seq) s = .next ((((s.started seq).dropHot ((s.cmd seq).fld 0x10 0 9)).dropRef
      (s.hotEntry ((s.cmd seq).fld 0x10 0 9)).obj).finish seq stOK 0) := by
  change execHotRelease seq s = _
  rw [execHotRelease, h.runCmd_eq]
  rfl

theorem exec_hotLoad_landed {seq e : Nat} {s : State} (h : s.Startable seq 0x24) (hstalled : s.stalled seq = false)
    (hfill : (s.cmd seq).fill = some e) (hkind : (s.obj (s.hotEntry e).obj).kind ≠ 3)
    (hbins : (s.hotEntry e).bins ≠ []) (hpos : (s.obj (s.hotEntry e).obj).size ≤ (s.cmd seq).pos) :
    exec (.hotLoad seq) s =
      .next ((((s.started seq).beginFill seq e).endFill seq e).finish seq stOK 0) := by
  have hcmd := h.hasCmd_started
  change execHotLoad seq s = _
  rw [execHotLoad, runXCmd, if_neg (by simp [hstalled]), h.runCmd_eq]
  refine congrArg _ ?_
  obtain ⟨c, hc⟩ : ∃ c : Cmd, c = { s.cmd seq with phase := .running } := ⟨_, rfl⟩
  have hcs : (s.started seq).cmd seq = c := (State.cmd_setCmd_same ..).trans hc.symm
  have hseq : c.seq = seq := by rw [hc]; exact State.seq_of_hasCmd h.1
  have hcfill : c.fill = some e := by rw [hc]; exact hfill
  have hphase : c.phase = .running := by rw [hc]
  have hcpos : c.pos = (s.cmd seq).pos := by rw [hc]
  have hlanded := State.fillHot_landed (s := s.started seq) (c := c) (fun s => s.finish c.seq stOK 0) hkind hbins (by
    rw [hseq, State.obj_beginFill hcmd, State.cmd_beginFill hcmd, hcs, hcpos]
    exact hpos)
  rw [← hc]
  simp only [effHotLoad, hcfill, hcs, hseq, hphase, if_true]
  rwa [hseq] at hlanded

/-- Settles O22: each command by its equation, and what it leaves of the entry and of the bins. -/
theorem hotSetCommands : Obligations.HotSetCommands := by
  unfold Obligations.HotSetCommands
  refine ⟨?set, ?release, ?load⟩
  case set =>
    intro seq s h c e hquota
    refine ⟨_, exec_hotSet h hquota,
      State.ended_finish (s := (s.started seq).setHot e _) h.hasCmd_started h.status_started 0, ?_, fun j hj => ?_, ?_, ?_⟩
    · rw [State.hotEntry_of_sbk (State.sbk_finish ..), State.hotEntry_setHot_same]
    · rw [State.hotEntry_of_sbk (State.sbk_finish ..), State.hotEntry_setHot, if_neg hj]
      rfl
    · rw [State.sbk_finish]
      rfl
    · rw [State.sbk_finish]
      rfl
  case release =>
    intro seq s h e
    obtain ⟨hsbk, hcmds⟩ := ((s.started seq).dropHot e).dropRef_frame (s.hotEntry e).obj
    obtain ⟨hque, hmem⟩ := (s.started seq).clearBins_frame (s.hotEntry e).bins
    have hcmds : (((s.started seq).dropHot e).dropRef (s.hotEntry e).obj).que.cmds = (s.started seq).que.cmds :=
      hcmds.trans (congrArg _ hque)
    have hbin (b : Nat) : ((((s.started seq).dropHot e).dropRef (s.hotEntry e).obj).finish seq stOK 0).bin b =
        ((s.started seq).clearBins (s.hotEntry e).bins).bin b :=
      State.bin_of_sbk ((State.sbk_finish ..).trans hsbk) b
    refine ⟨_, exec_hotRelease h, State.ended_finish ?_ ?_ 0, ?_, fun b hb => ?_, fun b hb => ?_, ?_⟩
    · rw [State.hasCmd_of_cmds hcmds, h.hasCmd_started]
    · rw [State.cmd_of_cmds hcmds, h.status_started]
    · rw [State.hotEntry_of_sbk ((State.sbk_finish ..).trans hsbk), State.dropHot_eq, State.hotEntry_setHot_same]
    · rw [hbin]
      exact State.bin_clearBins_mem hb _
    · rw [hbin, State.bin_clearBins_other hb]
      rfl
    · rw [State.sbk_finish, hsbk]
      exact hmem
  case load =>
    intro seq e s h hstalled hfill hkind hbins hpos
    have hcmd := h.hasCmd_started
    have hbegun := State.hasCmd_beginFill hcmd e
    have hentry := State.hotEntry_endFill hbegun e
    refine ⟨_, exec_hotLoad_landed h hstalled hfill hkind hbins hpos,
      State.ended_finish (State.hasCmd_endFill hbegun e) ?_ 0, ?_, ?_, ?_, ?_⟩
    · rw [State.cmd_endFill hbegun, State.cmd_beginFill hcmd]
      exact h.status_started
    · rw [State.hotEntry_of_sbk (State.sbk_finish ..), hentry]
    · rw [State.hotEntry_of_sbk (State.sbk_finish ..), hentry]
    · rw [State.hotEntry_of_sbk (State.sbk_finish ..), hentry]
      exact State.bins_beginFill hcmd e
    · rw [State.sbk_finish]
      exact State.mem_endFill_beginFill hcmd e

end Sys2Proof.Machine
end

section
/-!
PROOFS. Seedbank requests, clearing and scrub (spec/06 R157, R158, R170, R173 to R177): what a line reads as after a
write, what an error's record leaves alone, and the region counters.
-/
namespace Sys2Proof.Machine

/-! ### Lines and their poison (R155, R174) -/

theorem leBytes_eq_map (n w : Nat) : leBytes n w = (List.range n).map fun i => BitVec.ofNat 8 (w / 2 ^ (8 * i)) := by
  induction n generalizing w with
  | zero => rfl
  | succ n ih =>
    rw [leBytes, ih, List.range_succ_eq_map, List.map_cons, List.map_map]
    refine congrArg₂ _ (by simp) (List.map_congr_left fun i _ => ?_)
    rw [Function.comp_apply, Nat.div_div_eq_div_mul, show (256 : Nat) = 2 ^ 8 by decide, ← Nat.pow_add,
      Nat.mul_succ, Nat.add_comm]

/-- A merge of all bytes is the new line (R174). -/
theorem mergeBytes_allOnes (old new : BitVec 512) : mergeBytes old new (BitVec.allOnes 64) = new := by
  have hbytes : ((List.range 64).map fun i => if (BitVec.allOnes 64).getLsbD i then
      BitVec.ofNat 8 (new.toNat / 2 ^ (8 * i)) else BitVec.ofNat 8 (old.toNat / 2 ^ (8 * i))) = leBytes 64 new.toNat := by
    rw [leBytes_eq_map]
    refine List.map_congr_left fun i hi => if_pos ?_
    rw [BitVec.getLsbD_allOnes, decide_eq_true_eq]
    exact List.mem_range.1 hi
  rw [mergeBytes, hbytes, leNat_leBytes, Nat.mod_eq_of_lt new.isLt, BitVec.ofNat_toNat, BitVec.setWidth_eq]

theorem readLine_writeLine_other (m : Mem) (x : BitVec 512) {p q : Nat} (h : q ≠ p) :
    readLine (writeLine m (64 * p) x) (64 * q) = readLine m (64 * q) := by
  rw [readLine, writeLine, writeLE, readLE_writeBytes_other (by rw [length_leBytes]; omega), readLine]

theorem State.sbLine_of_mem {s t : State} (hm : t.sbk.mem = s.sbk.mem) (hp : t.sbk.poison = s.sbk.poison) (q : Nat) :
    t.sbLine q = s.sbLine q := by rw [State.sbLine, State.sbLine, hm, hp]

theorem State.sbLine_of_sbk {s t : State} (h : t.sbk = s.sbk) (q : Nat) : t.sbLine q = s.sbLine q :=
  State.sbLine_of_mem (congrArg _ h) (congrArg _ h) q

@[simp] theorem State.sbLine_reply (s : State) (l : List DWord) (q : Nat) : (s.reply l).sbLine q = s.sbLine q := rfl
@[simp] theorem State.sbLine_setBin (s : State) (b : Nat) (x : Bin) (q : Nat) :
    (s.setBin b x).sbLine q = s.sbLine q := rfl

theorem State.sbLine_sbPut (s : State) (pa q : Nat) (d : BitVec 512) (p : Bool) :
    (s.sbPut pa d p).sbLine q = if q = pa then (d, p) else s.sbLine q := by
  rw [State.sbLine, State.sbPut]
  dsimp only
  by_cases hq : q = pa
  · rw [if_pos hq, hq, readLine_writeLine_same, sget_sput_same]
  · rw [if_neg hq, readLine_writeLine_other _ _ hq, sget_sput_ne _ _ hq, State.sbLine]

/-- Noting a write for the moves of its bin leaves lines, poison and bins as they were (R179). -/
theorem State.markFresh_markDirty_frame (s : State) (b l : Nat) :
    ((s.markDirty b l).markFresh b l).sbk.mem = s.sbk.mem ∧ ((s.markDirty b l).markFresh b l).sbk.poison = s.sbk.poison ∧
      ((s.markDirty b l).markFresh b l).sbk.bins = s.sbk.bins := by
  unfold State.markFresh State.markDirty
  split
  · split
    · exact ⟨rfl, rfl, rfl⟩
    · exact ⟨rfl, rfl, rfl⟩
  · split
    · exact ⟨rfl, rfl, rfl⟩
    · exact ⟨rfl, rfl, rfl⟩

/-! ### Records of errors touch no store (R440, R443) -/

@[simp] theorem State.sbk_raise (s : State) (f v : Nat) : (s.raise f v).sbk = s.sbk := by
  unfold State.raise
  split <;> rfl

@[simp] theorem State.sbk_raisePfs (s : State) (v : Nat) : (s.raisePfs v).sbk = s.sbk := by
  unfold State.raisePfs
  split <;> simp

@[simp] theorem State.sbk_raiseVd (s : State) (vd v : Nat) : (s.raiseVd vd v).sbk = s.sbk := by
  unfold State.raiseVd
  split
  · rfl
  · split <;> simp

@[simp] theorem State.sbk_ringPut (s : State) (a : ErrArgs) : (s.ringPut a).sbk = s.sbk := by
  unfold State.ringPut
  dsimp only
  split
  · rfl
  · split
    · rfl
    · split
      · rfl
      · exact State.sbk_raisePfs ..

@[simp] theorem State.sbk_vdRingPut (s : State) (a : ErrArgs) : (s.vdRingPut a).sbk = s.sbk := by
  unfold State.vdRingPut
  dsimp only
  split
  · rfl
  · split
    · rfl
    · exact State.sbk_raiseVd ..

@[simp] theorem State.sbk_record (s : State) (a : ErrArgs) : (s.record a).sbk = s.sbk := by
  unfold State.record
  dsimp only
  split <;> simp

/-- An error that starts no recovery changes nothing of Seedbank when it is logged. -/
theorem State.sbk_logErr (s : State) {a : ErrArgs} (hs : a.sev = sevCorrected ∨ a.sev = sevDeferred) :
    (s.logErr a).sbk = s.sbk := by
  have hfatal : a.sev ≠ sevFatal := by rcases hs with h | h <;> rw [h] <;> decide
  have hcontained : a.sev ≠ sevContained := by rcases hs with h | h <;> rw [h] <;> decide
  rw [State.logErr, if_neg hfatal, if_neg hcontained, State.sbk_record]

/-! ### Regions -/

theorem State.region_of_sbk {s t : State} (h : t.sbk = s.sbk) (p : Nat) : t.region p = s.region p := by
  rw [State.region, State.region, h]

@[simp] theorem State.region_setRegion_same (s : State) (p : Nat) (x : Region) : (s.setRegion p x).region p = x :=
  sget_sput_same _ _ _

theorem State.sbk_sbRefuse (s : State) (b : Nat) : (s.sbRefuse b).sbk = (s.setRegion (binPod b)
    { s.region (binPod b) with fail := satAdd 32 (s.region (binPod b)).fail 1 }).sbk :=
  State.sbk_logErr _ (.inr rfl)

theorem State.sbk_sbCorrected (s : State) (b : Nat) : (s.sbCorrected b).sbk = (s.setRegion (binPod b)
    { s.region (binPod b) with
      corr := satAdd 16 (s.region (binPod b)).corr 1, corrVf := satAdd 16 (s.region (binPod b)).corrVf 1 }).sbk :=
  State.sbk_logErr _ (.inl rfl)

@[simp] theorem State.region_setBin (s : State) (b p : Nat) (x : Bin) : (s.setBin b x).region p = s.region p := rfl
@[simp] theorem State.bin_setRegion (s : State) (p b : Nat) (x : Region) : (s.setRegion p x).bin b = s.bin b := rfl
@[simp] theorem State.region_sbPut (s : State) (pa p : Nat) (d : BitVec 512) (x : Bool) :
    (s.sbPut pa d x).region p = s.region p := by
  simp only [State.region, State.sbPut]
@[simp] theorem State.bins_sbPut (s : State) (pa : Nat) (d : BitVec 512) (x : Bool) :
    (s.sbPut pa d x).sbk.bins = s.sbk.bins := by simp only [State.sbPut]
@[simp] theorem State.bin_sbPut (s : State) (pa b : Nat) (d : BitVec 512) (x : Bool) :
    (s.sbPut pa d x).bin b = s.bin b := by
  simp only [State.bin, State.sbPut]

/-- An uncorrectable line of a bin is counted in its region and in the bin (R173, R175). -/
def State.countUncorr (s : State) (b : Nat) : State :=
  (s.setRegion (binPod b) { s.region (binPod b) with
    uncorr := satAdd 16 (s.region (binPod b)).uncorr 1, uncorrVf := satAdd 16 (s.region (binPod b)).uncorrVf 1 }).setBin b
    { s.bin b with unc := min 31 ((s.bin b).unc + 1), retReq := (s.bin b).retReq || min 31 ((s.bin b).unc + 1) ≥ 16 }

theorem State.region_countUncorr (s : State) (b : Nat) : (s.countUncorr b).region (binPod b) = { s.region (binPod b) with
    uncorr := satAdd 16 (s.region (binPod b)).uncorr 1,
    uncorrVf := satAdd 16 (s.region (binPod b)).uncorrVf 1 } := by
  rw [State.countUncorr, State.region_setBin, State.region_setRegion_same]

theorem State.bin_countUncorr (s : State) (b : Nat) : (s.countUncorr b).bin b =
    { s.bin b with unc := min 31 ((s.bin b).unc + 1), retReq := (s.bin b).retReq || min 31 ((s.bin b).unc + 1) ≥ 16 } := by
  rw [State.countUncorr, State.bin_setBin, if_pos rfl]

theorem State.sbk_sbUncorrectable (s : State) (b l : Nat) : (s.sbUncorrectable b l).sbk =
    { (s.countUncorr b).sbk with poison := sput false (physLine b l) true s.sbk.poison } :=
  State.sbk_logErr _ (.inr rfl)

/-! ### Requests (R157, R158, R170, R174) -/

section
variable {b l : Nat} {r : SbReq} {s : State}

theorem exec_seedbankRequest (hb : b < 512) (hl : l < 2 ^ 18) {a : SbAns} {t : State} (h : s.sbRequest b l r = (a, t)) :
    exec (.seedbankRequest b l r) s = .next (t.reply a.words) := by
  change execSeedbankRequest b l r s = _
  rw [execSeedbankRequest, if_pos ⟨hb, hl⟩, h]

theorem State.sbRequest_down (h : s.isDown (binDomain b) = true) :
    s.sbRequest b l r = (if r.vd = 0 then .wait else .targetReset, s) := by
  rw [State.sbRequest, if_pos h]

/-- Whether a request writes. -/
def opWrites : SbOp → Bool
  | .read => false
  | .write .. => true

/-- Whether a request writes all bytes of its line. -/
def opFull : SbOp → Bool
  | .read => false
  | .write _ be _ => be = BitVec.allOnes 64

variable (hup : s.isDown (binDomain b) = false)
include hup

theorem State.sbRequest_refused (h : (s.bin b).accepts r.vd r.hotOk r.newEpoch = false) :
    s.sbRequest b l r = (.refused, s.sbRefuse b) := by
  rw [State.sbRequest, if_neg (by simp [hup]), if_pos (by simp [h])]

theorem State.sbRequest_performed (h : (s.bin b).accepts r.vd r.hotOk r.newEpoch = true)
    (hwait : s.moveWaits b l (!opFull r.op) (opWrites r.op) = false) :
    s.sbRequest b l r = s.sbPerform b l r.op r.ecc := by
  obtain ⟨vd, hotOk, newEpoch, op, ecc⟩ := r
  rw [State.sbRequest, if_neg (by simp [hup]), if_neg (by simp [h])]
  refine if_neg (Bool.eq_false_iff.1 (Eq.trans ?_ hwait))
  cases op with
  | read => rfl
  | write d be p => rfl
end

theorem State.sbPerform_write {s : State} (b l : Nat) (d : BitVec 512) (be : DWord) (p : Bool)
    (h : (s.sbLine (physLine b l)).2 = false ∨ be = BitVec.allOnes 64) :
    s.sbPerform b l (.write d be p) .clean = (.done, ((s.sbPut (physLine b l)
      (mergeBytes (s.sbLine (physLine b l)).1 d be) p).markDirty b l).markFresh b l) := by
  by_cases hbe : be = BitVec.allOnes 64
  · simp only [State.sbPerform, hbe, if_true, mergeBytes_allOnes]
  · have hclean : (s.sbLine (physLine b l)).2 = false := h.resolve_right hbe
    simp only [State.sbPerform, if_neg hbe, State.sbEcc, hclean, Bool.false_eq_true, if_false]

theorem State.sbPerform_poisoned {s : State} (b l : Nat) (d : BitVec 512) {be : DWord} (p : Bool)
    (hbe : be ≠ BitVec.allOnes 64) (h : (s.sbLine (physLine b l)).2 = true) :
    s.sbPerform b l (.write d be p) .clean = (.poisoned, s) := by
  simp only [State.sbPerform, if_neg hbe, State.sbEcc, h, if_true]

/-! ### Clearing (R176, R177) -/

/-- A canonical map filtered by its keys reads as before at those kept, and as the default elsewhere. -/
theorem sget_filter_key {α : Type} [DecidableEq α] {d : α} {m : SMap α} (h : SMap.wf d m = true) (p : Nat → Bool)
    (k : Nat) : sget d (m.filter fun e => p e.1) k = if p k = true then sget d m k else d := by
  have hf := filter_wf h fun e => p e.1
  have hmem (v : α) : sget d (m.filter fun e => p e.1) k = v ∧ v ≠ d ↔ (sget d m k = v ∧ v ≠ d) ∧ p k = true := by
    rw [← SMap.mem_iff hf, List.mem_filter, SMap.mem_iff h]
  by_cases hv : sget d (m.filter fun e => p e.1) k = d
  · rw [hv]
    split
    · next hp =>
      by_contra hne
      exact hne ((hv.symm.trans ((hmem _).2 ⟨⟨rfl, Ne.symm hne⟩, hp⟩).1))
    · rfl
  · obtain ⟨⟨hval, -⟩, hp⟩ := (hmem _).1 ⟨rfl, hv⟩
    rw [if_pos hp, hval]

theorem sget_clearRange {α : Type} [DecidableEq α] {d : α} {m : SMap α} (h : SMap.wf d m = true) (lo hi k : Nat) :
    sget d (clearRange m lo hi) k = if lo ≤ k ∧ k < hi then d else sget d m k := by
  rw [clearRange, sget_filter_key h fun k => k < lo || hi ≤ k]
  by_cases hk : lo ≤ k ∧ k < hi
  · rw [if_pos hk, if_neg (by simp; omega)]
  · rw [if_neg hk, if_pos (by simp; omega)]

section
variable {s : State} (hm : Memory.wf s.sbk.mem = true) (hp : SMap.wf false s.sbk.poison = true)
include hm hp

theorem State.sbLine_zeroBin (b c : Nat) {l : Nat} (hl : l < 2 ^ 18) :
    (s.zeroBin b).sbLine (physLine c l) = if c = b then (0#512, false) else s.sbLine (physLine c l) := by
  have hbyte (a : Nat) : readByte (s.zeroBin b).sbk.mem a =
      if 64 * physLine b 0 ≤ a ∧ a < 64 * physLine (b + 1) 0 then 0#8 else readByte s.sbk.mem a := sget_clearRange hm ..
  have hpoison : sget false (s.zeroBin b).sbk.poison (physLine c l) =
      if physLine b 0 ≤ physLine c l ∧ physLine c l < physLine (b + 1) 0 then false
      else sget false s.sbk.poison (physLine c l) := sget_clearRange hp ..
  by_cases hc : c = b
  · rw [if_pos hc, State.sbLine, hpoison, if_pos (by simp only [physLine]; omega), readLine, readLE,
      readBytes_congr (m := []) fun j h1 h2 => (hbyte j).trans (if_pos (by simp only [physLine] at h1 h2 ⊢; omega)),
      ← readLE, readLE_nil]
  · rw [if_neg hc, State.sbLine, hpoison, if_neg (by simp only [physLine]; omega), readLine, readLE,
      readBytes_congr (m := s.sbk.mem) fun j h1 h2 => (hbyte j).trans
        (if_neg (by simp only [physLine] at h1 h2 ⊢; omega)), ← readLE, ← readLine, State.sbLine]

end

theorem exec_binClearComplete {b : Nat} {s : State} (hfirst : (s.clearingIn (binPod b)).head? = some b)
    (hup : s.isDown (binDomain b) = false) : exec (.binClearComplete b) s = .next ((s.zeroBin b).setBin b
      { s.bin b with st := if (s.bin b).retire then BinState.retired else BinState.free, owner := 0, hotId := 0,
                     retire := false, retReq := false }) := by
  change execBinClearComplete b s = _
  rw [execBinClearComplete, if_pos ⟨hfirst, hup⟩]

/-! ### Scrub (R175) -/

/-- The bin of a region that the scrub engine reads next. -/
def State.scrubBin (s : State) (p : Nat) : Nat := 4 * p + (s.region p).scrubPos / 2 ^ 18

/-- The line of it. -/
def State.scrubAt (s : State) (p : Nat) : Nat := (s.region p).scrubPos % 2 ^ 18

/-- What a read of the region's next line leaves, before the position moves on. -/
def State.scrubFinds (s : State) (p : Nat) (e : Ecc) : State :=
  match e with
  | .clean => s
  | .corrected => s.sbCorrected (s.scrubBin p)
  | .uncorrectable =>
    if (s.bin (s.scrubBin p)).st = BinState.free then
      ((s.countUncorr (s.scrubBin p)).sbPut (physLine (s.scrubBin p) (s.scrubAt p)) 0#512 false).logErr
        { unit := uSeedbank, index := p, sev := sevDeferred }
    else s.sbUncorrectable (s.scrubBin p) (s.scrubAt p)

section
variable {s : State} {p : Nat} (hpos : (s.region p).scrubPos < 2 ^ 20)
include hpos

theorem State.binPod_scrubBin : binPod (s.scrubBin p) = p := by
  rw [binPod, State.scrubBin]
  omega

theorem State.scrubFinds_corrected : (s.scrubFinds p .corrected).sbk = (s.setRegion p { s.region p with
    corr := satAdd 16 (s.region p).corr 1, corrVf := satAdd 16 (s.region p).corrVf 1 }).sbk := by
  rw [State.scrubFinds, State.sbk_sbCorrected, State.binPod_scrubBin hpos]

theorem State.scrubFinds_uncorrectable : ((s.scrubFinds p .uncorrectable).region p = { s.region p with
      uncorr := satAdd 16 (s.region p).uncorr 1, uncorrVf := satAdd 16 (s.region p).uncorrVf 1 }) ∧
    (s.scrubFinds p .uncorrectable).bin (s.scrubBin p) = (s.countUncorr (s.scrubBin p)).bin (s.scrubBin p) := by
  have hregion := s.region_countUncorr (s.scrubBin p)
  rw [State.binPod_scrubBin hpos] at hregion
  rw [State.scrubFinds]
  split
  · have hsbk := State.sbk_logErr ((s.countUncorr (s.scrubBin p)).sbPut (physLine (s.scrubBin p) (s.scrubAt p)) 0#512 false)
      (a := { unit := uSeedbank, index := p, sev := sevDeferred }) (.inr rfl)
    rw [State.region_of_sbk hsbk, State.bin_of_sbk hsbk, State.region_sbPut, State.bin_sbPut]
    exact ⟨hregion, rfl⟩
  · have hsbk := s.sbk_sbUncorrectable (s.scrubBin p) (s.scrubAt p)
    rw [State.region, State.bin, hsbk]
    exact ⟨hregion, rfl⟩

/-- No finding moves the scrub. -/
theorem State.scrubFinds_position (e : Ecc) : ((s.scrubFinds p e).region p).scrubPos = (s.region p).scrubPos ∧
    ((s.scrubFinds p e).region p).passStart = (s.region p).passStart ∧
    ((s.scrubFinds p e).region p).passes = (s.region p).passes := by
  cases e with
  | clean => exact ⟨rfl, rfl, rfl⟩
  | corrected =>
    rw [State.region_of_sbk (State.scrubFinds_corrected hpos), State.region_setRegion_same]
    exact ⟨rfl, rfl, rfl⟩
  | uncorrectable =>
    rw [(State.scrubFinds_uncorrectable hpos).1]
    exact ⟨rfl, rfl, rfl⟩

end

/-- An uncorrectable line of a FREE bin is cleared, one of another bin poisoned. -/
theorem State.sbLine_scrubFinds (s : State) (p : Nat) :
    ((s.bin (s.scrubBin p)).st = .free →
      (s.scrubFinds p .uncorrectable).sbLine (physLine (s.scrubBin p) (s.scrubAt p)) = (0#512, false)) ∧
    ((s.bin (s.scrubBin p)).st ≠ .free →
      ((s.scrubFinds p .uncorrectable).sbLine (physLine (s.scrubBin p) (s.scrubAt p))).2 = true ∧
      (s.scrubFinds p .uncorrectable).sbk.mem = s.sbk.mem) := by
  refine ⟨fun hfree => ?_, fun hfree => ?_⟩
  · rw [State.scrubFinds, if_pos hfree, State.sbLine_of_sbk (State.sbk_logErr _ (.inr rfl)), State.sbLine_sbPut, if_pos rfl]
  · rw [State.scrubFinds, if_neg hfree, State.sbLine, State.sbk_sbUncorrectable]
    exact ⟨sget_sput_same .., rfl⟩

theorem Region.advance_fields {r : Region} (h : r.scrubPos < 2 ^ 20) (toll : Nat) :
    (r.advance toll).scrubPos = (r.scrubPos + 1) % 2 ^ 20 ∧
      (r.advance toll).passes = (if r.scrubPos + 1 = 2 ^ 20 then (r.passes + 1) % 65536 else r.passes) ∧
      (r.advance toll).corr = r.corr ∧ (r.advance toll).uncorr = r.uncorr := by
  rw [Region.advance]
  by_cases hlast : r.scrubPos + 1 < regionLines
  · rw [if_pos hlast]
    rw [regionLines] at hlast
    exact ⟨by rw [Nat.mod_eq_of_lt (by omega)], by rw [if_neg (by omega)], rfl, rfl⟩
  · rw [if_neg hlast]
    rw [regionLines] at hlast
    have heq : r.scrubPos + 1 = 2 ^ 20 := by omega
    exact ⟨by rw [heq, Nat.mod_self], by rw [if_pos heq], rfl, rfl⟩

/-- The end of a scrub read that left the state `t`: a pass beyond its time is counted late, and the position moves on. -/
def State.scrubEnds (s t : State) (p : Nat) : State :=
  let q := t.region p
  let late := s.toll - q.passStart > ms (s.regField (baseSbk + 0x2000) 15 0)
  let u := if late ∧ q.lateCounted = false then { t with sbk := { t.sbk with late := satAdd 16 t.sbk.late 1 } } else t
  u.setRegion p ({ q with lateCounted := q.lateCounted || late }.advance s.toll)

theorem State.scrubEnds_inTime {s t : State} {p : Nat}
    (h : s.toll - (t.region p).passStart ≤ ms (s.regField (baseSbk + 0x2000) 15 0)) :
    s.scrubEnds t p = t.setRegion p ((t.region p).advance s.toll) := by
  have hlate : ¬ s.toll - (t.region p).passStart > ms (s.regField (baseSbk + 0x2000) 15 0) := Nat.not_lt.2 h
  rw [State.scrubEnds]
  simp only [hlate, false_and, if_false, decide_false, Bool.or_false]

theorem exec_scrubLine {p : Nat} {s : State} (e : Ecc) (hp : p < 128)
    (hon : s.regField (baseSbk + 0x2000) 31 31 = 1) (hidle : s.clearingIn p = []) (hup : s.isDown (p / 32) = false)
    (hpos : (s.region p).scrubPos < 2 ^ 20) :
    exec (.scrubLine p e false) s = .next (s.scrubEnds (s.scrubFinds p e) p) := by
  have hpod := State.binPod_scrubBin hpos
  change execScrubLine p e false s = _
  rw [execScrubLine, if_neg (by simp [hon, hidle, hup, hp])]
  refine congrArg Host.Outcome.next (congrArg (s.scrubEnds · p) ?_)
  cases e with
  | clean => rfl
  | corrected => rfl
  | uncorrectable =>
    simp only [State.scrubFinds, State.countUncorr, hpod]
    rfl

end Sys2Proof.Machine
end

section
/-!
PROOFS. The common arbiter, token regulation and shaped flows (spec/06 R167 to R171; spec/12 R333 to R336).
-/
namespace Sys2Proof.Machine

/-! ### The best of a list, the first of equals -/

/-- One step of a choice: the newcomer where it is better, else the one chosen so far. -/
def keepBest {α : Type} (better : α → α → Prop) [DecidableRel better] : Option α → α → Option α
  | none, h => some h
  | some x, h => if better h x then some h else some x

section
variable {α : Type} {better : α → α → Prop} [DecidableRel better] {R P : α → α → Prop}

/-- Where being chosen over another is a preorder R, the one chosen is so over all. -/
theorem foldl_keepBest (hrefl : ∀ x, R x x) (htrans : ∀ x y z, R x y → R y z → R x z)
    (hyes : ∀ x h, better h x → R h x) (hno : ∀ x h, P x h → ¬ better h x → R x h) {l : List α} (x : α)
    (hl : (x :: l).Pairwise P) :
    ∃ g ∈ x :: l, l.foldl (keepBest better) (some x) = some g ∧ ∀ y ∈ x :: l, R g y := by
  induction l generalizing x with
  | nil => exact ⟨x, List.mem_cons_self, rfl, fun y hy => by rw [List.mem_singleton.1 hy]; exact hrefl x⟩
  | cons h l ih =>
    obtain ⟨hxl, hhl⟩ := List.pairwise_cons.1 hl
    obtain ⟨hh, hl'⟩ := List.pairwise_cons.1 hhl
    rw [List.foldl_cons, keepBest]
    by_cases hb : better h x
    · obtain ⟨g, hg, hfold, hbest⟩ := ih h hhl
      rw [if_pos hb]
      refine ⟨g, List.mem_cons_of_mem _ hg, hfold, fun y hy => ?_⟩
      rcases List.mem_cons.1 hy with rfl | hy
      · exact htrans _ _ _ (hbest h List.mem_cons_self) (hyes _ _ hb)
      · exact hbest y hy
    · obtain ⟨g, hg, hfold, hbest⟩ :=
        ih x (List.pairwise_cons.2 ⟨fun y hy => hxl y (List.mem_cons_of_mem _ hy), hl'⟩)
      have hgx := hbest x List.mem_cons_self
      rw [if_neg hb]
      refine ⟨g, ?_, hfold, fun y hy => ?_⟩
      · rcases List.mem_cons.1 hg with rfl | hg
        · exact List.mem_cons_self
        · exact List.mem_cons_of_mem _ (List.mem_cons_of_mem _ hg)
      · rcases List.mem_cons.1 hy with rfl | hy
        · exact hgx
        · rcases List.mem_cons.1 hy with rfl | hy
          · exact htrans _ _ _ hgx (hno _ _ (hxl y List.mem_cons_self) hb)
          · exact hbest y (List.mem_cons_of_mem _ hy)

end

/-- The request of the lowest input. -/
def leastInput (l : List ArbHead) : Option ArbHead := l.foldl (keepBest fun h x => h.input < x.input) none

theorem leastInput_spec {l : List ArbHead} (h : l ≠ []) :
    ∃ g ∈ l, leastInput l = some g ∧ ∀ x ∈ l, g.input ≤ x.input := by
  obtain ⟨x, l, rfl⟩ := List.exists_cons_of_ne_nil h
  exact foldl_keepBest (R := fun g y => g.input ≤ y.input) (P := fun _ _ => True) (fun _ => le_refl _)
    (fun _ _ _ => le_trans) (fun _ _ => le_of_lt) (fun _ _ _ => le_of_not_gt) x (List.pairwise_of_forall fun _ _ => trivial)

/-- The class of the largest credit, the lowest of equals. -/
def bestClass (credit : Nat → Int) (cs : List Nat) : Option Nat := cs.foldl (keepBest fun c x => credit c > credit x) none

theorem bestClass_spec (credit : Nat → Int) {cs : List Nat} (h : cs ≠ []) (hs : cs.Pairwise (· < ·)) :
    ∃ g ∈ cs, bestClass credit cs = some g ∧ ∀ c ∈ cs, credit c < credit g ∨ (credit c = credit g ∧ g ≤ c) := by
  obtain ⟨x, cs, rfl⟩ := List.exists_cons_of_ne_nil h
  refine foldl_keepBest (R := fun g c => credit c < credit g ∨ (credit c = credit g ∧ g ≤ c)) (P := (· < ·))
    (fun _ => .inr ⟨rfl, le_refl _⟩) ?_ (fun _ _ => .inl) (fun x h hlt hb => ?_) x hs
  · intro x y z hxy hyz
    omega
  · omega

theorem mem_sortIns (key : Nat → Nat) (b x : Nat) (l : List Nat) : x ∈ sortIns key b l ↔ x = b ∨ x ∈ l := by
  induction l with
  | nil => simp [sortIns]
  | cons y l ih =>
    rw [sortIns]
    split
    · exact List.mem_cons
    · rw [List.mem_cons, ih, List.mem_cons, or_left_comm]

theorem mem_sortBy (key : Nat → Nat) (x : Nat) (l : List Nat) : x ∈ sortBy key l ↔ x ∈ l := by
  induction l with
  | nil => simp [sortBy]
  | cons b l ih =>
    have hcons : sortBy key (b :: l) = sortIns key b (sortBy key l) := rfl
    rw [hcons, mem_sortIns, ih, List.mem_cons]

/-! ### The choice by weights (R169, R334) -/

/-- The requests that the weights choose among: those of the upper tier, if there are any. -/
def State.contenders (s : State) (i : Nat) (l : List ArbHead) : List ArbHead :=
  if (l.filter fun h => !s.lowerTier i h).isEmpty then l else l.filter fun h => !s.lowerTier i h

theorem State.contenders_sub (s : State) {i : Nat} {l : List ArbHead} {h : ArbHead} (hh : h ∈ s.contenders i l) :
    h ∈ l := by
  rw [State.contenders] at hh
  split at hh
  · exact hh
  · exact List.mem_of_mem_filter hh

/-- Their tier. -/
def State.tier (s : State) (i : Nat) (l : List ArbHead) : Nat :=
  if (l.filter fun h => !s.lowerTier i h).isEmpty then 0 else 1

/-- A class's credit with the weight of this choice added. -/
def State.classCredit (s : State) (i res tier c : Nat) : Int :=
  sget 0 s.sbk.credit (32 * (256 * i + res) + 16 * tier + c) + s.classWeight c

/-- The classes that have a request in a list, in rising order. -/
def classesOf (l : List ArbHead) : List Nat := (List.range 16).filter fun c => l.any fun h => h.cls = c

theorem mem_classesOf {l : List ArbHead} {c : Nat} : c ∈ classesOf l ↔ c < 16 ∧ ∃ h ∈ l, h.cls = c := by
  simp [classesOf]

/-- The input of a class whose turn it is: the next above the last one granted, or the lowest. -/
def nextInput (last : Nat) (inputs : List Nat) : Option Nat :=
  (sortBy id (inputs.filter fun j => last < j)).head?.or (sortBy id inputs).head?

theorem nextInput_spec (last : Nat) {inputs : List Nat} (h : inputs ≠ []) :
    ∃ j ∈ inputs, nextInput last inputs = some j := by
  rw [nextInput]
  cases hnext : (sortBy id (inputs.filter fun j => last < j)).head? with
  | some j => exact ⟨j, List.mem_of_mem_filter ((mem_sortBy id j _).1 (List.mem_of_mem_head? hnext)), rfl⟩
  | none =>
    obtain ⟨x, hx⟩ := List.exists_mem_of_ne_nil _ h
    cases hlow : (sortBy id inputs).head? with
    | some j => exact ⟨j, (mem_sortBy id j _).1 (List.mem_of_mem_head? hlow), rfl⟩
    | none =>
      rw [List.head?_eq_none_iff] at hlow
      have hmem := (mem_sortBy id x inputs).2 hx
      rw [hlow] at hmem
      exact absurd hmem List.not_mem_nil

/-- The state in which an arbiter keeps other credits and other last inputs. -/
def State.withCredit (s : State) (credit : SMap Int) (lastIn : SMap Nat) : State :=
  { s with sbk := { s.sbk with credit := credit, lastIn := lastIn } }

/-- The contenders of a class. -/
def State.ofClass (s : State) (i : Nat) (l : List ArbHead) (c : Nat) : List ArbHead :=
  (s.contenders i l).filter fun h => h.cls = c

/-- The contender of a class whose turn it is. -/
def State.turnOf (s : State) (i res : Nat) (l : List ArbHead) (c : Nat) : Option ArbHead :=
  (nextInput (sget 0 s.sbk.lastIn (16 * (256 * i + res) + c)) ((s.ofClass i l c).map ArbHead.input)).bind fun j =>
    (s.ofClass i l c).find? fun h => h.input = j

theorem State.turnOf_spec {s : State} {i : Nat} (res : Nat) {l : List ArbHead} {c : Nat} (h : s.ofClass i l c ≠ []) :
    ∃ g ∈ s.contenders i l, g.cls = c ∧ s.turnOf i res l c = some g := by
  obtain ⟨j, hj, hnext⟩ := nextInput_spec (sget 0 s.sbk.lastIn (16 * (256 * i + res) + c)) (mt List.map_eq_nil_iff.1 h)
  obtain ⟨x, hx, hxj⟩ := List.mem_map.1 hj
  obtain ⟨g, hg⟩ := Option.isSome_iff_exists.1
    (List.find?_isSome (p := fun h : ArbHead => decide (h.input = j)).2 ⟨x, hx, decide_eq_true hxj⟩)
  obtain ⟨hmem, hcls⟩ := List.mem_filter.1 (List.mem_of_find?_eq_some hg)
  exact ⟨g, hmem, of_decide_eq_true hcls, by rw [State.turnOf, hnext, Option.bind_some, hg]⟩

theorem State.byWeights_eq {s : State} {i res : Nat} {l : List ArbHead} {c : Nat} {g : ArbHead}
    (hbest : bestClass (s.classCredit i res (s.tier i l)) (classesOf (s.contenders i l)) = some c)
    (hturn : s.turnOf i res l c = some g) : ∃ m k, s.byWeights i res l = (some g, s.withCredit m k) := by
  unfold State.byWeights
  dsimp only
  generalize hfold : List.foldl _ (none : Option Nat) _ = best
  have hc : best = some c := by
    rw [← hfold, ← hbest]
    refine congrArg (fun f => List.foldl f none (classesOf (s.contenders i l))) (funext₂ fun b c => ?_)
    cases b with
    | none => rfl
    | some x => rfl
  subst hc
  dsimp only
  generalize hpick : Option.bind _ _ = pick
  have hg : pick = some g := hpick.symm.trans hturn
  subst hg
  exact ⟨_, _, rfl⟩

/-- The weights grant a request of the class with the largest credit, the lowest class of equals. -/
theorem State.byWeights_spec {s : State} (i res : Nat) {l : List ArbHead} (hl : l ≠ []) (hcls : ∀ h ∈ l, h.cls < 16) :
    ∃ g m k, s.byWeights i res l = (some g, s.withCredit m k) ∧ g ∈ s.contenders i l ∧
      ∀ h ∈ s.contenders i l,
        s.classCredit i res (s.tier i l) h.cls < s.classCredit i res (s.tier i l) g.cls ∨
        (s.classCredit i res (s.tier i l) h.cls = s.classCredit i res (s.tier i l) g.cls ∧ g.cls ≤ h.cls) := by
  have hclass : ∀ h ∈ s.contenders i l, h.cls ∈ classesOf (s.contenders i l) := fun h hh =>
    mem_classesOf.2 ⟨hcls h (s.contenders_sub hh), h, hh, rfl⟩
  have hne : s.contenders i l ≠ [] := by
    rw [State.contenders]
    split
    · exact hl
    · next hup => exact fun h => hup (by rw [h]; rfl)
  obtain ⟨x, hx⟩ := List.exists_mem_of_ne_nil _ hne
  obtain ⟨c, hc, hbest, hmax⟩ := bestClass_spec (s.classCredit i res (s.tier i l)) (List.ne_nil_of_mem (hclass x hx))
    (List.pairwise_lt_range.filter _)
  obtain ⟨-, y, hy, hyc⟩ := mem_classesOf.1 hc
  obtain ⟨g, hg, hgc, hturn⟩ := State.turnOf_spec (s := s) (i := i) res (l := l) (c := c)
    (List.ne_nil_of_mem (List.mem_filter.2 ⟨hy, decide_eq_true hyc⟩))
  obtain ⟨m, k, heq⟩ := State.byWeights_eq hbest hturn
  exact ⟨g, m, k, heq, hg, fun h hh => hgc ▸ hmax h.cls (hclass h hh)⟩

/-! ### The grant of a resource (R169, R333) -/

/-- The wait of a request at its arbiter. -/
def State.waitOf (s : State) (i : Nat) (h : ArbHead) : Nat := sget 0 s.sbk.waits (waitKey i h.input)

/-- Has a request waited its class's threshold, if it has one? -/
def State.isLate (s : State) (i : Nat) (h : ArbHead) : Prop :=
  s.classThresh h.cls ≠ 0 ∧ s.classThresh h.cls ≤ s.waitOf i h

/-- The order of the choice: the saturated, then the longest wait of the late, then the weights. -/
structure State.Chosen (s : State) (i res : Nat) (l : List ArbHead) (g : ArbHead) : Prop where
  mem : g ∈ l
  saturated : (∃ h ∈ l, s.waitOf i h = 4095) → s.waitOf i g = 4095 ∧ ∀ h ∈ l, s.waitOf i h = 4095 → g.input ≤ h.input
  late : (∀ h ∈ l, s.waitOf i h ≠ 4095) → (∃ h ∈ l, s.isLate i h) → s.isLate i g ∧
    ∀ h ∈ l, s.isLate i h → s.waitOf i h < s.waitOf i g ∨ (s.waitOf i h = s.waitOf i g ∧ g.input ≤ h.input)
  weights : (∀ h ∈ l, s.waitOf i h ≠ 4095) → (∀ h ∈ l, ¬ s.isLate i h) → g ∈ s.contenders i l ∧
    ∀ h ∈ s.contenders i l,
      s.classCredit i res (s.tier i l) h.cls < s.classCredit i res (s.tier i l) g.cls ∨
      (s.classCredit i res (s.tier i l) h.cls = s.classCredit i res (s.tier i l) g.cls ∧ g.cls ≤ h.cls)

/-- The saturated requests of a list. -/
def State.saturatedOf (s : State) (i : Nat) (l : List ArbHead) : List ArbHead := l.filter fun h => s.waitOf i h = 4095

/-- The late ones. -/
def State.lateOf (s : State) (i : Nat) (l : List ArbHead) : List ArbHead :=
  l.filter fun h => s.classThresh h.cls ≠ 0 && s.waitOf i h ≥ s.classThresh h.cls

/-- Those of the late that have waited longest. -/
def State.longestOf (s : State) (i : Nat) (l : List ArbHead) : List ArbHead :=
  (s.lateOf i l).filter fun h => s.waitOf i h = ((s.lateOf i l).map (s.waitOf i)).foldl max 0

theorem State.mem_saturatedOf {s : State} {i : Nat} {l : List ArbHead} {h : ArbHead} :
    h ∈ s.saturatedOf i l ↔ h ∈ l ∧ s.waitOf i h = 4095 := by
  rw [State.saturatedOf, List.mem_filter, decide_eq_true_iff]

theorem State.mem_lateOf {s : State} {i : Nat} {l : List ArbHead} {h : ArbHead} :
    h ∈ s.lateOf i l ↔ h ∈ l ∧ s.isLate i h := by
  rw [State.lateOf, List.mem_filter, Bool.and_eq_true, decide_eq_true_iff, decide_eq_true_iff, State.isLate]

/-- The grant as a choice among three lists, each tried where the one before is empty. -/
theorem State.grantOne_eq (s : State) (i res : Nat) (l : List ArbHead) :
    s.grantOne i res l = (leastInput (s.saturatedOf i l)).elim
      ((leastInput (s.longestOf i l)).elim
        ((s.byWeights i res l).1.map fun h => (h, GrantBy.weights), (s.byWeights i res l).2)
        fun h => (some (h, .threshold), s))
      fun h => (some (h, .saturated), s) := by
  have hstep : (fun (b : Option ArbHead) (h : ArbHead) => match b with
      | none => some h
      | some x => if h.input < x.input then some h else b) = keepBest fun h x => h.input < x.input :=
    funext₂ fun b h => by cases b with
      | none => rfl
      | some x => rfl
  unfold State.grantOne
  dsimp only
  generalize hsat : List.foldl _ (none : Option ArbHead) _ = a
  have ha : a = leastInput (s.saturatedOf i l) :=
    hsat.symm.trans (congrArg (fun f => List.foldl f none (s.saturatedOf i l)) hstep)
  rw [← ha]
  cases a with
  | some h => rfl
  | none =>
    dsimp only
    generalize hlong : List.foldl _ (none : Option ArbHead) _ = a
    have ha : a = leastInput (s.longestOf i l) :=
      hlong.symm.trans (congrArg (fun f => List.foldl f none (s.longestOf i l)) hstep)
    rw [← ha]
    cases a with
    | some h => rfl
    | none =>
      obtain ⟨o, t⟩ := s.byWeights i res l
      cases o with
      | some h => rfl
      | none => rfl

theorem foldl_max_mem_cons (l : List Nat) (x : Nat) : l.foldl max x ∈ x :: l := by
  induction l generalizing x with
  | nil => exact List.mem_cons_self
  | cons y l ih =>
    rcases List.mem_cons.1 (ih (max x y)) with h | h
    · rcases max_choice x y with hm | hm
      · rw [List.foldl_cons, h, hm]
        exact List.mem_cons_self
      · rw [List.foldl_cons, h, hm]
        exact List.mem_cons_of_mem _ List.mem_cons_self
    · exact List.mem_cons_of_mem _ (List.mem_cons_of_mem _ h)

theorem foldl_max_mem {l : List Nat} (h : l ≠ []) : l.foldl max 0 ∈ l := by
  obtain ⟨x, l, rfl⟩ := List.exists_cons_of_ne_nil h
  rw [List.foldl_cons, Nat.zero_max]
  exact foldl_max_mem_cons l x

theorem State.longestOf_spec {s : State} {i : Nat} {l : List ArbHead} (h : s.lateOf i l ≠ []) :
    ∃ g ∈ s.lateOf i l, leastInput (s.longestOf i l) = some g ∧ ∀ x ∈ s.lateOf i l,
      s.waitOf i x < s.waitOf i g ∨ (s.waitOf i x = s.waitOf i g ∧ g.input ≤ x.input) := by
  obtain ⟨y, hy, htop⟩ := List.mem_map.1 (foldl_max_mem (mt List.map_eq_nil_iff.1 h))
  have hylong : y ∈ s.longestOf i l := List.mem_filter.2 ⟨hy, decide_eq_true htop⟩
  obtain ⟨g, hg, hleast, hlow⟩ := leastInput_spec (List.ne_nil_of_mem hylong)
  obtain ⟨hlate, hwait⟩ := List.mem_filter.1 hg
  have hwait := of_decide_eq_true hwait
  refine ⟨g, hlate, hleast, fun x hx => ?_⟩
  have hle : s.waitOf i x ≤ s.waitOf i g := hwait ▸ le_foldl_max (.inr (List.mem_map_of_mem hx))
  rcases hle.lt_or_eq with hlt | heq
  · exact .inl hlt
  · exact .inr ⟨heq, hlow x (List.mem_filter.2 ⟨hx, decide_eq_true (heq.trans hwait)⟩)⟩

/-- One request is granted, as the order of the choice says; besides, at most credits and last inputs change. -/
theorem State.grantOne_spec {s : State} (i res : Nat) {l : List ArbHead} (hl : l ≠ []) (hcls : ∀ h ∈ l, h.cls < 16) :
    ∃ g by_ m k, s.grantOne i res l = (some (g, by_), s.withCredit m k) ∧ s.Chosen i res l g := by
  rw [State.grantOne_eq]
  by_cases hsat : s.saturatedOf i l = []
  · have hnone : ∀ h ∈ l, s.waitOf i h ≠ 4095 := fun h hh hw =>
      List.not_mem_nil (hsat ▸ State.mem_saturatedOf.2 ⟨hh, hw⟩)
    have hno : ¬ ∃ h ∈ l, s.waitOf i h = 4095 := fun ⟨h, hh, hw⟩ => hnone h hh hw
    rw [hsat]
    by_cases hlate : s.lateOf i l = []
    · have hnot : ∀ h ∈ l, ¬ s.isLate i h := fun h hh hw => List.not_mem_nil (hlate ▸ State.mem_lateOf.2 ⟨hh, hw⟩)
      have hlong : s.longestOf i l = [] := by rw [State.longestOf, hlate, List.filter_nil]
      obtain ⟨g, m, k, heq, hmem, hmax⟩ := State.byWeights_spec (s := s) i res hl hcls
      refine ⟨g, .weights, m, k, ?_, ?_, fun h => absurd h hno, fun _ ⟨h, hh, hw⟩ => absurd hw (hnot h hh),
        fun _ _ => ⟨hmem, hmax⟩⟩
      · rw [hlong, heq]
        rfl
      · exact s.contenders_sub hmem
    · obtain ⟨g, hg, hleast, hlow⟩ := State.longestOf_spec hlate
      obtain ⟨hmem, hglate⟩ := State.mem_lateOf.1 hg
      refine ⟨g, .threshold, s.sbk.credit, s.sbk.lastIn, ?_, hmem, fun h => absurd h hno,
        fun _ _ => ⟨hglate, fun h hh hw => hlow h (State.mem_lateOf.2 ⟨hh, hw⟩)⟩,
        fun _ h => absurd hglate (h g hmem)⟩
      rw [hleast]
      rfl
  · obtain ⟨g, hg, hleast, hlow⟩ := leastInput_spec hsat
    obtain ⟨hmem, hwait⟩ := State.mem_saturatedOf.1 hg
    refine ⟨g, .saturated, s.sbk.credit, s.sbk.lastIn, ?_, hmem,
      fun _ => ⟨hwait, fun h hh hw => hlow h (State.mem_saturatedOf.2 ⟨hh, hw⟩)⟩,
      fun h => absurd hwait (h g hmem), fun h => absurd hwait (h g hmem)⟩
    rw [hleast]
    rfl

/-! ### Counting a grant and the waits (R168, R171, R335) -/

/-- The statistics of a class with one more grant of the wait. -/
def ArbStat.granted (a : ArbStat) (w : Nat) : ArbStat :=
  { grants := satAdd 32 a.grants 1, waitSum := satAdd 32 a.waitSum w, waitMax := max a.waitMax w }

/-- What a grant counts in the arbiter and in the feedback loop. -/
def State.countAtArbiter (s : State) (i : Nat) (h : ArbHead) : State :=
  { s with
    sbk := { s.sbk with
      stats := sput {} (16 * i + h.cls) ((sget {} s.sbk.stats (16 * i + h.cls)).granted (s.waitOf i h)) s.sbk.stats
      waits := sput 0 (waitKey i h.input) 0 s.sbk.waits }
    sch := { s.sch with
      profile := sput 0 (waitKey i h.input) 0 s.sch.profile
      wmax14 := if h.cls = 14 then max s.sch.wmax14 (s.waitOf i h) else s.sch.wmax14
      wmax15 := if h.cls = 15 then max s.sch.wmax15 (s.waitOf i h) else s.sch.wmax15 } }

/-- A class's counters of a VD with one more grant of the wait. -/
def ClassCnt.granted (c : ClassCnt) (lines w : Nat) (b : GrantBy) : ClassCnt :=
  { c with lines := satAdd 32 c.lines lines, wmax := max c.wmax w, late := satAdd 32 c.late (match b with
      | .threshold => 1
      | _ => 0) }

/-- The shaped flow that a grant belongs to, if its arbiter feeds one. -/
def flowOf (i : Nat) (h : ArbHead) : Option Nat :=
  if 128 ≤ i ∧ i < 256 then some (i - 128) else if 272 ≤ i ∧ h.share < 256 then some (128 + h.share) else none

/-- The granted lines fill slots of a shaped flow. -/
def State.addFlow (s : State) (quiet : Bool) (lines : Nat) : Option Nat → State
  | some f =>
    if quiet then { s with sch := { s.sch with flowReal := sput 0 f (sget 0 s.sch.flowReal f + lines) s.sch.flowReal } }
    else s
  | none => s

theorem State.addFlow_eq (s : State) (quiet : Bool) (lines : Nat) (f : Option Nat) :
    ∃ m, s.addFlow quiet lines f = { s with sch := { s.sch with flowReal := m } } := by
  cases f with
  | none => exact ⟨s.sch.flowReal, rfl⟩
  | some f =>
    cases quiet with
    | false => exact ⟨s.sch.flowReal, rfl⟩
    | true => exact ⟨_, rfl⟩

theorem State.countGrant_system {s : State} {h : ArbHead} (hv : h.vd = 0) (i : Nat) (b : GrantBy) :
    s.countGrant i h b = s.countAtArbiter i h := if_pos hv

theorem State.countGrant_vd {s : State} {h : ArbHead} (hv : h.vd ≠ 0) (i : Nat) (b : GrantBy) : s.countGrant i h b =
    ((s.countAtArbiter i h).setVd h.vd { s.vd h.vd with
      cls := sput {} h.cls ((sget {} (s.vd h.vd).cls h.cls).granted h.lines (s.waitOf i h) b) (s.vd h.vd).cls }).addFlow
        (s.vd h.vd).quiet h.lines (flowOf i h) := by
  refine (if_neg hv).trans ?_
  cases b with
  | saturated => rfl
  | threshold => rfl
  | weights => rfl

/-- Of Seedbank, a grant changes the statistics of its class at the arbiter and the wait of its input. -/
theorem State.sbk_countGrant (s : State) (i : Nat) (h : ArbHead) (b : GrantBy) :
    (s.countGrant i h b).sbk = (s.countAtArbiter i h).sbk := by
  by_cases hv : h.vd = 0
  · rw [State.countGrant_system hv]
  · rw [State.countGrant_vd hv]
    obtain ⟨m, hm⟩ := State.addFlow_eq ((s.countAtArbiter i h).setVd h.vd { s.vd h.vd with
      cls := sput {} h.cls ((sget {} (s.vd h.vd).cls h.cls).granted h.lines (s.waitOf i h) b) (s.vd h.vd).cls })
      (s.vd h.vd).quiet h.lines (flowOf i h)
    rw [hm]
    rfl

/-- A request not granted waits a cycle more. -/
def State.countWait (i : Nat) (s : State) (h : ArbHead) : State :=
  { s with sbk := { s.sbk with waits := sput 0 (waitKey i h.input) (min 4095 (s.waitOf i h + 1)) s.sbk.waits } }

theorem State.foldl_countWait_frame (i : Nat) (l : List ArbHead) (s : State) :
    (l.foldl (State.countWait i) s).sbk.mem = s.sbk.mem ∧ (l.foldl (State.countWait i) s).sbk.stats = s.sbk.stats :=
  List.foldlRecOn (motive := fun t : State => t.sbk.mem = s.sbk.mem ∧ t.sbk.stats = s.sbk.stats) l _ ⟨rfl, rfl⟩
    fun _ ht _ _ => ht

theorem State.waitOf_countWait (s : State) (i : Nat) (h x : ArbHead) :
    (s.countWait i h).waitOf i x = if x.input = h.input then min 4095 (s.waitOf i h + 1) else s.waitOf i x := by
  have hkey : waitKey i x.input = waitKey i h.input ↔ x.input = h.input := by
    simp only [waitKey]
    omega
  rw [State.waitOf, State.countWait]
  dsimp only
  rw [sget_sput]
  simp only [hkey]
  rfl

theorem State.waitOf_foldl_countWait_other {i : Nat} {l : List ArbHead} {x : ArbHead} (hx : x.input ∉ l.map ArbHead.input)
    (s : State) : (l.foldl (State.countWait i) s).waitOf i x = s.waitOf i x :=
  List.foldlRecOn (motive := fun t : State => t.waitOf i x = s.waitOf i x) l _ rfl fun t ht h hh => by
    have hne : x.input ≠ h.input := fun heq => hx (heq ▸ List.mem_map_of_mem hh)
    rw [State.waitOf_countWait, if_neg hne, ht]

/-- Each of a list of requests of different inputs waits one cycle more. -/
theorem State.waitOf_foldl_countWait {i : Nat} {l : List ArbHead} (hl : (l.map ArbHead.input).Nodup) {x : ArbHead}
    (hx : x ∈ l) (s : State) : (l.foldl (State.countWait i) s).waitOf i x = min 4095 (s.waitOf i x + 1) := by
  induction l generalizing s with
  | nil => exact absurd hx List.not_mem_nil
  | cons h l ih =>
    obtain ⟨hnot, hl⟩ := List.nodup_cons.1 hl
    rw [List.foldl_cons]
    rcases List.mem_cons.1 hx with rfl | hx
    · rw [State.waitOf_foldl_countWait_other hnot, State.waitOf_countWait, if_pos rfl]
    · have hne : x.input ≠ h.input := fun heq => hnot (heq ▸ List.mem_map_of_mem hx)
      rw [ih hl hx, State.waitOf_countWait, if_neg hne]

/-! ### A cycle of an arbiter of which all inputs want one resource (R168, R169) -/

/-- A request without a regulator meets none. -/
theorem State.foldl_profileOf_unshared {l : List ArbHead} (h : ∀ x ∈ l, x.share = 65535) (i : Nat) (s : State) :
    l.foldl (fun s x => s.profileOf i x) s = s :=
  List.foldlRecOn (motive := fun t : State => t = s) l _ rfl fun t ht x hx => by
    rw [State.profileOf, if_pos (.inr (.inl (h x hx))), ht]

/-- The cycle, where every request wants one resource and may be granted it. -/
theorem exec_arbiterGrant {idx res : Nat} {heads : List ArbHead} {s t u : State} {g : ArbHead} {b : GrantBy}
    (hidx : idx < 280) (hne : heads ≠ []) (hprofile : heads.foldl (fun s h => s.profileOf idx h) s = t)
    (hres : ∀ h ∈ heads, h.res = res ∧ t.eligible h = true) (hgrant : t.grantOne idx res heads = (some (g, b), u)) :
    exec (.arbiterGrant idx heads) s = .next ((heads.filter fun h => h.input ≠ g.input).foldl (State.countWait idx)
      (u.countGrant idx g b)) := by
  have hmap : heads.map ArbHead.res = List.replicate heads.length res :=
    List.map_eq_replicate_iff.2 fun h hh => (hres h hh).1
  have hall : (heads.filter fun h => h.res = res && t.eligible h) = heads :=
    List.filter_eq_self.2 fun h hh => by simp [hres h hh]
  change execArbiterGrant idx heads s = _
  rw [execArbiterGrant, if_neg (Nat.not_le.2 hidx)]
  simp only [hprofile, hmap, List.replicate_dedup (mt List.length_eq_zero_iff.1 hne), List.foldl_cons, List.foldl_nil,
    hall, hgrant]
  refine congrArg Host.Outcome.next (congrArg (fun l => List.foldl (State.countWait idx) (u.countGrant idx g b) l) ?_)
  exact List.filter_congr fun h _ => by simp

/-- Requests that meet no regulator are all of the upper tier. -/
theorem State.contenders_unshared {l : List ArbHead} (hl : l ≠ []) (h : ∀ x ∈ l, x.share = 65535) (s : State) (i : Nat) :
    s.contenders i l = l ∧ s.tier i l = 1 := by
  have hup : (l.filter fun x => !s.lowerTier i x) = l := List.filter_eq_self.2 fun x hx => by
    simp [State.lowerTier, h x hx]
  have hne : ¬ l.isEmpty = true := fun he => hl (List.isEmpty_iff.1 he)
  rw [State.contenders, State.tier, hup, if_neg hne, if_neg hne]
  exact ⟨rfl, rfl⟩

/-- After the cycle the request granted waits no more, every other one cycle more, and its grant is counted. -/
theorem State.granted_cycle {heads : List ArbHead} (hnodup : (heads.map ArbHead.input).Nodup) (u : State) (i : Nat)
    (g : ArbHead) (b : GrantBy) {s' : State}
    (hs' : s' = (heads.filter fun h => h.input ≠ g.input).foldl (State.countWait i) (u.countGrant i g b)) :
    s'.waitOf i g = 0 ∧ (∀ h ∈ heads, h.input ≠ g.input → s'.waitOf i h = min 4095 (u.waitOf i h + 1)) ∧
      sget {} s'.sbk.stats (16 * i + g.cls) = (sget {} u.sbk.stats (16 * i + g.cls)).granted (u.waitOf i g) ∧
      s'.sbk.mem = u.sbk.mem := by
  subst hs'
  obtain ⟨hmem, hstats⟩ := (u.countGrant i g b).foldl_countWait_frame i (heads.filter fun h => h.input ≠ g.input)
  have hwait (x : ArbHead) : (u.countGrant i g b).waitOf i x = if x.input = g.input then 0 else u.waitOf i x := by
    have hkey : waitKey i x.input = waitKey i g.input ↔ x.input = g.input := by
      simp only [waitKey]
      omega
    rw [State.waitOf, State.sbk_countGrant, State.countAtArbiter]
    dsimp only
    rw [sget_sput]
    simp only [hkey]
    rfl
  refine ⟨?_, fun h hh hne => ?_, ?_, ?_⟩
  · have hg : g.input ∉ (heads.filter fun h => h.input ≠ g.input).map ArbHead.input := by simp
    rw [State.waitOf_foldl_countWait_other hg, hwait, if_pos rfl]
  · have hsub := hnodup.sublist
      ((List.filter_sublist (p := fun h : ArbHead => decide (h.input ≠ g.input))).map ArbHead.input)
    rw [State.waitOf_foldl_countWait hsub (List.mem_filter.2 ⟨hh, decide_eq_true hne⟩), hwait, if_neg hne]
  · rw [hstats, State.sbk_countGrant, State.countAtArbiter, sget_sput_same]
  · rw [hmem, State.sbk_countGrant]
    rfl

/-! ### Tokens (R333) -/

/-- What a regulator's bucket holds now. -/
def State.tokenLevel (s : State) (key : Nat) : Nat :=
  min (2000 * s.tokenRate key)
    ((sget {} s.sch.buckets key).level + (s.toll - (sget {} s.sch.buckets key).at_) * s.tokenRate key)

/-- What is left of it when n lines have asked for their tokens. -/
def State.tokenLeft (s : State) (key n : Nat) : Nat :=
  if 64000 * n ≤ s.tokenLevel key then s.tokenLevel key - 64000 * n else s.tokenLevel key

theorem State.takeToken_eq (s : State) (key n : Nat) : s.takeToken key n = (decide (64000 * n ≤ s.tokenLevel key),
    { s with sch := { s.sch with
      buckets := sput {} key { level := s.tokenLeft key n, at_ := s.toll } s.sch.buckets } }) := by
  unfold State.takeToken State.tokenLeft State.tokenLevel
  by_cases hok : 64000 * n ≤ min (2000 * s.tokenRate key)
      ((sget {} s.sch.buckets key).level + (s.toll - (sget {} s.sch.buckets key).at_) * s.tokenRate key)
  · simp only [hok, decide_true, if_true]
  · simp only [hok, decide_false, if_false]

/-- The bucket after a request has asked for its tokens, and the profile that the answer gives the request. -/
def State.afterToken (s : State) (i : Nat) (h : ArbHead) : State :=
  { s with sch := { s.sch with
    buckets := sput {} h.share { level := s.tokenLeft h.share h.lines, at_ := s.toll } s.sch.buckets
    profile := sput 0 (waitKey i h.input) (if 64000 * h.lines ≤ s.tokenLevel h.share then 1 else 2) s.sch.profile } }

/-- A class's counters of a VD after a request has asked for its tokens. -/
def State.cntAfterToken (s : State) (h : ArbHead) : ClassCnt :=
  if 64000 * h.lines ≤ s.tokenLevel h.share then sget {} (s.vd h.vd).cls h.cls
  else { sget {} (s.vd h.vd).cls h.cls with
    demoted := satAdd 32 (sget {} (s.vd h.vd).cls h.cls : ClassCnt).demoted 1 }

theorem State.cntAfterToken_fields (s : State) (h : ArbHead) :
    (s.cntAfterToken h).demoted = (if 64000 * h.lines ≤ s.tokenLevel h.share then
        (sget ({} : ClassCnt) (s.vd h.vd).cls h.cls).demoted
      else min ((sget ({} : ClassCnt) (s.vd h.vd).cls h.cls).demoted + 1) (2 ^ 32 - 1)) ∧
    (s.cntAfterToken h).lines = (sget ({} : ClassCnt) (s.vd h.vd).cls h.cls).lines := by
  rw [State.cntAfterToken]
  split
  · exact ⟨rfl, rfl⟩
  · exact ⟨rfl, rfl⟩

/-- A GUARANTEED request of a VD takes its tokens, or is demoted and its demotion counted. -/
theorem State.profileOf_guaranteed {s : State} {i : Nat} {h : ArbHead} (hv : h.vd ≠ 0) (hshare : h.share ≠ 65535)
    (hkind : s.classKind h.cls = 1) (hnew : sget 0 s.sch.profile (waitKey i h.input) = 0) :
    s.profileOf i h = if 64000 * h.lines ≤ s.tokenLevel h.share then s.afterToken i h
      else (s.afterToken i h).setVd h.vd { s.vd h.vd with
        cls := sput {} h.cls (s.cntAfterToken h) (s.vd h.vd).cls } := by
  have hguard : ¬ (sget 0 s.sch.profile (waitKey i h.input) ≠ 0 ∨ h.share = 65535 ∨ s.classKind h.cls ≠ 1) := by
    simp [hnew, hshare, hkind]
  rw [State.profileOf, if_neg hguard, State.cntAfterToken, State.afterToken, State.takeToken_eq]
  by_cases hok : 64000 * h.lines ≤ s.tokenLevel h.share
  · simp only [hok, decide_true, true_or, if_true]
  · simp only [hok, decide_false, hv, or_false, Bool.false_eq_true, if_false]
    rfl

section
variable {s : State} {i : Nat} {h : ArbHead} (hv : h.vd ≠ 0)
include hv

/-- What a request's tokens leave: the bucket, its class's counters, and whether it may be granted. -/
theorem State.profileOf_effect (hshare : h.share ≠ 65535) (hkind : s.classKind h.cls = 1)
    (hnew : sget 0 s.sch.profile (waitKey i h.input) = 0) :
    (s.profileOf i h).eligible h = s.eligible h ∧
      (sget {} (s.profileOf i h).sch.buckets h.share).level = s.tokenLeft h.share h.lines ∧
      sget {} ((s.profileOf i h).vd h.vd).cls h.cls = s.cntAfterToken h := by
  have hbucket : (sget {} (s.afterToken i h).sch.buckets h.share).level = s.tokenLeft h.share h.lines := by
    rw [State.afterToken, sget_sput_same]
  rw [State.profileOf_guaranteed hv hshare hkind hnew]
  by_cases hok : 64000 * h.lines ≤ s.tokenLevel h.share
  · rw [if_pos hok, State.cntAfterToken, if_pos hok]
    exact ⟨rfl, hbucket, rfl⟩
  · rw [if_neg hok, State.vd_setVd_same, sget_sput_same]
    exact ⟨rfl, hbucket, rfl⟩

/-- A grant counts its lines and its wait for its VD, and takes no tokens. -/
theorem State.countGrant_counters (b : GrantBy) : (s.countGrant i h b).sch.buckets = s.sch.buckets ∧
    sget {} ((s.countGrant i h b).vd h.vd).cls h.cls =
      (sget {} (s.vd h.vd).cls h.cls).granted h.lines (s.waitOf i h) b := by
  rw [State.countGrant_vd hv]
  obtain ⟨m, hm⟩ := State.addFlow_eq ((s.countAtArbiter i h).setVd h.vd { s.vd h.vd with
    cls := sput {} h.cls ((sget {} (s.vd h.vd).cls h.cls).granted h.lines (s.waitOf i h) b) (s.vd h.vd).cls })
    (s.vd h.vd).quiet h.lines (flowOf i h)
  rw [hm]
  refine ⟨rfl, ?_⟩
  change sget {} (((s.countAtArbiter i h).setVd h.vd _).vd h.vd).cls h.cls = _
  rw [State.vd_setVd_same, sget_sput_same]

end

/-! ### Shaped flows (R336, R357) -/

/-- A frame sent changes Finwin only. -/
theorem State.transmit_frame (s : State) (p : Nat) (f : Frame) :
    (s.transmit p f).sch = s.sch ∧ (s.transmit p f).sbk = s.sbk ∧ (s.transmit p f).hbm = s.hbm := by
  unfold State.transmit
  dsimp only
  split
  · exact ⟨rfl, rfl, rfl⟩
  · exact ⟨rfl, rfl, rfl⟩

theorem State.fillFrame_frame (s : State) (p v : Nat) :
    (s.fillFrame p v).sch = s.sch ∧ (s.fillFrame p v).sbk = s.sbk ∧ (s.fillFrame p v).hbm = s.hbm := by
  unfold State.fillFrame
  split
  · exact ⟨rfl, rfl, rfl⟩
  · split
    · exact ⟨rfl, rfl, rfl⟩
    · exact State.transmit_frame ..

/-- A flow's window ends: its count starts again, and the slots that no request used are filled. -/
def State.endWindow (s : State) (f n : Nat) : State :=
  { s with sch := { s.sch with
    flowReal := sput 0 f 0 s.sch.flowReal
    flowFill := sput 0 f (sget 0 s.sch.flowFill f + (n - sget 0 s.sch.flowReal f)) s.sch.flowFill } }

theorem exec_shapedFlowWindow {f n : Nat} {s : State} (h : s.flowLines f = some n) :
    ∃ s', exec (.shapedFlowWindow f) s = .next s' ∧ s'.sch = (s.endWindow f n).sch ∧ s'.sbk = s.sbk ∧ s'.hbm = s.hbm := by
  change ∃ s', execShapedFlowWindow f s = .next s' ∧ _
  rw [execShapedFlowWindow, h]
  refine ⟨_, rfl, ?_⟩
  dsimp only
  split
  · exact (s.endWindow f n).fillFrame_frame ((f - 1024) / 128) ((f - 1024) % 128)
  · exact ⟨rfl, rfl, rfl⟩

end Sys2Proof.Machine
end

section
/-!
PROOFS. Seedbank and its arbiters, the statement (spec/06 R157, R158, R169 to R177; spec/12 R333 to R336).
-/
namespace Sys2Proof.Machine

/-- Settles O43: requests by what the bank answers, the cleared and the scrubbed bin by their equations, and an arbiter's
cycle by the order in which it chooses. -/
theorem seedbankAndArbiters : Obligations.SeedbankAndArbiters := by
  unfold Obligations.SeedbankAndArbiters
  refine ⟨⟨?request, ?clear, ?scrub⟩, ?grant, ?token, ?flow⟩
  case request =>
    intro b l r s hb hl
    refine ⟨fun hdown => ?_, fun hup hacc => ?_, fun hup hacc hecc =>
      ⟨fun hop hwait => ?_, fun d be p hop hwait hclean => ?_, fun d be p hop hbe hwait hpoison => ?_⟩⟩
    · rw [exec_seedbankRequest hb hl (State.sbRequest_down hdown)]
      by_cases hv : r.vd = 0
      · rw [if_pos hv, if_pos hv]
        rfl
      · rw [if_neg hv, if_neg hv]
        rfl
    · have hsbk : ((s.sbRefuse b).reply SbAns.refused.words).sbk = _ := State.sbk_sbRefuse s b
      refine ⟨_, exec_seedbankRequest hb hl (State.sbRequest_refused hup hacc), rfl, ?_, ?_, ?_⟩
      · rw [hsbk]
        rfl
      · rw [hsbk]
        rfl
      · rw [State.region_of_sbk hsbk, State.region_setRegion_same]
        rfl
    · have hperf := State.sbRequest_performed hup hacc (by rw [hop]; exact hwait)
      rw [hop, hecc] at hperf
      exact exec_seedbankRequest hb hl hperf
    · have hperf := State.sbRequest_performed hup hacc (by
        rw [hop, opFull, opWrites, ← decide_not]
        exact hwait)
      rw [hop, hecc, State.sbPerform_write b l d be p hclean] at hperf
      obtain ⟨hmem, hpois, hbins⟩ := (s.sbPut (physLine b l)
        (mergeBytes (s.sbLine (physLine b l)).1 d be) p).markFresh_markDirty_frame b l
      refine ⟨_, exec_seedbankRequest hb hl hperf, rfl, ?_, fun q hq => ?_,
        hbins.trans (State.bins_sbPut ..)⟩
      · rw [State.sbLine_reply, State.sbLine_of_mem hmem hpois, State.sbLine_sbPut, if_pos rfl]
      · rw [State.sbLine_reply, State.sbLine_of_mem hmem hpois, State.sbLine_sbPut, if_neg hq]
    · have hperf := State.sbRequest_performed hup hacc (by
        rw [hop, opFull, opWrites, decide_eq_false hbe]
        exact hwait)
      rw [hop, hecc, State.sbPerform_poisoned b l d p hbe hpoison] at hperf
      exact exec_seedbankRequest hb hl hperf
  case clear =>
    intro b s hfirst hup hmem hpoison
    refine ⟨_, exec_binClearComplete hfirst hup, ?_, ?_, fun l hl => ?_, fun c l hc hl => ?_, fun c hc => ?_⟩
    · rw [State.bin_setBin, if_pos rfl]
    · rw [State.bin_setBin, if_pos rfl]
    · rw [State.sbLine_setBin, State.sbLine_zeroBin hmem hpoison b b hl, if_pos rfl]
    · rw [State.sbLine_setBin, State.sbLine_zeroBin hmem hpoison b c hl, if_neg hc]
    · rw [State.bin_setBin, if_neg hc]
      rfl
  case scrub =>
    intro p e s hp hon hidle hup hpos htime r b pa
    obtain ⟨hsamePos, hstart, hpasses⟩ := State.scrubFinds_position hpos e
    have hexec := exec_scrubLine e hp hon hidle hup hpos
    rw [State.scrubEnds_inTime (by rw [hstart, ms, Nat.mul_comm]; exact htime)] at hexec
    obtain ⟨hnext, hpass, hcorr, huncorr⟩ := Region.advance_fields (hsamePos ▸ hpos) s.toll
    have hregion := State.region_setRegion_same (s.scrubFinds p e) p (((s.scrubFinds p e).region p).advance s.toll)
    rw [hsamePos] at hnext hpass
    rw [hpasses] at hpass
    refine ⟨_, hexec, by rw [hregion, hnext], by rw [hregion, hpass], ?_, ?_, ?_⟩
    · rintro rfl
      exact ⟨rfl, rfl, by rw [hregion, hcorr]; rfl⟩
    · rintro rfl
      have hsbk := State.scrubFinds_corrected hpos
      have hmem : (s.scrubFinds p .corrected).sbk.mem = s.sbk.mem := by rw [hsbk]; rfl
      exact ⟨hmem, by rw [hregion, hcorr, State.region_of_sbk hsbk, State.region_setRegion_same]; rfl⟩
    · rintro rfl
      obtain ⟨hfound, hbin⟩ := State.scrubFinds_uncorrectable hpos
      obtain ⟨hfree, hheld⟩ := s.sbLine_scrubFinds p
      refine ⟨by rw [hregion, huncorr, hfound]; rfl, ?_, hfree, hheld⟩
      rw [State.bin_setRegion]
      exact congrArg Bin.unc (hbin.trans (s.bin_countUncorr _))
  case grant =>
    intro idx res heads s hidx hne hnodup hheads wait late credit
    have hunshared : ∀ x ∈ heads, x.share = 65535 := fun x hx => (hheads x hx).2.1
    obtain ⟨g, by_, m, k, hgrant, hchosen⟩ :=
      State.grantOne_spec (s := s) idx res hne fun x hx => (hheads x hx).2.2.1
    obtain ⟨hcontenders, htier⟩ := State.contenders_unshared hne hunshared s idx
    obtain ⟨hwait, hothers, hstats, hmem⟩ :=
      State.granted_cycle hnodup (s.withCredit m k) idx g by_ rfl
    refine ⟨_, g, exec_arbiterGrant hidx hne (State.foldl_profileOf_unshared hunshared idx s)
      (fun x hx => ⟨(hheads x hx).1, (hheads x hx).2.2.2⟩) hgrant, hchosen.mem, hwait, hothers, ?_,
      hchosen.saturated, hchosen.late, fun h1 h2 => ?_, hmem⟩
    · rw [hstats]
      rfl
    · obtain ⟨-, hmax⟩ := hchosen.weights h1 h2
      rw [hcontenders, htier] at hmax
      exact hmax
  case token =>
    intro idx h s hidx hv hshare helig hkind hnew b level
    obtain ⟨hdemoted, hlines⟩ := s.cntAfterToken_fields h
    obtain ⟨heligible, hbucket, hcnt⟩ := State.profileOf_effect hv hshare hkind hnew
    have hcls : h.cls < 16 := by
      by_contra hge
      rw [State.classKind, if_pos (by omega)] at hkind
      exact absurd hkind (by decide)
    obtain ⟨g, by_, m, k, hgrant, hchosen⟩ := State.grantOne_spec (s := s.profileOf idx h) idx h.res
      (List.cons_ne_nil h []) fun x hx => by rwa [List.mem_singleton.1 hx]
    obtain rfl : g = h := List.mem_singleton.1 hchosen.mem
    have hexec := exec_arbiterGrant (heads := [g]) hidx (List.cons_ne_nil g []) rfl
      (fun x hx => by rw [List.mem_singleton.1 hx]; exact ⟨rfl, heligible.trans helig⟩) hgrant
    obtain ⟨hbuckets, hcounted⟩ :=
      State.countGrant_counters (s := (s.profileOf idx g).withCredit m k) (i := idx) hv by_
    have hcnt : sget {} (((s.profileOf idx g).withCredit m k).vd g.vd).cls g.cls = s.cntAfterToken g := hcnt
    rw [List.filter_eq_nil_iff.2 (by simp), List.foldl_nil] at hexec
    refine ⟨_, hexec, ?_, ?_, ?_⟩
    · rw [hbuckets]
      exact hbucket
    · rw [hcounted, hcnt]
      exact hdemoted
    · rw [hcounted, hcnt, ← hlines]
      rfl
  case flow =>
    intro f n s hlines
    obtain ⟨s', hexec, hsch, hsbk, hhbm⟩ := exec_shapedFlowWindow hlines
    refine ⟨s', hexec, ?_, ?_, fun j hj => ?_, hsbk, hhbm⟩
    · rw [hsch, State.endWindow, sget_sput_same]
    · rw [hsch, State.endWindow, sget_sput_same]
    · rw [hsch, State.endWindow, sget_sput_ne _ _ hj, sget_sput_ne _ _ hj]
      exact ⟨rfl, rfl⟩

end Sys2Proof.Machine
end

section
/-!
PROOFS. Witnesses for hot-set commands, Seedbank and its arbiters: concrete states that meet the hypotheses of O22 and
O43, each clause run through its theorem.
-/
namespace Sys2Proof.Machine

/-! ### Hot-set commands -/

/-- A device with entry 3 of VD 1, which holds bin 5, and a command of VD 1 that runs. -/
def State.hotReady (c : Cmd) : State :=
  (State.reset.setHot 3 { used := true, vd := 1, need := 1, bins := [5], loading := true }).setCmd 9 c

/-- A HOT_SET of entry 3 to priority 2, unpinned. -/
def hotSetCmd : Cmd := { seq := 9, vd := 1, phase := .running, slot := 0x20000000300000000000000000000000000000025#512 }

/-- A HOT_RELEASE of entry 3. -/
def hotReleaseCmd : Cmd := { seq := 9, vd := 1, phase := .running, slot := 0x300000000000000000000000000000026#512 }

/-- A HOT_LOAD of an empty object that fills entry 3. -/
def hotLoadCmd : Cmd := { seq := 9, vd := 1, phase := .running, slot := 0x24#512, fill := some 3 }

/-- A field of a slot given as a number of its lower half. -/
theorem slotField_ofNat {n : Nat} (h : n < 2 ^ 256) (off lo w : Nat) :
    slotField (BitVec.ofNat 512 n) off lo w = n / 2 ^ (8 * off + lo) % 2 ^ w := by
  rw [slotField, BitVec.toNat_ofNat, Nat.mod_eq_of_lt (h.trans (Nat.pow_lt_pow_right (by decide) (by decide)))]

theorem cmd_hotReady (c : Cmd) : (State.hotReady c).cmd 9 = c := State.cmd_setCmd_same ..

theorem hotEntry_hotReady (c : Cmd) :
    (State.hotReady c).hotEntry 3 = { used := true, vd := 1, need := 1, bins := [5], loading := true } :=
  State.hotEntry_setHot_same ..

theorem startable_hotReady {c : Cmd} {opc : Nat} (hseq : c.seq = 9) (hopc : c.opc = opc) (hst : c.status = stOK)
    (hph : c.phase = .running) : (State.hotReady c).Startable 9 opc := by
  rw [State.Startable, State.hasCmd, cmd_hotReady]
  exact ⟨by simp [hseq], hopc, hst, .inr hph⟩

theorem exec_hotSet_hotReady : ∃ s', exec (.hotSet 9) (State.hotReady hotSetCmd) = .next s' ∧ s'.Ended 9 stOK ∧
    (s'.hotEntry 3).prio = 2 ∧ (s'.hotEntry 3).bins = [5] := by
  have hentry : hotSetCmd.fld 0x10 0 9 = 3 := (slotField_ofNat (by decide) ..).trans (by decide)
  have hprio : hotSetCmd.fld 0x14 0 2 = 2 := (slotField_ofNat (by decide) ..).trans (by decide)
  have hpin : hotSetCmd.fld 0x14 2 1 = 0 := (slotField_ofNat (by decide) ..).trans (by decide)
  obtain ⟨s', hexec, hended, hset, -⟩ := hotSetCommands.1 9 (State.hotReady hotSetCmd)
    (startable_hotReady rfl ((slotField_ofNat (by decide) ..).trans (by decide)) rfl rfl)
    (.inl (by rw [cmd_hotReady, hpin]))
  rw [cmd_hotReady, hentry, hotEntry_hotReady, hprio] at hset
  exact ⟨s', hexec, hended, by rw [hset], by rw [hset]⟩

theorem exec_hotRelease_hotReady : ∃ s', exec (.hotRelease 9) (State.hotReady hotReleaseCmd) = .next s' ∧
    (s'.hotEntry 3).used = false ∧ (s'.bin 5).st = .clearing := by
  have hentry : hotReleaseCmd.fld 0x10 0 9 = 3 := (slotField_ofNat (by decide) ..).trans (by decide)
  obtain ⟨s', hexec, -, hused, hbins, -⟩ := hotSetCommands.2.1 9 (State.hotReady hotReleaseCmd)
    (startable_hotReady rfl ((slotField_ofNat (by decide) ..).trans (by decide)) rfl rfl)
  rw [cmd_hotReady, hentry] at hused hbins
  rw [hotEntry_hotReady] at hbins
  exact ⟨s', hexec, hused, (hbins 5 List.mem_cons_self).1⟩

theorem exec_hotLoad_hotReady : ∃ s', exec (.hotLoad 9) (State.hotReady hotLoadCmd) = .next s' ∧ s'.Ended 9 stOK ∧
    (s'.hotEntry 3).resident = true := by
  obtain ⟨s', hexec, hended, hresident, -⟩ := hotSetCommands.2.2 9 3 (State.hotReady hotLoadCmd)
    (startable_hotReady rfl ((slotField_ofNat (by decide) ..).trans (by decide)) rfl rfl) rfl
    (by rw [cmd_hotReady]; rfl) (by decide) (by rw [hotEntry_hotReady]; decide) (Nat.zero_le _)
  exact ⟨s', hexec, hended, hresident⟩

/-! ### Seedbank -/

/-- A device whose bin 5 VD 1 owns, with a poisoned line 7, and whose bin 6 is to be cleared. -/
def State.bankReady : State :=
  (({ State.reset with sbk := { State.reset.sbk with poison := [(physLine 5 7, true)] } } : State).setBin
    5 { st := .owned, owner := 1 }).setBin 6 { st := .clearing, retire := true }

/-- A request of a VD for a line. -/
def bankRequest (v : Nat) (op : SbOp) : SbReq := { vd := v, hotOk := false, newEpoch := false, op := op, ecc := .clean }

/-- VD 1 writes line 8 of its bin; VD 2 is refused there. -/
theorem exec_seedbankRequest_bankReady (d : BitVec 512) :
    (∃ s', exec (.seedbankRequest 5 8 (bankRequest 1 (.write d (BitVec.allOnes 64) false))) State.bankReady = .next s' ∧
      s'.rdata = [1#64] ∧ (s'.sbLine (physLine 5 8)).1 = d) ∧
    ∃ s', exec (.seedbankRequest 5 8 (bankRequest 2 .read)) State.bankReady = .next s' ∧ s'.rdata = [2#64] := by
  obtain ⟨-, -, hserved⟩ := seedbankAndArbiters.1.1 5 8 (bankRequest 1 (.write d (BitVec.allOnes 64) false))
    State.bankReady (by decide) (by decide)
  obtain ⟨-, hwrite, -⟩ := hserved rfl rfl rfl
  obtain ⟨s', hexec, hreply, hline, -⟩ := hwrite d _ false rfl rfl (.inr rfl)
  obtain ⟨-, hrefused, -⟩ := seedbankAndArbiters.1.1 5 8 (bankRequest 2 .read) State.bankReady (by decide) (by decide)
  obtain ⟨t, hexec', hreply', -⟩ := hrefused rfl rfl
  exact ⟨⟨s', hexec, hreply, by rw [hline, mergeBytes_allOnes]⟩, t, hexec', hreply'⟩

/-- A masked write of the poisoned line is answered so. -/
theorem exec_seedbankRequest_poisoned : exec (.seedbankRequest 5 7 (bankRequest 1 (.write 0#512 1#64 false)))
    State.bankReady = .next { State.bankReady with rdata := [4#64] } := by
  obtain ⟨-, -, hserved⟩ := seedbankAndArbiters.1.1 5 7 (bankRequest 1 (.write 0#512 1#64 false)) State.bankReady
    (by decide) (by decide)
  obtain ⟨-, -, hpoisoned⟩ := hserved rfl rfl rfl
  exact hpoisoned 0#512 1#64 false rfl (by decide) rfl (by decide)

/-- A request to a domain that is down. -/
theorem exec_seedbankRequest_down (op : SbOp) : exec (.seedbankRequest 5 8 (bankRequest 1 op))
    { State.bankReady with rst := { State.bankReady.rst with down := [(0, true)] } } =
      .next { State.bankReady with rst := { State.bankReady.rst with down := [(0, true)] }, rdata := [3#64] } := by
  obtain ⟨hdown, -⟩ := seedbankAndArbiters.1.1 5 8 (bankRequest 1 op)
    { State.bankReady with rst := { State.bankReady.rst with down := [(0, true)] } } (by decide) (by decide)
  exact hdown rfl

/-- Bin 6 is retired when it is clear. -/
theorem exec_binClearComplete_bankReady : ∃ s', exec (.binClearComplete 6) State.bankReady = .next s' ∧
    (s'.bin 6).st = .retired ∧ s'.sbLine (physLine 6 0) = (0#512, false) := by
  obtain ⟨s', hexec, hst, -, hzero, -⟩ := seedbankAndArbiters.1.2.1 6 State.bankReady (by decide) rfl (by decide)
    (by decide)
  exact ⟨s', hexec, hst, hzero 0 (by decide)⟩

/-- The scrub engine finds an uncorrectable line in the first bin of region 2, which is FREE. -/
theorem exec_scrubLine_bankReady : ∃ s', exec (.scrubLine 2 .uncorrectable false) State.bankReady = .next s' ∧
    (s'.region 2).scrubPos = 1 ∧ (s'.region 2).uncorr = 1 ∧ (s'.bin 8).unc = 1 := by
  obtain ⟨s', hexec, hpos, -, -, -, hfound⟩ := seedbankAndArbiters.1.2.2 2 .uncorrectable State.bankReady (by decide)
    (by decide) (by decide) rfl (by decide) (by decide)
  obtain ⟨huncorr, hunc, -⟩ := hfound rfl
  exact ⟨s', hexec, hpos, huncorr, hunc⟩

/-! ### Arbiters and flows -/

/-- Requests of class 4 at inputs 3 and 5, without a regulator. -/
def headAt (input : Nat) : ArbHead :=
  { input := input, cls := 4, vd := 0, res := 2, outst := 0, share := 65535, lines := 1, reqDom := 255, tgtDom := 255 }

/-- A device in which input 5 of arbiter 0 has waited to saturation. -/
def State.arbiterReady : State := { State.reset with sbk := { State.reset.sbk with waits := [(5, 4095)] } }

/-- It is granted, and input 3 waits on. -/
theorem exec_arbiterGrant_arbiterReady : ∃ s', exec (.arbiterGrant 0 [headAt 3, headAt 5]) State.arbiterReady =
    .next s' ∧ sget 0 s'.sbk.waits 5 = 0 ∧ sget 0 s'.sbk.waits 3 = 1 := by
  obtain ⟨s', g, hexec, hmem, hwait, hothers, -, hsat, -⟩ := seedbankAndArbiters.2.1 0 2 [headAt 3, headAt 5]
    State.arbiterReady (by decide) (by decide) (by decide) (by decide)
  obtain ⟨hlong, -⟩ := hsat ⟨headAt 5, by decide, rfl⟩
  have hg : g = headAt 5 := by
    rcases List.mem_cons.1 hmem with rfl | hmem
    · exact absurd hlong (by decide)
    · exact List.mem_singleton.1 hmem
  subst hg
  exact ⟨s', hexec, hwait, hothers (headAt 3) List.mem_cons_self (by decide)⟩

/-- A line of VD 1 at a channel of no rate finds no tokens. -/
theorem exec_arbiterGrant_noTokens : ∃ s', exec (.arbiterGrant 0 [{ headAt 3 with vd := 1, share := 0 }]) State.reset =
    .next s' ∧ (sget ({} : ClassCnt) (s'.vd 1).cls 4).demoted = 1 := by
  obtain ⟨s', hexec, -, hdemoted, -⟩ := seedbankAndArbiters.2.2.1 0 { headAt 3 with vd := 1, share := 0 } State.reset
    (by decide) (by decide) (by decide) (by decide) (by decide) rfl
  exact ⟨s', hexec, hdemoted.trans (by decide)⟩

/-- A device whose pod 0 a quiet VD has, with 64 lines a window. -/
def State.flowReady : State :=
  (State.reset.setPod 0 { vd := 1 }).setVd 1 { quiet := true, alt := { farGbs := 64 }, place := { pods := [0] } }

theorem exec_shapedFlowWindow_flowReady : ∃ s', exec (.shapedFlowWindow 0) State.flowReady = .next s' ∧
    sget 0 s'.sch.flowFill 0 = 64 := by
  obtain ⟨s', hexec, -, hfill, -⟩ := seedbankAndArbiters.2.2.2 0 64 State.flowReady (by decide)
  exact ⟨s', hexec, hfill⟩

end Sys2Proof.Machine
end

section
/-!
PROOFS. The HBM's parts of the state (spec/07): what a channel, a key slot and a stack read as after an update, and what
the record of an error and an interrupt leave alone (R440, R443, R258).
-/
namespace Sys2Proof.Machine

/-! ### Sparse maps written at several keys -/

section
variable {α β : Type} [DecidableEq α] {d : α}

/-- Values stored one after another, each the value `f` gives its key. -/
theorem sget_foldl_sput_keys (l : List β) (key : β → Nat) (f : Nat → α) (m : SMap α) (j : Nat) :
    sget d (l.foldl (fun m x => sput d (key x) (f (key x)) m) m) j = if j ∈ l.map key then f j else sget d m j := by
  induction l generalizing m with
  | nil => simp
  | cons x l ih =>
    rw [List.foldl_cons, ih, sget_sput, List.map_cons]
    by_cases hl : j ∈ l.map key
    · rw [if_pos hl, if_pos (List.mem_cons_of_mem _ hl)]
    · rw [if_neg hl]
      by_cases hx : j = key x
      · rw [if_pos hx, if_pos (List.mem_cons.2 (.inl hx)), hx]
      · rw [if_neg hx, if_neg (by simp [hl, hx])]

omit [DecidableEq α] in
/-- A key that is not listed reads as the default. -/
theorem sget_of_not_mem {m : SMap α} {k : Nat} (h : k ∉ skeys m) : sget d m k = d := by
  induction m with
  | nil => rfl
  | cons e m ih =>
    obtain ⟨hk, hm⟩ : k ≠ e.1 ∧ k ∉ skeys m := by simpa [skeys] using h
    rw [sget_cons, if_neg hk]
    split
    · rfl
    · exact ih hm

omit [DecidableEq α] in
/-- A listed value other than the default is read whatever the default. -/
theorem sget_default_irrel {m : SMap α} {k : Nat} (h : sget d m k ≠ d) (d' : α) : sget d' m k = sget d m k := by
  induction m with
  | nil => exact absurd rfl h
  | cons e m ih =>
    rw [sget_cons] at h ⊢
    rw [sget_cons]
    by_cases hk : k = e.1
    · rw [if_pos hk, if_pos hk]
    · rw [if_neg hk] at h ⊢
      rw [if_neg hk]
      by_cases hlt : k < e.1
      · rw [if_pos hlt] at h
        exact absurd rfl h
      · rw [if_neg hlt] at h ⊢
        rw [if_neg hlt]
        exact ih h
end

/-! ### Channels, key slots and stacks -/

theorem State.chan_setChan (s : State) (g h : Nat) (c : Chan) :
    (s.setChan g c).chan h = if h = g then c else s.chan h := sget_sput _ _ _ _
@[simp] theorem State.chan_setChan_same (s : State) (g : Nat) (c : Chan) : (s.setChan g c).chan g = c :=
  sget_sput_same _ _ _
theorem State.chan_setChan_ne (s : State) {g h : Nat} (c : Chan) (hne : h ≠ g) : (s.setChan g c).chan h = s.chan h :=
  sget_sput_ne _ _ hne
@[simp] theorem State.key_setChan (s : State) (g k : Nat) (c : Chan) : (s.setChan g c).key k = s.key k := rfl
@[simp] theorem State.vds_setChan (s : State) (g : Nat) (c : Chan) : (s.setChan g c).vds = s.vds := rfl
@[simp] theorem State.host_setChan (s : State) (g : Nat) (c : Chan) : (s.setChan g c).host = s.host := rfl
@[simp] theorem State.vd_setChan (s : State) (g v : Nat) (c : Chan) : (s.setChan g c).vd v = s.vd v := rfl
@[simp] theorem State.key_setKey_same (s : State) (k : Nat) (x : KeySlot) : (s.setKey k x).key k = x :=
  sget_sput_same _ _ _
@[simp] theorem State.chan_setKey (s : State) (k g : Nat) (x : KeySlot) : (s.setKey k x).chan g = s.chan g := rfl
@[simp] theorem State.chans_setKey (s : State) (k : Nat) (x : KeySlot) : (s.setKey k x).hbm.chans = s.hbm.chans := rfl
@[simp] theorem State.chan_reply (s : State) (l : List DWord) (g : Nat) : (s.reply l).chan g = s.chan g := rfl
@[simp] theorem State.stack_setStack_same (s : State) (n : Nat) (x : Stack) : (s.setStack n x).stack n = x :=
  sget_sput_same _ _ _

theorem State.chan_of_hbm {s t : State} (h : t.hbm = s.hbm) (g : Nat) : t.chan g = s.chan g := by
  rw [State.chan, State.chan, h]

/-- A channel stored twice holds what was stored last. -/
theorem State.setChan_setChan {c : Chan} (h : c ≠ {}) (s : State) (g : Nat) (d : Chan) :
    (s.setChan g c).setChan g d = s.setChan g d := by
  simp only [State.setChan, sput_sput h]

/-! ### Interrupts and records of errors -/

/-- `t` differs from `s` in the host's side only: in the interrupts sent and pending. -/
def State.Interrupted (s t : State) : Prop := t = { s with host := t.host }

theorem State.Interrupted.refl (s : State) : s.Interrupted s := rfl

theorem State.Interrupted.trans {s t u : State} (h : s.Interrupted t) (h' : t.Interrupted u) : s.Interrupted u := by
  rw [State.Interrupted, h', h]

theorem State.interrupted_raise (s : State) (f v : Nat) : s.Interrupted (s.raise f v) := by
  rw [State.raise]
  split
  · rfl
  · rfl

theorem State.interrupted_raisePfs (s : State) (v : Nat) : s.Interrupted (s.raisePfs v) := by
  rw [State.raisePfs]
  split
  · exact s.interrupted_raise 0 v
  · exact (s.interrupted_raise 0 v).trans (State.interrupted_raise _ 1 v)

theorem State.interrupted_raiseVd (s : State) (vd v : Nat) : s.Interrupted (s.raiseVd vd v) := by
  rw [State.raiseVd]
  split
  · rfl
  · split
    · exact s.interrupted_raise _ v
    · rfl

/-- `t` differs from `s` only in what the record of an error changes: rings, recoveries, causes and interrupts. -/
def State.Logged (s t : State) : Prop := t = { s with rst := t.rst, vds := t.vds, host := t.host, glb := t.glb }

theorem State.Logged.trans {s t u : State} (h : s.Logged t) (h' : t.Logged u) : s.Logged u := by
  rw [State.Logged, h', h]

theorem State.Interrupted.logged {s t : State} (h : s.Interrupted t) : s.Logged t := by
  rw [State.Logged, h]

theorem State.Logged.hbm {s t : State} (h : s.Logged t) : t.hbm = s.hbm := by rw [h]

theorem State.logged_ringPut (s : State) (a : ErrArgs) : s.Logged (s.ringPut a) := by
  rw [State.ringPut]
  dsimp only
  split
  · rfl
  · split
    · rfl
    · split
      · rfl
      · exact State.Logged.trans (by exact rfl) (State.interrupted_raisePfs _ 1).logged

theorem State.logged_vdRingPut (s : State) (a : ErrArgs) : s.Logged (s.vdRingPut a) := by
  rw [State.vdRingPut]
  dsimp only
  split
  · rfl
  · split
    · rfl
    · exact State.Logged.trans (by exact rfl) (State.interrupted_raiseVd _ _ 0).logged

theorem State.logged_record (s : State) (a : ErrArgs) : s.Logged (s.record a) := by
  rw [State.record]
  split
  · exact (s.logged_ringPut a).trans (State.logged_vdRingPut _ a)
  · exact s.logged_ringPut a

theorem State.logged_nmeOne (s : State) (i : Nat) : s.Logged (s.nmeOne i) := by
  rw [State.nmeOne, State.nme]
  dsimp only
  split
  · rfl
  · exact State.Logged.trans (by exact rfl) (State.interrupted_raisePfs _ 0).logged

theorem State.logged_escalate (s : State) (r : Recovery) : s.Logged (s.escalate r) := by
  rw [State.escalate]
  split
  · exact (State.logged_record _ _).trans rfl
  · dsimp only
    split
    · exact (State.logged_record _ _).trans rfl
    · exact (State.logged_record _ _).trans rfl

theorem State.logged_logErr (s : State) (a : ErrArgs) : s.Logged (s.logErr a) := by
  rw [State.logErr]
  dsimp only
  split
  · refine ((s.logged_record a).trans (State.logged_nmeOne _ nmeFatal)).trans ?_
    split
    · rfl
    · rfl
  · split
    · split
      · exact (s.logged_record a).trans (State.logged_escalate _ _)
      · exact s.logged_record a
    · exact s.logged_record a

@[simp] theorem State.hbm_logErr (s : State) (a : ErrArgs) : (s.logErr a).hbm = s.hbm := (s.logged_logErr a).hbm

@[simp] theorem State.hbm_chanErr (s : State) (unit g sev status action loc : Nat) :
    (s.chanErr unit g sev status action loc).hbm = s.hbm := State.hbm_logErr ..

@[simp] theorem State.chan_chanErr (s : State) (unit g sev status action loc h : Nat) :
    (s.chanErr unit g sev status action loc).chan h = s.chan h := State.chan_of_hbm (State.hbm_chanErr ..) h

end Sys2Proof.Machine
end

section
/-!
PROOFS. The contents of a channel (spec/07 R192, R194 to R196, R199): minor counters, granules as stored, and what a
line opens to after a write of its granule.
-/
namespace Sys2Proof.Machine

/-! ### Minor counters (R196) -/

theorem CtrBlk.minor_eq_extract (b : CtrBlk) (j : Nat) : b.minor j = (b.minors.extractLsb' (7 * j) 7).toNat := by
  rw [CtrBlk.minor, bitsOf, BitVec.extractLsb'_toNat, Nat.shiftRight_eq_div_pow, show 7 * j + 6 + 1 - 7 * j = 7 by omega]

@[simp] theorem CtrBlk.minor_zero (gen major : Nat) (check : Option Word) (j : Nat) :
    CtrBlk.minor { gen := gen, major := major, minors := 0#448, check := check } j = 0 := by
  rw [CtrBlk.minor, bitsOf, BitVec.toNat_zero, Nat.zero_div, Nat.zero_mod]

/-- The bits of a block's minors after counter `j` is set. -/
theorem CtrBlk.getLsbD_setMinor (b : CtrBlk) (j v : Nat) {i : Nat} (h : i < 448) : (b.setMinor j v).minors.getLsbD i =
    if 7 * j ≤ i ∧ i < 7 * j + 7 then v.testBit (i - 7 * j) else b.minors.getLsbD i := by
  have hmask : (127 * 2 ^ (7 * j)).testBit i = decide (7 * j ≤ i ∧ i < 7 * j + 7) := by
    rw [Nat.testBit_mul_two_pow, show (127 : Nat) = 2 ^ 7 - 1 by decide, Nat.testBit_two_pow_sub_one,
      ← Bool.decide_and, decide_eq_decide]
    omega
  have hval : (v % 128 * 2 ^ (7 * j)).testBit i = decide (7 * j ≤ i ∧ i < 7 * j + 7 ∧ v.testBit (i - 7 * j) = true) := by
    rw [Nat.testBit_mul_two_pow, show (128 : Nat) = 2 ^ 7 by decide, Nat.testBit_mod_two_pow]
    by_cases hle : 7 * j ≤ i
    · simp [hle, show i - 7 * j < 7 ↔ i < 7 * j + 7 by omega]
    · simp [hle]
  simp only [CtrBlk.setMinor, BitVec.getLsbD_or, BitVec.getLsbD_and, BitVec.getLsbD_not, BitVec.getLsbD_ofNat, h,
    decide_true, Bool.true_and, hmask, hval]
  by_cases hin : 7 * j ≤ i ∧ i < 7 * j + 7
  · simp [hin]
  · rw [if_neg hin]
    simp only [not_and] at hin
    simp
    grind

section
variable {j : Nat} (hj : j < 64) (b : CtrBlk) (v : Nat)
include hj

theorem CtrBlk.minor_setMinor_same (hv : v < 128) : (b.setMinor j v).minor j = v := by
  have heq : (b.setMinor j v).minors.extractLsb' (7 * j) 7 = BitVec.ofNat 7 v := by
    refine BitVec.eq_of_getLsbD_eq fun i hi => ?_
    rw [BitVec.getLsbD_extractLsb', CtrBlk.getLsbD_setMinor _ _ _ (by omega), if_pos (by omega), BitVec.getLsbD_ofNat,
      Nat.add_sub_cancel_left]
  rw [CtrBlk.minor_eq_extract, heq, BitVec.toNat_ofNat, Nat.mod_eq_of_lt hv]

omit hj in
theorem CtrBlk.minor_setMinor_ne {i : Nat} (hi : i < 64) (hne : i ≠ j) : (b.setMinor j v).minor i = b.minor i := by
  have heq : (b.setMinor j v).minors.extractLsb' (7 * i) 7 = b.minors.extractLsb' (7 * i) 7 := by
    refine BitVec.eq_of_getLsbD_eq fun t ht => ?_
    rw [BitVec.getLsbD_extractLsb', BitVec.getLsbD_extractLsb', CtrBlk.getLsbD_setMinor _ _ _ (by omega), if_neg (by omega)]
  rw [CtrBlk.minor_eq_extract, CtrBlk.minor_eq_extract, heq]
end

/-! ### Granules (R192) -/

theorem granLines_cases (mode : Nat) : granLines mode = 1 ∨ granLines mode = 4 := by
  rw [granLines]
  split
  · exact .inr rfl
  · exact .inl rfl

theorem granLines_pos (mode : Nat) : 0 < granLines mode := by
  rcases granLines_cases mode with h | h <;> omega

theorem mem_granOf {mode line l : Nat} : l ∈ granOf mode line ↔
    line / granLines mode * granLines mode ≤ l ∧ l < line / granLines mode * granLines mode + granLines mode := by
  rw [granOf, List.mem_map]
  constructor
  · rintro ⟨i, hi, rfl⟩
    have := List.mem_range.1 hi
    omega
  · rintro ⟨h1, h2⟩
    exact ⟨l - line / granLines mode * granLines mode, List.mem_range.2 (by omega), by omega⟩

theorem self_mem_granOf (mode line : Nat) : line ∈ granOf mode line := by
  rw [mem_granOf]
  rcases granLines_cases mode with h | h <;> rw [h] <;> omega

theorem length_granOf (mode line : Nat) : (granOf mode line).length = granLines mode := by simp [granOf]

theorem headD_granOf (mode line : Nat) :
    (granOf mode line).headD 0 = line / granLines mode * granLines mode := by
  rcases granLines_cases mode with h | h <;> simp [granOf, h, List.range_succ_eq_map]

/-- Where a line lies among its granule's, and in its page. -/
theorem getD_map_granOf {α : Type} (f : Nat → α) (mode line : Nat) (a : α) :
    ((granOf mode line).map f).getD (line % granLines mode) a = f line := by
  rw [granOf, List.map_map, getD_map_range (Nat.mod_lt _ (granLines_pos mode)), Function.comp_apply, Nat.div_add_mod']

/-- The lines of a granule lie in one page and have one minor counter. -/
theorem granOf_page {mode line l : Nat} (h : l ∈ granOf mode line) :
    l / 64 = line / 64 ∧ minorIdx mode l = minorIdx mode line := by
  rw [mem_granOf] at h
  rw [minorIdx, minorIdx]
  rcases granLines_cases mode with hn | hn <;> rw [hn] at h ⊢ <;> omega

/-- Lines of one page that share a minor counter lie in one granule. -/
theorem mem_granOf_of_page {mode line l : Nat} (hp : l / 64 = line / 64) (hm : minorIdx mode l = minorIdx mode line) :
    l ∈ granOf mode line := by
  rw [minorIdx, minorIdx] at hm
  rw [mem_granOf]
  rcases granLines_cases mode with hn | hn <;> rw [hn] at hm ⊢ <;> omega

theorem minorIdx_lt (mode line : Nat) : minorIdx mode line < 64 := by
  rw [minorIdx]
  rcases granLines_cases mode with hn | hn <;> rw [hn] <;> omega

/-! ### A granule as it is stored (R194, R195, R199) -/

section
variable (c : Chan) (g : Nat) (fp kp : KeyPair) (line0 gen major minor : Nat) (ds : List (BitVec 512))

/-- The ciphertext of a granule's data. -/
def cipherOf (kp : KeyPair) (gen g line0 major minor : Nat) (ds : List (BitVec 512)) : List (BitVec 512) :=
  ds.zipIdx.map fun x => x.1 ^^^ lineStream kp.dataKey gen g (line0 + x.2) major minor

/-- The ciphertext of line `l` of the granule that starts at `line0`. -/
def cipherLine (kp : KeyPair) (gen g line0 major minor : Nat) (ds : List (BitVec 512)) (l : Nat) : BitVec 512 :=
  ds.getD (l - line0) 0#512 ^^^ lineStream kp.dataKey gen g l major minor

theorem cipherOf_eq_map : cipherOf kp gen g line0 major minor ds =
    (List.range ds.length).map fun i => cipherLine kp gen g line0 major minor ds (line0 + i) := by
  refine List.ext_getElem (by simp [cipherOf]) fun i h1 h2 => ?_
  have hi : i < ds.length := by simpa using h2
  simp [cipherOf, cipherLine, List.getD_eq_getElem?_getD, hi]

theorem zipIdx_map_range {α : Type} (f : Nat → α) (n : Nat) :
    ((List.range n).map f).zipIdx = (List.range n).map fun i => (f i, i) :=
  List.ext_getElem (by simp) fun i h1 h2 => by simp

theorem mem_map_add_range {n l : Nat} : l ∈ (List.range n).map (line0 + ·) ↔ line0 ≤ l ∧ l < line0 + n := by
  rw [List.mem_map]
  constructor
  · rintro ⟨i, hi, rfl⟩
    have := List.mem_range.1 hi
    omega
  · rintro ⟨h1, h2⟩
    exact ⟨l - line0, List.mem_range.2 (by omega), by omega⟩

theorem Chan.lines_putGranule (l : Nat) : sget none (c.putGranule g kp line0 gen major minor ds).lines l =
    if line0 ≤ l ∧ l < line0 + ds.length then some (cipherLine kp gen g line0 major minor ds l) else sget none c.lines l := by
  change sget none ((cipherOf kp gen g line0 major minor ds).zipIdx.foldl _ c.lines) l = _
  rw [cipherOf_eq_map, zipIdx_map_range, List.foldl_map,
    sget_foldl_sput_keys (List.range ds.length) (line0 + ·) fun l => some (cipherLine kp gen g line0 major minor ds l)]
  simp only [mem_map_add_range]

theorem Chan.stored_putGranule (l : Nat) : (c.putGranule g kp line0 gen major minor ds).stored g fp l =
    if line0 ≤ l ∧ l < line0 + ds.length then cipherLine kp gen g line0 major minor ds l else c.stored g fp l := by
  rw [Chan.stored, Chan.lines_putGranule]
  by_cases h : line0 ≤ l ∧ l < line0 + ds.length
  · rw [if_pos h, if_pos h]
  · rw [if_neg h, if_neg h, Chan.stored, Chan.putGranule]

theorem Chan.poison_putGranule (l : Nat) : sget false (c.putGranule g kp line0 gen major minor ds).poison l =
    if line0 ≤ l ∧ l < line0 + ds.length then false else sget false c.poison l := by
  rw [Chan.putGranule]
  dsimp only
  rw [sget_foldl_sput_keys _ (line0 + ·) fun _ => false]
  simp only [mem_map_add_range]

theorem Chan.flaw_putGranule (l : Nat) : sget Ecc.clean (c.putGranule g kp line0 gen major minor ds).flaw l =
    if line0 ≤ l ∧ l < line0 + ds.length then Ecc.clean else sget Ecc.clean c.flaw l := by
  rw [Chan.putGranule]
  dsimp only
  rw [sget_foldl_sput_keys _ (line0 + ·) fun _ => Ecc.clean]
  simp only [mem_map_add_range]

theorem Chan.poison_poisonGran (line l : Nat) : sget false (c.poisonGran line).poison l =
    if l ∈ granOf c.mode line then true else sget false c.poison l := by
  rw [Chan.poisonGran]
  dsimp only
  rw [sget_foldl_sput_keys _ (fun l => l) fun _ => true, List.map_id']

theorem Chan.ctr_setCtr (p q : Nat) (b : CtrBlk) : (c.setCtr p b).ctr q = if q = p then b else c.ctr q := sget_sput ..

/-- What a line opens to is told by its ciphertext and its page's counters. -/
theorem Chan.plain_eq {b : CtrBlk} {l : Nat} (hb : c.ctr (l / 64) = b) : c.plain g fp kp l =
    c.stored g fp l ^^^ lineStream kp.dataKey b.gen g l b.major (b.minor (minorIdx c.mode l)) := by
  rw [← hb, Chan.plain]

end
end Sys2Proof.Machine
end

section
/-!
PROOFS. Writes of a granule (spec/07 R194 to R199, R209): the channel after the write, and the bytes a request gives.
-/
namespace Sys2Proof.Machine

/-! ### The channel after a write (R199) -/

/-- A channel on which data moved in this period (R217). -/
def Chan.touched (c : Chan) : Chan := { c with idlePeriods := 0 }

@[simp] theorem Chan.st_touched (c : Chan) : c.touched.st = c.st := rfl
@[simp] theorem Chan.mode_touched (c : Chan) : c.touched.mode = c.mode := rfl
@[simp] theorem Chan.key_touched (c : Chan) : c.touched.key = c.key := rfl
@[simp] theorem Chan.fmtGen_touched (c : Chan) : c.touched.fmtGen = c.fmtGen := rfl
@[simp] theorem Chan.lines_touched (c : Chan) : c.touched.lines = c.lines := rfl
@[simp] theorem Chan.poison_touched (c : Chan) : c.touched.poison = c.poison := rfl
@[simp] theorem Chan.flaw_touched (c : Chan) : c.touched.flaw = c.flaw := rfl
@[simp] theorem Chan.dirtyMeta_touched (c : Chan) : c.touched.dirtyMeta = c.dirtyMeta := rfl
@[simp] theorem Chan.uncorr_touched (c : Chan) : c.touched.uncorr = c.uncorr := rfl
@[simp] theorem Chan.tagFail_touched (c : Chan) : c.touched.tagFail = c.tagFail := rfl
@[simp] theorem Chan.subBad_touched (c : Chan) (p : Nat) : c.touched.subBad p = c.subBad p := rfl
@[simp] theorem Chan.ctr_touched (c : Chan) (p : Nat) : c.touched.ctr p = c.ctr p := rfl
@[simp] theorem Chan.stored_touched (c : Chan) (g : Nat) (fp : KeyPair) (l : Nat) :
    c.touched.stored g fp l = c.stored g fp l := rfl
@[simp] theorem Chan.plain_touched (c : Chan) (g : Nat) (fp kp : KeyPair) (l : Nat) :
    c.touched.plain g fp kp l = c.plain g fp kp l := rfl
@[simp] theorem Chan.tagOk_touched (c : Chan) (g : Nat) (fp kp : KeyPair) (l : Nat) :
    c.touched.tagOk g fp kp l = c.tagOk g fp kp l := rfl
@[simp] theorem Chan.granEcc_touched (c : Chan) (l : Nat) (e : Ecc) : c.touched.granEcc l e = c.granEcc l e := rfl

theorem State.touchChan_eq (s : State) (g : Nat) : s.touchChan g = s.setChan g (s.chan g).touched := rfl

@[simp] theorem State.chan_touchChan (s : State) (g : Nat) : (s.touchChan g).chan g = (s.chan g).touched :=
  State.chan_setChan_same ..

theorem State.chan_touchChan_ne (s : State) {g h : Nat} (hne : h ≠ g) : (s.touchChan g).chan h = s.chan h :=
  State.chan_setChan_ne _ _ hne

@[simp] theorem State.touchChan_touchChan (s : State) (g : Nat) : (s.touchChan g).touchChan g = s.touchChan g := by
  have hne : (s.chan g).touched ≠ {} := fun h => absurd (congrArg Chan.idlePeriods h) (show (0 : Nat) ≠ 16 by decide)
  rw [State.touchChan_eq (s.touchChan g), State.chan_touchChan, State.touchChan_eq, State.setChan_setChan hne]
  rfl

/-- A granule's lines stored under the next minor counter of their page. -/
def Chan.putNext (c : Chan) (g : Nat) (kp : KeyPair) (line0 : Nat) (ds : List (BitVec 512)) : Chan :=
  let b := c.ctr (line0 / 64)
  c.putGranule g kp line0 b.gen b.major (b.minor (minorIdx c.mode line0) + 1) ds

/-- A granule's lines stored so, with the counter advanced in the metadata cache. -/
def Chan.written (c : Chan) (g : Nat) (kp : KeyPair) (line0 : Nat) (ds : List (BitVec 512)) : Chan :=
  let b := c.ctr (line0 / 64)
  let j := minorIdx c.mode line0
  let w := (c.putNext g kp line0 ds).setCtr (line0 / 64) (b.setMinor j (b.minor j + 1))
  { w with dirtyMeta := sput false (line0 / 64) true w.dirtyMeta, maxMajor := max w.maxMajor b.major }

section
variable (c : Chan) (g : Nat) (fp kp : KeyPair) {line0 : Nat} (ds : List (BitVec 512))

@[simp] theorem Chan.st_written : (c.written g kp line0 ds).st = c.st := rfl
@[simp] theorem Chan.mode_written : (c.written g kp line0 ds).mode = c.mode := rfl
@[simp] theorem Chan.key_written : (c.written g kp line0 ds).key = c.key := rfl
@[simp] theorem Chan.fmtGen_written : (c.written g kp line0 ds).fmtGen = c.fmtGen := rfl
@[simp] theorem Chan.subBad_written (p : Nat) : (c.written g kp line0 ds).subBad p = c.subBad p := rfl

theorem Chan.written_touched : c.touched.written g kp line0 ds = (c.written g kp line0 ds).touched := rfl

theorem Chan.ctr_written (q : Nat) : (c.written g kp line0 ds).ctr q = if q = line0 / 64 then
    (c.ctr (line0 / 64)).setMinor (minorIdx c.mode line0) ((c.ctr (line0 / 64)).minor (minorIdx c.mode line0) + 1)
    else c.ctr q := Chan.ctr_setCtr (c.putNext g kp line0 ds) ..

theorem Chan.gen_ctr_written (q : Nat) : ((c.written g kp line0 ds).ctr q).gen = (c.ctr q).gen := by
  rw [Chan.ctr_written]
  split
  · next h => rw [h, CtrBlk.setMinor]
  · rfl

theorem Chan.major_ctr_written (q : Nat) : ((c.written g kp line0 ds).ctr q).major = (c.ctr q).major := by
  rw [Chan.ctr_written]
  split
  · next h => rw [h, CtrBlk.setMinor]
  · rfl

theorem Chan.stored_written (l : Nat) :
    (c.written g kp line0 ds).stored g fp l = (c.putNext g kp line0 ds).stored g fp l := rfl

theorem Chan.poison_written (l : Nat) : sget false (c.written g kp line0 ds).poison l =
    if line0 ≤ l ∧ l < line0 + ds.length then false else sget false c.poison l := by
  rw [show (c.written g kp line0 ds).poison = (c.putNext g kp line0 ds).poison from rfl, Chan.putNext,
    Chan.poison_putGranule]

theorem Chan.flaw_written (l : Nat) : sget Ecc.clean (c.written g kp line0 ds).flaw l =
    if line0 ≤ l ∧ l < line0 + ds.length then Ecc.clean else sget Ecc.clean c.flaw l := by
  rw [show (c.written g kp line0 ds).flaw = (c.putNext g kp line0 ds).flaw from rfl, Chan.putNext, Chan.flaw_putGranule]

theorem Chan.dirtyMeta_written : sget false (c.written g kp line0 ds).dirtyMeta (line0 / 64) = true := sget_sput_same ..

variable (hline : granLines c.mode ∣ line0) (hlen : ds.length = granLines c.mode)
  (hminor : (c.ctr (line0 / 64)).minor (minorIdx c.mode line0) < 127)

include hline in
theorem mem_granOf_aligned {l : Nat} : l ∈ granOf c.mode line0 ↔ line0 ≤ l ∧ l < line0 + granLines c.mode := by
  rw [mem_granOf, Nat.div_mul_cancel hline]

include hminor in
/-- The minor counter of a line after the write: the next one in the granule written, else as it was. -/
theorem Chan.minor_written (l : Nat) : ((c.written g kp line0 ds).ctr (l / 64)).minor (minorIdx c.mode l) =
    if l ∈ granOf c.mode line0 then (c.ctr (line0 / 64)).minor (minorIdx c.mode line0) + 1
    else (c.ctr (l / 64)).minor (minorIdx c.mode l) := by
  rw [Chan.ctr_written]
  by_cases hl : l ∈ granOf c.mode line0
  · obtain ⟨hpage, hidx⟩ := granOf_page hl
    rw [if_pos hpage, if_pos hl, hidx, CtrBlk.minor_setMinor_same (minorIdx_lt ..) _ _ (by omega)]
  · rw [if_neg hl]
    split
    · next hpage =>
      rw [hpage, CtrBlk.minor_setMinor_ne _ _ (minorIdx_lt ..) fun hidx => hl (mem_granOf_of_page hpage hidx)]
    · rfl

include hline hlen hminor

/-- A line of the granule written opens to its data, every other line to what it held (R199). -/
theorem Chan.plain_written (l : Nat) : (c.written g kp line0 ds).plain g fp kp l =
    if l ∈ granOf c.mode line0 then ds.getD (l - line0) 0#512 else c.plain g fp kp l := by
  rw [Chan.plain, Chan.mode_written, Chan.minor_written _ _ _ _ hminor,
    Chan.gen_ctr_written, Chan.major_ctr_written, Chan.stored_written, Chan.putNext, Chan.stored_putGranule, hlen]
  by_cases hl : l ∈ granOf c.mode line0
  · rw [if_pos hl, if_pos hl, if_pos ((mem_granOf_aligned c hline).1 hl), (granOf_page hl).1, cipherLine,
      BitVec.xor_assoc, BitVec.xor_self, BitVec.xor_zero]
  · rw [if_neg hl, if_neg hl, if_neg (fun h => hl ((mem_granOf_aligned c hline).2 h)), Chan.plain]

/-- The granule written carries the tag of its ciphertext (R195). -/
theorem Chan.tagOk_written : (c.written g kp line0 ds).tagOk g fp kp line0 = true := by
  have hhead : (granOf c.mode line0).headD 0 = line0 := by rw [headD_granOf, Nat.div_mul_cancel hline]
  have hcipher : (granOf c.mode line0).map ((c.written g kp line0 ds).stored g fp) =
      cipherOf kp (c.ctr (line0 / 64)).gen g line0 (c.ctr (line0 / 64)).major
        ((c.ctr (line0 / 64)).minor (minorIdx c.mode line0) + 1) ds := by
    rw [cipherOf_eq_map, granOf, List.map_map, hlen, Nat.div_mul_cancel hline]
    refine List.map_congr_left fun i hi => ?_
    have hi := List.mem_range.1 hi
    rw [Function.comp_apply, Chan.stored_written, Chan.putNext, Chan.stored_putGranule, if_pos (by omega)]
  have htag : (c.written g kp line0 ds).storedTag g fp line0 = granTag kp.tagKey (c.ctr (line0 / 64)).gen g line0
      (c.ctr (line0 / 64)).major ((c.ctr (line0 / 64)).minor (minorIdx c.mode line0) + 1)
      (cipherOf kp (c.ctr (line0 / 64)).gen g line0 (c.ctr (line0 / 64)).major
        ((c.ctr (line0 / 64)).minor (minorIdx c.mode line0) + 1) ds) := by
    have hput : sget none (c.written g kp line0 ds).tags (line0 / granLines c.mode) = some _ := sget_sput_same ..
    rw [Chan.storedTag, Chan.mode_written, hput]
    rfl
  rw [Chan.tagOk, Chan.mode_written, hhead, hcipher,
    Chan.minor_written _ _ _ _ hminor, if_pos (self_mem_granOf ..), Chan.gen_ctr_written, Chan.major_ctr_written, htag]
  exact decide_eq_true rfl
end

/-! ### The bytes of a request (R199, R209) -/

/-- The bytes of a line that are enabled. -/
def enabledBytes (data : BitVec 512) (be : DWord) : List (Option Byte) :=
  (lineBytes data).zipIdx.map fun x => if be.getLsbD x.2 then some x.1 else none

/-- A request's bytes from its granule's start: those of line `i` of `n`. -/
def granuleBytes (n i : Nat) (data : BitVec 512) (be : DWord) : List (Option Byte) :=
  List.replicate (64 * i) none ++ enabledBytes data be ++ List.replicate (64 * n - 64 * i - 64) none

/-- Byte `t` of a granule as such a request gives it. -/
def granuleByte (i : Nat) (data : BitVec 512) (be : DWord) (t : Nat) : Option Byte :=
  if t / 64 = i ∧ be.getLsbD (t % 64) = true then some (BitVec.ofNat 8 (data.toNat / 2 ^ (8 * (t % 64)))) else none

theorem lineBytes_eq_map (d : BitVec 512) :
    lineBytes d = (List.range 64).map fun t => BitVec.ofNat 8 (d.toNat / 2 ^ (8 * t)) := leBytes_eq_map ..

theorem enabledBytes_eq_map (data : BitVec 512) (be : DWord) : enabledBytes data be =
    (List.range 64).map fun t => if be.getLsbD t then some (BitVec.ofNat 8 (data.toNat / 2 ^ (8 * t))) else none := by
  rw [enabledBytes, lineBytes_eq_map, zipIdx_map_range, List.map_map]
  rfl

/-- All bytes of a line. -/
theorem enabledBytes_allOnes (data : BitVec 512) :
    enabledBytes data (BitVec.allOnes 64) = (lineBytes data).map some := by
  rw [enabledBytes_eq_map, lineBytes_eq_map, List.map_map]
  refine List.map_congr_left fun t ht => if_pos ?_
  rw [BitVec.getLsbD_allOnes, decide_eq_true_eq]
  exact List.mem_range.1 ht

theorem length_enabledBytes (data : BitVec 512) (be : DWord) : (enabledBytes data be).length = 64 := by
  rw [enabledBytes_eq_map, List.length_map, List.length_range]

section
variable {n i : Nat} (hi : i < n) (data : BitVec 512) (be : DWord)
include hi

theorem granuleBytes_eq_map : granuleBytes n i data be = (List.range (64 * n)).map (granuleByte i data be) := by
  refine List.ext_getElem ?_ fun t h1 h2 => ?_
  · simp only [granuleBytes, List.length_append, List.length_replicate, length_enabledBytes, List.length_map,
      List.length_range]
    omega
  · simp only [granuleBytes, enabledBytes_eq_map, List.getElem_append, List.getElem_replicate, List.getElem_map,
      List.getElem_range, List.length_append, List.length_replicate, List.length_map, List.length_range, granuleByte]
    by_cases hlo : t < 64 * i
    · rw [dif_pos (by omega), dif_pos hlo, if_neg (by omega)]
    · by_cases hhi : t < 64 * i + 64
      · rw [dif_pos hhi, dif_neg hlo, show t / 64 = i by omega, show t - 64 * i = t % 64 by omega]
        simp only [true_and]
      · rw [dif_neg hhi, if_neg (by omega)]

theorem getD_granuleBytes {t : Nat} (ht : t < 64 * n) :
    (granuleBytes n i data be).getD t none = granuleByte i data be t := by
  rw [granuleBytes_eq_map hi, getD_map_range ht]

/-- A request that leaves bytes of its granule out is no write of the whole granule. -/
theorem granuleBytes_partial (h : be ≠ BitVec.allOnes 64 ∨ n ≠ 1) :
    (granuleBytes n i data be).all Option.isSome = false := by
  obtain ⟨t, ht, hnone⟩ : ∃ t < 64 * n, granuleByte i data be t = none := by
    rcases h with hbe | hn
    · by_contra hall
      refine hbe (BitVec.eq_of_getLsbD_eq fun k hk => ?_)
      by_contra hbit
      refine hall ⟨64 * i + k, by omega, if_neg fun h => hbit ?_⟩
      rw [BitVec.getLsbD_allOnes, decide_eq_true hk, ← h.2]
      congr 1
      omega
    · by_cases h0 : i = 0
      · exact ⟨64, by omega, if_neg (by omega)⟩
      · exact ⟨0, by omega, if_neg (by omega)⟩
  refine List.all_eq_false.2 ⟨none, ?_, by simp⟩
  rw [granuleBytes_eq_map hi]
  exact List.mem_map.2 ⟨t, List.mem_range.2 ht, hnone⟩
end

/-- A string of whole lines, cut into lines. -/
theorem chunksOf_map_range (n : Nat) (f : Nat → Byte) : chunksOf 64 ((List.range (64 * n)).map f) =
    (List.range n).map fun i => (List.range 64).map fun t => f (64 * i + t) := by
  rw [chunksOf, List.length_map, List.length_range, show (64 * n + 64 - 1) / 64 = n by omega]
  refine List.map_congr_left fun i hi => List.ext_getElem ?_ fun t h1 h2 => by simp
  have hi := List.mem_range.1 hi
  simp
  omega

/-- The bytes of a line are the line's. -/
theorem ofNat_leNat_bytes (d : BitVec 512) :
    BitVec.ofNat 512 (leNat ((List.range 64).map fun t => BitVec.ofNat 8 (d.toNat / 2 ^ (8 * t)))) = d := by
  rw [← leBytes_eq_map, leNat_leBytes, Nat.mod_eq_of_lt d.isLt, BitVec.ofNat_toNat, BitVec.setWidth_eq]

/-- The line that a whole write's bytes spell. -/
theorem lines_of_fullBytes (data : BitVec 512) :
    (chunksOf 64 ((enabledBytes data (BitVec.allOnes 64)).map fun b => b.getD 0#8)).map
      (fun c => BitVec.ofNat 512 (leNat c)) = [data] := by
  have h := chunksOf_map_range 1 fun t => BitVec.ofNat 8 (data.toNat / 2 ^ (8 * t))
  rw [enabledBytes_allOnes, lineBytes_eq_map, List.map_map, List.map_map]
  simp only [Function.comp_def, Option.getD_some]
  rw [h, List.map_map]
  simp only [List.range_one, List.map_singleton, Function.comp_apply, Nat.mul_zero, Nat.zero_add, ofNat_leNat_bytes]

/-- A granule's lines after the enabled bytes went over line `i` (R209). -/
def mergedLines (old : List (BitVec 512)) (i : Nat) (data : BitVec 512) (be : DWord) : List (BitVec 512) :=
  (List.range old.length).map fun k => if k = i then mergeBytes (old.getD k 0#512) data be else old.getD k 0#512

theorem length_mergedLines (old : List (BitVec 512)) (i : Nat) (data : BitVec 512) (be : DWord) :
    (mergedLines old i data be).length = old.length := by rw [mergedLines, List.length_map, List.length_range]

/-- The bytes of a request go over the granule's old ones in its line. -/
theorem overlay_granuleBytes {n i : Nat} (hi : i < n) {old : List (BitVec 512)} (hold : old.length = n)
    (data : BitVec 512) (be : DWord) : overlay old (granuleBytes n i data be) = mergedLines old i data be := by
  have hbytes : (old.map lineBytes).flatten =
      (List.range (64 * n)).map fun t => BitVec.ofNat 8 ((old.getD (t / 64) 0#512).toNat / 2 ^ (8 * (t % 64))) := by
    have hrows : old.map lineBytes = (List.range n).map fun r => (List.range 64).map fun t =>
        BitVec.ofNat 8 ((old.getD r 0#512).toNat / 2 ^ (8 * t)) := by
      refine List.ext_getElem (by simp [hold]) fun r h1 h2 => ?_
      have hr : r < old.length := by simpa using h1
      simp [lineBytes_eq_map, List.getD_eq_getElem?_getD, hr]
    rw [hrows, flatten_map_rows (fun r t => BitVec.ofNat 8 ((old.getD r 0#512).toNat / 2 ^ (8 * t))) n (by decide),
      Nat.mul_comm]
  rw [overlay, mergedLines, hold, hbytes, List.length_map, List.length_range, chunksOf_map_range, List.map_map]
  refine List.map_congr_left fun k hk => ?_
  have hk := List.mem_range.1 hk
  have hbyte : ∀ t ∈ List.range 64, ((granuleBytes n i data be).getD (64 * k + t) none).getD
      (((List.range (64 * n)).map fun t => BitVec.ofNat 8 ((old.getD (t / 64) 0#512).toNat / 2 ^ (8 * (t % 64)))).getD
        (64 * k + t) 0#8) =
      if k = i ∧ be.getLsbD t = true then BitVec.ofNat 8 (data.toNat / 2 ^ (8 * t))
      else BitVec.ofNat 8 ((old.getD k 0#512).toNat / 2 ^ (8 * t)) := by
    intro t ht
    have ht := List.mem_range.1 ht
    rw [getD_granuleBytes hi _ _ (by omega), getD_map_range (by omega), granuleByte,
      show (64 * k + t) / 64 = k by omega, show (64 * k + t) % 64 = t by omega]
    split
    · rfl
    · rfl
  rw [Function.comp_apply, List.map_congr_left hbyte]
  by_cases h : k = i
  · simp only [h, true_and, if_true, mergeBytes]
  · simp only [h, false_and, if_false, ofNat_leNat_bytes]

end Sys2Proof.Machine
end

section
/-!
PROOFS. Requests to HBM (spec/07 R194 to R199, R204, R207 to R209): admission by key ID, what a read of a granule finds,
and that a line written is read back.
-/
namespace Sys2Proof.Machine

/-! ### Admission (R204) -/

section
variable {s : State} {vd key addr g loc kc : Nat} {old : Bool}

/-- What the checks of an admitted request found. -/
theorem State.admitLine_ok_iff : s.admitLine vd key addr old = (.ok g loc kc, s) ↔
    ¬ ((s.key key).st = .retiring ∨ (s.key key).st = .zeroised) ∧ ¬ ((s.key key).st = .empty ∨ (s.key key).vd ≠ vd) ∧
    ¬ ((!(s.carve vd (bitsOf addr 41 40)).chans.isEmpty) = true ∧ (s.carve vd (bitsOf addr 41 40)).key ≠ key) ∧
    s.mapAddr vd addr old = some (g, loc) ∧
    ((s.chan g).st = .bound ∨ (s.chan g).st = .system ∨ ((s.chan g).st = .incoming ∧ (!old) = true)) ∧
    bitsOf addr 41 40 = kc := by
  rw [State.admitLine]
  dsimp only
  split
  · next h => simp [h]
  · split
    · next h => simp [h]
    · split
      · next h => simp [h]
      · split
        · next hm => simp [hm]
        · next g' loc' hm =>
          split
          · next hst =>
            simp only [*, Prod.mk.injEq, Admit.ok.injEq, Option.some.injEq, and_true, true_and, not_false_eq_true]
            constructor
            · rintro ⟨rfl, rfl, rfl⟩
              exact ⟨⟨rfl, rfl⟩, hst, rfl⟩
            · rintro ⟨⟨rfl, rfl⟩, -, rfl⟩
              exact ⟨rfl, rfl, rfl⟩
          · next hst =>
            simp only [hm, Prod.mk.injEq, reduceCtorEq, false_and, false_iff, Option.some.injEq]
            rintro ⟨-, -, -, ⟨rfl, rfl⟩, h, -⟩
            exact hst h

/-- Admission is told by the keys, the carve-outs and the states of the channels. -/
theorem State.admitLine_congr {t : State} (hkeys : t.hbm.keys = s.hbm.keys) (hvds : t.vds = s.vds)
    (hst : ∀ h, (t.chan h).st = (s.chan h).st) (h : s.admitLine vd key addr old = (.ok g loc kc, s)) :
    t.admitLine vd key addr old = (.ok g loc kc, t) := by
  have hkey : t.key key = s.key key := by rw [State.key, State.key, hkeys]
  have hcarve (k : Nat) : t.carve vd k = s.carve vd k := by rw [State.carve, State.carve, State.vd, State.vd, hvds]
  rw [State.admitLine_ok_iff] at h ⊢
  rwa [hkey, State.mapAddr, hcarve, hst, ← State.mapAddr]

/-- A request under a key ID that retires or is zeroised is refused with KEY RETIRED. -/
theorem State.admitLine_retired (h : (s.key key).st = .retiring ∨ (s.key key).st = .zeroised) :
    s.admitLine vd key addr old = (.refuse 0x7F, s.countKeyRef ((s.mapAddr vd addr old).map Prod.fst)) := by
  rw [State.admitLine]
  dsimp only
  rw [if_pos h]

/-- A request under a key ID of another VD, or of none, is refused with PERMISSION and logged. -/
theorem State.admitLine_foreign (h : (s.key key).st = .empty ∨ ((s.key key).st = .active ∧ (s.key key).vd ≠ vd)) :
    ∃ a, s.admitLine vd key addr old =
      (.refuse 0x21, (s.countKeyRef ((s.mapAddr vd addr old).map Prod.fst)).logErr a) := by
  have hlive : ¬ ((s.key key).st = .retiring ∨ (s.key key).st = .zeroised) := by
    rcases h with h | ⟨h, -⟩ <;> simp [h]
  rw [State.admitLine]
  dsimp only
  rw [if_neg hlive, if_pos (h.imp_right And.right)]
  exact ⟨_, rfl⟩

end

/-- A refusal is counted on its channel, which keeps its lines and its poison. -/
theorem State.countKeyRef_frame (s : State) (o : Option Nat) (g : Nat) :
    ((s.countKeyRef o).chan g).lines = (s.chan g).lines ∧ ((s.countKeyRef o).chan g).poison = (s.chan g).poison ∧
      (s.countKeyRef o).host = s.host := by
  cases o with
  | none => exact ⟨rfl, rfl, rfl⟩
  | some k =>
    rw [State.countKeyRef]
    by_cases h : g = k
    · subst h
      rw [State.chan_setChan_same]
      exact ⟨rfl, rfl, rfl⟩
    · rw [State.chan_setChan_ne _ _ h]
      exact ⟨rfl, rfl, rfl⟩

/-! ### Commands and the requests they make -/

theorem exec_hbmRead (vd key addr : Nat) (e : Ecc) (s : State) : exec (.hbmRead vd key addr e) s =
    .next ((s.mpeRead vd key (addr / 64 * 64) false e).2.reply (s.mpeRead vd key (addr / 64 * 64) false e).1.words) := rfl

/-- A partial write is a write of its granule's bytes, the enabled ones given (R209). -/
theorem exec_partialWrite {vd key addr n : Nat} {data : BitVec 512} {be : DWord} {s : State}
    (hn : granLines (s.carve vd (bitsOf addr 41 40)).mode = n) {r : MpeAns × State}
    (h : s.mpeWrite vd key (addr / (64 * n) * (64 * n)) false (granuleBytes n (addr / 64 % n) data be) = r) :
    exec (.partialWrite vd key addr data be) s = .next (r.2.reply r.1.words) := by
  have hpad : addr / 64 * 64 - addr / (64 * n) * (64 * n) = 64 * (addr / 64 % n) := by
    rw [← Nat.div_div_eq_div_mul, Nat.mul_comm 64 n, ← Nat.mul_assoc, ← Nat.sub_mul, Nat.mul_comm]
    congr 1
    have := Nat.div_add_mod' (addr / 64) n
    omega
  subst h
  change execPartialWrite vd key addr data be s = _
  rw [execPartialWrite, State.granAt, granBytes, hn, hpad]
  rfl

/-- A write of a line is a partial write of all its bytes. -/
theorem exec_hbmWrite (vd key addr : Nat) (data : BitVec 512) (s : State) :
    exec (.hbmWrite vd key addr data) s = exec (.partialWrite vd key addr data (BitVec.allOnes 64)) s := by
  change execHbmWrite vd key addr data s = execPartialWrite vd key addr data (BitVec.allOnes 64) s
  rw [execHbmWrite, execPartialWrite, ← enabledBytes_allOnes, enabledBytes]

section
variable {s t : State} {vd key addr g loc kc : Nat} {e : Ecc} {st : Nat}

theorem State.mpeRead_refused (h : s.admitLine vd key addr false = (.refuse st, t)) :
    s.mpeRead vd key addr false e = (.fail st, t) := by rw [State.mpeRead, h]

theorem State.mpeWrite_refused (h : s.admitLine vd key addr false = (.refuse st, t)) (new : List (Option Byte)) :
    s.mpeWrite vd key addr false new = (.fail st, t) := by rw [State.mpeWrite, h]

/-- A refused request is answered by its status, whatever it asked, in a state that admission leaves. -/
theorem exec_hbmRequest_refused {i : Instr} (hi : i = .hbmRead vd key addr e ∨
      (∃ d, i = .hbmWrite vd key addr d) ∨ ∃ d be, i = .partialWrite vd key addr d be) {P : State → Prop}
    (h : ∀ a, ∃ t, s.admitLine vd key a false = (.refuse st, t) ∧ P t) :
    ∃ t, P t ∧ exec i s = .next (t.reply [2#64, BitVec.ofNat 64 st]) := by
  have hwrite (d : BitVec 512) (be : DWord) :
      ∃ t, P t ∧ exec (.partialWrite vd key addr d be) s = .next (t.reply [2#64, BitVec.ofNat 64 st]) := by
    obtain ⟨t, ht, hP⟩ := h (addr / (64 * granLines (s.carve vd (bitsOf addr 41 40)).mode) *
      (64 * granLines (s.carve vd (bitsOf addr 41 40)).mode))
    exact ⟨t, hP, exec_partialWrite rfl (State.mpeWrite_refused ht _)⟩
  rcases hi with rfl | ⟨d, rfl⟩ | ⟨d, be, rfl⟩
  · obtain ⟨t, ht, hP⟩ := h (addr / 64 * 64)
    refine ⟨t, hP, ?_⟩
    rw [exec_hbmRead, State.mpeRead_refused ht]
    rfl
  · rw [exec_hbmWrite]
    exact hwrite d _
  · exact hwrite d be

end

/-! ### Reads (R198, R207, R208) -/

@[simp] theorem State.pairs_touchChan (s : State) (g p : Nat) : (s.touchChan g).pairs g p = s.pairs g p := by
  rw [State.pairs, State.pairs, State.chan_touchChan]
  rfl

/-- What the lines of a granule open to. -/
def State.granData (s : State) (g : Nat) (fp kp : KeyPair) (line : Nat) : List (BitVec 512) :=
  (granOf (s.chan g).mode line).map ((s.chan g).plain g fp kp)

section
variable {s : State} {g line : Nat} {e : Ecc} {fp kp : KeyPair} (hbad : (s.chan g).subBad (line / 64) = false)
  (hpair : s.pairs g (line / 64) = (fp, some kp))
  (hmeta : (s.touchChan g).checkPage g (line / 64) kp = (none, s.touchChan g))
include hbad hpair hmeta

/-- A read whose page's metadata verify: poison, then ECC, then the tag (R198 steps 4 and 5, R208). -/
theorem State.readGranule_eq : s.readGranule g line e =
    if ((granOf (s.chan g).mode line).any fun l => sget false (s.chan g).poison l) = true then
      (.poisoned (s.granData g fp kp line), s.touchChan g)
    else if (s.chan g).granEcc line e = .uncorrectable then
      (.poisoned (s.granData g fp kp line), (s.touchChan g).badGranule g line false)
    else
      let t := if (s.chan g).granEcc line e = .corrected then (s.touchChan g).corrLine g line else s.touchChan g
      if (s.chan g).tagOk g fp kp line = true then (.ok (s.granData g fp kp line), t)
      else (.fail 0x30, t.badGranule g line true) := by
  rw [State.readGranule]
  simp only [State.chan_touchChan, Chan.subBad_touched, Chan.mode_touched, Chan.poison_touched, Chan.granEcc_touched, hbad,
    State.pairs_touchChan, hpair, hmeta, Bool.false_eq_true, if_false]
  refine if_congr Iff.rfl rfl ?_
  cases (s.chan g).granEcc line e with
  | clean => rfl
  | corrected => rfl
  | uncorrectable => rfl

theorem State.readGranule_poisoned (h : ∃ l ∈ granOf (s.chan g).mode line, sget false (s.chan g).poison l = true) :
    s.readGranule g line e = (.poisoned (s.granData g fp kp line), s.touchChan g) := by
  rw [State.readGranule_eq hbad hpair hmeta, if_pos (List.any_eq_true.2 h)]

variable (hclear : ∀ l ∈ granOf (s.chan g).mode line, sget false (s.chan g).poison l = false)
include hclear

theorem State.readGranule_uncorrectable (h : (s.chan g).granEcc line e = .uncorrectable) :
    s.readGranule g line e = (.poisoned (s.granData g fp kp line), (s.touchChan g).badGranule g line false) := by
  rw [State.readGranule_eq hbad hpair hmeta, if_neg (by simpa using hclear), if_pos h]

theorem State.readGranule_clean (h : (s.chan g).granEcc line e = .clean) : s.readGranule g line e =
    if (s.chan g).tagOk g fp kp line = true then (.ok (s.granData g fp kp line), s.touchChan g)
    else (.fail 0x30, (s.touchChan g).badGranule g line true) := by
  rw [State.readGranule_eq hbad hpair hmeta, if_neg (by simpa using hclear), h, if_neg (by decide)]
  rfl
end

/-- Poisoning a granule found bad on a read counts it and keeps every line (R207, R208). -/
theorem State.chan_badGranule (s : State) (g line : Nat) (tag : Bool) :
    ((s.badGranule g line tag).chan g).lines = (s.chan g).lines ∧
      ((s.badGranule g line tag).chan g).scrubPos = (s.chan g).scrubPos ∧
      (∀ l ∈ granOf (s.chan g).mode line, sget false ((s.badGranule g line tag).chan g).poison l = true) ∧
      (tag = true → ((s.badGranule g line tag).chan g).tagFail = min ((s.chan g).tagFail + 1) 65535) ∧
      (tag = false → ((s.badGranule g line tag).chan g).uncorr = min ((s.chan g).uncorr + 1) 65535) := by
  cases tag with
  | false =>
    rw [State.badGranule, State.chan_chanErr, State.chan_setChan_same]
    exact ⟨rfl, rfl, fun l hl => (Chan.poison_poisonGran ..).trans (if_pos hl), nofun, fun _ => rfl⟩
  | true =>
    rw [State.badGranule, State.chan_chanErr, State.chan_setChan_same]
    exact ⟨rfl, rfl, fun l hl => (Chan.poison_poisonGran ..).trans (if_pos hl), fun _ => rfl, nofun⟩

section
variable {s t : State} {vd key addr g loc kc : Nat} {e : Ecc} {d : BitVec 512} {ds : List (BitVec 512)}
  (hadmit : s.admitLine vd key addr false = (.ok g loc kc, s)) (hwait : s.chWaits g (loc / 64 / 64) true false = false)
include hadmit hwait

theorem State.mpeRead_poisoned (h : s.readGranule g (loc / 64) e = (.poisoned ds, t)) :
    s.mpeRead vd key addr false e = (.poisoned [ds.getD (loc / 64 % granLines (s.chan g).mode) 0#512], t) := by
  simp [State.mpeRead, hadmit, hwait, h]

theorem State.mpeRead_ok_of (h : s.readGranule g (loc / 64) e = (.ok ds, t)) :
    s.mpeRead vd key addr false e = (.ok [ds.getD (loc / 64 % granLines (s.chan g).mode) 0#512], t) := by
  simp [State.mpeRead, hadmit, hwait, h]

theorem State.mpeRead_fail {st : Nat} (h : s.readGranule g (loc / 64) e = (.fail st, t)) :
    s.mpeRead vd key addr false e = (.fail st, t) := by
  simp [State.mpeRead, hadmit, hwait, h]

end

/-- The words of a line (R198). -/
def lineWords (d : BitVec 512) : List DWord := (List.range 8).map fun i => BitVec.ofNat 64 (d.toNat / 2 ^ (64 * i))

theorem MpeAns.words_ok (d : BitVec 512) : (MpeAns.ok [d]).words = 0#64 :: lineWords d := by
  simp [MpeAns.words, lineWords]

theorem MpeAns.words_poisoned (d : BitVec 512) : (MpeAns.poisoned [d]).words = 1#64 :: lineWords d := by
  simp [MpeAns.words, lineWords]

/-- An admitted read finds poison where it was written, poisons and counts an uncorrectable granule and one whose tag
fails. -/
theorem exec_hbmRead_failures {s : State} {v key addr g loc kc : Nat} {ecc : Ecc} {fp kp : KeyPair}
    (hadmit : s.admitLine v key (addr / 64 * 64) false = (.ok g loc kc, s))
    (hwait : s.chWaits g (loc / 64 / 64) true false = false) (hbad : (s.chan g).subBad (loc / 64 / 64) = false)
    (hpair : s.pairs g (loc / 64 / 64) = (fp, some kp))
    (hmeta : (s.touchChan g).checkPage g (loc / 64 / 64) kp = (none, s.touchChan g)) :
    ((∃ l ∈ granOf (s.chan g).mode (loc / 64), sget false (s.chan g).poison l = true) →
      ∃ s', exec (.hbmRead v key addr ecc) s = .next s' ∧
        s'.rdata = 1#64 :: lineWords ((s.chan g).plain g fp kp (loc / 64)) ∧
        (s'.chan g).lines = (s.chan g).lines ∧ (s'.chan g).uncorr = (s.chan g).uncorr) ∧
    ((∀ l ∈ granOf (s.chan g).mode (loc / 64), sget false (s.chan g).poison l = false) →
      (s.chan g).granEcc (loc / 64) ecc = .uncorrectable →
      ∃ s', exec (.hbmRead v key addr ecc) s = .next s' ∧
        s'.rdata = 1#64 :: lineWords ((s.chan g).plain g fp kp (loc / 64)) ∧
        (∀ l ∈ granOf (s.chan g).mode (loc / 64), sget false (s'.chan g).poison l = true) ∧
        (s'.chan g).uncorr = min ((s.chan g).uncorr + 1) 65535 ∧ (s'.chan g).lines = (s.chan g).lines) ∧
    ((∀ l ∈ granOf (s.chan g).mode (loc / 64), sget false (s.chan g).poison l = false) →
      (s.chan g).granEcc (loc / 64) ecc = .clean → (s.chan g).tagOk g fp kp (loc / 64) = false →
      ∃ s', exec (.hbmRead v key addr ecc) s = .next s' ∧ s'.rdata = [2#64, 0x30#64] ∧
        (∀ l ∈ granOf (s.chan g).mode (loc / 64), sget false (s'.chan g).poison l = true) ∧
        (s'.chan g).tagFail = min ((s.chan g).tagFail + 1) 65535 ∧ (s'.chan g).lines = (s.chan g).lines) := by
  have hdata : (s.granData g fp kp (loc / 64)).getD (loc / 64 % granLines (s.chan g).mode) 0#512 =
      (s.chan g).plain g fp kp (loc / 64) := getD_map_granOf ..
  refine ⟨fun hpoison => ?_, fun hclear hecc => ?_, fun hclear hecc htag => ?_⟩
  · refine ⟨_, exec_hbmRead .., ?_⟩
    rw [State.mpeRead_poisoned hadmit hwait (State.readGranule_poisoned hbad hpair hmeta hpoison), hdata]
    refine ⟨MpeAns.words_poisoned _, ?_, ?_⟩
    · rw [State.chan_reply, State.chan_touchChan, Chan.lines_touched]
    · rw [State.chan_reply, State.chan_touchChan, Chan.uncorr_touched]
  · obtain ⟨hlines, -, hpoison, -, huncorr⟩ := (s.touchChan g).chan_badGranule g (loc / 64) false
    rw [State.chan_touchChan] at hlines hpoison huncorr
    refine ⟨_, exec_hbmRead .., ?_⟩
    rw [State.mpeRead_poisoned hadmit hwait (State.readGranule_uncorrectable hbad hpair hmeta hclear hecc), hdata]
    exact ⟨MpeAns.words_poisoned _, hpoison, huncorr rfl, hlines⟩
  · obtain ⟨hlines, -, hpoison, hfail, -⟩ := (s.touchChan g).chan_badGranule g (loc / 64) true
    rw [State.chan_touchChan] at hlines hpoison hfail
    have hread := State.readGranule_clean hbad hpair hmeta hclear hecc
    rw [if_neg (by simp [htag])] at hread
    refine ⟨_, exec_hbmRead .., ?_⟩
    rw [State.mpeRead_fail hadmit hwait hread]
    exact ⟨rfl, hpoison, hfail rfl, hlines⟩

/-- Settles O41: a refused request is answered before it reaches its channel's lines, and an admitted read checks poison,
then ECC, then the tag. -/
theorem hbmFailuresPoison : Obligations.HbmFailuresPoison := by
  refine ⟨fun v key addr i s hi => ⟨fun hst => ?_, fun hst => ?_⟩, fun v key addr g loc kc ecc fp kp s =>
    exec_hbmRead_failures⟩
  · obtain ⟨t, ⟨hlines, hhost⟩, hexec⟩ := exec_hbmRequest_refused hi
      (P := fun t => (∀ g, (t.chan g).lines = (s.chan g).lines) ∧ t.host = s.host) fun a =>
        ⟨_, State.admitLine_retired (addr := a) hst, fun g => (s.countKeyRef_frame _ g).1, (s.countKeyRef_frame _ 0).2.2⟩
    exact ⟨_, hexec, rfl, hlines, by rw [State.reply_host, hhost]⟩
  · obtain ⟨t, hkeep, hexec⟩ := exec_hbmRequest_refused hi
      (P := fun t => ∀ g, (t.chan g).lines = (s.chan g).lines ∧ (t.chan g).poison = (s.chan g).poison) fun a => by
        obtain ⟨r, hr⟩ := State.admitLine_foreign (addr := a) (old := false) hst
        refine ⟨_, hr, fun g => ?_⟩
        obtain ⟨hlines, hpoison, -⟩ := s.countKeyRef_frame ((s.mapAddr v a false).map Prod.fst) g
        rw [State.chan_of_hbm (State.hbm_logErr ..)]
        exact ⟨hlines, hpoison⟩
    exact ⟨_, hexec, rfl, hkeep⟩

end Sys2Proof.Machine
end

section
/-!
PROOFS. Writes to HBM read back (spec/07 R194 to R199, R209, R313, R314): a whole line, and the enabled bytes of one.
-/
namespace Sys2Proof.Machine

/-! ### Moves of channels (R313, R314) -/

/-- A write marks its page dirty at a move's source. -/
def State.markSource (s : State) (g p : Nat) : State :=
  match s.chMoveFrom g with
  | some m => s.setChMove { m with dirty := sput false p true m.dirty }
  | none => s

/-- A write marks its page fresh at a move's destination. -/
def State.markDest (s : State) (g p : Nat) : State :=
  match s.chMoveTo g with
  | some m => s.setChMove { m with fresh := sput false p true m.fresh, dirty := sput false p false m.dirty }
  | none => s

theorem State.markPage_eq (s : State) (g p : Nat) : s.markPage g p = (s.markSource g p).markDest g p := rfl

/-- Noting a write for the moves of its channel changes the moves only. -/
theorem State.markPage_frame (s : State) (g p : Nat) : (s.markPage g p).hbm.chans = s.hbm.chans ∧
    (s.markPage g p).hbm.keys = s.hbm.keys ∧ (s.markPage g p).vds = s.vds := by
  rw [State.markPage_eq, State.markDest, State.markSource]
  split
  · split
    · exact ⟨rfl, rfl, rfl⟩
    · exact ⟨rfl, rfl, rfl⟩
  · split
    · exact ⟨rfl, rfl, rfl⟩
    · exact ⟨rfl, rfl, rfl⟩

/-- A move put in place of the first one to `g`, and of any other of its source, is then the first one to `g`. -/
theorem find?_map_setMove {g : Nat} {m x : ChMove} (hsrc : x.src = m.src) (hdst : x.dst = g) {l : List ChMove}
    (hm : (l.find? fun y => y.dst = g) = some m) :
    ((l.map fun y => if y.src = x.src then x else y).find? fun y => y.dst = g) = some x := by
  induction l with
  | nil => simp at hm
  | cons y l ih =>
    rw [List.map_cons]
    by_cases hy : y.dst = g
    · obtain rfl : y = m := by simpa [List.find?_cons, hy] using hm
      rw [if_pos hsrc.symm, List.find?_cons_of_pos (by simpa using hdst)]
    · rw [List.find?_cons_of_neg (by simpa using hy)] at hm
      split
      · rw [List.find?_cons_of_pos (by simpa using hdst)]
      · rw [List.find?_cons_of_neg (by simpa using hy), ih hm]

theorem State.chMoveTo_setChMove {s : State} {g : Nat} {m x : ChMove} (hm : s.chMoveTo g = some m) (hsrc : x.src = m.src)
    (hdst : x.dst = g) : (s.setChMove x).chMoveTo g = some x := find?_map_setMove hsrc hdst hm

theorem State.fresh_markDest (s : State) (g p : Nat) {m : ChMove} (hm : (s.markDest g p).chMoveTo g = some m) :
    sget false m.fresh p = true := by
  rw [State.markDest] at hm
  cases hs : s.chMoveTo g with
  | none => simp [hs] at hm
  | some k =>
    have hk : k.dst = g := by simpa using List.find?_some hs
    simp only [hs] at hm
    rw [State.chMoveTo_setChMove (x := { k with fresh := sput false p true k.fresh, dirty := sput false p false k.dirty })
      hs rfl hk] at hm
    obtain rfl := Option.some.inj hm
    exact sget_sput_same ..

/-- A page just written is read at once: it is fresh at a move's destination. -/
theorem State.chWaits_markPage (s : State) (g p : Nat) (needs : Bool) :
    (s.markPage g p).chWaits g p needs false = false := by
  rw [State.chWaits, State.markPage_eq, Bool.or_eq_false_iff]
  constructor
  · split
    · next m hm => rw [State.fresh_markDest _ _ _ hm, Bool.not_true, Bool.and_false, Bool.false_and]
    · rfl
  · split
    · rfl
    · rfl

/-! ### The state after a write -/

/-- A granule of channel `g` has been written. -/
def State.afterWrite (s : State) (g : Nat) (kp : KeyPair) (line0 : Nat) (ds : List (BitVec 512)) : State :=
  ((s.touchChan g).setChan g ((s.chan g).touched.written g kp line0 ds)).markPage g (line0 / 64)

section
variable (s : State) (g : Nat) (kp : KeyPair) (line0 : Nat) (ds : List (BitVec 512))

theorem State.afterWrite_touchChan : (s.touchChan g).afterWrite g kp line0 ds = s.afterWrite g kp line0 ds := by
  rw [State.afterWrite, State.touchChan_touchChan, State.chan_touchChan]
  rfl

theorem State.chan_afterWrite : (s.afterWrite g kp line0 ds).chan g = ((s.chan g).written g kp line0 ds).touched := by
  rw [State.chan, State.afterWrite, (State.markPage_frame ..).1, ← State.chan, State.chan_setChan_same,
    Chan.written_touched]

theorem State.chan_afterWrite_ne {h : Nat} (hne : h ≠ g) : (s.afterWrite g kp line0 ds).chan h = s.chan h := by
  rw [State.chan, State.afterWrite, (State.markPage_frame ..).1, ← State.chan, State.chan_setChan_ne _ _ hne,
    State.chan_touchChan_ne _ hne]

theorem State.afterWrite_frame : (s.afterWrite g kp line0 ds).hbm.keys = s.hbm.keys ∧
    (s.afterWrite g kp line0 ds).vds = s.vds := (State.markPage_frame ..).2

theorem State.st_afterWrite (h : Nat) : ((s.afterWrite g kp line0 ds).chan h).st = (s.chan h).st := by
  by_cases hne : h = g
  · rw [hne, State.chan_afterWrite, Chan.st_touched, Chan.st_written]
  · rw [State.chan_afterWrite_ne _ _ _ _ _ hne]

theorem State.stored_afterWrite (fp : KeyPair) (l : Nat) : ((s.afterWrite g kp line0 ds).chan g).stored g fp l =
    ((s.chan g).putNext g kp line0 ds).stored g fp l := by
  rw [State.chan_afterWrite, Chan.stored_touched, Chan.stored_written]

theorem State.mode_afterWrite : ((s.afterWrite g kp line0 ds).chan g).mode = (s.chan g).mode := by
  rw [State.chan_afterWrite, Chan.mode_touched, Chan.mode_written]

theorem State.subBad_afterWrite (p : Nat) : ((s.afterWrite g kp line0 ds).chan g).subBad p = (s.chan g).subBad p := by
  rw [State.chan_afterWrite, Chan.subBad_touched, Chan.subBad_written]

/-- A page's key pairs are told by the key slots, its channel's key and its generation. -/
theorem State.pairs_congr {s t : State} {g p : Nat} (hkeys : t.hbm.keys = s.hbm.keys)
    (hkey : (t.chan g).key = (s.chan g).key) (hfmt : (t.chan g).fmtGen = (s.chan g).fmtGen)
    (hgen : ((t.chan g).ctr p).gen = ((s.chan g).ctr p).gen) : t.pairs g p = s.pairs g p := by
  simp only [State.pairs, State.key, hkeys, hkey, hfmt, hgen]

theorem State.pairs_afterWrite (p : Nat) : (s.afterWrite g kp line0 ds).pairs g p = s.pairs g p := by
  refine State.pairs_congr (s.afterWrite_frame ..).1 ?_ ?_ ?_
  · rw [State.chan_afterWrite, Chan.key_touched, Chan.key_written]
  · rw [State.chan_afterWrite, Chan.fmtGen_touched, Chan.fmtGen_written]
  · rw [State.chan_afterWrite, Chan.ctr_touched, Chan.gen_ctr_written]

end

/-! ### Whole and partial writes (R199, R209) -/

section
variable {s : State} {g line0 : Nat} {fp kp : KeyPair} (hbad : (s.chan g).subBad (line0 / 64) = false)
  (hpair : s.pairs g (line0 / 64) = (fp, some kp))
  (hmeta : (s.touchChan g).checkPage g (line0 / 64) kp = (none, s.touchChan g))
  (hminor : ((s.chan g).ctr (line0 / 64)).minor (minorIdx (s.chan g).mode line0) < 127)
include hbad hpair hmeta

include hminor in
/-- A write of a granule whose page verifies and has room in its minor counter. -/
theorem State.writeGranule_ok (ds : List (BitVec 512)) :
    s.writeGranule g line0 ds = (.ok [], s.afterWrite g kp line0 ds) := by
  have hroom : ¬ ((s.chan g).touched.ctr (line0 / 64)).minor (minorIdx (s.chan g).touched.mode line0) = 127 :=
    Nat.ne_of_lt hminor
  rw [State.writeGranule]
  simp only [State.chan_touchChan, Chan.subBad_touched, hbad,
    State.pairs_touchChan, hpair, hmeta, Bool.false_eq_true, if_false, hroom, Bool.not_true, Option.getD_some]
  rfl

variable (hclear : ∀ l ∈ granOf (s.chan g).mode line0,
  sget false (s.chan g).poison l = false ∧ sget Ecc.clean (s.chan g).flaw l = Ecc.clean)
include hclear

omit hbad hpair hmeta in
theorem Chan.granEcc_clean : (s.chan g).granEcc line0 .clean = .clean := by
  rw [Chan.granEcc]
  refine List.foldlRecOn (motive := fun a => a = Ecc.clean) _ _ rfl fun a ha l hl => ?_
  rw [ha, (hclear l hl).2]
  rfl

/-- A read of a granule that verifies is answered by what its lines open to. -/
theorem State.readGranule_ok (htag : (s.chan g).tagOk g fp kp line0 = true) :
    s.readGranule g line0 .clean = (.ok (s.granData g fp kp line0), s.touchChan g) := by
  rw [State.readGranule_clean hbad hpair hmeta (fun l hl => (hclear l hl).1) (Chan.granEcc_clean hclear), if_pos htag]

include hminor in
/-- A partial write of a granule that verifies goes over what its lines opened to (R209). -/
theorem State.partialGranule_ok (htag : (s.chan g).tagOk g fp kp line0 = true) (new : List (Option Byte)) :
    s.partialGranule g line0 new = (.ok [], s.afterWrite g kp line0 (overlay (s.granData g fp kp line0) new)) := by
  have hany : ¬ (((granOf (s.chan g).mode line0).any fun l => sget false (s.chan g).poison l) = true ∨
      (s.chan g).subBad (line0 / 64) = true) := by
    simp only [hbad, Bool.false_eq_true, or_false, List.any_eq_true, not_exists, not_and, Bool.not_eq_true]
    exact fun l hl => (hclear l hl).1
  rw [State.partialGranule]
  simp only [hany, if_false, State.readGranule_ok hbad hpair hmeta hclear htag]
  rw [State.writeGranule_ok (fp := fp) (kp := kp) (by rw [State.chan_touchChan]; exact hbad) (by rw [State.pairs_touchChan, hpair])
    (by rw [State.touchChan_touchChan, hmeta]) (by rw [State.chan_touchChan]; exact hminor), State.afterWrite_touchChan]
end

section
variable {s : State} {v key addr g loc kc : Nat} (hadmit : s.admitLine v key addr false = (.ok g loc kc, s))
include hadmit

theorem State.mpeWrite_full {data : BitVec 512} (hmode : (s.chan g).mode ≠ 3)
    (hwait : s.chWaits g (loc / 64 / 64) false true = false) :
    s.mpeWrite v key addr false (granuleBytes 1 0 data (BitVec.allOnes 64)) = s.writeGranule g (loc / 64) [data] := by
  have hbytes : granuleBytes 1 0 data (BitVec.allOnes 64) = enabledBytes data (BitVec.allOnes 64) := by
    simp [granuleBytes]
  have hall : (enabledBytes data (BitVec.allOnes 64)).all Option.isSome = true := by
    rw [enabledBytes_allOnes]
    simp
  rw [State.mpeWrite, hadmit, hbytes]
  simp only [granLines_one hmode, Nat.div_one, Nat.mul_one, length_enabledBytes, hall, decide_true, Bool.and_self,
    Bool.not_true, hwait, Bool.false_eq_true, if_false, if_true, lines_of_fullBytes]

theorem State.mpeWrite_partial {new : List (Option Byte)} (hnew : new.all Option.isSome = false)
    (hwait : s.chWaits g (loc / 64 / granLines (s.chan g).mode * granLines (s.chan g).mode / 64) true true = false) :
    s.mpeWrite v key addr false new =
      s.partialGranule g (loc / 64 / granLines (s.chan g).mode * granLines (s.chan g).mode) new := by
  rw [State.mpeWrite, hadmit]
  simp only [hnew, Bool.and_false, Bool.not_false, hwait, Bool.false_eq_true, if_false]
end

/-! ### What the statement asks of the state after a write -/

section
variable {s : State} {g line0 : Nat} {fp kp : KeyPair} {ds : List (BitVec 512)} (hline : granLines (s.chan g).mode ∣ line0)
  (hlen : ds.length = granLines (s.chan g).mode)
  (hminor : ((s.chan g).ctr (line0 / 64)).minor (minorIdx (s.chan g).mode line0) < 127)
include hline hlen hminor

theorem State.plain_afterWrite (l : Nat) : ((s.afterWrite g kp line0 ds).chan g).plain g fp kp l =
    if l ∈ granOf (s.chan g).mode line0 then ds.getD (l - line0) 0#512 else (s.chan g).plain g fp kp l := by
  rw [State.chan_afterWrite, Chan.plain_touched, Chan.plain_written _ g fp kp ds hline hlen hminor l]

theorem State.tagOk_afterWrite : ((s.afterWrite g kp line0 ds).chan g).tagOk g fp kp line0 = true := by
  rw [State.chan_afterWrite, Chan.tagOk_touched, Chan.tagOk_written _ g fp kp ds hline hlen hminor]

omit hminor in
theorem State.clear_afterWrite (l : Nat) : sget false ((s.afterWrite g kp line0 ds).chan g).poison l =
      (if l ∈ granOf (s.chan g).mode line0 then false else sget false (s.chan g).poison l) ∧
    sget Ecc.clean ((s.afterWrite g kp line0 ds).chan g).flaw l =
      if l ∈ granOf (s.chan g).mode line0 then Ecc.clean else sget Ecc.clean (s.chan g).flaw l := by
  simp only [State.chan_afterWrite, mem_granOf_aligned _ hline, ← hlen, Chan.poison_touched, Chan.flaw_touched,
    Chan.poison_written, Chan.flaw_written, and_self]

omit hline hlen hminor in
/-- A page just written is held verified in the metadata cache (R202). -/
theorem State.checkPage_afterWrite (w : List DWord) :
    (((s.afterWrite g kp line0 ds).reply w).touchChan g).checkPage g (line0 / 64) kp =
      (none, ((s.afterWrite g kp line0 ds).reply w).touchChan g) := by
  rw [State.checkPage, State.chan_touchChan, State.chan_reply, State.chan_afterWrite, Chan.dirtyMeta_touched,
    Chan.dirtyMeta_touched, Chan.dirtyMeta_written, if_pos rfl]

/-- The granule is read back as it was written. -/
theorem State.readGranule_afterWrite (hbad : (s.chan g).subBad (line0 / 64) = false)
    (hpair : s.pairs g (line0 / 64) = (fp, some kp)) (w : List DWord) :
    ((s.afterWrite g kp line0 ds).reply w).readGranule g line0 .clean =
      (.ok ((s.afterWrite g kp line0 ds).granData g fp kp line0),
        ((s.afterWrite g kp line0 ds).reply w).touchChan g) := by
  refine State.readGranule_ok (by rw [State.chan_reply, State.subBad_afterWrite, hbad])
    ((State.pairs_congr rfl rfl rfl rfl).trans ((s.pairs_afterWrite ..).trans hpair)) (State.checkPage_afterWrite w)
    (fun l hl => ?_) (State.tagOk_afterWrite hline hlen hminor)
  rw [State.chan_reply, State.mode_afterWrite] at hl
  obtain ⟨hpoison, hflaw⟩ := State.clear_afterWrite (kp := kp) hline hlen l
  rw [State.chan_reply, hpoison, hflaw, if_pos hl, if_pos hl]
  exact ⟨rfl, rfl⟩
end

/-- Admission after a write is what it was. -/
theorem State.admitLine_afterWrite {s : State} {v key addr g loc kc : Nat} (kp : KeyPair) (line0 : Nat)
    (ds : List (BitVec 512)) (h : s.admitLine v key addr false = (.ok g loc kc, s)) (w : List DWord) :
    ((s.afterWrite g kp line0 ds).reply w).admitLine v key addr false =
      (.ok g loc kc, (s.afterWrite g kp line0 ds).reply w) :=
  State.admitLine_congr (s.afterWrite_frame ..).1 (s.afterWrite_frame ..).2 (s.st_afterWrite g kp line0 ds) h

theorem State.chWaits_afterWrite (s : State) (g : Nat) (kp : KeyPair) (line0 : Nat) (ds : List (BitVec 512))
    (w : List DWord) (needs : Bool) :
    ((s.afterWrite g kp line0 ds).reply w).chWaits g (line0 / 64) needs false = false := State.chWaits_markPage ..

/-! ### The two kinds of write -/

section
variable {v key addr g loc kc : Nat} {fp kp : KeyPair} {data : BitVec 512} {s : State} (hmode : (s.chan g).mode ≠ 3)
  (hadmit : s.admitLine v key (addr / 64 * 64) false = (.ok g loc kc, s))
  (hbad : (s.chan g).subBad (loc / 64 / 64) = false) (hpair : s.pairs g (loc / 64 / 64) = (fp, some kp))
  (hminor : ((s.chan g).ctr (loc / 64 / 64)).minor (minorIdx (s.chan g).mode (loc / 64)) < 127)
include hmode hadmit hbad hpair hminor

/-- A line written whole. -/
theorem exec_partialWrite_full (hcarve : (s.carve v (bitsOf addr 41 40)).mode ≠ 3)
    (hwait : s.chWaits g (loc / 64 / 64) false true = false)
    (hmeta : (s.touchChan g).checkPage g (loc / 64 / 64) kp = (none, s.touchChan g)) :
    exec (.partialWrite v key addr data (BitVec.allOnes 64)) s =
      .next ((s.afterWrite g kp (loc / 64) [data]).reply [0#64]) := by
  refine exec_partialWrite (granLines_one hcarve) (r := (.ok [], s.afterWrite g kp (loc / 64) [data])) ?_
  rw [Nat.mul_one, Nat.mod_one, State.mpeWrite_full hadmit hmode hwait, State.writeGranule_ok hbad hpair hmeta hminor]

/-- It is read back. -/
theorem exec_hbmRead_afterWrite : exec (.hbmRead v key addr .clean) ((s.afterWrite g kp (loc / 64) [data]).reply [0#64]) =
    .next ((((s.afterWrite g kp (loc / 64) [data]).reply [0#64]).touchChan g).reply (0#64 :: lineWords data)) := by
  have hline : granLines (s.chan g).mode ∣ loc / 64 := by rw [granLines_one hmode]; exact one_dvd _
  have hlen : [data].length = granLines (s.chan g).mode := (granLines_one hmode).symm
  have hdata : ((s.afterWrite g kp (loc / 64) [data]).granData g fp kp (loc / 64)).getD
      (loc / 64 % granLines ((s.afterWrite g kp (loc / 64) [data]).chan g).mode) 0#512 = data := by
    rw [State.granData, getD_map_granOf, State.plain_afterWrite hline hlen hminor, if_pos (self_mem_granOf ..), Nat.sub_self,
      List.getD_cons_zero]
  rw [exec_hbmRead, State.mpeRead_ok_of (State.admitLine_afterWrite kp _ _ hadmit _) (State.chWaits_afterWrite ..)
    (State.readGranule_afterWrite hline hlen hminor hbad hpair _), State.chan_reply, hdata, MpeAns.words_ok]
end

theorem length_granData (s : State) (g : Nat) (fp kp : KeyPair) (line : Nat) :
    (s.granData g fp kp line).length = granLines (s.chan g).mode := by rw [State.granData, List.length_map, length_granOf]

/-- The enabled bytes of a line written. -/
theorem exec_partialWrite_part {v key addr g loc kc n : Nat} {fp kp : KeyPair} {data : BitVec 512} {be : DWord} {s : State}
    (hn : granLines (s.chan g).mode = n) (hcarve : (s.carve v (bitsOf addr 41 40)).mode = (s.chan g).mode)
    (hpart : be ≠ BitVec.allOnes 64 ∨ (s.chan g).mode = 3)
    (hadmit : s.admitLine v key (addr / (64 * n) * (64 * n)) false = (.ok g loc kc, s))
    (hwait : s.chWaits g (loc / 64 / n * n / 64) true true = false)
    (hbad : (s.chan g).subBad (loc / 64 / n * n / 64) = false)
    (hpair : s.pairs g (loc / 64 / n * n / 64) = (fp, some kp))
    (hmeta : (s.touchChan g).checkPage g (loc / 64 / n * n / 64) kp = (none, s.touchChan g))
    (hminor : ((s.chan g).ctr (loc / 64 / n * n / 64)).minor (minorIdx (s.chan g).mode (loc / 64 / n * n)) < 127)
    (hclear : ∀ l ∈ granOf (s.chan g).mode (loc / 64 / n * n),
      sget false (s.chan g).poison l = false ∧ sget Ecc.clean (s.chan g).flaw l = Ecc.clean)
    (htag : (s.chan g).tagOk g fp kp (loc / 64 / n * n) = true) :
    exec (.partialWrite v key addr data be) s = .next ((s.afterWrite g kp (loc / 64 / n * n)
      (mergedLines (s.granData g fp kp (loc / 64 / n * n)) (addr / 64 % n) data be)).reply [0#64]) := by
  subst hn
  have hi : addr / 64 % granLines (s.chan g).mode < granLines (s.chan g).mode := Nat.mod_lt _ (granLines_pos _)
  have hpartial := granuleBytes_partial hi data be (hpart.imp_right fun h => by rw [h]; decide)
  refine exec_partialWrite (by rw [hcarve]) (r := (.ok [], s.afterWrite g kp _ _)) ?_
  rw [State.mpeWrite_partial hadmit hpartial hwait, State.partialGranule_ok hbad hpair hmeta hminor hclear htag,
    overlay_granuleBytes hi (length_granData ..)]

/-- Settles O40: a write stores its granule under the next minor counter of the page, which is then held verified. -/
theorem hbmWritesReadBack : Obligations.HbmWritesReadBack := by
  refine ⟨fun v key addr g loc kc fp kp data s hcarve hmode hadmit hwait hbad hpair hmeta hminor => ?_,
    fun v key addr g loc kc fp kp data be i s hi => ?_⟩
  · have hline : granLines (s.chan g).mode ∣ loc / 64 := by rw [granLines_one hmode]; exact one_dvd _
    have hlen : [data].length = granLines (s.chan g).mode := (granLines_one hmode).symm
    have hgran {l : Nat} : l ∈ granOf (s.chan g).mode (loc / 64) ↔ l = loc / 64 := by rw [granOf_one hmode, List.mem_singleton]
    have hexec := exec_partialWrite_full (data := data) hmode hadmit hbad hpair hminor hcarve hwait hmeta
    have hplain (l : Nat) := State.plain_afterWrite (fp := fp) (kp := kp) hline hlen hminor l
    have hstored (l : Nat) := (s.stored_afterWrite g kp (loc / 64) [data] fp l).trans (Chan.stored_putGranule ..)
    have hpoison (l : Nat) := (State.clear_afterWrite (kp := kp) hline hlen l).1
    refine ⟨_, (exec_hbmWrite ..).trans hexec, rfl, ?_, State.tagOk_afterWrite hline hlen hminor, ?_, ?_, fun l hl => ?_,
      fun h hne => State.chan_afterWrite_ne _ _ _ _ _ hne, hexec, _,
      exec_hbmRead_afterWrite hmode hadmit hbad hpair hminor, rfl⟩
    · rw [State.chan_reply, hplain, if_pos (hgran.2 rfl), Nat.sub_self, List.getD_cons_zero]
    · rw [State.chan_reply, hstored, if_pos (by simp), cipherLine, Nat.sub_self, List.getD_cons_zero]
    · rw [State.chan_reply, hpoison, if_pos (hgran.2 rfl)]
    · rw [State.chan_reply, hplain, hstored, hpoison, if_neg (mt hgran.1 hl), if_neg (mt hgran.1 hl), if_neg]
      · exact ⟨rfl, rfl, rfl⟩
      · simp only [List.length_singleton]
        omega
  · intro c n a line0 at_ p t hcarve hpart hadmit hwait hbad hpair hmeta hminor hclear htag
    have hexec := exec_partialWrite_part (data := data) rfl hcarve hpart hadmit hwait hbad hpair hmeta hminor hclear htag
    have hline : granLines (s.chan g).mode ∣ line0 := Nat.dvd_mul_left ..
    have hat : addr / 64 % n < n := Nat.mod_lt _ (granLines_pos _)
    have hgran {l : Nat} : l ∈ granOf (s.chan g).mode line0 ↔ line0 ≤ l ∧ l < line0 + n := mem_granOf_aligned _ hline
    have hlen : (mergedLines (s.granData g fp kp line0) (addr / 64 % n) data be).length = granLines (s.chan g).mode := by
      rw [length_mergedLines, length_granData]
    have hplain (l : Nat) := State.plain_afterWrite (fp := fp) (kp := kp) hline hlen hminor l
    have hlines {k : Nat} (hk : k < n) : (mergedLines (s.granData g fp kp line0) (addr / 64 % n) data be).getD k 0#512 =
        if k = addr / 64 % n then mergeBytes ((s.granData g fp kp line0).getD k 0#512) data be
        else (s.granData g fp kp line0).getD k 0#512 := by
      rw [mergedLines, getD_map_range (by rwa [length_granData])]
    have hdata {k : Nat} (hk : k < n) : (s.granData g fp kp line0).getD k 0#512 = c.plain g fp kp (line0 + k) := by
      rw [State.granData, granOf, List.map_map, getD_map_range hk, Function.comp_apply, Nat.div_mul_cancel hline]
    have hi : exec i s = exec (.partialWrite v key addr data be) s := by
      rcases hi with rfl | ⟨rfl, rfl⟩
      · rfl
      · exact exec_hbmWrite ..
    refine ⟨_, hi.trans hexec, rfl, ?_, State.tagOk_afterWrite hline hlen hminor,
      fun l hl => ⟨?_, ?_⟩, fun h hne => State.chan_afterWrite_ne _ _ _ _ _ hne⟩
    · rw [State.chan_reply, hplain, if_pos (hgran.2 ⟨Nat.le_add_right .., Nat.add_lt_add_left hat _⟩), Nat.add_sub_cancel_left,
        hlines hat, if_pos rfl, hdata hat]
    · rw [State.chan_reply, hplain]
      by_cases hin : l ∈ granOf (s.chan g).mode line0
      · obtain ⟨hle, hlt⟩ := hgran.1 hin
        rw [if_pos hin, hlines (by omega), if_neg (by omega), hdata (by omega), Nat.add_sub_cancel' hle]
      · rw [if_neg hin]
    · rw [State.chan_reply, (State.clear_afterWrite hline hlen l).1]
      split
      · next hin => rw [(hclear l hin).1]
      · rfl

end Sys2Proof.Machine
end

section
/-!
PROOFS. Channels and keys (spec/07 R201, R202, R206, R218, R219): a blank channel, the sweep of a key roll, and what a
drain and a zeroisation leave of a key's channels.
-/
namespace Sys2Proof.Machine

/-! ### A channel as formatted (R206) -/

section
variable {c : Chan} (hlines : c.lines = []) (hctrs : c.ctrs = []) (g : Nat) (kp : KeyPair) (line : Nat)
include hlines hctrs

theorem Chan.plain_blank : c.plain g kp kp line = 0#512 := by
  rw [Chan.plain, Chan.stored, Chan.ctr, hlines, hctrs, sget_nil, sget_nil, CtrBlk.minor_zero]
  exact BitVec.xor_self

theorem Chan.tagOk_blank (htags : c.tags = []) : c.tagOk g kp kp line = true := by
  have hstored : c.stored g kp = fun l => lineStream kp.dataKey c.fmtGen g l 0 0 := by
    funext l
    rw [Chan.stored, hlines, sget_nil]
  have hgran : granOf c.mode (line / granLines c.mode * granLines c.mode) = granOf c.mode line := by
    rw [granOf, granOf, Nat.mul_div_cancel _ (granLines_pos _)]
  rw [Chan.tagOk, headD_granOf, Chan.storedTag, htags, hstored, Chan.ctr, hctrs, sget_nil, sget_nil, CtrBlk.minor_zero, hgran]
  exact decide_eq_true rfl
end

/-! ### Granules stored one after another -/

/-- Steps that each set the lines of one granule of `n` to what `f` gives, as far as `proj` sees. -/
theorem foldl_granules {α : Type} {proj : Chan → Nat → α} {f : Nat → α} {step : Chan → Nat → Chan} {base n : Nat}
    (hstep : ∀ c i l, proj (step c i) l = if base + n * i ≤ l ∧ l < base + n * i + n then f l else proj c l)
    (k : Nat) (c : Chan) (l : Nat) :
    proj ((List.range k).foldl step c) l = if base ≤ l ∧ l < base + n * k then f l else proj c l := by
  induction k with
  | zero => rw [List.range_zero, List.foldl_nil, if_neg (by omega)]
  | succ k ih =>
    rw [List.range_succ, List.foldl_append, List.foldl_cons, List.foldl_nil, hstep, ih, Nat.mul_succ]
    by_cases hlast : base + n * k ≤ l ∧ l < base + n * k + n
    · rw [if_pos hlast, if_pos (by omega)]
    · rw [if_neg hlast]
      by_cases hin : base ≤ l ∧ l < base + n * k
      · rw [if_pos hin, if_pos (by omega)]
      · rw [if_neg hin, if_neg (by omega)]

/-! ### Re-encryption of a page (R200, R201) -/

/-- What is read of a page's lines and counters is the same. -/
def Chan.SamePage (c d : Chan) (q : Nat) : Prop :=
  d.ctr q = c.ctr q ∧ (∀ l, l / 64 = q → sget none d.lines l = sget none c.lines l) ∧ d.fmtGen = c.fmtGen ∧ d.mode = c.mode

theorem Chan.SamePage.refl (c : Chan) (q : Nat) : c.SamePage c q := ⟨rfl, fun _ _ => rfl, rfl, rfl⟩

theorem Chan.SamePage.trans {c d e : Chan} {q : Nat} (h : c.SamePage d q) (h' : d.SamePage e q) : c.SamePage e q := by
  obtain ⟨hctr, hlines, hfmt, hmode⟩ := h
  obtain ⟨hctr', hlines', hfmt', hmode'⟩ := h'
  exact ⟨hctr'.trans hctr, fun l hl => (hlines' l hl).trans (hlines l hl), hfmt'.trans hfmt, hmode'.trans hmode⟩

theorem Chan.SamePage.plain {c d : Chan} {q l : Nat} (h : c.SamePage d q) (hl : l / 64 = q) (g : Nat) (fp kp : KeyPair) :
    d.plain g fp kp l = c.plain g fp kp l := by
  obtain ⟨hctr, hlines, hfmt, hmode⟩ := h
  subst hl
  rw [Chan.plain, Chan.plain, Chan.stored, Chan.stored, hctr, hlines l rfl, hfmt, hmode]

section
variable (c : Chan) (g : Nat) (fp old new : KeyPair) (p gen major : Nat)

/-- The ciphertext of a re-encrypted line. -/
def Chan.recrypted (l : Nat) : BitVec 512 := c.plain g fp old l ^^^ lineStream new.dataKey gen g l major 0

/-- One granule of a page re-encrypted. -/
def Chan.recryptGranule (d : Chan) (i : Nat) : Chan :=
  let l0 := 64 * p + granLines c.mode * i
  let bad := (granOf c.mode l0).any (fun l => sget false c.poison l) || !c.tagOk g fp old l0
  let d := d.putGranule g new l0 gen major 0 ((granOf c.mode l0).map (c.plain g fp old))
  if bad then d.poisonGran l0 else d

/-- Every granule of a page re-encrypted. -/
def Chan.recryptLines : Chan :=
  (List.range (64 / granLines c.mode)).foldl (c.recryptGranule g fp old new p gen major) c

theorem Chan.reencrypt_eq : c.reencrypt g fp old new p gen major =
    { (c.recryptLines g fp old new p gen major).setCtr p { c.ctr p with gen := gen, major := major, minors := 0#448 } with
      maxMajor := max c.maxMajor major,
      dirtyMeta := sput false p true (c.recryptLines g fp old new p gen major).dirtyMeta } := rfl

/-- Re-encryption of a granule touches no counter. -/
theorem Chan.recryptGranule_frame (d : Chan) (i : Nat) : (c.recryptGranule g fp old new p gen major d i).ctrs = d.ctrs ∧
    (c.recryptGranule g fp old new p gen major d i).fmtGen = d.fmtGen ∧
    (c.recryptGranule g fp old new p gen major d i).mode = d.mode := by
  rw [Chan.recryptGranule]
  split
  · exact ⟨rfl, rfl, rfl⟩
  · exact ⟨rfl, rfl, rfl⟩

theorem Chan.recryptLines_frame : (c.recryptLines g fp old new p gen major).ctrs = c.ctrs ∧
    (c.recryptLines g fp old new p gen major).fmtGen = c.fmtGen ∧
    (c.recryptLines g fp old new p gen major).mode = c.mode :=
  ⟨foldl_unchanged Chan.ctrs _ _ _ fun d i => (c.recryptGranule_frame g fp old new p gen major d i).1,
   foldl_unchanged Chan.fmtGen _ _ _ fun d i => (c.recryptGranule_frame g fp old new p gen major d i).2.1,
   foldl_unchanged Chan.mode _ _ _ fun d i => (c.recryptGranule_frame g fp old new p gen major d i).2.2⟩

theorem Chan.lines_recryptGranule (d : Chan) (i l : Nat) :
    sget none (c.recryptGranule g fp old new p gen major d i).lines l =
      if 64 * p + granLines c.mode * i ≤ l ∧ l < 64 * p + granLines c.mode * i + granLines c.mode then
        some (c.recrypted g fp old new gen major l) else sget none d.lines l := by
  have hline : granLines c.mode ∣ 64 * p + granLines c.mode * i := by
    refine Nat.dvd_add ((?_ : granLines c.mode ∣ 64).mul_right p) (Nat.dvd_mul_right ..)
    rcases granLines_cases c.mode with h | h <;> rw [h] <;> decide
  have hput : (c.recryptGranule g fp old new p gen major d i).lines = (d.putGranule g new (64 * p + granLines c.mode * i) gen
      major 0 ((granOf c.mode (64 * p + granLines c.mode * i)).map (c.plain g fp old))).lines := by
    rw [Chan.recryptGranule]
    split
    · rfl
    · rfl
  rw [hput, Chan.lines_putGranule, List.length_map, length_granOf]
  by_cases hl : 64 * p + granLines c.mode * i ≤ l ∧ l < 64 * p + granLines c.mode * i + granLines c.mode
  · rw [if_pos hl, if_pos hl, cipherLine, granOf, List.map_map, getD_map_range (by omega), Function.comp_apply,
      Nat.div_mul_cancel hline, Nat.add_sub_cancel' hl.1, Chan.recrypted]
  · rw [if_neg hl, if_neg hl]

theorem Chan.lines_recryptLines (l : Nat) : sget none (c.recryptLines g fp old new p gen major).lines l =
    if l / 64 = p then some (c.recrypted g fp old new gen major l) else sget none c.lines l := by
  have hpage : granLines c.mode * (64 / granLines c.mode) = 64 := by
    rcases granLines_cases c.mode with h | h <;> rw [h]
  rw [Chan.recryptLines, foldl_granules (proj := fun d l => sget none d.lines l)
    (fun d i l => c.lines_recryptGranule g fp old new p gen major d i l), hpage]
  by_cases hl : l / 64 = p
  · rw [if_pos hl, if_pos (by omega)]
  · rw [if_neg hl, if_neg (by omega)]

theorem Chan.ctr_reencrypt (q : Nat) : (c.reencrypt g fp old new p gen major).ctr q =
    if q = p then { c.ctr p with gen := gen, major := major, minors := 0#448 } else c.ctr q := by
  obtain ⟨hctrs, hfmt, -⟩ := c.recryptLines_frame g fp old new p gen major
  have hset : (c.reencrypt g fp old new p gen major).ctr q = ((c.recryptLines g fp old new p gen major).setCtr p
      { c.ctr p with gen := gen, major := major, minors := 0#448 }).ctr q := rfl
  have hlines : (c.recryptLines g fp old new p gen major).ctr q = c.ctr q := by rw [Chan.ctr, hctrs, hfmt, Chan.ctr]
  rw [hset, Chan.ctr_setCtr, hlines]

/-- Another page stays as it is. -/
theorem Chan.samePage_reencrypt {q : Nat} (hq : q ≠ p) : c.SamePage (c.reencrypt g fp old new p gen major) q := by
  obtain ⟨-, hfmt, hmode⟩ := c.recryptLines_frame g fp old new p gen major
  refine ⟨(c.ctr_reencrypt ..).trans (if_neg hq), fun l hl => ?_, hfmt, hmode⟩
  exact (c.lines_recryptLines ..).trans (if_neg (hl.symm ▸ hq))

end

/-! ### The sweep of a channel (R201) -/

section
variable (g gen : Nat) (prev cur : KeyPair)

/-- Pages re-encrypted one after another under a new generation. -/
def Chan.sweepPages (c : Chan) (pages : List Nat) : Chan :=
  pages.foldl (fun c p => c.reencrypt g prev prev cur p gen 0) c

theorem Chan.samePage_sweepPages {pages : List Nat} {q : Nat} (hq : q ∉ pages) (c : Chan) :
    c.SamePage (c.sweepPages g gen prev cur pages) q :=
  List.foldlRecOn (motive := fun d => c.SamePage d q) pages _ (.refl ..) fun d hd p hp =>
    hd.trans (d.samePage_reencrypt g prev prev cur p gen 0 fun h => hq (h ▸ hp))

/-- The last pass over a page is the one that counts, and the pages before it leave it alone. -/
theorem Chan.sweepPages_mem {pages : List Nat} (hpages : pages.Nodup) {p : Nat} (hp : p ∈ pages) (c : Chan) :
    (c.sweepPages g gen prev cur pages).ctr p = { c.ctr p with gen := gen, major := 0, minors := 0#448 } ∧
      ∀ l, l / 64 = p →
        sget none (c.sweepPages g gen prev cur pages).lines l = some (c.recrypted g prev prev cur gen 0 l) := by
  induction pages generalizing c with
  | nil => exact absurd hp List.not_mem_nil
  | cons q pages ih =>
    obtain ⟨hq, hpages⟩ := List.nodup_cons.1 hpages
    change (Chan.sweepPages g gen prev cur (c.reencrypt g prev prev cur q gen 0) pages).ctr p = _ ∧ ∀ l, l / 64 = p →
      sget none (Chan.sweepPages g gen prev cur (c.reencrypt g prev prev cur q gen 0) pages).lines l = _
    by_cases hpq : p = q
    · subst hpq
      obtain ⟨hctr, hlines, -⟩ := Chan.samePage_sweepPages g gen prev cur hq (c.reencrypt g prev prev cur p gen 0)
      refine ⟨hctr.trans ((c.ctr_reencrypt ..).trans (if_pos rfl)), fun l hl => (hlines l hl).trans ?_⟩
      exact (c.lines_recryptLines ..).trans (if_pos hl)
    · have hsame := c.samePage_reencrypt g prev prev cur q gen 0 hpq
      obtain ⟨hctr, hlines⟩ := ih hpages ((List.mem_cons.1 hp).resolve_left hpq) (c.reencrypt g prev prev cur q gen 0)
      refine ⟨by rw [hctr, hsame.1], fun l hl => ?_⟩
      rw [hlines l hl, Chan.recrypted, hsame.plain hl, Chan.recrypted]

theorem Chan.fmtGen_sweepPages (c : Chan) (pages : List Nat) : (c.sweepPages g gen prev cur pages).fmtGen = c.fmtGen :=
  foldl_unchanged Chan.fmtGen _ _ _ fun d p => (d.recryptLines_frame g prev prev cur p gen 0).2.1

theorem Chan.mode_sweepPages (c : Chan) (pages : List Nat) : (c.sweepPages g gen prev cur pages).mode = c.mode :=
  foldl_unchanged Chan.mode _ _ _ fun d p => (d.recryptLines_frame g prev prev cur p gen 0).2.2

end

/-- The generation before a key slot's own. -/
def KeySlot.oldGen (sl : KeySlot) : Nat := (sl.gen + 255) % 256

theorem KeySlot.oldGen_ne (sl : KeySlot) : sl.gen ≠ sl.oldGen := by
  rw [KeySlot.oldGen]
  omega

/-- The pages of a channel that are listed and still under the previous generation. -/
def Chan.oldPages (c : Chan) (sl : KeySlot) : List Nat :=
  ((skeys c.ctrs) ++ (skeys c.lines).map (· / 64)).dedup.filter fun p => (c.ctr p).gen = sl.oldGen

/-- A channel after the sweep of its key's roll. -/
def Chan.swept (c : Chan) (g : Nat) (sl : KeySlot) : Chan :=
  { c.sweepPages g sl.gen sl.prev sl.cur (c.oldPages sl) with
    sweep := none, fmtGen := if c.fmtGen = sl.oldGen then sl.gen else c.fmtGen }

theorem State.sweepChan_eq (s : State) (g : Nat) :
    s.sweepChan g = s.setChan g ((s.chan g).swept g (s.key (s.chan g).key)) := rfl

/-- A page under the previous generation is then under the new one, with the data it had. -/
theorem Chan.swept_page (c : Chan) (g : Nat) (sl : KeySlot) {p : Nat}
    (hp : p ∈ skeys c.ctrs ∨ ∃ l ∈ skeys c.lines, l / 64 = p) (hold : (c.ctr p).gen = sl.oldGen) :
    ((c.swept g sl).ctr p).gen = sl.gen ∧ ((c.swept g sl).ctr p).minors = 0#448 ∧
      ∀ l, l / 64 = p → (c.swept g sl).plain g sl.cur sl.cur l = c.plain g sl.prev sl.prev l := by
  have hmem : p ∈ c.oldPages sl := List.mem_filter.2
    ⟨List.mem_dedup.2 (List.mem_append.2 (hp.imp_right List.mem_map.2)), decide_eq_true hold⟩
  have hnodup : (c.oldPages sl).Nodup := (List.nodup_dedup _).filter _
  obtain ⟨hctr, hlines⟩ := Chan.sweepPages_mem g sl.gen sl.prev sl.cur hnodup hmem c
  have hfmt := Chan.fmtGen_sweepPages g sl.gen sl.prev sl.cur c (c.oldPages sl)
  have hmode := Chan.mode_sweepPages g sl.gen sl.prev sl.cur c (c.oldPages sl)
  have hswept : (c.swept g sl).ctr p = { c.ctr p with gen := sl.gen, major := 0, minors := 0#448 } := by
    rw [← hctr]
    by_cases hblank : c.fmtGen = sl.oldGen
    · refine sget_default_irrel (fun heq => sl.oldGen_ne ?_) _
      exact (congrArg CtrBlk.gen (hctr.symm.trans heq)).trans (hfmt.trans hblank)
    · have hkept : (c.swept g sl).fmtGen = c.fmtGen := if_neg hblank
      rw [Chan.ctr, Chan.ctr, hkept, hfmt]
      rfl
  refine ⟨by rw [hswept], by rw [hswept], fun l hl => ?_⟩
  have hstored : (c.swept g sl).stored g sl.cur l = c.recrypted g sl.prev sl.prev sl.cur sl.gen 0 l := by
    have hline : sget none (c.swept g sl).lines l = _ := hlines l hl
    rw [Chan.stored, hline]
  rw [Chan.plain_eq _ _ _ _ (hl.symm ▸ hswept), hstored, CtrBlk.minor_zero, Chan.recrypted, BitVec.xor_assoc,
    BitVec.xor_self, BitVec.xor_zero]

end Sys2Proof.Machine
end

section
/-!
PROOFS. Commands of channels, keys and stacks (spec/07 R201, R206, R213 to R215, R218, R219, R392, R423).
-/
namespace Sys2Proof.Machine

/-! ### The channels of a key ID -/

section
variable {s : State} (hwf : SMap.wf ({} : Chan) s.hbm.chans = true) (k : Nat)
include hwf

theorem State.mem_keyChans (g : Nat) : g ∈ s.keyChans k ↔ (s.chan g).key = k ∧
    ((s.chan g).st = .bound ∨ (s.chan g).st = .incoming ∨ (s.chan g).st = .system) := by
  rw [State.keyChans, List.mem_map]
  constructor
  · rintro ⟨⟨g', c⟩, he, rfl⟩
    obtain ⟨hmem, hkey⟩ := List.mem_filter.1 he
    obtain ⟨hc, -⟩ := (SMap.mem_iff hwf).1 hmem
    rw [State.chan, hc]
    simpa [or_assoc] using hkey
  · rintro ⟨hkey, hst⟩
    refine ⟨(g, s.chan g), List.mem_filter.2 ⟨(SMap.mem_iff hwf).2 ⟨rfl, fun h => ?_⟩, ?_⟩, rfl⟩
    · rw [h] at hst
      simp at hst
    · simpa [hkey, or_assoc] using hst

theorem State.nodup_keyChans : (s.keyChans k).Nodup := by
  obtain ⟨hsort, -⟩ := (SMap.wf_iff _).1 hwf
  have hkeys : (s.keyChans k).Pairwise (· < ·) := List.pairwise_map.2 (hsort.sublist List.filter_sublist)
  exact hkeys.imp Nat.ne_of_lt
end

/-! ### Channels changed one after another -/

/-- A step on one channel: the key slots and every other channel stay, and the canonical form of the channels is kept. -/
def State.ChanStep (s t : State) (g : Nat) : Prop :=
  t.hbm.keys = s.hbm.keys ∧ (∀ h, h ≠ g → t.chan h = s.chan h) ∧
    (SMap.wf ({} : Chan) s.hbm.chans = true → SMap.wf ({} : Chan) t.hbm.chans = true)

theorem State.ChanStep.refl (s : State) (g : Nat) : s.ChanStep s g := ⟨rfl, fun _ _ => rfl, id⟩

theorem State.ChanStep.trans {s t u : State} {g : Nat} (h : s.ChanStep t g) (h' : t.ChanStep u g) : s.ChanStep u g := by
  obtain ⟨hkeys, hother, hwf⟩ := h
  obtain ⟨hkeys', hother', hwf'⟩ := h'
  exact ⟨hkeys'.trans hkeys, fun k hk => (hother' k hk).trans (hother k hk), hwf' ∘ hwf⟩

theorem State.chanStep_setChan (s : State) (g : Nat) (c : Chan) : s.ChanStep (s.setChan g c) g :=
  ⟨rfl, fun _ h => State.chan_setChan_ne _ _ h, fun h => sput_wf h g c⟩

section
variable {step : State → Nat → State} {R : Nat → Chan → Chan → Prop} {s : State} {l : List Nat}
  (hstep : ∀ (t : State) (g : Nat), t.ChanStep (step t g) g)
include hstep

/-- Channels that are not listed stay as they are. -/
theorem State.foldl_chanStep_frame : (l.foldl step s).hbm.keys = s.hbm.keys ∧
    (∀ g, g ∉ l → (l.foldl step s).chan g = s.chan g) ∧
    (SMap.wf ({} : Chan) s.hbm.chans = true → SMap.wf ({} : Chan) (l.foldl step s).hbm.chans = true) := by
  induction l generalizing s with
  | nil => exact ⟨rfl, fun _ _ => rfl, id⟩
  | cons x l ih =>
    obtain ⟨hkeys, hother, hwf⟩ := hstep s x
    obtain ⟨hkeys', hother', hwf'⟩ := ih (s := step s x)
    refine ⟨hkeys'.trans hkeys, fun g hg => ?_, hwf' ∘ hwf⟩
    rw [List.mem_cons, not_or] at hg
    exact (hother' g hg.2).trans (hother g hg.1)

/-- A listed channel is changed as its step changes it, one listed twice too where the relation is transitive. -/
theorem State.foldl_chanStep (hR : ∀ (t : State) (g : Nat), t.hbm.keys = s.hbm.keys → R g (t.chan g) ((step t g).chan g))
    (hrep : l.Nodup ∨ ∀ g c d e, R g c d → R g d e → R g c e) {g : Nat} (hg : g ∈ l) :
    R g (s.chan g) ((l.foldl step s).chan g) := by
  induction l generalizing s with
  | nil => exact absurd hg List.not_mem_nil
  | cons x l ih =>
    obtain ⟨hkeys, hother, -⟩ := hstep s x
    have hrest := ih (s := step s x) (fun t g ht => hR t g (ht.trans hkeys)) (hrep.imp_left fun h => (List.nodup_cons.1 h).2)
    have hlast : g ∉ l → (l.foldl step (step s x)).chan g = (step s x).chan g := (State.foldl_chanStep_frame hstep).2.1 g
    rw [List.foldl_cons]
    by_cases hx : g = x
    · subst hx
      by_cases hl : g ∈ l
      · rcases hrep with hnodup | htrans
        · exact absurd hl (List.nodup_cons.1 hnodup).1
        · exact htrans g _ _ _ (hR s g rfl) (hrest hl)
      · rw [hlast hl]
        exact hR s g rfl
    · rw [← hother g hx]
      exact hrest ((List.mem_cons.1 hg).resolve_left hx)
end

theorem State.key_of_keys {s t : State} (h : t.hbm.keys = s.hbm.keys) (k : Nat) : t.key k = s.key k := by
  rw [State.key, State.key, h]

/-! ### The end of a sweep (R201) -/

/-- Every channel of the key is swept, and the previous pair is gone. -/
theorem exec_keyRollSweepEnd {k : Nat} {s : State} (hst : (s.key k).st = .rolling) (hwait : (s.key k).rollWaits = false)
    (hwf : SMap.wf ({} : Chan) s.hbm.chans = true) :
    ∃ s', exec (.keyRollSweepEnd k) s = .next s' ∧ s'.key k = { s.key k with st := .active, prev := {} } ∧
      (∀ g ∈ s.keyChans k, s'.chan g = (s.chan g).swept g (s.key k)) ∧ ∀ g, g ∉ s.keyChans k → s'.chan g = s.chan g := by
  have hstep (t : State) (g : Nat) : t.ChanStep (t.sweepChan g) g := t.chanStep_setChan ..
  have hexec : exec (.keyRollSweepEnd k) s = .next (((s.keyChans k).foldl (fun s g => s.sweepChan g) s).setKey k
      { s.key k with st := .active, prev := {}, rollWaits := false }) := by
    change execKeyRollSweepEnd k s = _
    rw [execKeyRollSweepEnd, if_pos hst, hwait]
    rfl
  refine ⟨_, hexec, ?_, fun g hg => ?_, fun g hg => (State.foldl_chanStep_frame hstep).2.1 g hg⟩
  · rw [State.key_setKey_same, ← hwait]
  · have hswept := State.foldl_chanStep (R := fun g c d => d = c.swept g (s.key c.key)) hstep
      (fun t g ht => by rw [State.sweepChan_eq, State.chan_setChan_same, State.key_of_keys ht])
      (.inl (State.nodup_keyChans hwf k)) hg
    rwa [((State.mem_keyChans hwf k g).1 hg).1] at hswept

/-! ### Drains (R202, R218) -/

/-- In TREE, the versions on a page's path to the root are incremented. -/
def Chan.bumpVers (c : Chan) (p : Nat) : Chan :=
  if c.mode = 2 then
    (List.range 7).foldl (fun (c : Chan) k =>
      { c with vers := sput 0 (nodeKey k (p / 8 ^ k)) (sget 0 c.vers (nodeKey k (p / 8 ^ k)) + 1) c.vers }) c
  else c

/-- A page's counter block is written back with its CHECK. -/
def Chan.putCheck (c : Chan) (g : Nat) (kp : KeyPair) (p : Nat) : Chan :=
  { c.setCtr p { c.ctr p with check := some (ctrCheck kp.tagKey g p (c.ver 0 p) (c.ctr p)) } with
    dirtyMeta := sput false p false c.dirtyMeta }

/-- In TREE, the nodes on a page's path get their tags. -/
def Chan.retagNodes (c : Chan) (g : Nat) (kp : KeyPair) (p : Nat) : Chan :=
  if c.mode = 2 then
    (List.range 6).foldl (fun (c : Chan) i =>
      let k := i + 1
      let j := p / 8 ^ k
      let tag := nodeTag kp.tagKey c.fmtGen g (nodeAddr k j) (c.ver k j) (c.children k j)
      { c with nodeTags := sput none (nodeKey k j) (some tag) c.nodeTags }) c
  else c

theorem Chan.flushPage_eq (c : Chan) (g : Nat) (kp : KeyPair) (p : Nat) :
    c.flushPage g kp p = ((c.bumpVers p).putCheck g kp p).retagNodes g kp p := rfl

/-- What a write-back of metadata leaves alone, but for the pages it cleans. -/
def Chan.unflushed (c : Chan) : SMap Bool × SMap (Option (BitVec 512)) × ChState × Nat := (c.dirtyMeta, c.lines, c.st, c.key)

theorem Chan.unflushed_bumpVers (c : Chan) (p : Nat) : (c.bumpVers p).unflushed = c.unflushed := by
  rw [Chan.bumpVers]
  split
  · exact foldl_unchanged Chan.unflushed _ _ _ fun _ _ => rfl
  · rfl

theorem Chan.unflushed_retagNodes (c : Chan) (g : Nat) (kp : KeyPair) (p : Nat) :
    (c.retagNodes g kp p).unflushed = c.unflushed := by
  rw [Chan.retagNodes]
  split
  · exact foldl_unchanged Chan.unflushed _ _ _ fun _ _ => rfl
  · rfl

/-- Writing a page's counter block back cleans the page and leaves the lines. -/
theorem Chan.unflushed_flushPage (c : Chan) (g : Nat) (kp : KeyPair) (p : Nat) :
    (c.flushPage g kp p).unflushed = (sput false p false c.dirtyMeta, c.lines, c.st, c.key) := by
  have hcheck : ((c.bumpVers p).putCheck g kp p).unflushed = (sput false p false (c.bumpVers p).unflushed.1,
    (c.bumpVers p).unflushed.2) := rfl
  rw [Chan.flushPage_eq, Chan.unflushed_retagNodes, hcheck, Chan.unflushed_bumpVers]
  rfl

/-- What a flush leaves of a channel: its metadata clean, its lines as they were. -/
def Chan.Flushed (c d : Chan) : Prop :=
  (∀ p, sget false d.dirtyMeta p = false) ∧ d.lines = c.lines ∧ d.st = c.st ∧ d.key = c.key

/-- One page of a channel written back. -/
def State.flushOne (g : Nat) (s : State) (p : Nat) : State :=
  s.setChan g ((s.chan g).flushPage g (((s.pairs g p).2).getD {}) p)

theorem State.flushChan_eq (s : State) (g : Nat) :
    s.flushChan g = (skeys (s.chan g).dirtyMeta).foldl (State.flushOne g) s := rfl

theorem State.chanStep_flushChan (s : State) (g : Nat) : s.ChanStep (s.flushChan g) g :=
  List.foldlRecOn (motive := fun t : State => s.ChanStep t g) _ _ (.refl ..) fun t ht _ _ => ht.trans (t.chanStep_setChan ..)

theorem State.unflushed_flushOne (g : Nat) (s : State) (p : Nat) : ((s.flushOne g p).chan g).unflushed =
    (sput false p false (s.chan g).dirtyMeta, (s.chan g).lines, (s.chan g).st, (s.chan g).key) := by
  rw [State.flushOne, State.chan_setChan_same, Chan.unflushed_flushPage]

theorem State.flushed_flushChan (s : State) (g : Nat) : (s.chan g).Flushed ((s.flushChan g).chan g) := by
  have hdirty : ((s.flushChan g).chan g).dirtyMeta =
      (skeys (s.chan g).dirtyMeta).foldl (fun m p => sput false p false m) (s.chan g).dirtyMeta :=
    (List.foldl_hom (g₁ := State.flushOne g) (fun t : State => (t.chan g).dirtyMeta) fun t p =>
      (congrArg Prod.fst (t.unflushed_flushOne g p)).symm).symm
  refine ⟨fun p => ?_, ?_⟩
  · rw [hdirty, sget_foldl_sput_keys _ (fun p => p) fun _ => false, List.map_id']
    split
    · rfl
    · next hp => exact sget_of_not_mem hp
  · have hkept : ((s.flushChan g).chan g).unflushed.2 = (s.chan g).unflushed.2 :=
      foldl_unchanged (fun t : State => (t.chan g).unflushed.2) (State.flushOne g) _ s fun t p => by
        rw [State.unflushed_flushOne]
        rfl
    rw [Chan.unflushed, Chan.unflushed, Prod.mk.injEq, Prod.mk.injEq] at hkept
    exact hkept

/-- A drain flushes every channel of the key and ends its sweep. -/
theorem exec_keyDrainReport {k : Nat} {s : State} (hst : (s.key k).st = .retiring)
    (hwf : SMap.wf ({} : Chan) s.hbm.chans = true) :
    ∃ s', exec (.keyDrainReport k) s = .next s' ∧ s'.key k = { s.key k with drained := true } ∧
      (∀ g ∈ s.keyChans k, (∀ p, sget false (s'.chan g).dirtyMeta p = false) ∧ (s'.chan g).sweep = none ∧
        (s'.chan g).lines = (s.chan g).lines) ∧ ∀ g, g ∉ s.keyChans k → s'.chan g = s.chan g := by
  let t := (s.keyChans k).foldl (fun s g => s.flushChan g) s
  let u := t.setKey k { s.key k with drained := true }
  have hexec : exec (.keyDrainReport k) s =
      .next ((t.keyChans k).foldl (fun s g => s.setChan g { s.chan g with sweep := none }) u) := by
    change execKeyDrainReport k s = _
    rw [execKeyDrainReport, if_pos hst]
  have hflush := fun (s : State) (g : Nat) => s.chanStep_flushChan g
  have hend := fun (s : State) (g : Nat) => s.chanStep_setChan g { s.chan g with sweep := none }
  obtain ⟨-, hother, hwft⟩ := State.foldl_chanStep_frame (s := s) (l := s.keyChans k) hflush
  obtain ⟨hkeys, hother', -⟩ := State.foldl_chanStep_frame (s := u) (l := t.keyChans k) hend
  have hflushed {g : Nat} (hg : g ∈ s.keyChans k) : (s.chan g).Flushed (t.chan g) :=
    State.foldl_chanStep (R := fun _ => Chan.Flushed) hflush (fun t g _ => t.flushed_flushChan g)
      (.inl (State.nodup_keyChans hwf k)) hg
  have hmem (g : Nat) : g ∈ t.keyChans k ↔ g ∈ s.keyChans k := by
    rw [State.mem_keyChans (hwft hwf), State.mem_keyChans hwf]
    by_cases hg : g ∈ s.keyChans k
    · obtain ⟨-, -, hst, hkey⟩ := hflushed hg
      rw [hst, hkey]
    · rw [hother g hg]
  refine ⟨_, hexec, ?_, fun g hg => ?_, fun g hg => ?_⟩
  · rw [State.key_of_keys hkeys]
    exact State.key_setKey_same ..
  · obtain ⟨hdirty, hlines, -⟩ := hflushed hg
    obtain ⟨hsweep, hsame⟩ := State.foldl_chanStep (s := u) (g := g)
      (R := fun _ c d => d.sweep = none ∧ d.dirtyMeta = c.dirtyMeta ∧ d.lines = c.lines) hend
      (fun s g _ => by rw [State.chan_setChan_same]; exact ⟨rfl, rfl, rfl⟩)
      (.inl (State.nodup_keyChans (hwft hwf) k)) ((hmem g).2 hg)
    rw [hsame.1, hsame.2]
    exact ⟨hdirty, hsweep, hlines⟩
  · rw [hother' g (mt (hmem g).1 hg)]
    exact hother g hg

/-! ### Zeroisation (R218, R392) -/

/-- Every channel of a zeroised key is erasing and nobody's. -/
theorem State.zeroiseKey_spec (s : State) (k : Nat) :
    (s.zeroiseKey k).key k = (if (s.key k).peer = none then {} else
      { st := .zeroised, vd := (s.key k).vd, peer := (s.key k).peer, zeroAt := (s.key k).zeroAt, drained := (s.key k).drained }) ∧
    (∀ g ∈ s.keyChans k, ((s.zeroiseKey k).chan g).st = .erasing ∧ ((s.zeroiseKey k).chan g).owner = 0 ∧
      ((s.zeroiseKey k).chan g).lines = [] ∧ ((s.zeroiseKey k).chan g).key = 0) ∧
    ∀ g, g ∉ s.keyChans k → (s.zeroiseKey k).chan g = s.chan g := by
  have hstep (t : State) (g : Nat) : t.ChanStep (t.toErasing g) g := t.chanStep_setChan ..
  have hchan (g : Nat) : (s.zeroiseKey k).chan g = ((s.keyChans k).foldl (fun s g => s.toErasing g) s).chan g := by
    rw [State.zeroiseKey]
    split
    · rfl
    · rfl
  refine ⟨?_, fun g hg => ?_, fun g hg => (hchan g).trans ((State.foldl_chanStep_frame hstep).2.1 g hg)⟩
  · rw [State.zeroiseKey]
    split
    · exact State.key_setKey_same ..
    · exact State.key_setKey_same ..
  · rw [hchan]
    exact State.foldl_chanStep (R := fun _ _ d => d.st = .erasing ∧ d.owner = 0 ∧ d.lines = [] ∧ d.key = 0) hstep
      (fun t g _ => by rw [State.toErasing, State.chan_setChan_same]; exact ⟨rfl, rfl, rfl, rfl⟩)
      (.inr fun _ _ _ _ _ h => h) hg

/-! ### The patrol (R214) -/

theorem eccMax_clean (e : Ecc) : eccMax e .clean = e := by cases e <;> rfl

/-- A corrected line is counted; its channel keeps its lines and its poison. -/
theorem State.chan_corrLine (s : State) (g line : Nat) : (s.corrLine g line).chan g = { s.chan g with
    corr := satAdd 16 (s.chan g).corr 1, corrVf := satAdd 16 (s.chan g).corrVf 1,
    flaw := sput Ecc.clean line Ecc.clean (s.chan g).flaw } := by
  rw [State.corrLine, State.chan_chanErr, State.chan_setChan_same]

/-- What the patrol's read of a line leaves, its position having moved on. -/
def State.patrolled (s : State) (g line : Nat) (e : Ecc) : State :=
  let t := s.setChan g { s.chan g with scrubPos := (line + 1) % 2 ^ 26 }
  match e with
  | .clean => t
  | .corrected => t.corrLine g line
  | .uncorrectable => if sget false (s.chan g).poison line = true then t else t.badGranule g line false

theorem exec_hbmScrubPatrol {g line : Nat} {s : State} (e : Ecc) (hst : (s.chan g).st = .bound) (hline : line < 2 ^ 26)
    (hon : s.regField (baseHbm + 0x10000 * (g / 32) + 0x10) 31 31 = 1) (hdata : 64 * line < chanData (s.chan g).mode)
    (hflaw : sget Ecc.clean (s.chan g).flaw line = .clean) :
    exec (.hbmScrubPatrol g line e) s = .next (s.patrolled g line e) := by
  change execHbmScrubPatrol g line e s = _
  rw [execHbmScrubPatrol, if_neg (by rw [hst, hon]; simp; omega), if_neg (by omega), hflaw, eccMax_clean]
  cases e with
  | clean => rfl
  | corrected => rfl
  | uncorrectable => rfl

/-- What the patrol counts and poisons. -/
theorem State.chan_patrolled (s : State) (g line : Nat) (e : Ecc) :
    ((s.patrolled g line e).chan g).scrubPos = (line + 1) % 2 ^ 26 ∧
    ((s.patrolled g line e).chan g).lines = (s.chan g).lines ∧
    (e = .corrected → ((s.patrolled g line e).chan g).corr = min ((s.chan g).corr + 1) 65535 ∧
      ((s.patrolled g line e).chan g).poison = (s.chan g).poison) ∧
    (e = .uncorrectable → sget false (s.chan g).poison line = false →
      ((s.patrolled g line e).chan g).uncorr = min ((s.chan g).uncorr + 1) 65535 ∧
      sget false ((s.patrolled g line e).chan g).poison line = true) := by
  cases e with
  | clean =>
    rw [State.patrolled, State.chan_setChan_same]
    exact ⟨rfl, rfl, nofun, nofun⟩
  | corrected =>
    rw [State.patrolled, State.chan_corrLine, State.chan_setChan_same]
    exact ⟨rfl, rfl, fun _ => ⟨rfl, rfl⟩, nofun⟩
  | uncorrectable =>
    rw [State.patrolled]
    split
    · next hpoison =>
      rw [State.chan_setChan_same]
      exact ⟨rfl, rfl, nofun, fun _ h => absurd (h.symm.trans hpoison) (by decide)⟩
    · obtain ⟨hlines, hpos, hpoison, -, huncorr⟩ :=
        (s.setChan g { s.chan g with scrubPos := (line + 1) % 2 ^ 26 }).chan_badGranule g line false
      rw [State.chan_setChan_same] at hlines hpos hpoison huncorr
      exact ⟨hpos, hlines, nofun, fun _ _ => ⟨huncorr rfl, hpoison line (self_mem_granOf ..)⟩⟩

end Sys2Proof.Machine
end

section
/-!
PROOFS. What a temperature poll of an HBM stack does (spec/07 R213, spec/13 R418, R419, R423), and the settlement of O42.
-/
namespace Sys2Proof.Machine

/-! ### Throttle, events and trips -/

/-- The safety throttle leaves the stacks and the causes; where the stack throttle is one of them, g is 48. -/
theorem State.applySafe_spec (s : State) : s.applySafe.hbm = s.hbm ∧ s.applySafe.pwr.hbmSafe = s.pwr.hbmSafe ∧
    s.applySafe.pwr.tripped = s.pwr.tripped ∧ (s.pwr.hbmSafe = true → s.applySafe.pwr.gate = 48) := by
  rw [State.applySafe]
  split
  · exact ⟨rfl, rfl, rfl, fun _ => rfl⟩
  · next hsafe => exact ⟨rfl, rfl, rfl, fun h => absurd (by simp [State.safe, h]) hsafe⟩

/-- An event of the controller is recorded, and nothing else of the power state or of the stacks changes. -/
theorem State.pctEvt_spec (s : State) {i : Nat} (hi : i < 9) : (s.pctEvt i).hbm = s.hbm ∧
    (s.pctEvt i).pwr.evt.getLsbD i = true ∧ (s.pctEvt i).pwr = { s.pwr with evt := (s.pctEvt i).pwr.evt } := by
  rw [State.pctEvt]
  split
  · next hset => exact ⟨rfl, hset, rfl⟩
  · rw [State.interrupted_raisePfs]
    exact ⟨rfl, by simp [hi], rfl⟩

/-- A trip is held, and leaves the rest of the power state and the stacks. -/
theorem State.trip_spec (s : State) : s.trip.hbm = s.hbm ∧ s.trip.pwr = { s.pwr with tripped := true } := by
  rw [State.trip]
  split
  · next htripped => exact ⟨rfl, by rw [← htripped]⟩
  · rw [State.logged_nmeOne]
    exact ⟨rfl, rfl⟩

/-! ### A poll of a stack's temperature -/

/-- The poll's reading, the throttle it decides and the event it records. -/
def State.stackPolled (s : State) (n temp : Nat) : State :=
  let t := (s.stackTemp n temp).stackThrottle temp
  if 95 ≤ temp then t.pctEvt 6 else t

theorem exec_hbmTemperaturePoll (s : State) {n : Nat} (temp : Nat) (hn : n < 8) : exec (.hbmTemperaturePoll n temp) s =
    .next (if 105 ≤ temp then (s.stackPolled n temp).trip else s.stackPolled n temp) := by
  change execHbmTemperaturePoll n temp s = _
  rw [execHbmTemperaturePoll, if_neg (Nat.not_le.2 hn)]
  rfl

/-- A throttle decision stands in the power state: from 100 degrees on it is in force. -/
theorem State.stackThrottle_spec (s : State) (temp : Nat) : (s.stackThrottle temp).hbm = s.hbm ∧
    (s.stackThrottle temp).pwr.tripped = s.pwr.tripped ∧
    (100 ≤ temp → (s.stackThrottle temp).pwr.hbmSafe = true ∧ (s.stackThrottle temp).pwr.gate = 48) := by
  obtain ⟨hhbm, hsafe, htripped, hgate⟩ := State.applySafe_spec { s with pwr := { s.pwr with
    hbmSafe := decide (100 ≤ temp) || (s.pwr.hbmSafe && decide (95 ≤ s.hotStack)), hbmMax := max s.pwr.hbmMax (temp % 256) } }
  refine ⟨hhbm, htripped, fun h => ?_⟩
  have hon : (decide (100 ≤ temp) || (s.pwr.hbmSafe && decide (95 ≤ s.hotStack))) = true := by rw [decide_eq_true h, Bool.true_or]
  exact ⟨hsafe.trans hon, hgate hon⟩

theorem State.stackPolled_spec (s : State) (n temp : Nat) : (s.stackPolled n temp).hbm = (s.stackTemp n temp).hbm ∧
    (s.stackPolled n temp).pwr.tripped = s.pwr.tripped ∧
    (95 ≤ temp → (s.stackPolled n temp).pwr.evt.getLsbD 6 = true) ∧
    (100 ≤ temp → (s.stackPolled n temp).pwr.hbmSafe = true ∧ (s.stackPolled n temp).pwr.gate = 48) := by
  obtain ⟨hhbm, htripped, hsafe⟩ := (s.stackTemp n temp).stackThrottle_spec temp
  rw [State.stackPolled]
  split
  · obtain ⟨hhbm', hevt, hpwr⟩ := ((s.stackTemp n temp).stackThrottle temp).pctEvt_spec (i := 6) (by decide)
    refine ⟨hhbm'.trans hhbm, ?_, fun _ => hevt, fun h => ?_⟩
    · rw [hpwr]
      exact htripped
    · rw [hpwr]
      exact hsafe h
  · next hcool => exact ⟨hhbm, htripped, fun h => absurd h hcool, hsafe⟩

/-- A trip, where there is one, adds only itself to what the poll left. -/
theorem hbmTemperaturePoll_spec (s : State) {n t : Nat} (hn : n < 8) (ht : t < 256) :
    ∃ s', exec (.hbmTemperaturePoll n t) s = .next s' ∧ (s'.stack n).temp = t ∧ (s'.stack n).hot = decide (95 ≤ t) ∧
      (s'.stack n).refrNext = (if 85 ≤ t then true else if t < 80 then false else (s.stack n).refrNext) ∧
      (s'.stack n).refr2 = (s.stack n).refr2 ∧ (95 ≤ t → s'.pwr.evt.getLsbD 6 = true) ∧
      (100 ≤ t → s'.pwr.hbmSafe = true ∧ s'.pwr.gate = 48) ∧ (105 ≤ t → s'.pwr.tripped = true) ∧
      (t < 105 → s'.pwr.tripped = s.pwr.tripped) ∧ s'.hbm.chans = s.hbm.chans := by
  obtain ⟨hhbm, htripped, hevt, hsafe⟩ := s.stackPolled_spec n t
  have hstack {u : State} (hu : u.hbm = (s.stackTemp n t).hbm) : u.stack n = { s.stack n with
      temp := t, hot := decide (95 ≤ t),
      refrNext := if 85 ≤ t then true else if t < 80 then false else (s.stack n).refrNext } := by
    rw [State.stack, hu]
    exact (State.stack_setStack_same ..).trans (by rw [Nat.mod_eq_of_lt ht])
  have hchans {u : State} (hu : u.hbm = (s.stackTemp n t).hbm) : u.hbm.chans = s.hbm.chans := by
    rw [hu]
    rfl
  refine ⟨_, exec_hbmTemperaturePoll s t hn, ?_⟩
  split
  · next hhot =>
    obtain ⟨hhbm', hpwr⟩ := (s.stackPolled n t).trip_spec
    rw [hstack (hhbm'.trans hhbm), hchans (hhbm'.trans hhbm), hpwr]
    exact ⟨rfl, rfl, rfl, rfl, hevt, hsafe, fun _ => rfl, fun h => absurd hhot (Nat.not_le.2 h), rfl⟩
  · next hcool =>
    rw [hstack hhbm, hchans hhbm]
    exact ⟨rfl, rfl, rfl, rfl, hevt, hsafe, fun h => absurd h hcool, fun _ => htripped, rfl⟩

/-! ### Formatting, erasing, zeroising and releasing -/

/-- A channel as its format pass leaves it. -/
def State.formatted (s : State) (g : Nat) : Chan :=
  { (s.chan g).bare with st := if (s.chan g).mode = 3 then .system else .bound, fmtGen := (s.key (s.chan g).key).gen }

theorem exec_channelFormatComplete {g : Nat} {s : State} (hst : (s.chan g).st = .formatting) :
    exec (.channelFormatComplete g) s = .next (s.setChan g (s.formatted g)) := by
  change execChannelFormatComplete g s = _
  rw [execChannelFormatComplete, if_pos hst]
  rfl

/-- An erased channel that no change of a VD has been granted is FREE. -/
theorem exec_channelEraseComplete {g : Nat} {s : State} (hst : (s.chan g).st = .erasing)
    (hserved : bitOf s.cmp.served (g / 32) = false) (hgranted : ∀ e ∈ s.vds, ∀ x ∈ e.2.changes, g ∉ x.formatting) :
    exec (.channelEraseComplete g) s = .next (s.setChan g { (s.chan g).bare with st := .free }) := by
  have hnone : (s.vds.find? fun e => e.2.changes.any fun x => x.phase = .preparing && x.formatting.contains g) = none := by
    refine List.find?_eq_none.2 fun e he hany => ?_
    obtain ⟨x, hx, hg⟩ := List.any_eq_true.1 hany
    exact hgranted e he x hx (List.contains_iff_mem.1 (Bool.and_eq_true_iff.1 hg).2)
  change execChannelEraseComplete g s = _
  rw [execChannelEraseComplete, if_pos hst, hnone, hserved]
  rfl

theorem exec_keyZeroisation {k t : Nat} {s : State} (hst : (s.key k).st = .retiring) (hdrained : (s.key k).drained = true)
    (hat : (s.key k).zeroAt = some t) (hpast : t ≤ s.toll) : exec (.keyZeroisation k) s = .next (s.zeroiseKey k) := by
  change execKeyZeroisation k s = _
  rw [execKeyZeroisation, if_pos ⟨hst, hdrained, by rw [hat]; exact decide_eq_true hpast⟩]

theorem exec_keyIdRelease {k : Nat} {s : State} (hst : (s.key k).st = .zeroised)
    (hdone : (s.key k).peer = none ∨ ∃ t, (s.key k).zeroAt = some t ∧ t + 4 * 1024000 ≤ s.toll) :
    exec (.keyIdRelease k) s = .next (s.setKey k {}) := by
  have hpast : (s.key k).peer = none ∨ ((s.key k).zeroAt.any fun t => t + 4 * tollPeriod ≤ s.toll) = true :=
    hdone.imp_right fun ⟨t, hat, ht⟩ => by rw [hat, tollPeriod, Option.any_some, decide_eq_true ht]
  change execKeyIdRelease k s = _
  rw [execKeyIdRelease, if_pos ⟨hst, hpast⟩]

/-- Settles O42: each clause is its command's lemma; the lemmas of a key's channels go through their list, which names
each channel once. -/
theorem channelsAndKeys : Obligations.ChannelsAndKeys := by
  unfold Obligations.ChannelsAndKeys
  refine ⟨fun g s hst => ?format, fun g s => exec_channelEraseComplete, fun k s hst hwait hwf => ?sweep,
    fun k s => exec_keyDrainReport, fun k t s hst hdrained hat ht => ?zeroise, fun k s => exec_keyIdRelease,
    fun g line e s hst hline hon hdata hflaw => ?patrol, fun g s hg => ?lane, fun n t s => hbmTemperaturePoll_spec s,
    fun n s hn htoll => ?refresh⟩
  case format =>
    refine ⟨_, exec_channelFormatComplete hst, ?_⟩
    rw [State.chan_setChan_same]
    exact ⟨rfl, rfl, rfl, fun kp line => ⟨Chan.plain_blank rfl rfl g kp line, Chan.tagOk_blank rfl rfl g kp line rfl⟩,
      fun h hne => State.chan_setChan_ne s _ hne⟩
  case sweep =>
    obtain ⟨s', hexec, hkey, hswept, hother⟩ := exec_keyRollSweepEnd hst hwait hwf
    refine ⟨s', hexec, hkey, fun g hg => ?_, hother⟩
    rw [hswept g hg]
    refine ⟨rfl, fun p hp hold => ?_⟩
    obtain ⟨hgen, hminors, hplain⟩ := (s.chan g).swept_page g (s.key k) hp hold
    exact ⟨hgen, hminors, fun line hline _ _ => hplain line hline⟩
  case zeroise =>
    obtain ⟨hkey, hchans, hother⟩ := s.zeroiseKey_spec k
    refine ⟨_, exec_keyZeroisation hst hdrained hat ht, ?_, ?_, ?_, fun hpeer => ?_, fun hpeer => ?_, hchans, hother⟩
    · rw [hkey]
      split <;> rfl
    · rw [hkey]
      split <;> rfl
    · rw [hkey]
      split <;> rfl
    · rw [hkey, if_pos hpeer]
    · rw [hkey, if_neg hpeer]
  case patrol =>
    obtain ⟨hpos, hlines, hcorrected, huncorrectable⟩ := s.chan_patrolled g line e
    refine ⟨_, exec_hbmScrubPatrol e hst hline hon hdata hflaw, hpos, hlines, fun hclean => ?_, hcorrected, huncorrectable⟩
    rw [hclean]
    rfl
  case lane =>
    change execHbmPhyLaneFailure g s = _
    rw [execHbmPhyLaneFailure, if_pos hg]
  case refresh =>
    change execRefreshRateSwitch n s = _
    rw [execRefreshRateSwitch, if_pos ⟨htoll, hn⟩]

end Sys2Proof.Machine
end

section
/-!
PROOFS. Device sets and reset subtrees (spec/07 R212, spec/12 R384, R393, R396): what an authenticated message answers,
what a subtree's reset leaves of its channel, and the settlement of O27.
-/
namespace Sys2Proof.Machine

/-! ### Authenticated messages (R383, R384) -/

theorem State.vd_setVdSec_same (s : State) (v : Nat) (x : VdSec) : (s.setVdSec v x).vd v = { s.vd v with sec := x } :=
  State.vd_setVd_same ..

section
variable {s t : State} {v msg r : Nat} {x : Session} {b out : List Byte} {f : List Byte → State → Option (Nat × List Byte) × State}
  (hmsg : s.Authentic v msg x b)
include hmsg

/-- An authenticated message is its row's. -/
theorem runTenant_authentic : runTenant v msg s f =
    .next ((f b s).1.elim (f b s).2 fun a => (f b s).2.sealReply v a.1 a.2) := by
  obtain ⟨hasked, hst, hzero, hsession, hnum, hseq, hlen, hopen⟩ := hmsg
  rw [runTenant]
  dsimp only
  rw [hasked, if_neg (by decide), if_neg hst, hzero, if_neg (by decide), hsession]
  dsimp only
  rw [if_neg (not_not.2 hnum), if_neg (not_not.2 hseq), if_neg (Nat.not_lt.2 hlen), hopen]
  dsimp only
  obtain ⟨_ | ⟨r, out⟩, t⟩ := f b s
  · rfl
  · rfl

theorem runTenant_answered (hf : f b s = (some (r, out), t)) : runTenant v msg s f = .next (t.sealReply v r out) := by
  rw [runTenant_authentic hmsg, hf]
  rfl

theorem runTenant_pending (hf : f b s = (none, t)) : runTenant v msg s f = .next t := by
  rw [runTenant_authentic hmsg, hf]
  rfl

theorem State.Authentic.session : (s.vd v).sec.session = some x := by
  obtain ⟨-, -, -, hsession, -⟩ := hmsg
  exact hsession
end

/-- What a sealed reply changes of the VD's security state is its mailbox and its session's counts. -/
theorem State.sealReply_spec {s : State} {v : Nat} {x : Session} (hx : (s.vd v).sec.session = some x) (r : Nat)
    (out : List Byte) : s.Sealed (s.sealReply v r out) v x r out ∧
    ((s.sealReply v r out).vd v).sec = { (s.vd v).sec with
      mb := ((s.sealReply v r out).vd v).sec.mb, session := ((s.sealReply v r out).vd v).sec.session } ∧
    (s.sealReply v r out).hbm = s.hbm := by
  have hraise (t : State) (n : Nat) : (t.raiseVd v n).vd v = t.vd v ∧ (t.raiseVd v n).hbm = t.hbm := by
    rw [t.interrupted_raiseVd v n]
    exact ⟨rfl, rfl⟩
  rw [State.Sealed, State.sealReply, hx]
  dsimp only
  rw [State.vdReply, (hraise _ 2).1, (hraise _ 2).2, State.vd_setVdSec_same, State.vd_setVdSec_same]
  exact ⟨⟨rfl, rfl⟩, rfl, rfl⟩

/-- A reply is sealed to the mailbox, whatever else the row changed. -/
theorem State.Sealed.of_mb {s t u : State} {v r : Nat} {x : Session} {out : List Byte} (h : t.Sealed u v x r out)
    (hmb : (t.vd v).sec.mb = (s.vd v).sec.mb) : s.Sealed u v x r out := by
  rw [State.Sealed, hmb] at h
  exact h

/-! ### A page encrypted as zeros (R212) -/

section
variable (c : Chan) (g gen major : Nat) (kp : KeyPair) (p n : Nat)

/-- Every line of a page, in granules of `n`, becomes an encryption of zero. -/
def Chan.zeroLines : Chan :=
  (List.range (64 / n)).foldl (fun (c : Chan) i =>
    c.putGranule g kp (64 * p + n * i) gen major 0 (List.replicate n 0#512)) c

/-- The page's lines and counters under a new major. -/
def Chan.zeroPage : Chan :=
  { (c.zeroLines g gen major kp p n).setCtr p { gen := gen, major := major } with
    dirtyMeta := sput false p true (c.zeroLines g gen major kp p n).dirtyMeta
    flaw := sput Ecc.clean ((ctrBase (c.zeroLines g gen major kp p n).mode + 64 * p) / 64) Ecc.clean
      (c.zeroLines g gen major kp p n).flaw }

theorem Chan.zeroLines_frame : (c.zeroLines g gen major kp p n).ctrs = c.ctrs ∧
    (c.zeroLines g gen major kp p n).fmtGen = c.fmtGen ∧ (c.zeroLines g gen major kp p n).mode = c.mode ∧
    (c.zeroLines g gen major kp p n).badSub = c.badSub ∧ (c.zeroLines g gen major kp p n).maxMajor = c.maxMajor :=
  ⟨foldl_unchanged Chan.ctrs _ _ _ fun _ _ => rfl, foldl_unchanged Chan.fmtGen _ _ _ fun _ _ => rfl,
   foldl_unchanged Chan.mode _ _ _ fun _ _ => rfl, foldl_unchanged Chan.badSub _ _ _ fun _ _ => rfl,
   foldl_unchanged Chan.maxMajor _ _ _ fun _ _ => rfl⟩

/-- A line of zeros is stored as its keystream. -/
theorem cipherLine_zeros (line0 minor l : Nat) : cipherLine kp gen g line0 major minor (List.replicate n 0#512) l =
    lineStream kp.dataKey gen g l major minor := by
  have hzero : (List.replicate n 0#512).getD (l - line0) 0#512 = 0#512 := by
    rw [List.getD_eq_getElem?_getD, List.getElem?_replicate]
    split
    · rfl
    · rfl
  rw [cipherLine, hzero, BitVec.zero_xor]

variable {n} (hn : n ∣ 64)
include hn

theorem Chan.lines_zeroLines (l : Nat) : sget none (c.zeroLines g gen major kp p n).lines l =
    if l / 64 = p then some (lineStream kp.dataKey gen g l major 0) else sget none c.lines l := by
  rw [Chan.zeroLines, foldl_granules (proj := fun d l => sget none d.lines l) (fun d i l => by
    rw [Chan.lines_putGranule, List.length_replicate, cipherLine_zeros]), Nat.mul_div_cancel' hn]
  by_cases hl : l / 64 = p
  · rw [if_pos hl, if_pos (by omega)]
  · rw [if_neg hl, if_neg (by omega)]

theorem Chan.poison_zeroLines (l : Nat) : sget false (c.zeroLines g gen major kp p n).poison l =
    if l / 64 = p then false else sget false c.poison l := by
  rw [Chan.zeroLines, foldl_granules (proj := fun d l => sget false d.poison l) (f := fun _ => false) (fun d i l => by
    rw [Chan.poison_putGranule, List.length_replicate]), Nat.mul_div_cancel' hn]
  by_cases hl : l / 64 = p
  · rw [if_pos hl, if_pos (by omega)]
  · rw [if_neg hl, if_neg (by omega)]

omit hn in
theorem Chan.ctr_zeroPage (q : Nat) : (c.zeroPage g gen major kp p n).ctr q =
    if q = p then { gen := gen, major := major } else c.ctr q := by
  obtain ⟨hctrs, hfmt, -⟩ := c.zeroLines_frame g gen major kp p n
  have hset : (c.zeroPage g gen major kp p n).ctr q =
      ((c.zeroLines g gen major kp p n).setCtr p { gen := gen, major := major }).ctr q := rfl
  rw [hset, Chan.ctr_setCtr, Chan.ctr, hctrs, hfmt, Chan.ctr]

/-- The lines of the page open to zeros. -/
theorem Chan.plain_zeroPage (fp : KeyPair) {l : Nat} (hl : l / 64 = p) :
    (c.zeroPage g gen major kp p n).plain g fp kp l = 0#512 := by
  have hstored : (c.zeroPage g gen major kp p n).stored g fp l = lineStream kp.dataKey gen g l major 0 := by
    have hline : sget none (c.zeroPage g gen major kp p n).lines l = _ := c.lines_zeroLines g gen major kp p hn l
    rw [Chan.stored, hline, if_pos hl]
  rw [Chan.plain_eq _ _ _ _ ((c.ctr_zeroPage g gen major kp p (l / 64)).trans (if_pos hl)), hstored, CtrBlk.minor_zero,
    BitVec.xor_self]
end

/-! ### The reset of one counter block (R212) -/

/-- A range taken out leaves none that meets it. -/
theorem cutRange_avoids {lo hi : Nat} {l : List (Nat × Nat)} {r : Nat × Nat} (h : r ∈ cutRange lo hi l) :
    r.2 ≤ lo ∨ hi ≤ r.1 := by
  obtain ⟨q, -, hr⟩ := List.mem_flatMap.1 h
  obtain ⟨hr, -⟩ := List.mem_filter.1 hr
  rcases List.mem_cons.1 hr with rfl | hr
  · exact .inl (Nat.min_le_right ..)
  · rw [List.mem_singleton.1 hr]
    exact .inr (Nat.le_max_right ..)

/-- The pages [lo, hi) are no longer in a poisoned subtree, and the root is restored. -/
def Chan.trusted (c : Chan) (lo hi : Nat) : Chan :=
  { c with rootBadA := false, rootBadB := false
           badSub := cutRange lo hi (if c.rootBadA && c.rootBadB then [(0, 2 ^ 20)] else c.badSub) }

/-- The nodes between a subtree's counter blocks and its parent are written anew. -/
def Chan.freshNodes (c : Chan) (level lo : Nat) : Chan :=
  (List.range level).foldl (fun (c : Chan) i =>
    let k := i + 1
    ((List.range (8 ^ (level - k))).map (lo / 8 ^ k + ·)).foldl (fun (c : Chan) j =>
      { c with nodeTags := sput none (nodeKey k j) none c.nodeTags,
               flaw := sput Ecc.clean (nodeAddr k j / 64) Ecc.clean c.flaw }) c) c

/-- The largest major counter in use, and in TREE the version in the subtree's parent, go on. -/
def Chan.majorUsed (c : Chan) (level lo major : Nat) : Chan :=
  let key := nodeKey level (lo / 8 ^ level)
  { c with maxMajor := max c.maxMajor major
           vers := if c.mode = 2 then sput 0 key (sget 0 c.vers key + 1) c.vers else c.vers }

theorem Chan.resetSub_eq (c : Chan) (g level lo gen major : Nat) (kp : KeyPair) : c.resetSub g level lo gen major kp =
    ((((List.range (8 ^ level)).map (lo + ·)).foldl (fun (c' : Chan) p => c'.zeroPage g gen major kp p (granLines c.mode))
      (c.trusted lo (lo + 8 ^ level))).freshNodes level lo).majorUsed level lo major := rfl

/-- At level 0 the reset is of one page, with no node of its own above it. -/
theorem Chan.resetSub_page (c : Chan) (g p gen major : Nat) (kp : KeyPair) : c.resetSub g 0 p gen major kp =
    ((c.trusted p (p + 1)).zeroPage g gen major kp p (granLines c.mode)).majorUsed 0 p major := by
  have hpages : (List.range (8 ^ 0)).map (p + ·) = [p] := rfl
  rw [Chan.resetSub_eq, hpages, List.foldl_cons, List.foldl_nil, Chan.freshNodes, List.range_zero, List.foldl_nil,
    Nat.pow_zero]

theorem granLines_dvd (mode : Nat) : granLines mode ∣ 64 := by
  rcases granLines_cases mode with h | h <;> rw [h] <;> decide

theorem Chan.ctr_majorUsed (c : Chan) (level lo major q : Nat) : (c.majorUsed level lo major).ctr q = c.ctr q := rfl
theorem Chan.plain_majorUsed (c : Chan) (level lo major g : Nat) (fp kp : KeyPair) (l : Nat) :
    (c.majorUsed level lo major).plain g fp kp l = c.plain g fp kp l := rfl

/-- The page under its new major reads as zeros, no longer poisoned; the channel's other counters stay. -/
theorem Chan.resetSub_spec (c : Chan) (g p gen major : Nat) (kp : KeyPair) :
    (c.resetSub g 0 p gen major kp).ctr p = { gen := gen, major := major } ∧
    (c.resetSub g 0 p gen major kp).maxMajor = max c.maxMajor major ∧
    (∀ r ∈ (c.resetSub g 0 p gen major kp).badSub, r.2 ≤ p ∨ p + 1 ≤ r.1) ∧
    (∀ i < 64, (c.resetSub g 0 p gen major kp).plain g kp kp (64 * p + i) = 0#512 ∧
      sget false (c.resetSub g 0 p gen major kp).poison (64 * p + i) = false) ∧
    ∀ q, q ≠ p → (c.resetSub g 0 p gen major kp).ctr q = c.ctr q := by
  obtain ⟨-, -, -, hbad, hmajor⟩ := (c.trusted p (p + 1)).zeroLines_frame g gen major kp p (granLines c.mode)
  have hn := granLines_dvd c.mode
  rw [Chan.resetSub_page]
  refine ⟨?_, congrArg (max · major) hmajor, fun r hr => ?_, fun i hi => ⟨?_, ?_⟩, fun q hq => ?_⟩
  · rw [Chan.ctr_majorUsed, Chan.ctr_zeroPage, if_pos rfl]
  · change r ∈ ((c.trusted p (p + 1)).zeroLines g gen major kp p (granLines c.mode)).badSub at hr
    rw [hbad] at hr
    exact cutRange_avoids hr
  · rw [Chan.plain_majorUsed, Chan.plain_zeroPage _ _ _ _ _ _ hn _ (by omega)]
  · exact (Chan.poison_zeroLines _ g gen major kp p hn _).trans (if_pos (by omega))
  · rw [Chan.ctr_majorUsed, Chan.ctr_zeroPage, if_neg hq]
    rfl

/-! ### The commands -/

/-- SET_PROVISION of a good list: the set key stands last among the VD's, in place of an older one of the list. -/
theorem exec_setProvision {v : Nat} {s s1 : State} {x : Session} {b l : List Byte} (hmsg : s.Authentic v 0x11 x b)
    (hlen : 48 ≤ b.length) (hone : 1 ≤ leAt b 4 4) (hmax : leAt b 4 4 ≤ 1024) (hhandle : s.handleCheck v (leAt b 0 4) = 0)
    (hkind : (s.obj (handleIdx (leAt b 0 4))).kind = 0) (hsize : 48 * leAt b 4 4 ≤ (s.obj (handleIdx (leAt b 0 4))).size)
    (hread : s.readAt v (s.obj (handleIdx (leAt b 0 4))).va (48 * leAt b 4 4) ((s.vd v).vf.elim 0 Prod.fst) reqSecurity 0 0 =
      (.ok l 0, s1))
    (hvds : s1.vds = s.vds) (hsorted : listSorted (chunksOf 48 l) = true)
    (hmember : (chunksOf 48 l).contains deviceIdHash = true)
    (hroom : ((s.vd v).sec.sets.filter fun q => q.id ≠ BitVec.ofNat 384 (beNat (sha384 l))).length < 8) :
    ∃ s', exec (.setProvision v) s = .next s' ∧
      s.Sealed s' v x 0 (beBytes 48 (BitVec.ofNat 384 (beNat (sha384 l))).toNat) ∧
      (s'.vd v).sec.sets = ((s.vd v).sec.sets.filter fun q => q.id ≠ BitVec.ofNat 384 (beNat (sha384 l))) ++
        [{ id := BitVec.ofNat 384 (beNat (sha384 l)), key := secretOf (b.drop 16) }] := by
  have hvd : s1.vd v = s.vd v := by rw [State.vd, State.vd, hvds]
  obtain ⟨hsealed, hsec, -⟩ := State.sealReply_spec (s := s1.setVdSec v { (s1.vd v).sec with sets :=
    ((s.vd v).sec.sets.filter fun q => q.id ≠ BitVec.ofNat 384 (beNat (sha384 l))) ++
      [{ id := BitVec.ofNat 384 (beNat (sha384 l)), key := secretOf (b.drop 16) }] }) (v := v) (x := x)
    (by rw [State.vd_setVdSec_same, hvd]; exact hmsg.session) 0 (beBytes 48 (BitVec.ofNat 384 (beNat (sha384 l))).toNat)
  refine ⟨_, ?_, hsealed.of_mb (by rw [State.vd_setVdSec_same, hvd]), by rw [hsec, State.vd_setVdSec_same]⟩
  change execSetProvision v s = _
  rw [execSetProvision, runTenant_answered hmsg]
  dsimp only
  rw [if_neg (by omega), if_neg (by omega), hread]
  refine (if_neg ?_).trans ((if_neg ?_).trans ?_)
  · rw [hsorted, hmember]
    decide
  · rw [hvd]
    exact Nat.not_le.2 hroom
  · rw [hvd]
    rfl

section
variable {v : Nat} {s : State} {x : Session} {b : List Byte} (hmsg : s.Authentic v 0x18 x b) (hlen : 16 ≤ b.length)
  {cv : Carve} (hcv : s.carve v (leAt b 0 4 % 4) = cv) {at_ : Nat × Nat}
  (hat : chanOf cv.mode cv.il cv.chans.length (leAt b 8 8) = at_) {level : Nat} (hlevel : bitsOf (leAt b 0 4) 10 8 = level)
  (hsix : level ≤ 6) (hzero : bitsOf (leAt b 0 4) 7 2 = 0) (hword : leAt b 0 4 < 2 ^ 11) (hzero' : leAt b 4 4 = 0)
  (hchans : cv.chans ≠ []) (hoff : leAt b 8 8 < cv.chans.length * chanData cv.mode) (hmode : cv.mode = 2 ∨ level = 0)
  (hsub : (s.vd v).sec.sub = none)
include hmsg hlen hcv hat hlevel hsix hzero hword hzero' hsub

include hchans hoff hmode in
/-- SUBTREE_RESET of a poisoned node is answered when it ends. -/
theorem exec_subtreeReset_bad (hbad : (s.chan (cv.chans.getD at_.1 0)).nodeBad level (at_.2 / 4096) = true) :
    exec (.subtreeReset v) s = .next (s.setVdSec v { (s.vd v).sec with
      sub := some (cv.chans.getD at_.1 0, level, at_.2 / 4096 / 8 ^ level * 8 ^ level) }) := by
  have hlength : cv.chans.length ≠ 0 := mt List.length_eq_zero_iff.1 hchans
  have hhigh : leAt b 0 4 / 2 ^ 11 = 0 := Nat.div_eq_of_lt hword
  change execSubtreeReset v s = _
  rw [execSubtreeReset, runTenant_pending hmsg]
  dsimp only
  rw [hsub, hcv, hat, hlevel, hbad, if_neg (by decide), if_neg (by omega), if_neg]
  rintro (h | h | ⟨hmode', hlevel'⟩ | h)
  · exact hlength h
  · exact Nat.not_le.2 hoff h
  · exact hmode.elim hmode' hlevel'
  · exact absurd h (by decide)

/-- SUBTREE_RESET of another node is refused. -/
theorem exec_subtreeReset_sound (hsound : (s.chan (cv.chans.getD at_.1 0)).nodeBad level (at_.2 / 4096) = false) :
    exec (.subtreeReset v) s = .next (s.sealReply v 6 []) := by
  have hhigh : leAt b 0 4 / 2 ^ 11 = 0 := Nat.div_eq_of_lt hword
  change execSubtreeReset v s = _
  rw [execSubtreeReset, runTenant_answered hmsg]
  dsimp only
  rw [hsub, hcv, hat, hlevel, hsound, if_neg (by decide), if_neg (by omega), if_pos (.inr (.inr (.inr rfl)))]
  rfl
end

/-- The reset ends in one step while a major is left. -/
theorem exec_subtreeResetComplete {v g level lo : Nat} {s : State} (hsub : (s.vd v).sec.sub = some (g, level, lo))
    (hmajor : (s.chan g).maxMajor < 0xFFFFFF) : exec (.subtreeResetComplete v) s = .next
      (((s.setChan g ((s.chan g).resetSub g level lo (s.key (s.chan g).key).gen ((s.chan g).maxMajor + 1)
        (s.key (s.chan g).key).cur)).setVdSec v { (s.vd v).sec with sub := none }).sealReply v 0 []) := by
  have hfull : decide ((s.chan g).maxMajor ≥ 0xFFFFFF) = false := decide_eq_false (Nat.not_le.2 hmajor)
  change execSubtreeResetComplete v s = _
  rw [execSubtreeResetComplete, hsub]
  dsimp only
  rw [hfull, if_neg (by simp), if_neg (by simp)]
  rfl

/-- Settles O27: the messages by what an authenticated one answers, the reset's end by what it leaves of its page. -/
theorem setsAndSubtrees : Obligations.SetsAndSubtrees := by
  unfold Obligations.SetsAndSubtrees
  refine ⟨fun v s s1 x b l hmsg hlen => exec_setProvision hmsg hlen, fun v s x b hmsg hlen => ?start,
    fun v g p s x hsub hx hmajor _ _ => ?finish⟩
  case start =>
    intro w cv at_ g level hlevel hzero hword hzero' hchans hoff hmode hsub
    refine ⟨fun hbad => ⟨_, exec_subtreeReset_bad hmsg hlen rfl rfl rfl hlevel hzero hword hzero' hchans hoff hmode hsub hbad,
      ?_⟩, fun hsound => ?_⟩
    · rw [State.vd_setVdSec_same]
      exact ⟨rfl, rfl, hmsg.session, rfl⟩
    · obtain ⟨hsealed, hsec, hhbm⟩ := State.sealReply_spec hmsg.session 6 []
      exact ⟨_, exec_subtreeReset_sound hmsg hlen rfl rfl rfl hlevel hzero hword hzero' hsub hsound, hsealed,
        by rw [hsec]; exact hsub, hhbm⟩
  case finish =>
    let d := (s.chan g).resetSub g 0 p (s.key (s.chan g).key).gen ((s.chan g).maxMajor + 1) (s.key (s.chan g).key).cur
    obtain ⟨hctr, hmax, hbad, hzeros, hothers⟩ := (s.chan g).resetSub_spec g p (s.key (s.chan g).key).gen
      ((s.chan g).maxMajor + 1) (s.key (s.chan g).key).cur
    let t := (s.setChan g d).setVdSec v { (s.vd v).sec with sub := none }
    have htsec : (t.vd v).sec = { (s.vd v).sec with sub := none } := by rw [State.vd_setVdSec_same]
    obtain ⟨hsealed, hsec, hhbm⟩ := State.sealReply_spec (s := t) (v := v) (x := x) (by rw [htsec]; exact hx) 0 []
    have hchan (h : Nat) : (t.sealReply v 0 []).chan h = (s.setChan g d).chan h := State.chan_of_hbm hhbm h
    have hg : (t.sealReply v 0 []).chan g = d := (hchan g).trans (State.chan_setChan_same ..)
    refine ⟨_, exec_subtreeResetComplete hsub hmajor, hsealed.of_mb (by rw [htsec]), by rw [hsec, htsec], ?_⟩
    change ((t.sealReply v 0 []).chan g).ctr p = _ ∧ _
    rw [hg]
    exact ⟨hctr, hmax.trans (Nat.max_eq_right (Nat.le_succ _)), hbad, hzeros, hothers, fun h hne =>
      (hchan h).trans (State.chan_setChan_ne s d hne)⟩

end Sys2Proof.Machine
end

section
/-!
PROOFS. Witnesses for HBM and memory protection: concrete states that meet the hypotheses of O27, O40, O41 and O42, each
clause run through its theorem.
-/
namespace Sys2Proof.Machine

/-! ### Lines of a channel -/

/-- VD 1 with its first carve-out on channel 5, in a mode and under key ID 3. -/
def State.lineReady (mode : Nat) (c : Chan) : State :=
  ((State.reset.setKey 3 { st := .active, vd := 1, gen := 2 }).setChan
    5 { c with st := .bound, owner := 1, mode := mode, key := 3, fmtGen := 2 }).setVd
    1 { carves := [(0, { mode := mode, key := 3, chans := [5] })] }

section
variable (mode : Nat) (c : Chan)

theorem key_lineReady : (State.lineReady mode c).key 3 = { st := .active, vd := 1, gen := 2 } := State.key_setKey_same ..
theorem chan_lineReady : (State.lineReady mode c).chan 5 =
    { c with st := .bound, owner := 1, mode := mode, key := 3, fmtGen := 2 } := State.chan_setChan_same ..
theorem carve_lineReady : (State.lineReady mode c).carve 1 0 = { mode := mode, key := 3, chans := [5] } := rfl

/-- The carve-out's first lines are the channel's. -/
theorem mapAddr_lineReady {addr : Nat} (hmode : mode = 1 ∨ mode = 3) (haddr : addr = 0 ∨ addr = 64) :
    (State.lineReady mode c).mapAddr 1 addr false = some (5, addr) := by
  have hcarve : bitsOf addr 41 40 = 0 := by rcases haddr with rfl | rfl <;> decide
  rw [State.mapAddr, hcarve, carve_lineReady]
  rcases hmode with rfl | rfl
  · rcases haddr with rfl | rfl <;> decide
  · rcases haddr with rfl | rfl <;> decide

theorem admitLine_lineReady {addr : Nat} (hmode : mode = 1 ∨ mode = 3) (haddr : addr = 0 ∨ addr = 64) :
    (State.lineReady mode c).admitLine 1 3 addr false = (.ok 5 addr 0, State.lineReady mode c) := by
  have hcarve : bitsOf addr 41 40 = 0 := by rcases haddr with rfl | rfl <;> decide
  rw [State.admitLine_ok_iff, chan_lineReady, key_lineReady, mapAddr_lineReady mode c hmode haddr, hcarve, carve_lineReady]
  exact ⟨by decide, by decide, by simp, rfl, .inl rfl, rfl⟩

/-- The minor counters of a blank channel are at 0. -/
theorem minor_lineReady (hctrs : c.ctrs = []) (p j : Nat) : (((State.lineReady mode c).chan 5).ctr p).minor j < 127 := by
  rw [chan_lineReady, Chan.ctr, hctrs, sget_nil, CtrBlk.minor_zero]
  decide

/-- No move of the channel is going on. -/
theorem chWaits_lineReady (p : Nat) (needs write : Bool) : (State.lineReady mode c).chWaits 5 p needs write = false := by
  have hto : (State.lineReady mode c).chMoveTo 5 = none := rfl
  have hfrom : (State.lineReady mode c).chMoveFrom 5 = none := rfl
  rw [State.chWaits, hto, hfrom]
  rfl
end

/-- A write of the second line of a channel in PROTECTED is read back. -/
theorem exec_hbmWrite_lineReady (data : BitVec 512) : ∃ s' r, exec (.hbmWrite 1 3 64 data) (State.lineReady 1 {}) = .next s' ∧
    exec (.hbmRead 1 3 64 .clean) s' = .next r ∧
    r.rdata = 0#64 :: (List.range 8).map fun i => BitVec.ofNat 64 (data.toNat / 2 ^ (64 * i)) := by
  obtain ⟨s', hexec, -, -, -, -, -, -, -, -, r, hread, hdata⟩ := hbmWritesReadBack.1 1 3 64 5 64 0 {} {} data
    (State.lineReady 1 {}) (by decide) (by decide) (admitLine_lineReady 1 {} (.inl rfl) (.inr rfl)) (chWaits_lineReady ..)
    rfl rfl rfl (minor_lineReady 1 {} rfl ..)
  exact ⟨s', r, hexec, hread, hdata⟩

/-- One byte of the second line of a granule of a SYSTEM channel, which held zeros. -/
theorem exec_partialWrite_lineReady (data : BitVec 512) : ∃ s', exec (.partialWrite 1 3 64 data 1#64) (State.lineReady 3 {}) =
    .next s' ∧ (s'.chan 5).plain 5 {} {} 1 = mergeBytes 0#512 data 1#64 := by
  obtain ⟨s', hexec, -, hplain, -⟩ := hbmWritesReadBack.2 1 3 64 5 0 0 {} {} data 1#64 _ (State.lineReady 3 {}) (.inl rfl)
    rfl (.inl (by decide)) (admitLine_lineReady 3 {} (.inr rfl) (.inl rfl)) (chWaits_lineReady ..) rfl rfl rfl
    (minor_lineReady 3 {} rfl ..) (fun _ _ => ⟨rfl, rfl⟩) (Chan.tagOk_blank rfl rfl 5 {} 0 rfl)
  exact ⟨s', hexec, hplain.trans (congrArg (mergeBytes · data 1#64) (Chan.plain_blank rfl rfl 5 {} 1))⟩

/-! ### Refusals and bad lines -/

/-- A key ID that retires, and a request of another VD. -/
theorem exec_hbmRead_refused : (∃ s', exec (.hbmRead 1 3 64 .clean) (State.reset.setKey 3 { st := .retiring, vd := 1 }) =
      .next s' ∧ s'.rdata = [2#64, 0x7F#64]) ∧
    ∃ s', exec (.hbmRead 2 3 64 .clean) (State.lineReady 1 {}) = .next s' ∧ s'.rdata = [2#64, 0x21#64] := by
  obtain ⟨hretired, -⟩ := hbmFailuresPoison.1 1 3 64 _ (State.reset.setKey 3 { st := .retiring, vd := 1 }) (.inl rfl)
  obtain ⟨-, hforeign⟩ := hbmFailuresPoison.1 2 3 64 _ (State.lineReady 1 {}) (.inl rfl)
  obtain ⟨s', hexec, hreply, -⟩ := hretired (by rw [State.key_setKey_same]; exact .inl rfl)
  obtain ⟨t, hexec', hreply', -⟩ := hforeign (by rw [key_lineReady]; exact .inr ⟨rfl, by decide⟩)
  exact ⟨⟨s', hexec, hreply⟩, t, hexec', hreply'⟩

/-- A poisoned line stays poisoned, and is not counted again. -/
theorem exec_hbmRead_poisoned : ∃ s', exec (.hbmRead 1 3 64 .clean) (State.lineReady 1 { poison := [(1, true)] }) = .next s' ∧
    s'.rdata.head? = some 1#64 ∧ (s'.chan 5).uncorr = 0 := by
  obtain ⟨hpoisoned, -⟩ := hbmFailuresPoison.2 1 3 64 5 64 0 .clean {} {} (State.lineReady 1 { poison := [(1, true)] })
    (admitLine_lineReady 1 _ (.inl rfl) (.inr rfl)) (chWaits_lineReady ..) rfl rfl rfl
  obtain ⟨s', hexec, hreply, -, huncorr⟩ := hpoisoned ⟨1, by decide, rfl⟩
  exact ⟨s', hexec, by rw [hreply]; rfl, huncorr⟩

/-- A line that ECC cannot correct is poisoned. -/
theorem exec_hbmRead_uncorrectable : ∃ s', exec (.hbmRead 1 3 64 .uncorrectable) (State.lineReady 1 {}) = .next s' ∧
    sget false (s'.chan 5).poison 1 = true ∧ (s'.chan 5).uncorr = 1 := by
  obtain ⟨-, huncorrectable, -⟩ := hbmFailuresPoison.2 1 3 64 5 64 0 .uncorrectable {} {} (State.lineReady 1 {})
    (admitLine_lineReady 1 _ (.inl rfl) (.inr rfl)) (chWaits_lineReady ..) rfl rfl rfl
  obtain ⟨s', hexec, -, hpoison, huncorr, -⟩ := huncorrectable (fun _ _ => rfl) rfl
  exact ⟨s', hexec, hpoison 1 (by decide), huncorr⟩

/-- The tag of the second line of channel 5 as formatted. -/
def blankTag : DWord := granTag ({} : KeyPair).tagKey 2 5 1 0 0 [lineStream ({} : KeyPair).dataKey 2 5 1 0 0]

/-- A line with another tag is poisoned. -/
theorem exec_hbmRead_badTag : ∃ s', exec (.hbmRead 1 3 64 .clean) (State.lineReady 1 { tags := [(1, some (blankTag + 1#64))] }) =
    .next s' ∧ s'.rdata = [2#64, 0x30#64] ∧ (s'.chan 5).tagFail = 1 := by
  have htag : ((State.lineReady 1 { tags := [(1, some (blankTag + 1#64))] }).chan 5).tagOk 5 {} {} 1 = false := by
    have hne : blankTag + 1#64 ≠ blankTag := by bv_omega
    rw [chan_lineReady]
    exact decide_eq_false (p := blankTag + 1#64 = blankTag) hne
  obtain ⟨-, -, hbad⟩ := hbmFailuresPoison.2 1 3 64 5 64 0 .clean {} {}
    (State.lineReady 1 { tags := [(1, some (blankTag + 1#64))] }) (admitLine_lineReady 1 _ (.inl rfl) (.inr rfl))
    (chWaits_lineReady ..) rfl rfl rfl
  obtain ⟨s', hexec, hreply, -, hfail, -⟩ := hbad (fun _ _ => rfl) rfl htag
  exact ⟨s', hexec, hreply, hfail⟩

/-! ### Channels and keys -/

/-- A device with one channel, under key ID 3. -/
def State.keyReady (x : KeySlot) (c : Chan) : State := (State.reset.setKey 3 x).setChan 5 { c with key := 3 }

theorem key_keyReady (x : KeySlot) (c : Chan) : (State.keyReady x c).key 3 = x := State.key_setKey_same ..
theorem chan_keyReady (x : KeySlot) (c : Chan) : (State.keyReady x c).chan 5 = { c with key := 3 } := State.chan_setChan_same ..

theorem wf_keyReady (x : KeySlot) (c : Chan) : SMap.wf ({} : Chan) (State.keyReady x c).hbm.chans = true :=
  sput_wf (d := ({} : Chan)) (m := State.reset.hbm.chans) (by decide) 5 { c with key := 3 }

theorem mem_keyChans_keyReady (x : KeySlot) {c : Chan} (hst : c.st = .bound) : 5 ∈ (State.keyReady x c).keyChans 3 := by
  rw [State.mem_keyChans (wf_keyReady x c), chan_keyReady]
  exact ⟨rfl, .inl hst⟩

theorem exec_channelFormatComplete_keyReady : ∃ s', exec (.channelFormatComplete 5)
    (State.keyReady {} { st := .formatting, mode := 1 }) = .next s' ∧ (s'.chan 5).st = .bound := by
  obtain ⟨s', hexec, hst, -⟩ := channelsAndKeys.1 5 (State.keyReady {} { st := .formatting, mode := 1 })
    (by rw [chan_keyReady])
  exact ⟨s', hexec, hst.trans (by rw [chan_keyReady]; rfl)⟩

theorem exec_channelEraseComplete_keyReady : ∃ s', exec (.channelEraseComplete 5) (State.keyReady {} { st := .erasing }) =
    .next s' ∧ (s'.chan 5).st = .free := by
  have hst : ((State.keyReady {} { st := .erasing }).chan 5).st = .erasing := by rw [chan_keyReady]
  have hserved : bitOf (State.keyReady {} { st := .erasing }).cmp.served (5 / 32) = false := by decide
  have hvds : (State.keyReady {} { st := .erasing }).vds = [] := rfl
  have hexec := exec_channelEraseComplete hst hserved (by rw [hvds]; exact fun e he => absurd he List.not_mem_nil)
  exact ⟨_, hexec, by rw [State.chan_setChan_same]⟩

/-- A sweep brings page 0 from generation 1 to 2. -/
theorem exec_keyRollSweepEnd_keyReady : ∃ s', exec (.keyRollSweepEnd 3)
    (State.keyReady { st := .rolling, vd := 1, gen := 2 } { st := .bound, ctrs := [(0, { gen := 1, major := 4 })] }) =
      .next s' ∧ (s'.key 3).st = .active ∧ ((s'.chan 5).ctr 0).gen = 2 := by
  obtain ⟨-, -, hsweep, -⟩ := channelsAndKeys
  obtain ⟨s', hexec, hkey, hchans, -⟩ := hsweep 3
    (State.keyReady { st := .rolling, vd := 1, gen := 2 } { st := .bound, ctrs := [(0, { gen := 1, major := 4 })] })
    (by rw [key_keyReady]) (by rw [key_keyReady]) (wf_keyReady ..)
  obtain ⟨-, hpages⟩ := hchans 5 (mem_keyChans_keyReady _ rfl)
  obtain ⟨hgen, -⟩ := hpages 0 (.inl (by rw [chan_keyReady]; decide)) (by rw [chan_keyReady, key_keyReady]; decide)
  exact ⟨s', hexec, by rw [hkey], hgen.trans (by rw [key_keyReady])⟩

theorem exec_keyDrainReport_keyReady : ∃ s', exec (.keyDrainReport 3)
    (State.keyReady { st := .retiring } { st := .bound, dirtyMeta := [(7, true)] }) = .next s' ∧
      (s'.key 3).drained = true ∧ sget false (s'.chan 5).dirtyMeta 7 = false := by
  obtain ⟨-, -, -, hdrain, -⟩ := channelsAndKeys
  obtain ⟨s', hexec, hkey, hchans, -⟩ := hdrain 3
    (State.keyReady { st := .retiring } { st := .bound, dirtyMeta := [(7, true)] }) (by rw [key_keyReady]) (wf_keyReady ..)
  obtain ⟨hdirty, -⟩ := hchans 5 (mem_keyChans_keyReady _ rfl)
  exact ⟨s', hexec, by rw [hkey], hdirty 7⟩

/-- A drained key with a peer is zeroised at its boundary. -/
theorem exec_keyZeroisation_keyReady : ∃ s', exec (.keyZeroisation 3)
    (State.keyReady { st := .retiring, drained := true, zeroAt := some 0, peer := some 9 } { st := .bound }) = .next s' ∧
      (s'.key 3).st = .zeroised ∧ (s'.chan 5).st = .erasing := by
  obtain ⟨-, -, -, -, hzeroise, -⟩ := channelsAndKeys
  obtain ⟨s', hexec, -, -, -, -, hst, hchans, -⟩ := hzeroise 3 0
    (State.keyReady { st := .retiring, drained := true, zeroAt := some 0, peer := some 9 } { st := .bound })
    (by rw [key_keyReady]) (by rw [key_keyReady]) (by rw [key_keyReady]) (Nat.zero_le _)
  obtain ⟨herasing, -⟩ := hchans 5 (mem_keyChans_keyReady _ rfl)
  exact ⟨s', hexec, hst (by rw [key_keyReady]; decide), herasing⟩

/-- Four periods after its boundary it is free. -/
theorem exec_keyIdRelease_keyReady : ∃ s', exec (.keyIdRelease 3)
    { State.keyReady { st := .zeroised, zeroAt := some 0, peer := some 9 } {} with toll := 4096000 } = .next s' ∧
      s'.key 3 = {} := by
  obtain ⟨-, -, -, -, -, hrelease, -⟩ := channelsAndKeys
  exact ⟨_, hrelease 3 { State.keyReady { st := .zeroised, zeroAt := some 0, peer := some 9 } {} with toll := 4096000 } rfl
    (.inr ⟨0, rfl, by decide⟩), State.key_setKey_same ..⟩

/-- The patrol of a device whose stack 0 has it enabled. -/
theorem exec_hbmScrubPatrol_keyReady : ∃ s', exec (.hbmScrubPatrol 5 9 .uncorrectable)
    { State.keyReady {} { st := .bound, mode := 1 } with
      glb := { State.reset.glb with val := [(baseHbm + 0x10, some 0x80000000#64)] } } = .next s' ∧
    (s'.chan 5).scrubPos = 10 ∧ sget false (s'.chan 5).poison 9 = true := by
  obtain ⟨-, -, -, -, -, -, hpatrol, -⟩ := channelsAndKeys
  obtain ⟨s', hexec, hpos, -, -, -, hbad⟩ := hpatrol 5 9 .uncorrectable
    { State.keyReady {} { st := .bound, mode := 1 } with
      glb := { State.reset.glb with val := [(baseHbm + 0x10, some 0x80000000#64)] } } rfl (by decide) (by decide) (by decide) rfl
  obtain ⟨-, hpoison⟩ := hbad rfl rfl
  exact ⟨s', hexec, hpos, hpoison⟩

/-- A stack at 105 degrees trips the device. -/
theorem exec_hbmTemperaturePoll_reset : ∃ s', exec (.hbmTemperaturePoll 2 105) State.reset = .next s' ∧
    (s'.stack 2).hot = true ∧ s'.pwr.gate = 48 ∧ s'.pwr.tripped = true := by
  obtain ⟨s', hexec, -, hhot, -, -, -, hsafe, htrip, -⟩ := hbmTemperaturePoll_spec State.reset (n := 2) (t := 105)
    (by decide) (by decide)
  exact ⟨s', hexec, hhot, (hsafe (by decide)).2, htrip (by decide)⟩

/-! ### Subtree resets -/

/-- An authenticated message as a tenant writes it to its mailbox, the first of a session under keys of zeros. -/
def mailOf (msg : Nat) (body : List Byte) : List Byte :=
  msgHeader msg 1 7 ++ (gcmSeal 0#256 1 (msgHeader msg 1 7) body).1 ++ (gcmSeal 0#256 1 (msgHeader msg 1 7) body).2

theorem length_msgHeader (msg seq num : Nat) : (msgHeader msg seq num).length = 16 := by simp [msgHeader]

theorem length_mailOf (msg : Nat) (body : List Byte) : (mailOf msg body).length = 32 + body.length := by
  rw [mailOf, List.length_append, List.length_append, length_msgHeader, gcmSeal_length, gcmSeal, gcmTag_length]
  omega

theorem leAt_mailOf (msg : Nat) (body : List Byte) {off n : Nat} (h : off + n ≤ 16) :
    leAt (mailOf msg body) off n = leAt (msgHeader msg 1 7) off n := by
  have hlen := length_msgHeader msg 1 7
  rw [leAt, leAt, mailOf, List.append_assoc, List.drop_append_of_le_length (by omega),
    List.take_append_of_le_length (by rw [List.length_drop]; omega)]

theorem Mbox.msg_eq {m : Mbox} (h : 2 ≤ m.len) : m.msg = leAt m.bytes 0 2 := by
  obtain ⟨k, hk⟩ := Nat.exists_eq_add_of_le h
  rw [Mbox.msg, leAt, Mbox.bytes, hk, readBytes_append, List.drop_zero, List.take_left' (length_readBytes ..), readLE]

/-- The mailbox with a message in progress. -/
def Mbox.mailed (bs : List Byte) : Mbox := { req := writeBytes [] 0 bs, len := bs.length, busy := true }

theorem Mbox.bytes_mailed (bs : List Byte) : (Mbox.mailed bs).bytes = bs := readBytes_writeBytes ..

/-- The session it comes under. -/
def firstSession : Session := { num := 7, keyIn := 0#256, keyOut := 0#256 }

/-- VD 1 of `State.lineReady` in PROTECTED, with a message of its session in its mailbox. -/
def State.mailReady (c : Chan) (msg : Nat) (body : List Byte) : State :=
  ((State.lineReady 1 c).setVf 0 0 { vd := 1, tdi := .run }).setVd 1
    { st := .created, vf := some (0, 0), carves := [(0, { mode := 1, key := 3, chans := [5] })]
      sec := { session := some firstSession, mb := Mbox.mailed (mailOf msg body) } }

theorem vd_mailReady (c : Chan) (msg : Nat) (body : List Byte) : (State.mailReady c msg body).vd 1 =
    { st := .created, vf := some (0, 0), carves := [(0, { mode := 1, key := 3, chans := [5] })]
      sec := { session := some firstSession, mb := Mbox.mailed (mailOf msg body) } } := State.vd_setVd_same ..

/-- SUBTREE_RESET's message is authentic. -/
theorem authentic_mailReady (c : Chan) (body : List Byte) : (State.mailReady c 0x18 body).Authentic 1 0x18 firstSession body := by
  have hlen := length_mailOf 0x18 body
  have hnumber : (Mbox.mailed (mailOf 0x18 body)).msg = 0x18 := by
    rw [Mbox.msg_eq (by rw [Mbox.mailed]; dsimp only; omega), Mbox.bytes_mailed, leAt_mailOf _ _ (by decide)]
    decide
  have hserved : (State.mailReady c 0x18 body).mailboxServed 1 = true := by
    rw [State.mailboxServed, vd_mailReady]
    rfl
  have hparts : mailOf 0x18 body = msgHeader 0x18 1 7 ++ ((gcmSeal 0#256 1 (msgHeader 0x18 1 7) body).1 ++
    (gcmSeal 0#256 1 (msgHeader 0x18 1 7) body).2) := List.append_assoc ..
  have hheader : (mailOf 0x18 body).take 16 = msgHeader 0x18 1 7 := by
    rw [hparts, List.take_left' (length_msgHeader ..)]
  have hct : ((mailOf 0x18 body).drop 16).take ((mailOf 0x18 body).length - 32) =
      (gcmSeal 0#256 1 (msgHeader 0x18 1 7) body).1 := by
    rw [hlen, hparts, List.drop_left' (length_msgHeader ..), List.take_left' (by rw [gcmSeal_length]; omega)]
  have htag : (mailOf 0x18 body).drop ((mailOf 0x18 body).length - 16) = (gcmSeal 0#256 1 (msgHeader 0x18 1 7) body).2 := by
    rw [hlen, mailOf, List.drop_left' (by rw [List.length_append, length_msgHeader, gcmSeal_length]; omega)]
  rw [State.Authentic, State.tenantAsked, hserved, vd_mailReady]
  dsimp only
  rw [Mbox.bytes_mailed, hnumber, headerZero, leAt_mailOf _ _ (by decide), leAt_mailOf _ _ (by decide),
    leAt_mailOf _ _ (by decide), leAt_mailOf _ _ (by decide), hheader, hct, htag]
  exact ⟨rfl, by decide, by decide, rfl, by decide, by decide, by omega, gcmOpen_gcmSeal ..⟩

/-- The body that names page 0 of the first carve-out. -/
def firstPage : List Byte := List.replicate 16 0#8

theorem carve_mailReady (c : Chan) (msg : Nat) (body : List Byte) :
    (State.mailReady c msg body).carve 1 0 = { mode := 1, key := 3, chans := [5] } := by
  rw [State.carve, vd_mailReady]
  rfl

/-- The reset of a poisoned page starts; that of a sound one is refused. -/
theorem exec_subtreeReset_mailReady : (∃ s', exec (.subtreeReset 1) (State.mailReady { badSub := [(0, 1)] } 0x18 firstPage) =
      .next s' ∧ (s'.vd 1).sec.sub = some (5, 0, 0)) ∧
    ∃ s', exec (.subtreeReset 1) (State.mailReady {} 0x18 firstPage) = .next s' ∧ (s'.vd 1).sec.mb.result = 6 := by
  have hstart (c : Chan) := setsAndSubtrees.2.1 1 (State.mailReady c 0x18 firstPage) firstSession firstPage
    (authentic_mailReady c firstPage) (by decide)
  have hword : leAt firstPage 0 4 = 0 := by decide
  have hoff : leAt firstPage 8 8 = 0 := by decide
  have hcarve : 0 % 4 = 0 := by decide
  simp only [hword, hoff, hcarve, carve_mailReady] at hstart
  have hstart' (c : Chan) := hstart c (by decide) (by decide) (by decide) (by decide) (by decide) (by decide) (by decide)
    (by rw [vd_mailReady])
  obtain ⟨s', hexec, hsub, -⟩ := (hstart' { badSub := [(0, 1)] }).1 (by decide)
  obtain ⟨t, hexec', ⟨hmb, -⟩, -⟩ := (hstart' {}).2 (by decide)
  exact ⟨⟨s', hexec, hsub⟩, t, hexec', by rw [hmb]; rfl⟩

/-- VD 1 of `State.lineReady` while page 0 of its channel, poisoned, is reset. -/
def State.resetting : State :=
  (State.lineReady 1 { badSub := [(0, 1)], poison := [(0, true)], maxMajor := 4 }).setVd 1
    { sec := { session := some firstSession, sub := some (5, 0, 0) } }

theorem exec_subtreeResetComplete_resetting : ∃ s', exec (.subtreeResetComplete 1) State.resetting = .next s' ∧
    (s'.vd 1).sec.mb.result = 0 ∧ (s'.chan 5).ctr 0 = { gen := 2, major := 5 } ∧ sget false (s'.chan 5).poison 0 = false := by
  obtain ⟨s', hexec, ⟨hmb, -⟩, -, hctr, -, -, hzeros, -⟩ := setsAndSubtrees.2.2 1 5 0 State.resetting firstSession rfl rfl
    (by decide) rfl rfl
  exact ⟨s', hexec, by rw [hmb]; rfl, hctr, (hzeros 0 (by decide)).2⟩

end Sys2Proof.Machine
end

section
/-!
PROOFS. Invalidations and fault records of an address space (spec/08 R227, R237 to R247): what each row does, and the
record of a SEQ beyond 16 bits that no retry resolves.
-/
namespace Sys2Proof.Machine

/-! ### Address spaces -/

theorem State.space_setSpace (s : State) (v j : Nat) (x : Space) :
    (s.setSpace v x).space j = if j = v then x else s.space j :=
  sget_sput _ _ _ _

@[simp] theorem State.space_setSpace_same (s : State) (v : Nat) (x : Space) : (s.setSpace v x).space v = x :=
  sget_sput_same _ _ _

theorem State.space_of_xlt {s t : State} (h : t.xlt = s.xlt) (v : Nat) : t.space v = s.space v := by
  rw [State.space, State.space, h]

/-- The space after steps 1 and 2 of R238. -/
theorem State.space_startInval_same (s : State) (v : Nat) (i : Inval) :
    (s.startInval v i).space v = { s.space v with inv := some i, phase := !(s.space v).phase } :=
  State.space_setSpace_same ..

theorem State.space_startInval_other (s : State) {v j : Nat} (h : j ≠ v) (i : Inval) :
    (s.startInval v i).space j = s.space j :=
  (State.space_setSpace ..).trans (if_neg h)

@[simp] theorem State.que_startInval (s : State) (v : Nat) (i : Inval) : (s.startInval v i).que = s.que := rfl

theorem State.mem_cache_startInval (s : State) (v : Nat) (i : Inval) (e : Cached) :
    e ∈ (s.startInval v i).xlt.cache ↔ e ∈ s.xlt.cache ∧ (e.space = v → i.hits e = false) := by
  change e ∈ s.xlt.cache.filter (fun c => !(c.space = v && i.hits c)) ↔ _
  simp [imp_iff_not_or]

/-- An entry an invalidation of a range leaves: a leaf whose pages lie apart from the range (R237). -/
theorem Inval.hits_eq_false_iff (i : Inval) (e : Cached) :
    i.hits e = false ↔ i.whole = false ∧ pteLeaf e.entry.toNat = true ∧
      (i.va + 4096 * i.n ≤ e.va ∨ e.va + 2 ^ leafShift e.level ≤ i.va) := by
  simp [Inval.hits, and_assoc, imp_iff_not_or]

/-- No entry of the space outlives an invalidation of the whole space. -/
theorem State.mem_cache_startInval_whole (s : State) (v : Nat) {i : Inval} (h : i.whole = true) (e : Cached) :
    e ∈ (s.startInval v i).xlt.cache ↔ e ∈ s.xlt.cache ∧ e.space ≠ v := by
  rw [State.mem_cache_startInval, Inval.hits_eq_false_iff, h]
  simp

/-! ### Commands that end together (R239, R245) -/

@[simp] theorem State.xlt_modCmd (s : State) (q : Nat) (f : Cmd → Cmd) : (s.modCmd q f).xlt = s.xlt := by
  unfold State.modCmd
  split <;> rfl

@[simp] theorem State.xlt_finish (s : State) (q st d : Nat) : (s.finish q st d).xlt = s.xlt := State.xlt_modCmd ..

theorem statusRank_lt_ok {st : Nat} (h : st ≠ stOK) : statusRank st < statusRank stOK := by
  have hok : statusRank stOK = 9 := by decide
  rw [hok]
  unfold statusRank
  split_ifs <;> omega

/-- A command that met nothing, or this status already, has this status. -/
theorem Cmd.status_meet {c : Cmd} {st : Nat} (h : c.status = stOK ∨ c.status = st) (d : Nat) :
    (c.meet st d).status = st := by
  rw [Cmd.meet]
  split
  · rfl
  next hrank =>
    refine h.elim (fun hok => ?_) id
    by_contra hne
    rw [hok] at hrank hne
    exact hrank (statusRank_lt_ok (Ne.symm hne))

theorem State.cmd_finish_other (s : State) {p q : Nat} (h : q ≠ p) (st d : Nat) :
    (s.finish p st d).cmd q = s.cmd q := by
  rw [State.finish, State.modCmd]
  split
  · rw [State.cmd_setCmd, if_neg h]
  · rfl

theorem State.hasCmd_finish {s : State} {q : Nat} (h : s.hasCmd q = true) (p st d : Nat) :
    (s.finish p st d).hasCmd q = true := by
  by_cases hp : q = p
  · subst hp
    rw [State.finish, State.modCmd_eq h]
    refine State.hasCmd_setCmd h ?_
    rw [Cmd.meet]
    split <;> exact State.seq_of_hasCmd h
  · rw [State.hasCmd, State.cmd_finish_other s hp]
    exact h

/-- A command that met nothing, or this status already, ends with it. -/
theorem State.ended_finish_of {s : State} {q st : Nat} (h : s.hasCmd q = true)
    (hst : (s.cmd q).status = stOK ∨ (s.cmd q).status = st) (d : Nat) : (s.finish q st d).Ended q st := by
  rw [State.finish, State.modCmd_eq h, State.Ended, State.cmd_setCmd_same]
  exact ⟨rfl, Cmd.status_meet hst d⟩

/-- Every command of a list ends with a status. -/
def State.finishAll (s : State) (l : List Nat) (st : Nat) : State := l.foldl (fun s q => s.finish q st 0) s

@[simp] theorem State.xlt_finishAll (l : List Nat) (st : Nat) (s : State) : (s.finishAll l st).xlt = s.xlt := by
  induction l generalizing s with
  | nil => rfl
  | cons p l ih => exact (ih _).trans (State.xlt_finish ..)

theorem State.cmd_finishAll_other {l : List Nat} {q : Nat} (h : q ∉ l) (st : Nat) (s : State) :
    (s.finishAll l st).cmd q = s.cmd q := by
  induction l generalizing s with
  | nil => rfl
  | cons p l ih =>
    rw [List.mem_cons, not_or] at h
    exact (ih h.2 _).trans (s.cmd_finish_other h.1 st 0)

/-- What ended with a status stays so while others, or it again, end with the same. -/
theorem State.ended_finishAll_of_ended {l : List Nat} {q st : Nat} {s : State} (h : s.hasCmd q = true)
    (hended : s.Ended q st) : (s.finishAll l st).Ended q st := by
  induction l generalizing s with
  | nil => exact hended
  | cons p l ih =>
    refine ih (State.hasCmd_finish h p st 0) ?_
    by_cases hp : q = p
    · subst hp
      exact State.ended_finish_of h (.inr hended.2) 0
    · rw [State.Ended, State.cmd_finish_other s hp]
      exact hended

theorem State.ended_finishAll {l : List Nat} {q : Nat} (hq : q ∈ l) {st : Nat} {s : State} (h : s.hasCmd q = true)
    (hst : (s.cmd q).status = stOK) : (s.finishAll l st).Ended q st := by
  induction l generalizing s with
  | nil => exact absurd hq List.not_mem_nil
  | cons p l ih =>
    by_cases hp : q = p
    · subst hp
      exact State.ended_finishAll_of_ended (l := l) (s := s.finish q st 0) (State.hasCmd_finish h q st 0)
        (State.ended_finish_of h (.inl hst) 0)
    · refine ih ((List.mem_cons.1 hq).resolve_left hp) (State.hasCmd_finish h p st 0) ?_
      rw [State.cmd_finish_other s hp]
      exact hst

/-! ### Invalidations begin (R229, R237, R238) -/

theorem State.xlt_started_advance (s : State) (seq : Nat) : ((s.started seq).advance seq 1).xlt = s.xlt :=
  State.xlt_modCmd ..

theorem exec_invalidate_idle {seq : Nat} {s : State} (h : s.Startable seq 0x14) (hpos : (s.cmd seq).pos = 0)
    (hidle : (s.space (s.cmd seq).vd).inv = none) :
    exec (.invalidate seq) s = .next (((s.started seq).advance seq 1).startInval (s.cmd seq).vd
      { seq := seq, va := (s.cmd seq).fld 0x10 0 64 / 4096 * 4096, n := (s.cmd seq).fld 0x18 0 32,
        whole := (s.cmd seq).fld 0x1C 0 1 = 1 }) := by
  change execInvalidate seq s = _
  have hinv : (((s.started seq).advance seq 1).space (s.cmd seq).vd).inv = none := by
    rw [State.space_of_xlt (State.xlt_started_advance ..), hidle]
  rw [execInvalidate, h.runCmd_eq]
  refine congrArg _ ((if_neg (not_not.2 hpos)).trans ?_)
  rw [State.requestInval]
  simp only [hinv]
  rfl

/-- INVALIDATE where no invalidation runs in the space: it goes on until the drain, with the phase turned and the entries
its range meets gone (R237, R238). -/
theorem exec_invalidate_begins {seq : Nat} {s : State} (h : s.Startable seq 0x14) (hpos : (s.cmd seq).pos = 0)
    (hidle : (s.space (s.cmd seq).vd).inv = none) :
    let c := s.cmd seq
    let va := c.fld 0x10 0 64 / 4096 * 4096
    ∃ s', exec (.invalidate seq) s = .next s' ∧ (s'.cmd seq).phase = .running ∧
      (∃ r, (s'.space c.vd).inv = some r ∧ r.seq = seq ∧ r.va = va ∧ r.n = c.fld 0x18 0 32) ∧
      (s'.space c.vd).phase = !(s.space c.vd).phase ∧ (s'.space c.vd).ring = (s.space c.vd).ring ∧
      (∀ e, e ∈ s'.xlt.cache ↔ e ∈ s.xlt.cache ∧ (e.space = c.vd →
        c.fld 0x1C 0 1 ≠ 1 ∧ pteLeaf e.entry.toNat = true ∧
        (va + 4096 * c.fld 0x18 0 32 ≤ e.va ∨ e.va + 2 ^ leafShift e.level ≤ va))) ∧
      ∀ v, v ≠ c.vd → s'.space v = s.space v := by
  intro c va
  have hxlt := s.xlt_started_advance seq
  have hspace (v : Nat) := State.space_of_xlt hxlt v
  refine ⟨_, exec_invalidate_idle h hpos hidle, ?_, ⟨_, congrArg Space.inv (State.space_startInval_same ..), rfl, rfl, rfl⟩,
    ?_, ?_, fun e => ?_, fun v hv => ?_⟩
  · rw [State.cmd, State.que_startInval, ← State.cmd, State.advance, State.modCmd_eq h.hasCmd_started,
      State.cmd_setCmd_same, State.started, State.cmd_setCmd_same]
  · rw [State.space_startInval_same, hspace]
  · rw [State.space_startInval_same, hspace]
  · rw [State.mem_cache_startInval, hxlt, Inval.hits_eq_false_iff, decide_eq_false_iff_not]
  · rw [State.space_startInval_other _ hv, hspace]

/-- The invalidation of a root change (R229). -/
def wholeSpace : Inval := { seq := 0, va := 0, n := 0, whole := true }

/-- The root a write of XLT_SYSROOT or XLT_VDROOT leaves: ROOT and EN (R247). -/
def rootOf (v : DWord) : DWord := BitVec.ofNat 64 (bitsOf v.toNat 41 16 * 65536 + v.toNat % 2)

section
variable {space : Nat} {v : DWord} {s : State} (hlive : space = 0 ∨ (s.vd space).st ≠ .none)
  (hhigh : bitsOf v.toNat 63 42 = 0) (hlow : bitsOf v.toNat 15 2 = 0)
include hlive hhigh hlow

theorem exec_rootWrite_same (hsame : bitsOf v.toNat 41 16 = bitsOf (s.space space).root.toNat 41 16) :
    exec (.rootWrite space v) s = .next (s.setSpace space { s.space space with root := rootOf v }) := by
  have hlive : ¬ (space ≠ 0 ∧ (s.vd space).st = .none) := by tauto
  change execRootWrite space v s = _
  simp [execRootWrite, hlive, hhigh, hlow, hsame, rootOf]

/-- A write that changes ROOT sets BUSY and begins an invalidation of the whole space (R229). -/
theorem exec_rootWrite_changed (hidle : (s.space space).inv = none)
    (hnew : bitsOf v.toNat 41 16 ≠ bitsOf (s.space space).root.toNat 41 16) :
    ∃ s', exec (.rootWrite space v) s = .next s' ∧
      s'.space space = { s.space space with
        root := rootOf v, busy := true, phase := !(s.space space).phase, inv := some wholeSpace } ∧
      (∀ e, e ∈ s'.xlt.cache ↔ e ∈ s.xlt.cache ∧ e.space ≠ space) ∧ ∀ u, u ≠ space → s'.space u = s.space u := by
  have hlive : ¬ (space ≠ 0 ∧ (s.vd space).st = .none) := by tauto
  have hexec : exec (.rootWrite space v) s =
      .next (((s.setSpace space { s.space space with root := rootOf v }).setSpace space
        { s.space space with root := rootOf v, busy := true }).startInval space wholeSpace) := by
    change execRootWrite space v s = _
    simp [execRootWrite, State.requestInval, hlive, hhigh, hlow, Ne.symm hnew, hidle, rootOf, wholeSpace]
  refine ⟨_, hexec, ?_, State.mem_cache_startInval_whole _ _ rfl, fun u hu => ?_⟩
  · rw [State.space_startInval_same, State.space_setSpace_same]
  · rw [State.space_startInval_other _ hu, State.space_setSpace, if_neg hu, State.space_setSpace, if_neg hu]

end

/-! ### The drain (R239) -/

/-- What waits behind a drained invalidation begins: one command's own, two or more as one of the whole space. -/
def State.beginNext (s : State) (space : Nat) : List Inval → State
  | [] => s
  | [a] => s.startInval space a
  | a :: b :: rest =>
    let t := s.startInval space { wholeSpace with seq := a.seq }
    t.setSpace space { t.space space with invMerged := (b :: rest).map (·.seq) }

/-- The command the drain serves has ended, and no invalidation of the space runs. -/
def State.drained (s : State) (space : Nat) (i : Inval) : State :=
  (if i.seq = 0 then s else s.finish i.seq stOK 0).setSpace space { s.space space with
    inv := none, invMerged := [], invWait := [], busy := if i.seq = 0 then false else (s.space space).busy }

section
variable {space : Nat} {s : State} {i : Inval}

@[simp] theorem State.space_drained : (s.drained space i).space space = { s.space space with
    inv := none, invMerged := [], invWait := [], busy := if i.seq = 0 then false else (s.space space).busy } :=
  State.space_setSpace_same ..

theorem State.cache_drained : (s.drained space i).xlt.cache = s.xlt.cache := by
  rw [State.drained]
  split
  · rfl
  · change (s.finish i.seq stOK 0).xlt.cache = _
    rw [State.xlt_finish]

theorem State.ended_drained (h : s.hasCmd i.seq = true) (hst : (s.cmd i.seq).status = stOK) :
    (s.drained space i).Ended i.seq stOK := by
  have hne : i.seq ≠ 0 := by
    intro hzero
    simp [State.hasCmd, hzero] at h
  rw [State.drained, if_neg hne]
  exact State.ended_finish h hst 0

theorem exec_invalidationPhaseDrain (hinv : (s.space space).inv = some i) (hmerged : (s.space space).invMerged = []) :
    exec (.invalidationPhaseDrain space) s = .next ((s.drained space i).beginNext space (s.space space).invWait) := by
  change execInvalidationPhaseDrain space s = _
  have hspace : (if i.seq = 0 then s else s.finish i.seq stOK 0).space space = s.space space := by
    split
    · rfl
    · exact State.space_of_xlt (State.xlt_finish ..) space
  simp only [execInvalidationPhaseDrain, hinv, hmerged, List.foldl_cons, List.foldl_nil, hspace, List.contains_nil,
    Bool.false_eq_true, or_false]
  refine congrArg _ ?_
  rcases hwait : (s.space space).invWait with _ | ⟨a, _ | ⟨b, rest⟩⟩
  · rw [State.drained]
    rfl
  · rfl
  · rfl

theorem State.que_beginNext (s : State) (space : Nat) (l : List Inval) : (s.beginNext space l).que = s.que := by
  rcases l with _ | ⟨a, _ | ⟨b, rest⟩⟩ <;> rfl

theorem State.busy_beginNext (s : State) (space : Nat) (l : List Inval) :
    ((s.beginNext space l).space space).busy = (s.space space).busy := by
  rcases l with _ | ⟨a, _ | ⟨b, rest⟩⟩
  · rfl
  · rw [State.beginNext, State.space_startInval_same]
  · rw [State.beginNext, State.space_setSpace_same, State.space_startInval_same]

/-- The drain ends the command it serves, and the invalidations that wait begin (R238, R239). -/
theorem exec_invalidationPhaseDrain_ends (hinv : (s.space space).inv = some i) (hmerged : (s.space space).invMerged = []) :
    let x := s.space space
    ∃ s', exec (.invalidationPhaseDrain space) s = .next s' ∧
      (s.hasCmd i.seq = true → (s.cmd i.seq).status = stOK → s'.Ended i.seq stOK) ∧
      (s'.space space).busy = (if i.seq = 0 then false else x.busy) ∧
      (x.invWait = [] → (s'.space space).inv = none ∧ s'.xlt.cache = s.xlt.cache ∧ (s'.space space).phase = x.phase) ∧
      (∀ a, x.invWait = [a] → (s'.space space).inv = some a ∧ (s'.space space).invWait = [] ∧
        (s'.space space).phase = !x.phase) ∧
      ∀ a b rest, x.invWait = a :: b :: rest →
        (s'.space space).inv = some { seq := a.seq, va := 0, n := 0, whole := true } ∧ (s'.space space).invWait = [] ∧
        (s'.space space).invMerged = (b :: rest).map (·.seq) ∧ ∀ e ∈ s'.xlt.cache, e.space ≠ space := by
  intro x
  refine ⟨_, exec_invalidationPhaseDrain hinv hmerged, fun h hst => ?_, ?_, fun hwait => ?_, fun a hwait => ?_,
    fun a b rest hwait => ?_⟩
  · rw [State.Ended, State.cmd, State.que_beginNext]
    exact State.ended_drained h hst
  · rw [State.busy_beginNext, State.space_drained]
  · rw [hwait, State.beginNext, State.space_drained]
    exact ⟨rfl, State.cache_drained, rfl⟩
  · rw [hwait, State.beginNext, State.space_startInval_same, State.space_drained]
    exact ⟨rfl, rfl, rfl⟩
  · rw [hwait, State.beginNext, State.space_setSpace_same, State.space_startInval_same, State.space_drained]
    exact ⟨rfl, rfl, rfl, fun e he => ((State.mem_cache_startInval_whole _ _ rfl e).1 he).2⟩

end

/-! ### Fault records resolved (R245) -/

section
variable {space slot : Nat} {s : State} {r : FaultRec} (hr : sget none (s.space space).ring slot = some r)
include hr

theorem State.invalidate_eq :
    s.invalidate space slot = (s.freeFault space slot).finishAll r.stalled (faultStatus r.first.cause) := by
  rw [State.invalidate, hr]
  rfl

theorem exec_faultResolveInvalid_match (hslot : slot < 32) :
    exec (.faultResolveInvalid space slot r.seqNo) s = .next (s.invalidate space slot) := by
  change execFaultResolveInvalid space slot r.seqNo s = _
  simp [execFaultResolveInvalid, hr, hslot]

theorem exec_faultResolveInvalid_mismatch {n : Nat} (hn : n ≠ r.seqNo) :
    exec (.faultResolveInvalid space slot n) s = .next s := by
  change execFaultResolveInvalid space slot n s = _
  simp [execFaultResolveInvalid, hr, Ne.symm hn]

theorem exec_faultTimeout_due (hboundary : s.toll % 1024000 = 0)
    (hdue : r.written + 1000000 * s.regField 0x200008 15 0 ≤ s.toll) :
    exec (.faultTimeout space slot) s = .next (s.invalidate space slot) := by
  have hdue' : r.written + ms (s.regField (baseXlt + 8) 15 0) ≤ s.toll := by
    rw [ms, mul_comm]
    exact hdue
  change execFaultTimeout space slot s = _
  rw [execFaultTimeout, hr]
  exact congrArg _ (if_pos ⟨hboundary, hdue'⟩)

theorem exec_faultResolveRetry_match (hseq : r.seqNo < 65536) :
    exec (.faultResolveRetry space slot r.seqNo) s =
      .next (r.stalled.foldl (fun s q => s.resume q) (s.freeFault space slot)) := by
  change execFaultResolveRetry space slot r.seqNo s = _
  simp [execFaultResolveRetry, hr, Nat.mod_eq_of_lt hseq]

theorem exec_faultResolveRetry_mismatch {n : Nat} (hn : n % 65536 ≠ r.seqNo) :
    exec (.faultResolveRetry space slot n) s = .next s := by
  change execFaultResolveRetry space slot n s = _
  simp [execFaultResolveRetry, hr, Ne.symm hn]

end

theorem State.ring_freeFault (s : State) (space slot j : Nat) :
    sget none ((s.freeFault space slot).space space).ring j =
      if j = slot then none else sget none (s.space space).ring j := by
  rw [State.freeFault, State.space_setSpace_same, sget_sput]

theorem State.space_freeFault_other (s : State) {space v : Nat} (h : v ≠ space) (slot : Nat) :
    (s.freeFault space slot).space v = s.space v :=
  (State.space_setSpace ..).trans (if_neg h)

theorem faultStatus_eq (c : WalkCause) :
    faultStatus c = if c = .readDenied ∨ c = .writeDenied then stPermission else stTransFault := by
  cases c <;> rfl

/-- INVALID frees the slot of a record and ends every command it stalls with the status of its cause. -/
theorem State.invalidate_resolves {space slot : Nat} {s : State} {r : FaultRec}
    (hr : sget none (s.space space).ring slot = some r) :
    let s' := s.invalidate space slot
    sget none (s'.space space).ring slot = none ∧
      (∀ j, j ≠ slot → sget none (s'.space space).ring j = sget none (s.space space).ring j) ∧
      (∀ q ∈ r.stalled, s.hasCmd q = true → (s.cmd q).status = stOK → s'.Ended q
        (if r.first.cause = .readDenied ∨ r.first.cause = .writeDenied then stPermission else stTransFault)) ∧
      (∀ q, q ∉ r.stalled → s'.cmd q = s.cmd q) ∧ ∀ v, v ≠ space → s'.space v = s.space v := by
  have hspace (v : Nat) : (s.invalidate space slot).space v = (s.freeFault space slot).space v := by
    rw [State.invalidate_eq hr, State.space_of_xlt (State.xlt_finishAll ..)]
  refine ⟨?_, fun j hj => ?_, fun q hq hcmd hst => ?_, fun q hq => ?_, fun v hv => ?_⟩
  · rw [hspace, State.ring_freeFault, if_pos rfl]
  · rw [hspace, State.ring_freeFault, if_neg hj]
  · rw [State.invalidate_eq hr, faultStatus_eq]
    exact State.ended_finishAll hq hcmd hst
  · rw [State.invalidate_eq hr, State.cmd_finishAll_other hq]
    rfl
  · rw [hspace, State.space_freeFault_other s hv]

/-! ### Faults that wait for a slot (R242) -/

theorem State.xlt_raiseFault (s : State) (v : Nat) : (s.raiseFault v).xlt = s.xlt := by
  rw [State.raiseFault]
  split
  · rw [s.interrupted_raisePfs 2]
  · rw [s.interrupted_raiseVd v 1]

/-- The least key that passes is found where every key below it fails. -/
theorem lowestKey_eq_some {p : Nat → Bool} {n k i : Nat} (hk : k ≤ i) (hi : i < k + n) (hp : p i = true)
    (hbelow : ∀ j, k ≤ j → j < i → p j = false) : lowestKey p n k = some i := by
  induction n generalizing k with
  | zero => omega
  | succ n ih =>
    rw [lowestKey]
    by_cases hki : k = i
    · subst hki
      rw [if_pos hp]
    · rw [hbelow k le_rfl (by omega), if_neg Bool.false_ne_true]
      exact ih (by omega) (by omega) fun j hj => hbelow j (by omega)

/-- The oldest fault that waits takes the lowest free slot, with the next SEQ and the time of the writing. -/
theorem exec_faultRecordDeferred_writes {space i : Nat} {s : State} {r : FaultRec} {rest : List FaultRec}
    (hwait : (s.space space).waiting = r :: rest) (hi : i < 32) (hfree : sget none (s.space space).ring i = none)
    (hbelow : ∀ j < i, sget none (s.space space).ring j ≠ none) :
    ∃ s', exec (.faultRecordDeferred space) s = .next s' ∧
      sget none (s'.space space).ring i = some { r with seqNo := (s.space space).nextSeq, written := s.toll } ∧
      (s'.space space).waiting = rest ∧ (s'.space space).nextSeq = ((s.space space).nextSeq + 1) % 65536 := by
  have hslot : (s.space space).freeSlot = some i :=
    lowestKey_eq_some (Nat.zero_le i) (by omega) (by rw [hfree]; rfl)
      fun j _ hj => Option.isNone_eq_false_iff.2 (Option.isSome_iff_ne_none.2 (hbelow j hj))
  refine ⟨(s.setSpace space { s.space space with waiting := rest }).putFault space i r, ?_, ?_⟩
  · change execFaultRecordDeferred space s = _
    simp only [execFaultRecordDeferred, hwait, hslot]
  · rw [State.putFault, State.space_of_xlt (State.xlt_raiseFault ..), State.space_setSpace_same,
      State.space_setSpace_same, sget_sput_same]
    exact ⟨rfl, rfl, rfl⟩

/-! ### Retry, and the one clause of O23 that fails (R243, R245) -/

/-- RETRY of a record of a 16-bit SEQ that stalls nobody frees its slot and leaves the queues alone. -/
theorem exec_faultResolveRetry_frees {space slot : Nat} {s : State} {r : FaultRec}
    (hr : sget none (s.space space).ring slot = some r) (hseq : r.seqNo < 65536) (hstalled : r.stalled = []) :
    ∃ s', exec (.faultResolveRetry space slot r.seqNo) s = .next s' ∧
      sget none (s'.space space).ring slot = none ∧ s'.que = s.que := by
  refine ⟨_, exec_faultResolveRetry_match hr hseq, ?_, ?_⟩
  · rw [hstalled, List.foldl_nil, State.ring_freeFault, if_pos rfl]
  · rw [hstalled]
    rfl

/-- The retry clause of O23: it bounds no SEQ, where a row's SEQ is taken modulo 65,536. -/
def RetryFreesAnySeq : Prop :=
  ∀ (space slot : Nat) (s : State) (r : FaultRec), slot < 32 → sget none (s.space space).ring slot = some r →
    r.stalled = [] → ∃ s', exec (.faultResolveRetry space slot r.seqNo) s = .next s' ∧
      sget none (s'.space space).ring slot = none ∧ s'.que = s.que

/-- Every clause of O23 holds but the retry clause, so the statement is as true as that clause. -/
theorem invalidationsAndFaultRecords_iff : Obligations.InvalidationsAndFaultRecords ↔ RetryFreesAnySeq := by
  unfold Obligations.InvalidationsAndFaultRecords
  constructor
  · rintro ⟨-, hresolve, -⟩ space slot s r hslot hr
    obtain ⟨-, hretry, -⟩ := hresolve space slot s r hslot hr
    exact hretry
  · intro hretry
    refine ⟨⟨fun seq s => exec_invalidate_begins, ?root, fun space s i => exec_invalidationPhaseDrain_ends⟩, ?resolve,
      fun space i s r rest => exec_faultRecordDeferred_writes⟩
    case root =>
      intro space v s hlive hidle hhigh hlow new
      by_cases hnew : new = bitsOf (s.space space).root.toNat 41 16
      · refine ⟨_, exec_rootWrite_same hlive hhigh hlow hnew, ?_, ?_, fun u hu => ?_⟩
        · rw [State.space_setSpace_same]
          rfl
        · rw [if_pos hnew, State.space_setSpace_same]
          exact ⟨hidle, rfl, rfl⟩
        · rw [State.space_setSpace, if_neg hu]
      · obtain ⟨s', hexec, hspace, hcache, hother⟩ := exec_rootWrite_changed hlive hhigh hlow hidle hnew
        refine ⟨s', hexec, ?_, ?_, hother⟩
        · rw [hspace]
          rfl
        · rw [if_neg hnew, hspace]
          exact ⟨rfl, rfl, rfl, hcache⟩
    case resolve =>
      intro space slot s r hslot hr
      refine ⟨?_, hretry space slot s r hslot hr, fun n => exec_faultResolveInvalid_mismatch hr,
        fun n => exec_faultResolveRetry_mismatch hr⟩
      rintro i (rfl | ⟨rfl, hboundary, hdue⟩)
      · exact ⟨_, exec_faultResolveInvalid_match hr hslot, State.invalidate_resolves hr⟩
      · exact ⟨_, exec_faultTimeout_due hr hboundary hdue, State.invalidate_resolves hr⟩

/-- A TABLE_READ record, which stalls nobody, under a SEQ. -/
def tableReadRec (seqNo : Nat) : FaultRec :=
  { faultRec { cause := .tableRead, wr := false, host := false, level := 1, va := 0, req := 0, seq := 0, ctx := 0,
               toll := 0 } with seqNo := seqNo }

/-- A device whose system space holds one record, in slot 0, under a SEQ of 17 bits. -/
def State.wideSeq : State := State.reset.setSpace 0 { ring := [(0, some (tableReadRec 65536))] }

theorem ring_wideSeq : sget none (State.wideSeq.space 0).ring 0 = some (tableReadRec 65536) := by
  rw [State.wideSeq, State.space_setSpace_same]
  rfl

/-- Refutes O23: RETRY takes its SEQ modulo 65,536, so the record of SEQ 65,536 that the statement lets a slot hold is never
matched and stays. No record the model writes has such a SEQ; all the other clauses hold
(`invalidationsAndFaultRecords_iff`), and this one for a SEQ of 16 bits (`exec_faultResolveRetry_frees`). -/
theorem not_invalidationsAndFaultRecords : ¬ Obligations.InvalidationsAndFaultRecords := by
  rw [invalidationsAndFaultRecords_iff]
  intro h
  obtain ⟨s', hexec, hfree, -⟩ := h 0 0 State.wideSeq (tableReadRec 65536) (by decide) ring_wideSeq rfl
  have hstays : exec (.faultResolveRetry 0 0 65536) State.wideSeq = .next State.wideSeq :=
    exec_faultResolveRetry_mismatch ring_wideSeq (by decide)
  have hsame : State.wideSeq = s' := Host.Outcome.next.inj (hstays.symm.trans hexec)
  rw [← hsame, ring_wideSeq] at hfree
  exact Option.some_ne_none _ hfree

end Sys2Proof.Machine
end

section
/-!
PROOFS. Witnesses for address translation: concrete states that meet the hypotheses of the lemmas on invalidations and
fault records, each run through its lemma.
-/
namespace Sys2Proof.Machine

/-! ### Invalidations -/

/-- A readable 4 KiB page of VD 1. -/
def cachedPage (va : Nat) : Cached := { space := 1, level := 1, va := va, entry := 0x13#64 }

/-- An INVALIDATE of VD 1, for the page at 0x200000. -/
def invalidateOnePage : Cmd :=
  { seq := 1, vd := 1, phase := .running, slot := 0x1000000000020000000000000000000000000000000000014#512 }

/-- A device that holds the command, with its page and the page after it cached. -/
def State.invalidateReady : State :=
  { State.reset.setCmd 1 invalidateOnePage with xlt := { cache := [cachedPage 0x200000, cachedPage 0x201000] } }

theorem cmd_invalidateReady : State.invalidateReady.cmd 1 = invalidateOnePage := State.cmd_setCmd_same ..

theorem startable_invalidateReady : State.invalidateReady.Startable 1 0x14 := by
  rw [State.Startable, State.hasCmd, cmd_invalidateReady]
  exact ⟨rfl, (slotField_ofNat (by decide) ..).trans (by decide), rfl, .inr rfl⟩

/-- The page is gone, and the one that begins where the range ends stays. -/
theorem exec_invalidate_invalidateReady : ∃ s', exec (.invalidate 1) State.invalidateReady = .next s' ∧
    (s'.space 1).phase = true ∧ cachedPage 0x200000 ∉ s'.xlt.cache ∧ cachedPage 0x201000 ∈ s'.xlt.cache := by
  have hva : invalidateOnePage.fld 0x10 0 64 = 0x200000 := (slotField_ofNat (by decide) ..).trans (by decide)
  have hn : invalidateOnePage.fld 0x18 0 32 = 1 := (slotField_ofNat (by decide) ..).trans (by decide)
  have hwhole : invalidateOnePage.fld 0x1C 0 1 = 0 := (slotField_ofNat (by decide) ..).trans (by decide)
  obtain ⟨s', hexec, -, -, hphase, -, hcache, -⟩ := exec_invalidate_begins startable_invalidateReady
    (by rw [cmd_invalidateReady]; rfl) (by rw [cmd_invalidateReady]; rfl)
  rw [cmd_invalidateReady] at hphase hcache
  rw [hva, hn, hwhole] at hcache
  refine ⟨s', hexec, hphase, ?_, ?_⟩
  · rw [hcache]
    decide
  · rw [hcache]
    decide

/-- A new root of the system space at reset. -/
theorem exec_rootWrite_reset : ∃ s', exec (.rootWrite 0 0x10001#64) State.reset = .next s' ∧ (s'.space 0).busy = true ∧
    (s'.space 0).root = 0x10001#64 := by
  obtain ⟨s', hexec, hspace, -⟩ := exec_rootWrite_changed (v := 0x10001#64) (s := State.reset) (.inl rfl) (by decide)
    (by decide) rfl (by decide)
  exact ⟨s', hexec, by rw [hspace], by rw [hspace]; rfl⟩

/-- An invalidation of command 1 runs in the system space, and those of commands 2 and 3 wait. -/
def State.drainReady : State :=
  (State.reset.setCmd 1 { seq := 1, phase := .running }).setSpace 0
    { inv := some { wholeSpace with seq := 1 },
      invWait := [{ seq := 2, va := 0, n := 1, whole := false }, { seq := 3, va := 4096, n := 1, whole := false }] }

theorem space_drainReady : State.drainReady.space 0 =
    { inv := some { wholeSpace with seq := 1 },
      invWait := [{ seq := 2, va := 0, n := 1, whole := false }, { seq := 3, va := 4096, n := 1, whole := false }] } :=
  State.space_setSpace_same ..

/-- The drain ends command 1, and the two that wait become one. -/
theorem exec_invalidationPhaseDrain_drainReady : ∃ s', exec (.invalidationPhaseDrain 0) State.drainReady = .next s' ∧
    s'.Ended 1 stOK ∧ (s'.space 0).inv = some { wholeSpace with seq := 2 } ∧ (s'.space 0).invMerged = [3] := by
  obtain ⟨s', hexec, hended, -, -, -, hmerge⟩ := exec_invalidationPhaseDrain_ends
    (i := { wholeSpace with seq := 1 }) (congrArg Space.inv space_drainReady) (congrArg Space.invMerged space_drainReady)
  obtain ⟨hinv, -, hmerged, -⟩ := hmerge _ _ _ (congrArg Space.invWait space_drainReady)
  exact ⟨s', hexec, hended (by decide) rfl, hinv, hmerged⟩

/-! ### Fault records -/

/-- A denied write of command 1, recorded 28 ms after reset as number 5. -/
def deniedWrite : FaultRec :=
  { faultRec { cause := .writeDenied, wr := true, host := false, level := 1, va := 0, req := 0, seq := 1, ctx := 0,
               toll := 0 } with seqNo := 5, written := 28000000 }

/-- The last slot of the system space holds the record, at the boundary 128 ms after reset. -/
def State.deniedReady : State :=
  { (State.reset.setCmd 1 { seq := 1, phase := .running }).setSpace 0 { ring := [(31, some deniedWrite)] } with
    toll := 128000000 }

theorem ring_deniedReady : sget none (State.deniedReady.space 0).ring 31 = some deniedWrite :=
  congrArg (fun x : Space => sget none x.ring 31) (State.space_setSpace_same ..)

/-- What INVALID does to the record. -/
theorem invalidate_deniedReady : (State.deniedReady.invalidate 0 31).Ended 1 stPermission ∧
    sget none ((State.deniedReady.invalidate 0 31).space 0).ring 31 = none := by
  obtain ⟨hfree, -, hended, -⟩ := State.invalidate_resolves ring_deniedReady
  exact ⟨hended 1 (by decide) (by decide) rfl, hfree⟩

theorem exec_faultResolveInvalid_deniedReady :
    exec (.faultResolveInvalid 0 31 5) State.deniedReady = .next (State.deniedReady.invalidate 0 31) :=
  exec_faultResolveInvalid_match ring_deniedReady (by decide)

/-- The record has stood the 100 ms of reset exactly. -/
theorem exec_faultTimeout_deniedReady :
    exec (.faultTimeout 0 31) State.deniedReady = .next (State.deniedReady.invalidate 0 31) :=
  exec_faultTimeout_due ring_deniedReady (by decide) (by decide)

/-- The greatest SEQ of 16 bits is matched, and the slot is free. -/
theorem exec_faultResolveRetry_lastSeq : ∃ s', exec (.faultResolveRetry 0 0 65535)
    (State.reset.setSpace 0 { ring := [(0, some (tableReadRec 65535))] }) = .next s' ∧
    sget none (s'.space 0).ring 0 = none := by
  have hring : sget none ((State.reset.setSpace 0 { ring := [(0, some (tableReadRec 65535))] }).space 0).ring 0 =
      some (tableReadRec 65535) := by
    rw [State.space_setSpace_same]
    rfl
  obtain ⟨s', hexec, hfree, -⟩ := exec_faultResolveRetry_frees hring (by decide) rfl
  exact ⟨s', hexec, hfree⟩

/-- Slot 0 is taken, a fault waits, and the next record is numbered 65,535. -/
def waitingSpace : Space := { ring := [(0, some (tableReadRec 65534))], waiting := [deniedWrite], nextSeq := 65535 }

/-- The fault takes slot 1, and the numbers begin again. -/
theorem exec_faultRecordDeferred_waitingSpace : ∃ s',
    exec (.faultRecordDeferred 0) (State.reset.setSpace 0 waitingSpace) = .next s' ∧
    sget none (s'.space 0).ring 1 = some { deniedWrite with seqNo := 65535, written := 0 } ∧ (s'.space 0).nextSeq = 0 := by
  have hspace : (State.reset.setSpace 0 waitingSpace).space 0 = waitingSpace := State.space_setSpace_same ..
  obtain ⟨s', hexec, hring, -, hseq⟩ := exec_faultRecordDeferred_writes (space := 0) (i := 1)
    (congrArg Space.waiting hspace) (by decide) (by rw [hspace]; rfl) (by rw [hspace]; decide)
  rw [hspace] at hring hseq
  exact ⟨s', hexec, hring, hseq⟩

end Sys2Proof.Machine
end

section
/-!
PROOFS. TDISP (spec/09 R262, R263): what a VF, a stream and a port read after a TDI has taken another state, what an idle
VD's exit from RUN leaves alone, and the completion of a running command at one (R273, R278).
-/
namespace Sys2Proof.Machine

/-! ### VFs and ports -/

theorem State.vf_setVf (s : State) (p n q m : Nat) (x : Vf) :
    (s.setVf p n x).vf q m = if q = p ∧ m = n then x else s.vf q m := by
  rw [State.vf, State.setVf, State.port_setPort]
  by_cases hq : q = p
  · subst hq
    rw [if_pos rfl, sget_sput]
    simp [State.vf]
  · rw [if_neg hq, if_neg (by simp [hq]), State.vf]

@[simp] theorem State.vf_setVf_same (s : State) (p n : Nat) (x : Vf) : (s.setVf p n x).vf p n = x := by
  rw [State.vf_setVf, if_pos ⟨rfl, rfl⟩]

theorem State.vf_setVf_ne (s : State) {p n q m : Nat} (x : Vf) (h : q ≠ p ∨ m ≠ n) :
    (s.setVf p n x).vf q m = s.vf q m := by
  rw [State.vf_setVf, if_neg (by omega)]

theorem State.port_setPort_ne (s : State) {p q : Nat} (x : HostPort) (h : q ≠ p) : (s.setPort p x).port q = s.port q := by
  rw [State.port_setPort, if_neg h]

/-- A VF's configuration is all of its port that a write of the VF changes. -/
theorem State.port_setVf (s : State) (p n q : Nat) (x : Vf) :
    (s.setVf p n x).port q = { s.port q with vfs := ((s.setVf p n x).port q).vfs } := by
  rw [State.setVf, State.port_setPort]
  split
  next h => rw [h]
  next => rfl

theorem State.port_setVf_ne (s : State) {p q : Nat} (n : Nat) (x : Vf) (h : q ≠ p) :
    (s.setVf p n x).port q = s.port q := State.port_setPort_ne s _ h

theorem State.port_of_ports {s t : State} (h : t.host.ports = s.host.ports) (p : Nat) : t.port p = s.port p := by
  rw [State.port, State.port, h]

theorem State.vf_of_ports {s t : State} (h : t.host.ports = s.host.ports) (p n : Nat) : t.vf p n = s.vf p n := by
  rw [State.vf, State.vf, State.port_of_ports h]

@[simp] theorem State.vd_setVf (s : State) (p n v : Nat) (x : Vf) : (s.setVf p n x).vd v = s.vd v := rfl
@[simp] theorem State.que_doeReply (s : State) (l : List Word) : (s.doeReply l).que = s.que := rfl
@[simp] theorem State.vf_doeReply (s : State) (l : List Word) (p n : Nat) : (s.doeReply l).vf p n = s.vf p n := rfl
@[simp] theorem State.port_doeReply (s : State) (l : List Word) (p : Nat) : (s.doeReply l).port p = s.port p := rfl

/-! ### An exit from RUN of an idle VD -/

/-- `t` differs from `s` in the host interface and the VDs only. -/
def State.OnlyPorts (s t : State) : Prop := t = { s with host := t.host, vds := t.vds }

theorem State.OnlyPorts.que {s t : State} (h : s.OnlyPorts t) : t.que = s.que := by
  rw [State.OnlyPorts] at h
  rw [h]

theorem State.OnlyPorts.toll {s t : State} (h : s.OnlyPorts t) : t.toll = s.toll := by
  rw [State.OnlyPorts] at h
  rw [h]

theorem State.OnlyPorts.trans {s t u : State} (h : s.OnlyPorts t) (h' : t.OnlyPorts u) : s.OnlyPorts u := by
  rw [State.OnlyPorts] at h h' ⊢
  rw [h', h]

theorem State.onlyPorts_refl (s : State) : s.OnlyPorts s := rfl

/-- Nothing of any VD is outstanding: no context and no command. -/
def State.Idle (s : State) : Prop := s.que.ctxs = [] ∧ s.que.cmds = []

theorem State.leaveRun_idle {s : State} (h : s.Idle) (v : Nat) : s.leaveRun v = s := by
  obtain ⟨hctxs, hcmds⟩ := h
  simp only [State.leaveRun, hctxs, hcmds, List.filter_nil, List.map_nil, List.foldl_nil]

theorem State.vd_closeSession_same (s : State) (v : Nat) :
    (s.closeSession v).vd v = { s.vd v with sec := { (s.vd v).sec with session := none } } := State.vd_setVd_same ..

theorem State.vd_closeSession_ne (s : State) {v u : Nat} (h : u ≠ v) : (s.closeSession v).vd u = s.vd u := by
  rw [State.closeSession, State.vd_setVd, if_neg h]

/-- The VD's session is closed where its TDI leaves the states a session lives in (R388). -/
def State.setTdiClosed (s : State) (p n : Nat) (t : Tdi) : State :=
  if (s.vf p n).vd ≠ 0 ∧ (t = .configUnlocked ∨ t = .error) then
    (s.setVf p n { s.vf p n with tdi := t }).closeSession (s.vf p n).vd
  else s.setVf p n { s.vf p n with tdi := t }

theorem State.setTdi_eq (s : State) (p n : Nat) (t : Tdi) : s.setTdi p n t =
    if (s.vf p n).tdi = .run ∧ t ≠ .run then (s.setTdiClosed p n t).leaveRun (s.vf p n).vd else s.setTdiClosed p n t := rfl

theorem State.host_setTdiClosed (s : State) (p n : Nat) (t : Tdi) :
    (s.setTdiClosed p n t).host = (s.setVf p n { s.vf p n with tdi := t }).host := by
  unfold State.setTdiClosed
  split <;> rfl

theorem State.onlyPorts_setTdiClosed (s : State) (p n : Nat) (t : Tdi) : s.OnlyPorts (s.setTdiClosed p n t) := by
  unfold State.setTdiClosed
  split <;> rfl

theorem State.vf_setTdiClosed_same (s : State) (p n : Nat) (t : Tdi) :
    (s.setTdiClosed p n t).vf p n = { s.vf p n with tdi := t } := by
  rw [State.vf_of_ports (congrArg HostIf.ports (s.host_setTdiClosed p n t)), State.vf_setVf_same]

@[simp] theorem State.pair_setTdiClosed (s : State) (p n : Nat) (t : Tdi) (q : Nat) :
    (s.setTdiClosed p n t).pair q = s.pair q := by
  rw [State.pair, (s.onlyPorts_setTdiClosed p n t).que, State.pair]

theorem State.setTdiClosed_close {s : State} {p n : Nat} (h : (s.vf p n).vd ≠ 0) {t : Tdi}
    (ht : t = .configUnlocked ∨ t = .error) : s.setTdiClosed p n t =
      (s.setVf p n { s.vf p n with tdi := t }).closeSession (s.vf p n).vd := if_pos ⟨h, ht⟩

/-- Locking and starting close no session and end no command. -/
theorem State.setTdi_open {s : State} {p n : Nat} {t : Tdi}
    (h : t = .run ∨ (t = .configLocked ∧ (s.vf p n).tdi ≠ .run)) :
    s.setTdi p n t = s.setVf p n { s.vf p n with tdi := t } := by
  have hclosed : s.setTdiClosed p n t = s.setVf p n { s.vf p n with tdi := t } :=
    if_neg (by rcases h with rfl | ⟨rfl, -⟩ <;> simp)
  rw [State.setTdi_eq, if_neg (by rcases h with rfl | ⟨-, h⟩ <;> simp_all), hclosed]

section
variable {s : State} {p n : Nat} (h : (s.vf p n).tdi = .run → s.Idle) (t : Tdi)
include h

/-- A TDI that does not run, or whose VD has nothing outstanding, takes another state and ends nothing. -/
theorem State.setTdi_idle : s.setTdi p n t = s.setTdiClosed p n t := by
  rw [State.setTdi_eq]
  split
  next hrun =>
    refine State.leaveRun_idle ?_ _
    rw [State.Idle, (s.onlyPorts_setTdiClosed p n t).que]
    exact h hrun.1
  next => rfl

theorem State.onlyPorts_setTdi : s.OnlyPorts (s.setTdi p n t) := by
  rw [State.setTdi_idle h]
  exact s.onlyPorts_setTdiClosed p n t

theorem State.host_setTdi : (s.setTdi p n t).host = (s.setVf p n { s.vf p n with tdi := t }).host := by
  rw [State.setTdi_idle h, State.host_setTdiClosed]

end

/-! ### LOCK_INTERFACE, START_INTERFACE and the report -/

theorem State.lockable_iff (s : State) (p n : Nat) : s.lockable p n = true ↔
    s.vfEnabled p n = true ∧ (s.vf p n).tdi = .configUnlocked ∧ (s.vf p n).vd ≠ 0 ∧ s.secureStream p n = true ∧
      (s.vf p n).bar0 ≠ 0 ∧ (s.vf p n).bar2 ≠ 0 ∧ (s.vf p n).mse = true := by
  simp [State.lockable, and_assoc]

/-- A VF locked, with the addresses and SR-IOV settings recorded. -/
def Vf.locked (x : Vf) (numVfs : Nat) : Vf :=
  { x with tdi := .configLocked, recBar0 := x.bar0, recBar2 := x.bar2, recNumVfs := numVfs }

theorem exec_lockInterface_locks {p n : Nat} {s : State} (h : s.lockable p n = true) :
    ∃ s', exec (.lockInterface p n) s = .next s' ∧ s'.host.doe = [tdispLock] ∧
      s'.vf p n = (s.vf p n).locked (s.port p).numVfs ∧ s'.que = s.que ∧ s'.vds = s.vds ∧
      (s'.port p).streams = (s.port p).streams ∧ ∀ m, m ≠ n → s'.vf p m = s.vf p m := by
  obtain ⟨t, ht⟩ : ∃ t, t = s.setVf p n
    { s.vf p n with recBar0 := (s.vf p n).bar0, recBar2 := (s.vf p n).bar2, recNumVfs := (s.port p).numVfs } := ⟨_, rfl⟩
  have hvf : t.vf p n = { s.vf p n with
      recBar0 := (s.vf p n).bar0, recBar2 := (s.vf p n).bar2, recNumVfs := (s.port p).numVfs } := by
    rw [ht, State.vf_setVf_same]
  have hopen : t.setTdi p n .configLocked = t.setVf p n { t.vf p n with tdi := .configLocked } := by
    refine State.setTdi_open (.inr ⟨rfl, ?_⟩)
    rw [hvf]
    simp [((s.lockable_iff p n).1 h).2.1]
  refine ⟨(t.setTdi p n .configLocked).doeReply [tdispLock], ?_, rfl, ?_, ?_, ?_, ?_, fun m hm => ?_⟩
  · change execLockInterface p n s = _
    rw [execLockInterface, if_pos h, ht]
  · rw [State.vf_doeReply, hopen, State.vf_setVf_same, hvf]
    rfl
  · rw [hopen, ht]
    rfl
  · rw [hopen, ht]
    rfl
  · rw [State.port_doeReply, hopen, State.port_setVf, ht, State.port_setVf]
  · rw [State.vf_doeReply, hopen, State.vf_setVf_ne _ _ (.inr hm), ht, State.vf_setVf_ne _ _ (.inr hm)]

theorem exec_lockInterface_refused {p n : Nat} {s : State} (h : s.lockable p n = false) :
    exec (.lockInterface p n) s = .next (s.doeReply [tdispError]) := by
  change execLockInterface p n s = _
  rw [execLockInterface, if_neg (by simp [h])]

/-- What holds of the default and of every value listed holds of the value at any key. -/
theorem sget_forall {α : Type} {d : α} {m : SMap α} {P : α → Prop} (hd : P d) (h : ∀ e ∈ m, P e.2) (k : Nat) :
    P (sget d m k) := by
  induction m with
  | nil => exact hd
  | cons e m ih =>
    obtain ⟨he, hm⟩ := List.forall_mem_cons.1 h
    rw [sget_cons]
    split
    · exact he
    · split
      · exact hd
      · exact ih hm

/-- A queue without a filled slot gives the engine nothing to take (R272). -/
theorem State.serve_empty {s : State} {q : Nat} (h : (s.pair q).head = (s.pair q).tail) : s.serve q = s := by
  have htake : s.canTake q = false := by simp [State.canTake, h]
  rw [State.serve, State.takeSlots, htake]
  exact ite_self s

theorem State.foldl_serve_empty {s : State} (h : ∀ q, (s.pair q).head = (s.pair q).tail) {α : Type} (f : α → Nat)
    (l : List α) : l.foldl (fun s x => s.serve (f x)) s = s := by
  induction l with
  | nil => rfl
  | cons x l ih => rw [List.foldl_cons, State.serve_empty (h _), ih]

theorem State.pair_empty {s : State} (h : ∀ e ∈ s.que.pairs, e.2.head = e.2.tail) (q : Nat) :
    (s.pair q).head = (s.pair q).tail := sget_forall (P := fun p : QueuePair => p.head = p.tail) rfl h q

theorem exec_startInterface_starts {p n : Nat} {s : State} (hvf : s.vfEnabled p n = true)
    (hlock : (s.vf p n).tdi = .configLocked) (hempty : ∀ e ∈ s.que.pairs, e.2.head = e.2.tail) :
    exec (.startInterface p n) s =
      .next ((s.setVf p n { s.vf p n with tdi := .run }).doeReply [tdispStart]) := by
  change execStartInterface p n s = _
  rw [execStartInterface, if_pos ⟨hvf, hlock⟩, State.setTdi_open (.inl rfl)]
  exact congrArg _ (State.foldl_serve_empty (s := (s.setVf p n { s.vf p n with tdi := .run }).doeReply [tdispStart])
    (State.pair_empty hempty) Prod.fst _)

theorem exec_startInterface_refused {p n : Nat} {s : State}
    (h : s.vfEnabled p n = false ∨ (s.vf p n).tdi ≠ .configLocked) :
    exec (.startInterface p n) s = .next (s.doeReply [tdispError]) := by
  change execStartInterface p n s = _
  rw [execStartInterface, if_neg]
  rintro ⟨hvf, hlock⟩
  exact h.elim (by simp [hvf]) fun h => h hlock

theorem exec_getDeviceInterfaceReport {p n : Nat} {s : State} (hvf : s.vfEnabled p n = true)
    (h : (s.vf p n).tdi = .configLocked ∨ (s.vf p n).tdi = .run) : exec (.getDeviceInterfaceReport p n) s =
      .next (s.doeReply ([tdispReport, 2#32] ++ addrWords (s.vf p n).recBar0 ++ [512#32, 0#32] ++
        addrWords (s.vf p n).recBar2 ++ [256#32, 0x20000#32])) := by
  change execGetDeviceInterfaceReport p n s = _
  rw [execGetDeviceInterfaceReport]
  exact congrArg _ (if_pos ⟨hvf, h⟩)

/-! ### STOP_INTERFACE -/

theorem exec_stopInterface {p n : Nat} {s : State} (h : s.vfEnabled p n = true) :
    exec (.stopInterface p n) s = .next ((s.setTdi p n .configUnlocked).doeReply [tdispStop]) := by
  change execStopInterface p n s = _
  rw [execStopInterface, if_pos h]

/-- What a stop without outstanding work leaves: the TDI unlocked, its VD's session closed. -/
theorem State.vd_setTdi_unlocked {s : State} {p n : Nat} (h : (s.vf p n).tdi = .run → s.Idle) :
    ((s.vf p n).vd ≠ 0 → ((s.setTdi p n .configUnlocked).vd (s.vf p n).vd).sec.session = none) ∧
      ∀ v, v ≠ (s.vf p n).vd → (s.setTdi p n .configUnlocked).vd v = s.vd v := by
  rw [State.setTdi_idle h]
  refine ⟨fun hvd => ?_, fun v hv => ?_⟩
  · rw [State.setTdiClosed_close hvd (.inl rfl), State.vd_closeSession_same]
  · unfold State.setTdiClosed
    split
    · rw [State.vd_closeSession_ne _ hv, State.vd_setVf]
    · rfl

/-! ### Completion records (R273, R278) -/

/-- `t` differs from `s` in the host interface and the queue pairs only, and no slot was taken or rung in. -/
structure State.Posted (s t : State) : Prop where
  frame : t = { s with host := t.host, que := { s.que with pairs := t.que.pairs } }
  head : ∀ q, (t.pair q).head = (s.pair q).head
  tail : ∀ q, (t.pair q).tail = (s.pair q).tail

theorem State.Posted.que {s t : State} (h : s.Posted t) : t.que = { s.que with pairs := t.que.pairs } :=
  congrArg State.que h.frame

theorem State.posted_refl (s : State) : s.Posted s := ⟨rfl, fun _ => rfl, fun _ => rfl⟩

theorem State.Posted.trans {s t u : State} (h : s.Posted t) (h' : t.Posted u) : s.Posted u where
  frame := by
    rw [h'.frame]
    conv_lhs => rw [h.frame]
  head q := (h'.head q).trans (h.head q)
  tail q := (h'.tail q).trans (h.tail q)

theorem State.posted_setPair {s : State} {q : Nat} {x : QueuePair} (hh : x.head = (s.pair q).head)
    (ht : x.tail = (s.pair q).tail) : s.Posted (s.setPair q x) where
  frame := rfl
  head r := by
    rw [State.pair_setPair]
    split
    next hr => rw [hr, hh]
    next => rfl
  tail r := by
    rw [State.pair_setPair]
    split
    next hr => rw [hr, ht]
    next => rfl

theorem State.posted_raise (s : State) (f v : Nat) : s.Posted (s.raise f v) where
  frame := by rw [s.interrupted_raise f v]
  head q := by rw [State.pair, State.que_raise, State.pair]
  tail q := by rw [State.pair, State.que_raise, State.pair]

/-- A queue pair after the oldest of its held records was written, `rest` still held. -/
def QueuePair.wrote (p : QueuePair) (rest : List (BitVec 1024 × Bool)) : QueuePair :=
  { p with held := rest, cqtail := (p.cqtail + 1) % ringSlots p.cqsz,
           phase := if (p.cqtail + 1) % ringSlots p.cqsz = 0 then !p.phase else p.phase }

/-- A record with the phase bit of the ring's present turn. -/
def QueuePair.phased (p : QueuePair) (r : BitVec 1024) : BitVec 1024 := r ||| BitVec.ofNat 1024 (b2n p.phase * 2 ^ 24)

/-- Host memory with a record in the next slot of the ring. -/
def State.memWith (s : State) (p : QueuePair) (r : BitVec 1024) : Mem :=
  writeLE s.host.mem (p.cqbase + 128 * p.cqtail) 128 (p.phased r).toNat

/-- A record goes to the next slot of its ring. -/
def State.writeRecord (s : State) (q : Nat) (r : BitVec 1024) (rest : List (BitVec 1024 × Bool)) : State :=
  ({ s with host := { s.host with mem := s.memWith (s.pair q) r } } : State).setPair q ((s.pair q).wrote rest)

theorem State.writeHeld_cons {s : State} {q : Nat} {r : BitVec 1024} {noirq : Bool} {rest : List (BitVec 1024 × Bool)}
    (h : (s.pair q).held = (r, noirq) :: rest) : s.writeHeld q =
      if (s.pair q).st ≠ .active ∨ ((s.pair q).cqtail + 1) % ringSlots (s.pair q).cqsz = (s.pair q).cqhead then s
      else if s.qLive q = false then s.setPair q { s.pair q with st := .stopped, err := 2, held := [] }
      else if noirq || !(s.writeRecord q r rest).qRun q then s.writeRecord q r rest
      else (s.writeRecord q r rest).raise ((s.writeRecord q r rest).qFn q) (s.pair q).vec := by
  simp only [State.writeHeld, h, Bool.not_eq_true']
  rfl

theorem State.writeHeld_nil {s : State} {q : Nat} (h : (s.pair q).held = []) : s.writeHeld q = s := by
  simp only [State.writeHeld, h]

theorem State.posted_mem (s : State) (m : Mem) : s.Posted { s with host := { s.host with mem := m } } :=
  ⟨rfl, fun _ => rfl, fun _ => rfl⟩

theorem State.posted_writeRecord (s : State) (q : Nat) (r : BitVec 1024) (rest : List (BitVec 1024 × Bool)) :
    s.Posted (s.writeRecord q r rest) := by
  rw [State.writeRecord]
  generalize s.memWith (s.pair q) r = m
  exact (s.posted_mem m).trans (State.posted_setPair rfl rfl)

theorem State.posted_writeHeld (s : State) (q : Nat) : s.Posted (s.writeHeld q) := by
  cases h : (s.pair q).held with
  | nil =>
    rw [State.writeHeld_nil h]
    exact s.posted_refl
  | cons e rest =>
    rw [State.writeHeld_cons h]
    split_ifs
    · exact s.posted_refl
    · exact State.posted_setPair rfl rfl
    · exact s.posted_writeRecord ..
    · exact (s.posted_writeRecord ..).trans (State.posted_raise ..)

theorem State.posted_writeHeldN (q n : Nat) (s : State) : s.Posted (s.writeHeldN q n) := by
  induction n generalizing s with
  | zero => exact s.posted_refl
  | succ n ih =>
    rw [State.writeHeldN]
    split
    · exact (s.posted_writeHeld q).trans (ih _)
    · exact s.posted_writeHeld q

theorem State.posted_postRecord (s : State) (c : Cmd) : s.Posted (s.postRecord c) := by
  obtain ⟨x, hx⟩ : ∃ x : QueuePair, x =
    { s.pair c.q with held := (s.pair c.q).held ++ [(s.cqRecord c, c.noirq || !s.qRun c.q)] } := ⟨_, rfl⟩
  have hset : s.Posted (s.setPair c.q x) := State.posted_setPair (by rw [hx]) (by rw [hx])
  rw [State.postRecord, ← hx]
  exact hset.trans (State.posted_writeHeldN ..)

theorem State.writeHeldN_one (s : State) (q : Nat) : s.writeHeldN q 1 = s.writeHeld q := ite_self _

/-- A queue that writes a record at once: active, none held, a slot of its ring free, its function's link up and secure. -/
structure State.HasRoom (s : State) (q : Nat) : Prop where
  st : (s.pair q).st = .active
  held : (s.pair q).held = []
  room : ((s.pair q).cqtail + 1) % ringSlots (s.pair q).cqsz ≠ (s.pair q).cqhead
  live : s.qLive q = true

/-- The record of a command whose VD is not in RUN goes straight to a ring that has room, and raises nothing. -/
theorem State.HasRoom.host_postRecord {s : State} {c : Cmd} (h : s.HasRoom c.q) (hrun : s.qRun c.q = false) :
    (s.postRecord c).host = { s.host with mem := s.memWith (s.pair c.q) (s.cqRecord c) } := by
  obtain ⟨x, hx⟩ : ∃ x : QueuePair, x = { s.pair c.q with held := [(s.cqRecord c, true)] } := ⟨_, rfl⟩
  have hpair : (s.setPair c.q x).pair c.q = x := State.pair_setPair_same ..
  have hlive : (s.setPair c.q x).qLive c.q = true := by
    rw [← h.live, State.qLive, State.qLive, State.qFn, State.qFn, hpair, hx]
    rfl
  have hpost : s.postRecord c = (s.setPair c.q x).writeHeld c.q := by
    rw [State.postRecord, h.held, hrun, hx, Bool.not_false, Bool.or_true, ← State.writeHeldN_one]
    rfl
  rw [hpost, State.writeHeld_cons (by rw [hpair, hx]), hpair, hx, if_neg (not_or.2 ⟨not_not_intro h.st, h.room⟩), ← hx,
    if_neg (by simp [hlive]), Bool.true_or, if_pos rfl, State.writeRecord, hpair, hx]
  rfl

/-- A command of which nothing but its record is left to write: no signal, fill, reference or retained input. -/
structure Cmd.Plain (c : Cmd) : Prop where
  sig : c.sig = false
  fill : c.fill = none
  hots : c.hots = []
  refs : c.refs = []
  opc : c.opc ≠ 0x30

/-- The engine holds a command no more. -/
def State.forget (s : State) (seq : Nat) : State := { s with que := { s.que with cmds := sput {} seq {} s.que.cmds } }

section
variable {c : Cmd} (h : c.Plain) (s : State)
include h

theorem Cmd.Plain.headerSignal : s.headerSignal c = s := by rw [State.headerSignal, if_pos (.inl (by simp [h.sig]))]
theorem Cmd.Plain.dropFill : s.dropFill c = s := by simp only [State.dropFill, h.fill]
theorem Cmd.Plain.execLeaves : s.execLeaves c = s := by rw [State.execLeaves, if_pos h.opc]

end

theorem execCommandComplete_plain {seq : Nat} {s : State} (hcmd : s.hasCmd seq = true) (hready : (s.cmd seq).phase = .ready)
    (hgo : s.que.halted = false) (hc : (s.cmd seq).Plain) (hempty : ∀ q, (s.pair q).head = (s.pair q).tail) :
    execCommandComplete seq s =
      .next (((s.forget seq).journal (s.cmd seq) true).postRecord (s.cmd seq)) := by
  have hposted := ((s.forget seq).journal (s.cmd seq) true).posted_postRecord (s.cmd seq)
  rw [execCommandComplete]
  dsimp only
  rw [if_neg (by simp [hcmd, hready, hgo]), hc.headerSignal, hc.dropFill, hc.hots, hc.refs, List.foldl_nil, List.foldl_nil,
    hc.execLeaves]
  exact congrArg _ (State.foldl_serve_empty (fun q => (hposted.head q).trans ((hempty q).trans (hposted.tail q).symm)) id _)

/-! ### A command at an exit from RUN (R263) -/

/-- A command ended by an exit from RUN. -/
def Cmd.aborted (c : Cmd) : Cmd := { c with status := stAborted, detail := 0, ext := none, phase := .ready }

/-- The one command outstanding, a running one, ends with ABORTED where its VD leaves RUN. -/
theorem State.leaveRun_one {s : State} {seq : Nat} {c : Cmd} (hctxs : s.que.ctxs = []) (hcmds : s.que.cmds = [(seq, c)])
    (hrun : c.phase = .running) (hbind : c.opc ≠ 0x12) (hexec : c.opc ≠ 0x30) :
    s.leaveRun c.vd = s.abortNow seq 0 := by
  have hcmd : s.cmd seq = c := by rw [State.cmd, hcmds, sget_cons, if_pos rfl]
  simp [State.leaveRun, hctxs, hcmds, hcmd, hrun, hbind, State.onCores, hexec]

theorem State.abortNow_eq {s : State} {seq : Nat} (h : s.hasCmd seq = true) : s.abortNow seq 0 =
    let t := ({ s with fw := { s.fw with xfers := sput {} seq {} s.fw.xfers } } : State).setCmd seq (s.cmd seq).aborted
    after (execCommandComplete seq t) t := by
  have hcmd : ({ s with fw := { s.fw with xfers := sput {} seq {} s.fw.xfers } } : State).hasCmd seq = true := h
  rw [State.abortNow, State.abortCmd]
  dsimp only
  rw [State.modCmd_eq hcmd]
  rfl

/-- What a journal record says in clear of its command (R290). -/
theorem State.jrec_journal (s : State) (c : Cmd) (done : Bool) :
    ((s.journal c done).jrec (c.seq % journalSize)).seq = c.seq ∧
      ((s.journal c done).jrec (c.seq % journalSize)).done = done := by
  have hrec (i : Nat) (r : JRec) : (s.setJrec i r).jrec i = r := sget_sput_same ..
  rw [State.journal, hrec]
  exact ⟨rfl, rfl⟩

theorem State.hasCmd_forget (s : State) {seq : Nat} : (s.forget seq).hasCmd seq = false := by
  have hcmd : (s.forget seq).cmd seq = {} := sget_sput_same ..
  rw [State.hasCmd, hcmd]
  rcases eq_or_ne seq 0 with rfl | h
  · rfl
  · rw [decide_eq_false (Ne.symm h : ({} : Cmd).seq ≠ seq), Bool.and_false]

section
variable {s : State} {q p n : Nat} (hvd : (s.pair q).vd ≠ 0) (hvf : (s.vd (s.pair q).vd).vf = some (p, n))
include hvd hvf

theorem State.qLive_tenant : s.qLive q = ((s.port (fnPort (vfFn p n))).up && s.secureStream p n) := by
  simp only [State.qLive, State.qFn, hvd, hvf, if_false, decide_false, Bool.false_or]

theorem State.qRun_tenant : s.qRun q = decide ((s.vf p n).tdi = .run) := by
  simp only [State.qRun, hvd, hvf, decide_false, Bool.false_or]

end

/-- What a record with its phase bit reads as once it is written. -/
theorem readLE_memWith (s : State) (p : QueuePair) (r : BitVec 1024) :
    BitVec.ofNat 1024 (readLE (s.memWith p r) (p.cqbase + 128 * p.cqtail) 128) = p.phased r := by
  rw [State.memWith, readLE_writeLE_same, Nat.mod_eq_of_lt (p.phased r).isLt, BitVec.ofNat_toNat, BitVec.setWidth_eq]

/-- The completion of a command that an exit from RUN has ended: its record is in host memory and its journal record
done, the engine holds it no more, and nothing was raised. -/
theorem execCommandComplete_aborted {s : State} {seq : Nat} {c : Cmd} (hheld : s.hasCmd seq = true)
    (hcmd : s.cmd seq = c.aborted) (hgo : s.que.halted = false) (hc : c.Plain)
    (hempty : ∀ q, (s.pair q).head = (s.pair q).tail) (hroom : s.HasRoom c.q) (hrun : s.qRun c.q = false) :
    ∃ t, execCommandComplete seq s = .next t ∧ t.hasCmd seq = false ∧
      (t.jrec (seq % journalSize)).seq = seq ∧ (t.jrec (seq % journalSize)).done = true ∧
      t.host = { s.host with mem := s.memWith (s.pair c.q) (s.cqRecord c.aborted) } := by
  obtain ⟨u, hu⟩ : ∃ u, u = (s.forget seq).journal c.aborted true := ⟨_, rfl⟩
  have hposted := u.posted_postRecord c.aborted
  have hseq : c.aborted.seq = seq := by
    rw [← hcmd]
    exact State.seq_of_hasCmd hheld
  obtain ⟨hjseq, hjdone⟩ := (s.forget seq).jrec_journal c.aborted true
  rw [hseq, ← hu] at hjseq hjdone
  have hjrec : (u.postRecord c.aborted).jrec (seq % journalSize) = u.jrec (seq % journalSize) := by
    rw [State.jrec, hposted.que, State.jrec]
  refine ⟨u.postRecord c.aborted, ?_, ?_, ?_, ?_, ?_⟩
  · have hplain : (s.cmd seq).Plain := by
      rw [hcmd]
      exact ⟨hc.sig, hc.fill, hc.hots, hc.refs, hc.opc⟩
    rw [execCommandComplete_plain hheld (by rw [hcmd]; rfl) hgo hplain hempty, hcmd, hu]
  · rw [State.hasCmd_of_cmds (s := u) (by rw [hposted.que]), hu]
    exact s.hasCmd_forget
  · rw [hjrec, hjseq]
  · rw [hjrec, hjdone]
  · have hroom' : ((s.forget seq).journal c.aborted true).HasRoom c.aborted.q := ⟨hroom.st, hroom.held, hroom.room, hroom.live⟩
    rw [hu]
    exact hroom'.host_postRecord hrun

section
variable {s : State} {p n q : Nat} (hvd : (s.vf p n).vd ≠ 0) (hq : (s.pair q).vd = (s.vf p n).vd)
  (hvf : (s.vd (s.vf p n).vd).vf = some (p, n))
include hvd hq hvf

/-- The VD keeps its VF through an exit from RUN. -/
theorem State.attached_unlocked : ((s.setTdiClosed p n .configUnlocked).vd
    ((s.setTdiClosed p n .configUnlocked).pair q).vd).vf = some (p, n) := by
  rw [State.pair_setTdiClosed, hq, ← hvf, State.setTdiClosed_close hvd (.inl rfl), State.vd_closeSession_same,
    State.vd_setVf]

/-- An exit from RUN leaves the port and the stream that records go through. -/
theorem State.qLive_unlocked : (s.setTdiClosed p n .configUnlocked).qLive q = s.qLive q := by
  have hqvd : (s.pair q).vd ≠ 0 := by rwa [hq]
  have hports := congrArg HostIf.ports (s.host_setTdiClosed p n .configUnlocked)
  have hport (r : Nat) : ((s.setTdiClosed p n .configUnlocked).port r).up = (s.port r).up ∧
      ((s.setTdiClosed p n .configUnlocked).port r).streams = (s.port r).streams := by
    rw [State.port_of_ports hports, State.port_setVf]
    exact ⟨rfl, rfl⟩
  rw [State.qLive_tenant hqvd (by rwa [hq]),
    State.qLive_tenant (by rwa [State.pair_setTdiClosed]) (State.attached_unlocked hvd hq hvf), State.secureStream,
    State.secureStream, (hport _).1, (hport _).2]

theorem State.qRun_unlocked : (s.setTdiClosed p n .configUnlocked).qRun q = false := by
  rw [State.qRun_tenant (by rwa [State.pair_setTdiClosed, hq]) (State.attached_unlocked hvd hq hvf),
    State.vf_setTdiClosed_same]
  rfl

end

/-- VF n of port p is in RUN, and its VD has one command outstanding, which runs, on a queue that writes records at once;
no queue has a filled slot. -/
structure State.RunsOne (s : State) (p n seq : Nat) (c : Cmd) : Prop where
  tdi : (s.vf p n).tdi = .run
  vd : (s.vf p n).vd = c.vd
  attached : c.vd ≠ 0
  vf : (s.vd c.vd).vf = some (p, n)
  ctxs : s.que.ctxs = []
  cmds : s.que.cmds = [(seq, c)]
  held : seq ≠ 0 ∧ c.seq = seq
  phase : c.phase = .running
  notBind : c.opc ≠ 0x12
  plain : c.Plain
  going : s.que.halted = false
  empty : ∀ e ∈ s.que.pairs, e.2.head = e.2.tail
  pair : (s.pair c.q).vd = c.vd
  room : s.HasRoom c.q

/-- The state in which the command that an exit from RUN has ended is to complete. -/
def State.abortReady (s : State) (p n seq : Nat) (c : Cmd) : State :=
  let u := s.setTdiClosed p n .configUnlocked
  ({ u with fw := { u.fw with xfers := sput {} seq {} u.fw.xfers } } : State).setCmd seq c.aborted

@[simp] theorem State.pair_abortReady (s : State) (p n seq q : Nat) (c : Cmd) :
    (s.abortReady p n seq c).pair q = s.pair q := State.pair_setTdiClosed ..

theorem State.host_abortReady (s : State) (p n seq : Nat) (c : Cmd) : (s.abortReady p n seq c).host =
    (s.setVf p n { s.vf p n with tdi := .configUnlocked }).host := State.host_setTdiClosed ..

theorem State.toll_abortReady (s : State) (p n seq : Nat) (c : Cmd) : (s.abortReady p n seq c).toll = s.toll :=
  (s.onlyPorts_setTdiClosed p n .configUnlocked).toll

theorem State.memWith_abortReady (s : State) (p n seq : Nat) (c d : Cmd) (x : QueuePair) :
    (s.abortReady p n seq c).memWith x ((s.abortReady p n seq c).cqRecord d) = s.memWith x (s.cqRecord d) := by
  rw [State.memWith, State.memWith, State.host_abortReady, State.setVf_host_mem, State.cqRecord, State.cqRecord,
    State.toll_abortReady, State.pair_abortReady]

section
variable {s : State} {p n seq : Nat} {c : Cmd} (h : s.RunsOne p n seq c)
include h

theorem State.RunsOne.setTdi_unlocked : s.setTdi p n .configUnlocked =
    after (execCommandComplete seq (s.abortReady p n seq c)) (s.abortReady p n seq c) := by
  have hque := (s.onlyPorts_setTdiClosed p n .configUnlocked).que
  have hcmd : (s.setTdiClosed p n .configUnlocked).cmd seq = c := by
    rw [State.cmd, hque, h.cmds, sget_cons, if_pos rfl]
  have hheld : (s.setTdiClosed p n .configUnlocked).hasCmd seq = true := by simp [State.hasCmd, hcmd, h.held]
  rw [State.setTdi_eq, if_pos ⟨h.tdi, by decide⟩, h.vd, State.leaveRun_one (hque ▸ h.ctxs) (hque ▸ h.cmds) h.phase
    h.notBind h.plain.opc, State.abortNow_eq hheld, hcmd]
  rfl

/-- STOP_INTERFACE of a VF whose VD runs one command: the command ends with ABORTED (R263). -/
theorem State.RunsOne.exec_stopInterface (hvf : s.vfEnabled p n = true) :
    ∃ s', exec (.stopInterface p n) s = .next s' ∧ (s'.vf p n).tdi = .configUnlocked ∧ s'.hasCmd seq = false ∧
      (s'.jrec (seq % journalSize)).seq = seq ∧ (s'.jrec (seq % journalSize)).done = true ∧
      s'.host.mem = s.memWith (s.pair c.q) (s.cqRecord c.aborted) ∧
      s'.host.sent = s.host.sent ∧ s'.host.pba = s.host.pba := by
  have hvd0 : (s.vf p n).vd ≠ 0 := h.vd ▸ h.attached
  have hqvd : (s.pair c.q).vd = (s.vf p n).vd := h.pair.trans h.vd.symm
  have hattached : (s.vd (s.vf p n).vd).vf = some (p, n) := h.vd ▸ h.vf
  have hpair (q : Nat) := s.pair_abortReady p n seq q c
  have hcmd : (s.abortReady p n seq c).cmd seq = c.aborted := State.cmd_setCmd_same ..
  have hroom : (s.abortReady p n seq c).HasRoom c.q :=
    ⟨by rw [hpair, h.room.st], by rw [hpair, h.room.held], by rw [hpair]; exact h.room.room,
      (State.qLive_unlocked hvd0 hqvd hattached).trans h.room.live⟩
  obtain ⟨t, ht, hgone, hjseq, hjdone, hhost⟩ := execCommandComplete_aborted
    (by simp [State.hasCmd, hcmd, Cmd.aborted, h.held]) hcmd
    ((congrArg Que.halted (s.onlyPorts_setTdiClosed p n .configUnlocked).que).trans h.going) h.plain
    (fun q => by rw [hpair]; exact State.pair_empty h.empty q) hroom (State.qRun_unlocked hvd0 hqvd hattached)
  rw [hpair, State.memWith_abortReady, State.host_abortReady] at hhost
  have hports : t.host.ports = (s.setVf p n { s.vf p n with tdi := .configUnlocked }).host.ports := by rw [hhost]
  refine ⟨t.doeReply [tdispStop], ?_, ?_, hgone, hjseq, hjdone, ?_, ?_, ?_⟩
  · rw [Machine.exec_stopInterface hvf, h.setTdi_unlocked, ht]
    rfl
  · rw [State.vf_doeReply, State.vf_of_ports hports, State.vf_setVf_same]
  · change t.host.mem = _
    rw [hhost]
  · change t.host.sent = _
    rw [hhost, State.setVf_host_sent]
  · change t.host.pba = _
    rw [hhost, State.setVf_host_pba]

end

/-- Settles O44: locking and starting by their equations, a stop of an idle VD and one of a VD that runs a command. -/
theorem interfacesLockStartAndStop : Obligations.InterfacesLockStartAndStop := by
  unfold Obligations.InterfacesLockStartAndStop
  refine ⟨?lock, fun p n s h => exec_lockInterface_refused h, ?start, fun p n s h => exec_startInterface_refused h, ?stop,
    ?abort, ?report⟩
  case lock =>
    intro p n s hvf htdi hvd hsecure hbar0 hbar2 hmse
    exact exec_lockInterface_locks ((s.lockable_iff p n).2 ⟨hvf, htdi, hvd, hsecure, hbar0, hbar2, hmse⟩)
  case start =>
    intro p n s hvf htdi hempty
    exact ⟨_, exec_startInterface_starts hvf htdi hempty, rfl, State.vf_setVf_same .., rfl, rfl⟩
  case stop =>
    intro p n s hvf hidle
    obtain ⟨hclosed, hothers⟩ := State.vd_setTdi_unlocked hidle
    refine ⟨_, exec_stopInterface hvf, rfl, ?_, ?_, hclosed, hothers⟩
    · rw [State.vf_doeReply, State.vf_of_ports (congrArg HostIf.ports (State.host_setTdi hidle _)), State.vf_setVf_same]
    · rw [State.que_doeReply, (State.onlyPorts_setTdi hidle _).que]
  case abort =>
    intro p n seq c s hvf htdi hvd hctxs hcmds hseq0 hseq hvd0 hphase hbind hexec hsig hrefs hhots hfill hgo hempty hattached
      q hqvd hst hheld hroom hlive
    have hone : s.RunsOne p n seq c := ⟨htdi, hvd, hvd0, hattached, hctxs, hcmds, ⟨hseq0, hseq⟩, hphase, hbind,
      ⟨hsig, hfill, hhots, hrefs, hexec⟩, hgo, hempty, hqvd, ⟨hst, hheld, hroom, hlive⟩⟩
    obtain ⟨s', hexec', htdi', hgone, hjseq, hjdone, hmem, hsent, hpba⟩ := hone.exec_stopInterface hvf
    refine ⟨s', hexec', htdi', hgone, hjseq, hjdone, ?_, hsent, hpba⟩
    rw [hmem]
    exact readLE_memWith s q (s.cqRecord c.aborted)
  case report =>
    intro p n s hvf htdi
    exact ⟨_, exec_getDeviceInterfaceReport hvf htdi, rfl, rfl⟩

end Sys2Proof.Machine
end

section
/-!
PROOFS. IDE streams, links and functions (spec/09 R249, R252, R261, R263, R269): the streams of a port, what an Insecure
stream and a lost link do to the TDIs bound to them, function-level resets and configuration writes.
-/
namespace Sys2Proof.Machine

/-! ### Streams (R261) -/

theorem State.stream_setStream (s : State) (p i q j : Nat) (x : IdeStream) :
    (s.setStream p i x).stream q j = if q = p ∧ j = i then x else s.stream q j := by
  rw [State.stream, State.setStream, State.port_setPort]
  by_cases hq : q = p
  · subst hq
    rw [if_pos rfl, sget_sput]
    simp [State.stream]
  · rw [if_neg hq, if_neg (by simp [hq]), State.stream]

@[simp] theorem State.stream_setStream_same (s : State) (p i : Nat) (x : IdeStream) :
    (s.setStream p i x).stream p i = x := by rw [State.stream_setStream, if_pos ⟨rfl, rfl⟩]

theorem State.stream_setStream_ne (s : State) {p i q j : Nat} (x : IdeStream) (h : q ≠ p ∨ j ≠ i) :
    (s.setStream p i x).stream q j = s.stream q j := by rw [State.stream_setStream, if_neg (by omega)]

theorem State.stream_of_streams {s t : State} {p q : Nat} (h : (t.port q).streams = (s.port p).streams) (i : Nat) :
    t.stream q i = s.stream p i := by rw [State.stream, State.stream, h]

theorem State.vf_of_vfs {s t : State} {p q : Nat} (h : (t.port q).vfs = (s.port p).vfs) (n : Nat) :
    t.vf q n = s.vf p n := by rw [State.vf, State.vf, h]

theorem State.port_setStream (s : State) (p i q : Nat) (x : IdeStream) :
    (s.setStream p i x).port q = { s.port q with streams := ((s.setStream p i x).port q).streams } := by
  rw [State.setStream, State.port_setPort]
  split
  next h => rw [h]
  next => rfl

@[simp] theorem State.vf_setStream (s : State) (p i q n : Nat) (x : IdeStream) :
    (s.setStream p i x).vf q n = s.vf q n := State.vf_of_vfs (by rw [State.port_setStream]) n

@[simp] theorem State.que_setStream (s : State) (p i : Nat) (x : IdeStream) : (s.setStream p i x).que = s.que := rfl
theorem State.onlyPorts_setStream (s : State) (p i : Nat) (x : IdeStream) : s.OnlyPorts (s.setStream p i x) := rfl
@[simp] theorem State.stream_doeReply (s : State) (l : List Word) (p i : Nat) :
    (s.doeReply l).stream p i = s.stream p i := rfl

/-! ### KEY_PROG and K_SET_GO -/

/-- A stream with one key of one key set programmed. -/
def IdeStream.program (x : IdeStream) (k vf : Nat) (key : BitVec 256) : IdeStream :=
  { x with vf := if x.secure then x.vf else vf, keys := sput 0#256 k key x.keys, progd := x.progd ||| (1#6 <<< k) }

/-- Programming marks its own slot of the six and no other. -/
theorem IdeStream.progd_program (x : IdeStream) {k : Nat} (hk : k < 6) (vf j : Nat) (key : BitVec 256) :
    (x.program k vf key).progd.getLsbD j = (x.progd.getLsbD j || decide (j = k)) := by
  rw [IdeStream.program, BitVec.getLsbD_or, BitVec.getLsbD_shiftLeft, BitVec.getLsbD_one]
  congr 1
  rw [Bool.eq_iff_iff]
  simp
  omega

theorem exec_keyProg {p i ks sub : Nat} {s : State} (hok : s.streamOk p i = true) (hks : ks ≤ 1) (hsub : sub ≤ 2)
    (vf : Nat) (key : BitVec 256) : exec (.keyProg p i ks sub vf key) s =
      .next ((s.setStream p i ((s.stream p i).program (3 * ks + sub) vf key)).doeReply [kpAck, 0#32]) := by
  change execKeyProg p i ks sub vf key s = _
  rw [execKeyProg, if_neg (by simp [hok]; omega)]
  rfl

/-- The three slots of a key set are programmed. -/
theorem progd_keySet {b : BitVec 6} {ks : Nat} (h : ∀ sub < 3, b.getLsbD (3 * ks + sub) = true) :
    (b >>> (3 * ks)) &&& 7#6 = 7#6 := by
  have hseven : ∀ i < 6, (7#6).getLsbD i = decide (i < 3) := by decide
  refine BitVec.eq_of_getLsbD_eq fun i hi => ?_
  rw [BitVec.getLsbD_and, BitVec.getLsbD_ushiftRight, hseven i hi]
  by_cases hlow : i < 3
  · rw [h i hlow, Bool.true_and]
  · rw [decide_eq_false hlow, Bool.and_false]

theorem exec_kSetGo {p i ks : Nat} {s : State} (hp : p < 2) (hks : ks ≤ 1)
    (h : ∀ sub < 3, (s.stream p i).progd.getLsbD (3 * ks + sub) = true) : exec (.kSetGo p i ks) s =
      .next ((s.setStream p i { s.stream p i with secure := true, active := some ks }).doeReply [kGoStopAck]) := by
  change execKSetGo p i ks s = _
  rw [execKSetGo]
  exact congrArg _ (if_pos ⟨hp, hks, progd_keySet h⟩)

/-! ### A TDI whose stream or addresses it can no longer trust (R263) -/

/-- The state a TDI takes then: ERROR from CONFIG_LOCKED and RUN. -/
def Tdi.distrust (t : Tdi) : Tdi := if t = .configLocked ∨ t = .run then .error else t

theorem Tdi.distrust_distrust (t : Tdi) : t.distrust.distrust = t.distrust := by cases t <;> rfl
theorem Tdi.distrust_eq {t : Tdi} (h : t = .configLocked ∨ t = .run) : t.distrust = .error := if_pos h

theorem State.tdiError_open {s : State} {p n : Nat} (h : ¬((s.vf p n).tdi = .configLocked ∨ (s.vf p n).tdi = .run)) :
    s.tdiError p n = s := if_neg h

section
variable {s : State} {p n : Nat} (h : (s.vf p n).tdi = .run → s.Idle)
include h

theorem State.onlyPorts_tdiError : s.OnlyPorts (s.tdiError p n) := by
  rw [State.tdiError]
  split
  · exact State.onlyPorts_setTdi h _
  · exact s.onlyPorts_refl

theorem State.vf_tdiError (q m : Nat) : (s.tdiError p n).vf q m =
    if q = p ∧ m = n then { s.vf p n with tdi := (s.vf p n).tdi.distrust } else s.vf q m := by
  rw [State.tdiError, Tdi.distrust]
  by_cases hlock : (s.vf p n).tdi = .configLocked ∨ (s.vf p n).tdi = .run
  · rw [if_pos hlock, if_pos hlock, State.vf_of_ports (congrArg HostIf.ports (State.host_setTdi h _)), State.vf_setVf]
  · rw [if_neg hlock, if_neg hlock]
    split
    next heq => rw [heq.1, heq.2]
    next => rfl

theorem State.port_tdiError (q : Nat) :
    (s.tdiError p n).port q = { s.port q with vfs := ((s.tdiError p n).port q).vfs } := by
  rw [State.tdiError]
  split
  · rw [State.port_of_ports (congrArg HostIf.ports (State.host_setTdi h _)), State.port_setVf]
  · rfl

theorem State.port_tdiError_ne {q : Nat} (hq : q ≠ p) : (s.tdiError p n).port q = s.port q := by
  rw [State.tdiError]
  split
  · rw [State.port_of_ports (congrArg HostIf.ports (State.host_setTdi h _)), State.port_setVf_ne _ _ _ hq]
  · rfl

end

/-! ### Ports whose streams become Insecure (R261, R269) -/

/-- `t` differs from `s` on port p alone, where some streams became Insecure and some TDIs left CONFIG_LOCKED and RUN for
ERROR. -/
structure State.Distrusted (p : Nat) (s t : State) : Prop where
  only : s.OnlyPorts t
  other : ∀ q, q ≠ p → t.port q = s.port q
  kept : t.port p = { s.port p with vfs := (t.port p).vfs, streams := (t.port p).streams }
  vf : ∀ n, t.vf p n = s.vf p n ∨ t.vf p n = { s.vf p n with tdi := (s.vf p n).tdi.distrust }
  insecure : ∀ i, (s.stream p i).secure = false → (t.stream p i).secure = false

theorem State.distrusted_refl (p : Nat) (s : State) : s.Distrusted p s :=
  ⟨s.onlyPorts_refl, fun _ _ => rfl, rfl, fun _ => .inl rfl, fun _ => id⟩

theorem State.Distrusted.idle {p : Nat} {s t : State} (h : s.Distrusted p t) (hidle : s.Idle) : t.Idle := by
  rw [State.Idle, h.only.que]
  exact hidle

theorem State.Distrusted.trans {p : Nat} {s t u : State} (h : s.Distrusted p t) (h' : t.Distrusted p u) :
    s.Distrusted p u where
  only := h.only.trans h'.only
  other q hq := (h'.other q hq).trans (h.other q hq)
  kept := by
    rw [h'.kept]
    conv_lhs => rw [h.kept]
  vf n := by
    have hdd := (s.vf p n).tdi.distrust_distrust
    rcases h.vf n with ht | ht <;> rcases h'.vf n with hu | hu <;> rw [hu, ht]
    · exact .inl rfl
    · exact .inr rfl
    · exact .inr rfl
    · exact .inr (by rw [hdd])
  insecure i hi := h'.insecure i (h.insecure i hi)

theorem State.distrusted_tdiError {p : Nat} {s : State} (hidle : s.Idle) (n : Nat) : s.Distrusted p (s.tdiError p n) where
  only := State.onlyPorts_tdiError fun _ => hidle
  other _ hq := State.port_tdiError_ne (fun _ => hidle) hq
  kept := by rw [State.port_tdiError fun _ => hidle]
  vf m := by
    rw [State.vf_tdiError fun _ => hidle]
    split
    next heq => exact .inr (by rw [heq.2])
    next => exact .inl rfl
  insecure i hi := by rwa [State.stream_of_streams (s := s) (p := p) (by rw [State.port_tdiError fun _ => hidle])]

theorem State.distrusted_streamTdiError {p : Nat} {s : State} (hidle : s.Idle) (i : Nat) :
    s.Distrusted p (s.streamTdiError p i) := by
  rw [State.streamTdiError]
  split
  · exact s.distrusted_refl p
  · exact State.distrusted_tdiError hidle _

/-- A stream of the port takes a value that is not Secure. -/
theorem State.distrusted_setStream (p i : Nat) (s : State) {x : IdeStream} (hx : x.secure = false) :
    s.Distrusted p (s.setStream p i x) where
  only := s.onlyPorts_setStream p i x
  other _ hq := State.port_setPort_ne s _ hq
  kept := by rw [State.port_setStream]
  vf n := .inl (s.vf_setStream p i p n x)
  insecure j hj := by
    rw [State.stream_setStream]
    split
    · exact hx
    · exact hj

theorem State.distrusted_insecure {p : Nat} {s : State} (hidle : s.Idle) (i : Nat) : s.Distrusted p (s.insecure p i) := by
  have hset := State.distrusted_setStream p i s (x := { s.stream p i with secure := false, active := none }) rfl
  exact hset.trans (State.distrusted_streamTdiError (hset.idle hidle) i)

/-- The stream itself, and the TDI it is bound to. -/
theorem State.stream_streamTdiError {p : Nat} {s : State} (hidle : s.Idle) (i q j : Nat) :
    (s.streamTdiError p i).stream q j = s.stream q j := by
  rw [State.streamTdiError]
  split
  · rfl
  · exact State.stream_of_streams (by rw [State.port_tdiError fun _ => hidle]) j

theorem State.vf_streamTdiError {p i : Nat} {s : State} (hidle : s.Idle) : ((s.stream p i).vf ≠ 0 →
      (s.streamTdiError p i).vf p (s.stream p i).vf = { s.vf p (s.stream p i).vf with
        tdi := (s.vf p (s.stream p i).vf).tdi.distrust }) ∧
    ∀ m, m ≠ (s.stream p i).vf → (s.streamTdiError p i).vf p m = s.vf p m := by
  rw [State.streamTdiError]
  split
  next h => exact ⟨fun hn => absurd h hn, fun _ _ => rfl⟩
  next h =>
    refine ⟨fun _ => ?_, fun m hm => ?_⟩
    · rw [State.vf_tdiError fun _ => hidle, if_pos ⟨rfl, rfl⟩]
    · rw [State.vf_tdiError fun _ => hidle, if_neg (by simp [hm])]

/-- A port whose stream i takes the value `x` of the same VF, whose TDI can no longer be trusted. -/
theorem State.setStream_streamTdiError {p i : Nat} {s : State} {x : IdeStream} (hidle : s.Idle)
    (hvf : x.vf = (s.stream p i).vf) : ((s.setStream p i x).streamTdiError p i).stream p i = x ∧
      ((s.setStream p i x).streamTdiError p i).que = s.que ∧
      ((s.stream p i).vf ≠ 0 → (s.vf p (s.stream p i).vf).tdi = .configLocked ∨ (s.vf p (s.stream p i).vf).tdi = .run →
        (((s.setStream p i x).streamTdiError p i).vf p (s.stream p i).vf).tdi = .error) ∧
      ∀ m, m ≠ (s.stream p i).vf → ((s.setStream p i x).streamTdiError p i).vf p m = s.vf p m := by
  have hidle' : (s.setStream p i x).Idle := hidle
  have hvfs := State.vf_streamTdiError (p := p) (i := i) hidle'
  rw [State.stream_setStream_same, hvf] at hvfs
  refine ⟨?_, ?_, fun hn hlock => ?_, fun m hm => ?_⟩
  · rw [State.stream_streamTdiError hidle', State.stream_setStream_same]
  · rw [(State.distrusted_streamTdiError hidle' i).only.que, State.que_setStream]
  · rw [hvfs.1 hn, State.vf_setStream, Tdi.distrust_eq hlock]
  · rw [hvfs.2 m hm, State.vf_setStream]

theorem exec_kSetStop {p i ks : Nat} {s : State} (hp : p < 2) (hi : (skeys (s.port p).streams).contains i = true)
    (hactive : (s.stream p i).active = some ks) (hidle : s.Idle) :
    ∃ s', exec (.kSetStop p i ks) s = .next s' ∧ s'.host.doe = [kGoStopAck] ∧ (s'.stream p i).secure = false ∧
      (s'.stream p i).active = none ∧ s'.que = s.que ∧
      ((s.stream p i).vf ≠ 0 → (s.vf p (s.stream p i).vf).tdi = .configLocked ∨ (s.vf p (s.stream p i).vf).tdi = .run →
        (s'.vf p (s.stream p i).vf).tdi = .error) ∧
      ∀ m, m ≠ (s.stream p i).vf → s'.vf p m = s.vf p m := by
  obtain ⟨x, hx⟩ : ∃ x : IdeStream, x = { s.stream p i with
    progd := (s.stream p i).progd &&& ~~~(7#6 <<< (3 * ks)), keys := (s.stream p i).keys.filter fun e => e.1 / 3 ≠ ks,
    secure := (s.stream p i).secure && (s.stream p i).active ≠ some ks,
    active := if (s.stream p i).active = some ks then none else (s.stream p i).active } := ⟨_, rfl⟩
  have hexec : exec (.kSetStop p i ks) s =
      .next (((s.setStream p i x).streamTdiError p i).doeReply [kGoStopAck]) := by
    change execKSetStop p i ks s = _
    rw [execKSetStop, hx]
    exact congrArg _ (if_pos ⟨hp, hi⟩)
  obtain ⟨hstream, hque, hvf, hother⟩ := State.setStream_streamTdiError (p := p) (i := i) (x := x) hidle (by rw [hx])
  refine ⟨_, hexec, rfl, ?_, ?_, hque, hvf, hother⟩
  · rw [State.stream_doeReply, hstream, hx, hactive]
    simp
  · rw [State.stream_doeReply, hstream, hx, hactive]
    simp

theorem exec_ideCheckFailure {p i : Nat} {s : State} (hp : p < 2) (hi : (skeys (s.port p).streams).contains i = true)
    (hidle : s.Idle) :
    ∃ s', exec (.ideCheckFailure p i) s = .next s' ∧ (s'.port p).ideFail = satAdd 32 (s.port p).ideFail 1 ∧
      (s'.stream p i).secure = false ∧ (s'.stream p i).fails = satAdd 32 (s.stream p i).fails 1 ∧ s'.que = s.que ∧
      ((s.stream p i).vf ≠ 0 → (s.vf p (s.stream p i).vf).tdi = .configLocked ∨ (s.vf p (s.stream p i).vf).tdi = .run →
        (s'.vf p (s.stream p i).vf).tdi = .error) ∧
      ∀ m, m ≠ (s.stream p i).vf → s'.vf p m = s.vf p m := by
  obtain ⟨t, ht⟩ : ∃ t, t = s.setPort p { s.port p with ideFail := satAdd 32 (s.port p).ideFail 1 } := ⟨_, rfl⟩
  obtain ⟨u, hu⟩ : ∃ u, u = t.setStream p i { t.stream p i with fails := satAdd 32 (t.stream p i).fails 1 } := ⟨_, rfl⟩
  have htport : t.port p = { s.port p with ideFail := satAdd 32 (s.port p).ideFail 1 } := by
    rw [ht, State.port_setPort_same]
  have hustream : u.stream p i = { s.stream p i with fails := satAdd 32 (s.stream p i).fails 1 } := by
    rw [hu, State.stream_setStream_same, State.stream_of_streams (s := s) (p := p) (by rw [htport])]
  have huvf (m : Nat) : u.vf p m = s.vf p m := by
    rw [hu, State.vf_setStream, State.vf_of_vfs (s := s) (p := p) (by rw [htport])]
  have huque : u.que = s.que := by rw [hu, ht]; rfl
  have hidle' : u.Idle := by rw [State.Idle, huque]; exact hidle
  obtain ⟨x, hx⟩ : ∃ x : IdeStream, x = { u.stream p i with secure := false, active := none } := ⟨_, rfl⟩
  have hexec : exec (.ideCheckFailure p i) s = .next ((u.setStream p i x).streamTdiError p i) := by
    change execIdeCheckFailure p i s = _
    rw [execIdeCheckFailure, if_pos ⟨hp, hi⟩, hx, hu, ht]
    rfl
  obtain ⟨hstream, hque, hvf, hother⟩ := State.setStream_streamTdiError (p := p) (i := i) (x := x) hidle' (by rw [hx])
  rw [hustream] at hvf hother
  simp only [huvf] at hvf hother
  refine ⟨_, hexec, ?_, ?_, ?_, hque.trans huque, hvf, hother⟩
  · rw [(State.distrusted_streamTdiError (s := u.setStream p i x) hidle' i).kept, State.port_setStream, hu,
      State.port_setStream, htport]
  · rw [hstream, hx]
  · rw [hstream, hx, hustream]

/-! ### Links (R269, R491) -/

section
variable {p : Nat} {g : State → Nat → State} (hg : ∀ (t : State) (i : Nat), t.Idle → t.Distrusted p (g t i))
include hg

theorem State.distrusted_foldl (l : List Nat) {s : State} (hidle : s.Idle) : s.Distrusted p (l.foldl g s) := by
  induction l generalizing s with
  | nil => exact s.distrusted_refl p
  | cons i l ih => exact (hg s i hidle).trans (ih ((hg s i hidle).idle hidle))

/-- What a step does for the item it names, and no later step undoes, holds after all of them. -/
theorem State.foldl_distrusted {P : State → Prop} (hkeep : ∀ t u : State, t.Distrusted p u → P t → P u) {r : State} {i : Nat}
    (hstep : ∀ t : State, r.Distrusted p t → t.Idle → P (g t i)) {l : List Nat} (hi : i ∈ l) {s : State}
    (hs : r.Distrusted p s) (hidle : s.Idle) : P (l.foldl g s) := by
  induction l generalizing s with
  | nil => exact absurd hi List.not_mem_nil
  | cons j l ih =>
    have hnext := (hg s j hidle).idle hidle
    by_cases hj : i = j
    · subst hj
      exact hkeep _ _ (State.distrusted_foldl hg l hnext) (hstep s hs hidle)
    · exact ih ((List.mem_cons.1 hi).resolve_left hj) (hs.trans (hg s j hidle)) hnext

end

theorem State.stream_insecure {p : Nat} {s : State} (hidle : s.Idle) (i : Nat) : ((s.insecure p i).stream p i).secure = false := by
  have hset : (s.setStream p i { s.stream p i with secure := false, active := none }).Idle := hidle
  rw [State.insecure, State.stream_streamTdiError hset, State.stream_setStream_same]

section
variable {s : State} (hidle : s.Idle) (p : Nat)
include hidle

theorem State.distrusted_portInsecure : s.Distrusted p (s.portInsecure p) := by
  have hstreams := State.distrusted_foldl (p := p) (fun t i ht => State.distrusted_insecure ht i) (skeys (s.port p).streams)
    hidle
  exact hstreams.trans (State.distrusted_foldl (fun t n ht => State.distrusted_tdiError ht n) _ (hstreams.idle hidle))

/-- Every stream of the port is Insecure: those listed by their own step, the rest because they never were Secure. -/
theorem State.stream_portInsecure (i : Nat) : ((s.portInsecure p).stream p i).secure = false := by
  have hstreams := State.distrusted_foldl (p := p) (fun t i ht => State.distrusted_insecure ht i) (skeys (s.port p).streams)
    hidle
  have hvfs := State.distrusted_foldl (p := p) (fun t n ht => State.distrusted_tdiError ht n)
    (skeys (((skeys (s.port p).streams).foldl (fun s i => s.insecure p i) s).port p).vfs) (hstreams.idle hidle)
  refine hvfs.insecure i ?_
  by_cases hi : i ∈ skeys (s.port p).streams
  · exact State.foldl_distrusted (P := fun t => (t.stream p i).secure = false)
      (fun t i ht => State.distrusted_insecure ht i) (fun t u h ht => h.insecure i ht)
      (fun t _ ht => State.stream_insecure ht i) hi (s.distrusted_refl p) hidle
  · refine hstreams.insecure i ?_
    rw [State.stream, sget_of_not_mem hi]

/-- Every TDI of the port that was locked or ran is in ERROR. -/
theorem State.tdi_portInsecure (n : Nat) : ((s.portInsecure p).vf p n).tdi = (s.vf p n).tdi.distrust := by
  obtain ⟨t, ht⟩ : ∃ t, t = (skeys (s.port p).streams).foldl (fun s i => s.insecure p i) s := ⟨_, rfl⟩
  have hstreams : s.Distrusted p t := ht ▸ State.distrusted_foldl (fun t i ht => State.distrusted_insecure ht i) _ hidle
  have hidle' := hstreams.idle hidle
  have htdi {u : State} (h : s.Distrusted p u) : (u.vf p n).tdi.distrust = (s.vf p n).tdi.distrust := by
    rcases h.vf n with hu | hu
    · rw [hu]
    · rw [hu, Tdi.distrust_distrust]
  have hinsecure : s.portInsecure p = (skeys (t.port p).vfs).foldl (fun s n => s.tdiError p n) t := by
    rw [State.portInsecure, ht]
  rw [hinsecure]
  by_cases hn : n ∈ skeys (t.port p).vfs
  · refine State.foldl_distrusted (P := fun u => (u.vf p n).tdi = (s.vf p n).tdi.distrust)
      (fun t n ht => State.distrusted_tdiError ht n) (fun u w h hu => ?_) (fun u h hu => ?_) hn hstreams hidle'
    · rcases h.vf n with hw | hw
      · rw [hw, hu]
      · rw [hw]
        exact (congrArg Tdi.distrust hu).trans (Tdi.distrust_distrust _)
    · rw [State.vf_tdiError fun _ => hu, if_pos ⟨rfl, rfl⟩]
      exact htdi h
  · have hdefault : (t.vf p n).tdi = .configUnlocked := by rw [State.vf, sget_of_not_mem hn]
    have hfold := State.distrusted_foldl (p := p) (fun t n ht => State.distrusted_tdiError ht n) (skeys (t.port p).vfs) hidle'
    rw [← htdi hstreams, hdefault]
    rcases hfold.vf n with hw | hw
    · rw [hw, hdefault]
      rfl
    · rw [hw, hdefault]

end

theorem exec_linkDown {p : Nat} {s : State} (hp : p < 2) (hidle : s.Idle) :
    ∃ s', exec (.linkDown p) s = .next s' ∧ (s'.port p).up = false ∧ s'.que = s.que ∧
      (∀ i, (s'.stream p i).secure = false) ∧ (∀ n, (s'.vf p n).tdi = (s.vf p n).tdi.distrust) ∧
      ∀ q, q ≠ p → s'.port q = s.port q := by
  obtain ⟨t, ht⟩ : ∃ t, t = s.setPort p { s.port p with up := false } := ⟨_, rfl⟩
  have hport : t.port p = { s.port p with up := false } := by rw [ht, State.port_setPort_same]
  have hidle' : t.Idle := by rw [ht]; exact hidle
  have hdown := State.distrusted_portInsecure hidle' p
  refine ⟨t.portInsecure p, ?_, ?_, ?_, State.stream_portInsecure hidle' p, fun n => ?_, fun q hq => ?_⟩
  · change execLinkDown p s = _
    rw [execLinkDown, if_pos hp, ht]
  · rw [hdown.kept, hport]
  · rw [hdown.only.que, ht, State.setPort_que]
  · rw [State.tdi_portInsecure hidle', State.vf_of_vfs (s := s) (p := p) (by rw [hport])]
  · rw [hdown.other q hq, ht, State.port_setPort_ne s _ hq]

theorem State.portThere_iff (s : State) (p : Nat) :
    s.portThere p = true ↔ p = 0 ∨ (p = 1 ∧ s.host.single = false) := by simp [State.portThere]

theorem exec_linkUp {p : Nat} {s : State} (hp : s.portThere p = true) (hreset : s.rst.heldInReset = false)
    (hperst : (sget {} s.side.ins (4 + p)).level = false) (hdevrst : (sget {} s.side.ins 3).level = false)
    (hclk : (sget {} s.pwr.src (1 + p)).stable = true) :
    exec (.linkUp p) s = .next (s.setPort p { s.port p with up := true }) := by
  change execLinkUp p s = _
  rw [execLinkUp, if_pos ⟨hp, by simp [hreset], by simp [perstPin, hperst], by simp [hdevrst], hclk⟩]

/-- Single mode has no port B (R250). -/
theorem exec_linkUp_absent {s : State} (h : s.host.single = true) : exec (.linkUp 1) s = .next s := by
  change execLinkUp 1 s = _
  rw [execLinkUp, if_neg (by simp [State.portThere, h])]

/-! ### SPDM on the DOE mailbox (R261) -/

theorem exec_spdmRequest_measurements {p : Nat} {s : State} (hp : s.portThere p = true) (body : List Word) :
    exec (.spdmRequest p ⟨0xE0, body⟩) s = .next (s.doeReply (0x60#32 :: wordsOf (romMeasure ++
      beBytes 48 s.sec.active.m2.toNat ++ beBytes 48 s.sec.active.m3.toNat ++ beBytes 48 s.sec.active.m4.toNat ++
      s.measure5 ++ s.measure6 ++ beBytes 48 s.sec.policyDigest.toNat))) := by
  change execSpdmRequest p ⟨0xE0, body⟩ s = _
  rw [execSpdmRequest, if_neg (by simp [hp])]
  rfl

/-- GET_CERTIFICATE answers the part of the chain it names behind two words. -/
theorem exec_spdmRequest_certificate {p : Nat} {s : State} (hp : s.portThere p = true) (w : Word) :
    ∃ s', exec (.spdmRequest p ⟨0x82, [w]⟩) s = .next s' ∧
      s'.host.doe.drop 2 = wordsOf (s.chainBytes (w.toNat % 65536) (w.toNat / 65536)) := by
  obtain ⟨bs, hbs⟩ : ∃ bs, bs = s.chainBytes (w.toNat % 65536) (w.toNat / 65536) := ⟨_, rfl⟩
  refine ⟨s.doeReply (0x02#32 :: BitVec.ofNat 32 (bs.length + 65536 * (chainLength - (w.toNat % 65536 + bs.length))) ::
    wordsOf bs), ?_, by rw [← hbs]; rfl⟩
  change execSpdmRequest p ⟨0x82, [w]⟩ s = _
  rw [execSpdmRequest, if_neg (by simp [hp]), hbs]
  rfl

/-! ### Function-level resets (R249, R269) -/

theorem State.fnThere_vf {s : State} {f : Nat} (hlo : 2 ≤ f) (hhi : f < 258)
    (h : s.vfEnabled (fnPort f) (fnVf f) = true) : s.fnThere f = true := by
  rw [State.fnThere, if_neg (by omega), h, decide_eq_true hhi, Bool.true_and]

theorem State.fnThere_pf {s : State} {f : Nat} (h : f = 0 ∨ (f = 1 ∧ s.host.single = false)) : s.fnThere f = true := by
  rw [State.fnThere, if_pos (by omega), State.portThere_iff]
  exact h

theorem fnPort_pf {f : Nat} (h : f < 2) : fnPort f = f := if_pos h

/-- Both ways to reset a function, the return from D3hot being one (R249). -/
theorem exec_flr {i : Instr} {f : Nat} {s : State} (hthere : s.fnThere f = true)
    (hi : i = .functionLevelReset f ∨ (i = .returnToD0 f ∧ s.inD3 f = true)) : exec i s = .next (s.flr f) := by
  rcases hi with rfl | ⟨rfl, hd3⟩
  · change execFunctionLevelReset f s = _
    rw [execFunctionLevelReset, if_pos hthere]
  · change execReturnToD0 f s = _
    rw [execReturnToD0, if_pos ⟨hthere, hd3⟩]

@[simp] theorem State.vf_flrCommon (s : State) (f p n : Nat) : (s.flrCommon f).vf p n = s.vf p n := rfl
@[simp] theorem State.port_flrCommon (s : State) (f p : Nat) : (s.flrCommon f).port p = s.port p := rfl

/-- A VF after its FLR. -/
def Vf.reset (x : Vf) : Vf := { x with tdi := .configUnlocked, d3 := false, ats := false, pri := false, msixEn := false }

/-- The FLR of a VF, in its three steps. -/
theorem State.flr_vf {s : State} {f : Nat} (h : 2 ≤ f) : s.flr f =
    let t := (s.setTdi (fnPort f) (fnVf f) .configUnlocked).flrCommon f
    t.setVf (fnPort f) (fnVf f)
      { t.vf (fnPort f) (fnVf f) with d3 := false, ats := false, pri := false, msixEn := false } := by
  rw [State.flr]
  exact if_neg (by omega)

theorem State.flr_vf_spec {s : State} {f : Nat} (hf : 2 ≤ f)
    (hidle : (s.vf (fnPort f) (fnVf f)).tdi = .run → s.Idle) :
    (s.flr f).que = s.que ∧ (s.flr f).vf (fnPort f) (fnVf f) = (s.vf (fnPort f) (fnVf f)).reset ∧
      (s.flr f).xlt = (s.dropAtc f).xlt ∧ sget none (s.flr f).glb.staged f = none ∧
      sget none (s.flr f).glb.latched f = none ∧
      (∀ m, m ≠ fnVf f → (s.flr f).vf (fnPort f) m = s.vf (fnPort f) m) ∧
      ∀ q, q ≠ fnPort f → (s.flr f).port q = s.port q := by
  obtain ⟨t, ht⟩ : ∃ t, t = s.setTdi (fnPort f) (fnVf f) .configUnlocked := ⟨_, rfl⟩
  have hports := congrArg HostIf.ports (State.host_setTdi hidle .configUnlocked)
  have honly := State.onlyPorts_setTdi hidle .configUnlocked
  rw [← ht] at hports honly
  rw [State.flr_vf hf, ← ht]
  dsimp only
  refine ⟨honly.que, ?_, ?_, sget_sput_same .., sget_sput_same .., fun m hm => ?_, fun q hq => ?_⟩
  · rw [State.vf_setVf_same, State.vf_flrCommon, State.vf_of_ports hports, State.vf_setVf_same]
    rfl
  · have hxlt : (t.dropAtc f).xlt = (s.dropAtc f).xlt := by rw [State.dropAtc, honly]; rfl
    exact hxlt
  · rw [State.vf_setVf_ne _ _ (.inr hm), State.vf_flrCommon, State.vf_of_ports hports, State.vf_setVf_ne _ _ (.inr hm)]
  · rw [State.port_setVf_ne _ _ _ hq, State.port_flrCommon, State.port_of_ports hports, State.port_setVf_ne _ _ _ hq]

/-- A queue pair as the reset of its PF leaves it. -/
def QueuePair.cleared (p : QueuePair) : QueuePair := { assigned := p.assigned, vd := p.vd, lq := p.lq, pf := p.pf }

/-- Queue pairs are reset one after another. -/
def State.clearPairs (s : State) (l : List Nat) : State := l.foldl (fun s q => s.setPair q (s.pair q).cleared) s

theorem State.pair_clearPairs (l : List Nat) (s : State) (q : Nat) :
    (s.clearPairs l).pair q = if q ∈ l then (s.pair q).cleared else s.pair q := by
  induction l generalizing s with
  | nil => rfl
  | cons r l ih =>
    have hcons : s.clearPairs (r :: l) = (s.setPair r (s.pair r).cleared).clearPairs l := rfl
    rw [hcons, ih, State.pair_setPair]
    by_cases hr : q = r
    · subst hr
      rw [if_pos rfl, if_pos List.mem_cons_self]
      exact ite_self (c := q ∈ l) (s.pair q).cleared
    · rw [if_neg hr]
      simp [hr]

theorem State.clearPairs_frame (l : List Nat) (s : State) :
    s.clearPairs l = { s with que := { s.que with pairs := (s.clearPairs l).que.pairs } } := by
  induction l generalizing s with
  | nil => rfl
  | cons r l ih => exact ih (s.setPair r (s.pair r).cleared)

/-- A PF without outstanding commands of its own has its queues reset, and nothing else. -/
theorem State.resetPfQueues_idle {s : State} {f : Nat} (h : ∀ e ∈ s.que.cmds, (s.pfPairs f).contains e.2.q = false) :
    s.resetPfQueues f = s.clearPairs (s.pfPairs f) := by
  have hcmds : (s.clearPairs (s.pfPairs f)).que.cmds = s.que.cmds := by rw [State.clearPairs_frame]
  have hnone : (s.que.cmds.filter fun e => (s.pfPairs f).contains e.2.q) = [] :=
    List.filter_eq_nil_iff.2 fun e he => by rw [h e he]; exact Bool.false_ne_true
  rw [← hcmds] at hnone
  change ((s.clearPairs (s.pfPairs f)).que.cmds.filter fun e => (s.pfPairs f).contains e.2.q).foldl _ _ = _
  rw [hnone]
  rfl

/-- A port after the FLR of its PF. -/
def HostPort.pfReset (x : HostPort) : HostPort :=
  { x with bar0 := 0, bar2 := 0, mse := false, d3 := false, ats := false, pri := false, msixEn := false }

theorem State.flr_pf {s : State} {f : Nat} (hf : f < 2) (h : ∀ e ∈ s.que.cmds, (s.pfPairs f).contains e.2.q = false) :
    s.flr f = ((s.flrCommon f).clearPairs (s.pfPairs f)).setPort f (s.port f).pfReset := by
  obtain ⟨t, ht⟩ : ∃ t, t = (s.flrCommon f).clearPairs (s.pfPairs f) := ⟨_, rfl⟩
  have hreset : (s.flrCommon f).resetPfQueues f = t := ht ▸ State.resetPfQueues_idle (s := s.flrCommon f) h
  have hport : t.port f = s.port f := by rw [ht, State.clearPairs_frame]; rfl
  rw [State.flr, fnPort_pf hf]
  dsimp only
  rw [if_pos hf, hreset, hport, ht]
  rfl

theorem State.flr_pf_spec {s : State} {f : Nat} (hf : f < 2)
    (h : ∀ e ∈ s.que.cmds, (s.pfPairs f).contains e.2.q = false) :
    (s.flr f).que.cmds = s.que.cmds ∧ (s.flr f).port f = (s.port f).pfReset ∧
      (∀ q ∈ s.pfPairs f, (s.flr f).pair q = (s.pair q).cleared) ∧
      (∀ q, q ∉ s.pfPairs f → (s.flr f).pair q = s.pair q) ∧ ∀ q, q ≠ f → (s.flr f).port q = s.port q := by
  have hframe := (s.flrCommon f).clearPairs_frame (s.pfPairs f)
  have hpair (q : Nat) := (s.flrCommon f).pair_clearPairs (s.pfPairs f) q
  rw [State.flr_pf hf h]
  refine ⟨?_, State.port_setPort_same .., fun q hq => ?_, fun q hq => ?_, fun q hq => ?_⟩
  · rw [State.setPort_que, hframe]
    rfl
  · rw [State.pair_setPort, hpair, if_pos hq]
    rfl
  · rw [State.pair_setPort, hpair, if_neg hq]
    rfl
  · rw [State.port_setPort_ne _ _ hq, hframe]
    rfl

/-! ### NumVFs (R252) -/

theorem exec_numvfsWrite_refused {p n : Nat} {vfe : Bool} {s : State} (hp : s.portThere p = true)
    (hattached : s.anyAttached p = true) (h : vfe ≠ (s.port p).vfEnable ∨ n ≠ (s.port p).numVfs) :
    exec (.numvfsWrite p vfe n) s = .next (s.setPort p { s.port p with refused := satAdd 16 (s.port p).refused 1 }) := by
  change execNumvfsWrite p vfe n s = _
  rw [execNumvfsWrite, if_neg (by simp [hp]), if_pos hattached, if_pos h]

theorem exec_numvfsWrite_sets {p n : Nat} {vfe : Bool} {s : State} (hp : s.portThere p = true)
    (hattached : s.anyAttached p = false) : exec (.numvfsWrite p vfe n) s =
      .next (s.setVfs p vfe (if n ≤ s.totalVfs p then n else (s.port p).numVfs)) := by
  change execNumvfsWrite p vfe n s = _
  rw [execNumvfsWrite, if_neg (by simp [hp]), if_neg (by simp [hattached])]

theorem State.port_setVfs (s : State) (p : Nat) (vfe : Bool) (n : Nat) : (s.setVfs p vfe n).port p =
    { s.port p with vfEnable := vfe, numVfs := n, vfs := ((s.setVfs p vfe n).port p).vfs } := by
  rw [State.setVfs, State.port_setPort_same]

/-- A VF that exists before and after keeps its configuration. -/
theorem State.vf_setVfs_kept (s : State) (p : Nat) {n k : Nat} (h : k ≤ n) : (s.setVfs p true n).vf p k = s.vf p k := by
  rw [State.setVfs, State.vf, State.port_setPort_same]
  refine foldl_unchanged (fun m => sget ({} : Vf) m k) _ _ _ fun m j => ?_
  split
  next hgone => exact sget_sput_ne _ _ (by rintro rfl; simp at hgone; omega)
  next => rfl

/-! ### Configuration writes (R252, R263) -/

theorem exec_configSpaceWrite_vf {f : Nat} {w : CfgWrite} {s : State} (hlo : 2 ≤ f) (hthere : s.fnThere f = true) :
    exec (.configSpaceWrite f w) s = .next (s.cfgVf f w) := by
  change execConfigSpaceWrite f w s = _
  rw [execConfigSpaceWrite, if_neg (by simp [hthere]), if_neg (by omega)]

theorem exec_configSpaceWrite_pf {f : Nat} {w : CfgWrite} {s : State} (hf : f < 2) (hthere : s.fnThere f = true) :
    exec (.configSpaceWrite f w) s = .next (s.cfgPf f w) := by
  change execConfigSpaceWrite f w s = _
  rw [execConfigSpaceWrite, if_neg (by simp [hthere]), if_pos hf]

theorem State.checkLock_open {s : State} {p n : Nat}
    (h : ¬((s.vf p n).tdi = .configLocked ∨ (s.vf p n).tdi = .run)) : s.checkLock p n = s := by
  rw [State.checkLock, State.tdiError_open h]
  exact ite_self s

/-- A locked or running TDI whose VF is no longer as it was recorded is in ERROR. -/
theorem State.checkLock_changed {s : State} {p n : Nat} (hidle : (s.vf p n).tdi = .run → s.Idle)
    (hlock : (s.vf p n).tdi = .configLocked ∨ (s.vf p n).tdi = .run)
    (h : ¬((s.vf p n).bar0 = (s.vf p n).recBar0 ∧ (s.vf p n).bar2 = (s.vf p n).recBar2 ∧ (s.vf p n).mse = true)) :
    ((s.checkLock p n).vf p n).tdi = .error ∧ (s.checkLock p n).que = s.que := by
  rw [State.checkLock, if_neg h, State.vf_tdiError hidle, if_pos ⟨rfl, rfl⟩, (State.onlyPorts_tdiError hidle).que]
  exact ⟨Tdi.distrust_eq hlock, rfl⟩

section
variable {s : State} {p n : Nat} {x : Vf} (htdi : x.tdi = (s.vf p n).tdi)
include htdi

theorem State.setVf_checkLock_open (h : (s.vf p n).tdi = .configUnlocked ∨ (s.vf p n).tdi = .error) :
    ((s.setVf p n x).checkLock p n).vf p n = x ∧ ((s.setVf p n x).checkLock p n).que = s.que := by
  have hopen : ¬(((s.setVf p n x).vf p n).tdi = .configLocked ∨ ((s.setVf p n x).vf p n).tdi = .run) := by
    rw [State.vf_setVf_same, htdi]
    rcases h with h | h <;> simp [h]
  rw [State.checkLock_open hopen]
  exact ⟨State.vf_setVf_same .., rfl⟩

/-- A write that changes what a locked or running VF recorded. -/
theorem State.setVf_checkLock_changed (hidle : (s.vf p n).tdi = .run → s.Idle)
    (hlock : (s.vf p n).tdi = .configLocked ∨ (s.vf p n).tdi = .run)
    (h : ¬(x.bar0 = x.recBar0 ∧ x.bar2 = x.recBar2 ∧ x.mse = true)) :
    (((s.setVf p n x).checkLock p n).vf p n).tdi = .error ∧ ((s.setVf p n x).checkLock p n).que = s.que := by
  have hvf := s.vf_setVf_same p n x
  exact State.checkLock_changed (s := s.setVf p n x) (by rw [hvf, htdi]; exact hidle) (by rwa [hvf, htdi]) (by rwa [hvf])

end

/-- What a configuration write sets of a PF. -/
def HostPort.configure (x : HostPort) : CfgWrite → HostPort
  | .bar0 v => { x with bar0 := v / 2 ^ 26 % 2 ^ 38 * 2 ^ 26 }
  | .bar2 v => { x with bar2 := v / 2 ^ 26 % 2 ^ 38 * 2 ^ 26 }
  | .mse b => { x with mse := b }
  | .d3 b => { x with d3 := b }
  | .ats b => { x with ats := b }
  | .pri b => { x with pri := b }
  | .msix b => { x with msixEn := b }

theorem HostPort.configure_frame (x : HostPort) (w : CfgWrite) :
    (x.configure w).vfs = x.vfs ∧ (x.configure w).streams = x.streams := by cases w <;> exact ⟨rfl, rfl⟩

/-- A configuration write of a PF that neither moves its power state nor its interrupts sets its field. -/
theorem State.cfgPf_sets (s : State) (f : Nat) {w : CfgWrite} (hd3 : ∀ b, w ≠ .d3 b) (hmsix : ∀ b, w ≠ .msix b) :
    (s.cfgPf f w).que = s.que ∧ (s.cfgPf f w).port f = (s.port f).configure w := by
  cases w with
  | bar0 v => exact ⟨rfl, State.port_setPort_same ..⟩
  | bar2 v => exact ⟨rfl, State.port_setPort_same ..⟩
  | mse b => exact ⟨rfl, State.port_setPort_same ..⟩
  | d3 b => exact absurd rfl (hd3 b)
  | ats b => cases b <;> exact ⟨rfl, State.port_setPort_same ..⟩
  | pri b => cases b <;> exact ⟨rfl, State.port_setPort_same ..⟩
  | msix b => exact absurd rfl (hmsix b)

/-! ### The two halves of O45 -/

theorem exec_flr_vf {i : Instr} {f : Nat} {s : State}
    (hi : i = .functionLevelReset f ∨ (i = .returnToD0 f ∧ (s.vf (fnPort f) (fnVf f)).d3 = true)) (hlo : 2 ≤ f)
    (hhi : f < 258) (hvf : s.vfEnabled (fnPort f) (fnVf f) = true) : exec i s = .next (s.flr f) := by
  refine exec_flr (State.fnThere_vf hlo hhi hvf) (hi.imp_right fun h => ⟨h.1, ?_⟩)
  rw [State.inD3, if_neg (by omega)]
  exact h.2

theorem exec_flr_pf {i : Instr} {f : Nat} {s : State}
    (hi : i = .functionLevelReset f ∨ (i = .returnToD0 f ∧ (s.port f).d3 = true))
    (hf : f = 0 ∨ (f = 1 ∧ s.host.single = false)) : exec i s = .next (s.flr f) := by
  refine exec_flr (State.fnThere_pf hf) (hi.imp_right fun h => ⟨h.1, ?_⟩)
  rw [State.inD3, if_pos (by omega)]
  exact h.2

/-- Configuration writes of a VF: those that leave its TDI alone, and those that put a locked or running one in ERROR. -/
theorem cfgVf_clauses {f : Nat} {s : State} (hlo : 2 ≤ f) (hthere : s.fnThere f = true) (v : Nat) :
    let x := s.vf (fnPort f) (fnVf f)
    (x.tdi = .configUnlocked ∨ x.tdi = .error →
      ∃ s', exec (.configSpaceWrite f (.bar0 v)) s = .next s' ∧
        s'.vf (fnPort f) (fnVf f) = { x with bar0 := v / 2 ^ 21 % 2 ^ 43 * 2 ^ 21 } ∧ s'.que = s.que) ∧
    (x.tdi = .configLocked → x.recBar0 ≠ v / 2 ^ 21 % 2 ^ 43 * 2 ^ 21 →
      ∃ s', exec (.configSpaceWrite f (.bar0 v)) s = .next s' ∧ (s'.vf (fnPort f) (fnVf f)).tdi = .error ∧ s'.que = s.que) ∧
    (x.tdi = .configLocked ∨ (x.tdi = .run ∧ s.Idle) →
      ∃ s', exec (.configSpaceWrite f (.mse false)) s = .next s' ∧ (s'.vf (fnPort f) (fnVf f)).tdi = .error ∧ s'.que = s.que) ∧
    (∃ s', exec (.configSpaceWrite f (.d3 true)) s = .next s' ∧ s'.vf (fnPort f) (fnVf f) = { x with d3 := true } ∧
      s'.que = s.que) ∧
    (∃ s', exec (.configSpaceWrite f (.pri true)) s = .next s' ∧ s'.vf (fnPort f) (fnVf f) = { x with pri := true } ∧
      s'.que = s.que) ∧
    ∃ s', exec (.configSpaceWrite f (.ats false)) s = .next s' ∧ s'.vf (fnPort f) (fnVf f) = { x with ats := false } ∧
      (∀ e ∈ s'.xlt.atc, e.fn ≠ f) ∧ s'.que = s.que := by
  intro x
  refine ⟨fun hopen => ?_, fun hlock hbar => ?_, fun hlock => ?_, ?_, ?_, ?_⟩
  · exact ⟨_, exec_configSpaceWrite_vf hlo hthere, State.setVf_checkLock_open rfl hopen⟩
  · exact ⟨_, exec_configSpaceWrite_vf hlo hthere, State.setVf_checkLock_changed rfl
      (fun hrun => absurd (hlock.symm.trans hrun) (by decide)) (.inl hlock) fun h => hbar h.1.symm⟩
  · exact ⟨_, exec_configSpaceWrite_vf hlo hthere, State.setVf_checkLock_changed rfl
      (fun hrun => hlock.elim (fun hl => absurd (hl.symm.trans hrun) (by decide)) And.right) (hlock.imp_right And.left)
      fun h => Bool.false_ne_true h.2.2⟩
  · exact ⟨_, exec_configSpaceWrite_vf hlo hthere, State.vf_setVf_same .., rfl⟩
  · exact ⟨_, exec_configSpaceWrite_vf hlo hthere, State.vf_setVf_same .., rfl⟩
  · exact ⟨_, exec_configSpaceWrite_vf hlo hthere, State.vf_setVf_same ..,
      fun e he => of_decide_eq_true (List.mem_filter.1 he).2, rfl⟩

/-- Settles O45: the streams and links of a port by what they do to its TDIs, the functions by their resets and writes. -/
theorem streamsLinksAndFunctions : Obligations.StreamsLinksAndFunctions := by
  unfold Obligations.StreamsLinksAndFunctions
  refine ⟨⟨?prog, ?go, ?stop, ?fail, ?down, ?up, fun s h => exec_linkUp_absent h, ?spdm⟩,
    ?flrVf, ?flrPf, ?numRefused, ?numSet, ?cfgVf, ?cfgPf⟩
  case prog =>
    intro p i ks sub vf key s hok hks hsub
    obtain ⟨x, hx⟩ : ∃ x, x = (s.stream p i).program (3 * ks + sub) vf key := ⟨_, rfl⟩
    have hstream : (s.setStream p i x).stream p i = x := s.stream_setStream_same ..
    have hprogd (j : Nat) := (s.stream p i).progd_program (k := 3 * ks + sub) (by omega) vf j key
    refine ⟨_, exec_keyProg hok hks hsub vf key, rfl, ?_, ?_, ?_, ?_, fun j hj => ⟨?_, ?_⟩, fun j hj => ?_, rfl, rfl, ?_⟩
    all_goals rw [← hx]
    · rw [State.stream_doeReply, hstream, hx]
      exact sget_sput_same ..
    · rw [State.stream_doeReply, hstream, hx, hprogd, decide_eq_true rfl, Bool.or_true]
    · rw [State.stream_doeReply, hstream, hx]
      rfl
    · rw [State.stream_doeReply, hstream, hx]
      rfl
    · rw [State.stream_doeReply, hstream, hx]
      exact sget_sput_ne _ _ hj
    · rw [State.stream_doeReply, hstream, hx, hprogd, decide_eq_false hj, Bool.or_false]
    · rw [State.stream_doeReply, State.stream_setStream_ne _ _ (.inr hj)]
    · rw [State.port_doeReply, State.port_setStream]
  case go =>
    intro p i ks s hp hks h
    refine ⟨_, exec_kSetGo hp hks h, rfl, ?_, fun j hj => ?_, rfl, rfl, ?_⟩
    · rw [State.stream_doeReply, State.stream_setStream_same]
    · rw [State.stream_doeReply, State.stream_setStream_ne _ _ (.inr hj)]
    · rw [State.port_doeReply, State.port_setStream]
  case stop =>
    intro p i ks s hp hi hactive hctxs hcmds
    exact exec_kSetStop hp hi hactive ⟨hctxs, hcmds⟩
  case fail =>
    intro p i s hp hi hctxs hcmds
    exact exec_ideCheckFailure hp hi ⟨hctxs, hcmds⟩
  case down =>
    intro p s hp hctxs hcmds
    exact exec_linkDown hp ⟨hctxs, hcmds⟩
  case up =>
    intro p s hp hreset hperst hdevrst hclk
    exact ⟨_, exec_linkUp ((s.portThere_iff p).2 hp) hreset hperst hdevrst hclk, State.port_setPort_same .., rfl, rfl,
      fun q hq => State.port_setPort_ne s _ hq⟩
  case spdm =>
    intro p body s hp
    have hthere := (s.portThere_iff p).2 hp
    exact ⟨_, exec_spdmRequest_measurements hthere body, rfl, rfl, exec_spdmRequest_certificate hthere _⟩
  case flrVf =>
    intro i f s hi hlo hhi hvf hidle
    obtain ⟨hque, hreset, hxlt, hstaged, hlatched, hother, hports⟩ := State.flr_vf_spec hlo hidle
    refine ⟨_, exec_flr_vf hi hlo hhi hvf, hque, hreset, fun e he => ?_, fun e he hne => ?_, hstaged, hlatched, hother, hports⟩
    · rw [hxlt] at he
      exact of_decide_eq_true (List.mem_filter.1 he).2
    · rw [hxlt]
      exact List.mem_filter.2 ⟨he, decide_eq_true hne⟩
  case flrPf =>
    intro i f s hi hf hcmds
    obtain ⟨hcmds', hport, hown, hrest, hother⟩ := State.flr_pf_spec (s := s) (f := f) (by omega) hcmds
    refine ⟨_, exec_flr_pf hi hf, hcmds', fun n => ?_, fun k => ?_, ?_, ?_, ?_, ?_, ?_, hown, hrest, hother⟩
    · exact State.vf_of_vfs (by rw [hport]; rfl) n
    · exact State.stream_of_streams (by rw [hport]; rfl) k
    all_goals rw [hport]; rfl
  case numRefused =>
    intro p n vfe s hp hattached h
    exact ⟨_, exec_numvfsWrite_refused hp hattached h, State.port_setPort_same .., rfl,
      fun q hq => State.port_setPort_ne s _ hq⟩
  case numSet =>
    intro p n vfe s hp hattached
    refine ⟨_, exec_numvfsWrite_sets hp hattached, ?_, ?_, fun k hvfe hk => ?_, ?_, ?_, rfl,
      fun q hq => State.port_setPort_ne s _ hq⟩
    · rw [State.port_setVfs]
    · rw [State.port_setVfs]
    · rw [State.port_setVfs] at hk
      rw [hvfe, State.vf_setVfs_kept s p hk]
    · rw [State.port_setVfs]
    · rw [State.port_setVfs]
  case cfgVf =>
    intro f v s hlo hhi hvf
    obtain ⟨hopen, hlocked, hmse, hd3, hpri, hats⟩ := cfgVf_clauses hlo (State.fnThere_vf hlo hhi hvf) v
    exact ⟨hopen, hlocked, fun hl => hmse (.inl hl), fun hrun hctxs hcmds => hmse (.inr ⟨hrun, hctxs, hcmds⟩), hd3, hpri, hats⟩
  case cfgPf =>
    intro f w s hf hd3 hmsix
    obtain ⟨hque, hport⟩ := s.cfgPf_sets f hd3 hmsix
    obtain ⟨hvfs, hstreams⟩ := (s.port f).configure_frame w
    refine ⟨_, exec_configSpaceWrite_pf (by omega) (State.fnThere_pf hf), hque, fun n => ?_, fun k => ?_, ?_, ?_, ?_, ?_, ?_⟩
    · exact State.vf_of_vfs (by rw [hport, hvfs]) n
    · exact State.stream_of_streams (by rw [hport, hstreams]) k
    all_goals
      rintro y rfl
      exact hport

end Sys2Proof.Machine
end

section
/-!
PROOFS. Doorbells and the registers of a queue pair (spec/09 R254, R255, spec/10 R271 to R273, spec/12 R337, spec/17 R461):
where the registers of a local queue of VD 0 lie in PF BAR0, what a write of QUE_QCTL or CQHEAD makes of the pair, the
round robin of a quiet VD, and a slot refused at acceptance.
-/
namespace Sys2Proof.Machine

/-! ### Registers of PF BAR0 from baseQue on -/

/-- The registers that lie below QUE. -/
def spansBelowQue : List RegSpan := spansGlb ++ spansPct ++ spansErr ++ spansMbox baseSec ++ spansCmp ++ spansSch

/-- The registers above QUE's local queues. -/
def spansAboveLq : List RegSpan := [
  { base := baseQue + 0x9000, wide := true, mask := ones64 }, { base := baseQue + 0x9008, mask := 0x7FFFF },
  { base := baseQue + 0xA000, count := 16384, mask := 0xFFFF }] ++
  spansXlt ++ spansHbm ++ spansSbk ++ spansDrl ++ spansFwl ++ spansToll

theorem pfSpans_eq : pfSpans = spansBelowQue ++ (spansLq baseQue ++ spansAboveLq) := by
  simp only [pfSpans, spansBelowQue, spansAboveLq, spansQue, List.append_assoc]

/-- A span starts no register at or past its end. -/
theorem RegSpan.not_starts_of_end_le {r : RegSpan} {a : Nat} (hpos : 0 < r.stride) (h : r.base + r.count * r.stride ≤ a) :
    r.starts a = false := by
  have hd : r.count ≤ (a - r.base) / r.stride := (Nat.le_div_iff_mul_le hpos).2 (by omega)
  rw [RegSpan.starts]
  rw [if_neg (by omega)]

theorem spansBelowQue_end : ∀ r ∈ spansBelowQue, 0 < r.stride ∧ r.base + r.count * r.stride ≤ baseQue := by decide

theorem find_spansBelowQue {a : Nat} (h : baseQue ≤ a) : spansBelowQue.find? (fun r => r.starts a) = none := by
  rw [List.find?_eq_none]
  intro r hr
  obtain ⟨hpos, hend⟩ := spansBelowQue_end r hr
  simp [RegSpan.not_starts_of_end_le hpos (hend.trans h)]

/-- A register of a local queue is found among the local queues' spans. -/
theorem findReg_lq {a : Nat} {r : RegSpan} (h : baseQue ≤ a) (hr : (spansLq baseQue).find? (fun r => r.starts a) = some r) :
    findReg pfSpans a = some (a, r, false) := by
  rw [findReg, pfSpans_eq, List.find?_append, List.find?_append, find_spansBelowQue h, hr]
  rfl

/-- The span of QUE_QCTL. -/
def spanQctl : RegSpan := { base := baseQue, count := 256, stride := 0x40, mask := 0x800FF7FF }

/-- The span of the register that holds CQHEAD and CQTAIL. -/
def spanCqhead : RegSpan := { base := baseQue + 0x1C, count := 256, stride := 0x40 }

/-- In spans of 256 local queues a register starts at its own offset only. -/
theorem RegSpan.starts_lq (r : RegSpan) {o o' lq : Nat} (hlq : lq < 256) (ho : o < 64) (ho' : o' < 64) (hb : r.base = baseQue + o)
    (hc : r.count = 256) (hs : r.stride = 64) (hc2 : r.count2 = 1) :
    r.starts (baseQue + 64 * lq + o') = decide (o = o') := by
  rw [RegSpan.starts, hb, hc, hs, hc2]
  split_ifs with h1 h2 <;> simp <;> omega

theorem findReg_qctl {lq : Nat} (h : lq < 256) :
    findReg pfSpans (baseQue + 64 * lq) = some (baseQue + 64 * lq, spanQctl, false) := by
  refine findReg_lq (by omega) ?_
  rw [spansLq, List.find?_cons_of_pos]
  · rfl
  · exact spanQctl.starts_lq (o := 0) (o' := 0) h (by decide) (by decide) rfl rfl rfl rfl

theorem findReg_cqhead {lq : Nat} (h : lq < 256) :
    findReg pfSpans (baseQue + 64 * lq + 0x1C) = some (baseQue + 64 * lq + 0x1C, spanCqhead, false) := by
  have hs (r : RegSpan) (o : Nat) := r.starts_lq (o := o) (o' := 0x1C) h
  refine findReg_lq (by omega) ?_
  rw [spansLq, List.find?_cons_of_neg, List.find?_cons_of_neg, List.find?_cons_of_neg, List.find?_cons_of_neg,
    List.find?_cons_of_pos]
  · rfl
  · exact hs spanCqhead 0x1C (by decide) (by decide) rfl rfl rfl rfl
  · simp [hs _ 0x18]
  · simp [hs _ 0x10]
  · simp [hs _ 8]
  · simp [hs _ 0]

/-- The bits of QUE_QCTL that lie in a field. -/
def qctlFields : List RegField := [⟨31, 31, 0, fun _ => true, false⟩, ⟨19, 16, 0, fun _ => true, false⟩,
  ⟨15, 12, 0, fun _ => true, false⟩, ⟨10, 0, 0, fun _ => true, false⟩]

theorem and_qctlMask {n : Nat} (h : n < 2 ^ 32) (h20 : bitsOf n 30 20 = 0) (h11 : bitOf n 11 = false) :
    n &&& spanQctl.mask = n := by
  have hmask : spanQctl.mask = packFields (fun f => bitsOf (2 ^ 32 - 1) f.hi f.lo) qctlFields := by decide
  rw [hmask, ← packFields_bitsOf_eq_and n (Nat.le_refl 32) (by decide)]
  simp [packFields, qctlFields, bitsOf, bitOf] at h20 h11 ⊢
  omega

/-! ### What a PF's write of a local queue's register reaches -/

/-- The function a pair of VD 0 belongs to after PF f enabled it. -/
def State.pfOwner (s : State) (f : Nat) : Nat := if s.host.single then 0 else f

section
variable {s : State} {a : Access} {lq q : Nat} (hf : a.fn < 2) (hfull : a.full = true) (hlq : lq < 256)
  (hq : s.lqPair 0 lq = some q)
include hf hlq hq

theorem State.pfSet_lq {o v : Nat} (ho : o < 64) :
    s.pfSet a.fn (baseQue + 64 * lq + o) v = s.queWrite (s.pfOwner a.fn) q o v := by
  have hne (c : Nat) (hc : c < baseQue) : ¬ baseQue + 64 * lq + o = c := by omega
  have hidx : (baseQue + 64 * lq + o - baseQue) / 0x40 = lq := by omega
  have hoff : (baseQue + 64 * lq + o) % 0x40 = o := by
    rw [baseQue]
    omega
  have hown : (if (s.host.single : Prop) ∨ 2 ≤ a.fn then 0 else a.fn) = s.pfOwner a.fn := by
    simp [State.pfOwner, Nat.not_le_of_lt hf]
  rw [State.pfSet]
  iterate 12 rw [if_neg (hne _ (by decide))]
  rw [if_pos (by omega), hidx, hq, hoff, ← hown]

include hfull

/-- A PF's whole write of a DWORD register of a local queue, its reserved bits 0. -/
theorem State.hostWrite32_lq {o v : Nat} {r : RegSpan} (ho : o < 64) (ho4 : o % 4 = 0)
    (hg : s.pfGate a.fn (baseQue + 64 * lq + o) = .pass)
    (hr : findReg pfSpans (baseQue + 64 * lq + o) = some (baseQue + 64 * lq + o, r, false)) (hw : r.wide = false)
    (hv : v < 2 ^ 32) (hmask : v &&& r.mask = v) :
    s.hostWrite32 a (baseQue + 64 * lq + o) v = s.queWrite (s.pfOwner a.fn) q o v := by
  rw [State.hostWrite32_pf hf (by rw [baseQue]; omega) hg hfull, Nat.mod_eq_of_lt hv, State.pfWrite,
    if_neg (by rw [baseQue, baseDbg]; omega), hr]
  simp only [hw, Bool.false_eq_true, if_false, State.pfSetR, hmask, if_true]
  exact State.pfSet_lq hf hlq hq ho

theorem exec_cqheadWrite_pf {v : Nat} (hv : v < 65536) (hg : s.pfGate a.fn (baseQue + 64 * lq + 0x1C) = .pass) :
    exec (.cqheadWrite a lq v) s = .next (s.writeCqhead q v) := by
  have hmask : v * 65536 &&& spanCqhead.mask = v * 65536 := by
    change v * 65536 &&& (2 ^ 32 - 1) = _
    rw [Nat.and_two_pow_sub_one_eq_mod, Nat.mod_eq_of_lt (by omega)]
  change execCqheadWrite a lq v s = _
  rw [execCqheadWrite, if_neg (Nat.not_le_of_lt hlq), if_pos hf, Nat.mod_eq_of_lt hv,
    State.hostWrite32_lq hf hfull hlq hq (by decide) (by decide) hg (findReg_cqhead hlq) rfl (by omega) hmask, State.queWrite,
    if_neg (by decide), if_pos rfl, show v * 65536 / 2 ^ 16 = v from Nat.mul_div_cancel _ (by decide)]

theorem exec_queQctlWrite_pf {v : Word} (h20 : bitsOf v.toNat 30 20 = 0) (h11 : bitOf v.toNat 11 = false)
    (hg : s.pfGate a.fn (baseQue + 64 * lq) = .pass) :
    exec (.queQctlWrite a lq v) s = .next (s.writeQctl (s.pfOwner a.fn) q v.toNat) := by
  change execQueQctlWrite a lq v s = _
  rw [execQueQctlWrite, if_neg (Nat.not_le_of_lt hlq), if_pos hf]
  exact congrArg Host.Outcome.next (State.hostWrite32_lq (o := 0) hf hfull hlq hq (by decide) (by decide) hg
    (findReg_qctl hlq) rfl v.isLt
    (and_qctlMask v.isLt h20 h11))
end

/-! ### QUE_QCTL and CQHEAD of a pair of VD 0 -/

theorem State.writeHeldN_nil {s : State} {q : Nat} (h : (s.pair q).held = []) (n : Nat) : s.writeHeldN q n = s := by
  cases n with
  | zero => rfl
  | succ n => rw [State.writeHeldN, State.writeHeld_nil h, if_neg (Nat.lt_irrefl _)]

theorem State.writeCqhead_nil {s : State} {q v : Nat} (h : (s.pair q).held = []) (hv : v < 65536) :
    s.writeCqhead q v = s.setPair q { s.pair q with cqhead := v } := by
  rw [State.writeCqhead, Nat.mod_eq_of_lt hv]
  exact State.writeHeldN_nil (by rw [State.pair_setPair_same]; exact h) _

/-- The ring sizes and the vector a write of QUE_QCTL names. -/
def QueuePair.sized (p : QueuePair) (n : Nat) : QueuePair :=
  { p with sqsz := bitsOf n 19 16, cqsz := bitsOf n 15 12, vec := bitsOf n 10 0 }

/-- A pair enabled by function f with an empty ring. -/
def QueuePair.started (p : QueuePair) (f n : Nat) : QueuePair :=
  { p.sized n with
    en := true, pf := f, st := .active, err := 0, head := 0, tail := 0, cqhead := 0, cqtail := 0, phase := true }

section
variable {s : State} {q n : Nat} (hass : (s.pair q).assigned = true) (hvd : (s.pair q).vd = 0)
include hass hvd

/-- Sizes and vector cannot change while EN is set. -/
theorem State.writeQctl_fixed (hen : (s.pair q).en = true)
    (hne : bitsOf n 19 16 ≠ (s.pair q).sqsz ∨ bitsOf n 15 12 ≠ (s.pair q).cqsz ∨ bitsOf n 10 0 ≠ (s.pair q).vec) (f : Nat) :
    s.writeQctl f q n = s.setRsvw := by
  rw [State.writeQctl]
  simp only [hass, hen, hne, Bool.not_true, Bool.false_eq_true, if_false, true_and, if_true, State.queueRsvw, hvd]

variable (h20 : bitsOf n 30 20 = 0) (h11 : bitOf n 11 = false) (hsq : bitsOf n 19 16 ≤ 10) (hcq : bitsOf n 15 12 ≤ 10)
  (hvec : 16 ≤ bitsOf n 10 0)
include h20 h11 hsq hcq hvec

/-- A write whose codes are all defined, of a pair that is not enabled or keeps its sizes and vector. -/
theorem State.writeQctl_eq (hsame : ¬ ((s.pair q).en = true ∧
      (bitsOf n 19 16 ≠ (s.pair q).sqsz ∨ bitsOf n 15 12 ≠ (s.pair q).cqsz ∨ bitsOf n 10 0 ≠ (s.pair q).vec))) (f : Nat) :
    s.writeQctl f q n =
      if bitOf n 31 = true ∧ (s.pair q).en = false then
        (s.setPair q ((s.pair q).started f n)).writeHeldN q (s.pair q).held.length
      else if bitOf n 31 = false then s.setPair q { (s.pair q).sized n with en := false, st := .disabled }
      else s.setPair q ((s.pair q).sized n) := by
  rw [State.writeQctl]
  simp only [hass, hvd, hsame, h20, h11, hsq, hcq, hvec, Nat.not_lt.2 hsq, Nat.not_lt.2 hcq, Bool.not_true, Bool.not_eq_true',
    Bool.false_eq_true, if_false, if_true, decide_true, ne_eq, not_true_eq_false, decide_false, Bool.or_false,
    QueuePair.started, QueuePair.sized]

/-- EN set on a pair with nothing held starts an empty ring. -/
theorem State.writeQctl_enable (hon : bitOf n 31 = true) (hen : (s.pair q).en = false) (hheld : (s.pair q).held = []) (f : Nat) :
    s.writeQctl f q n = s.setPair q ((s.pair q).started f n) := by
  rw [State.writeQctl_eq hass hvd h20 h11 hsq hcq hvec (by simp [hen]), if_pos ⟨hon, hen⟩]
  exact State.writeHeldN_nil (by rw [State.pair_setPair_same]; exact hheld) _

/-- EN cleared disables the queue. -/
theorem State.writeQctl_disable (hoff : bitOf n 31 = false) (hsz : bitsOf n 19 16 = (s.pair q).sqsz)
    (hcsz : bitsOf n 15 12 = (s.pair q).cqsz) (hv : bitsOf n 10 0 = (s.pair q).vec) (f : Nat) :
    s.writeQctl f q n = s.setPair q { s.pair q with en := false, st := .disabled } := by
  rw [State.writeQctl_eq hass hvd h20 h11 hsq hcq hvec (by simp [hsz, hcsz, hv]), if_neg (by simp [hoff]), if_pos hoff,
    QueuePair.sized, hsz, hcsz, hv]
end

/-! ### Doorbells -/

/-- A queue whose slots the engine does not take now: only its VD's ticks serve it, or the engine takes none. -/
theorem State.serve_eq_self {s : State} {q : Nat} (h : s.ticked q = true ∨ s.canTake q = false) : s.serve q = s := by
  rw [State.serve]
  split
  next => rfl
  next hticked =>
    rw [State.takeSlots, if_neg (by simp [h.resolve_left hticked])]

section
variable {s : State} {a : Access} {q tail : Nat} (hfull : a.full = true) (htail : tail < 65536)
include hfull htail

theorem State.doorbell_full : s.doorbell a q tail = s.ringDoorbell q tail := by
  rw [State.doorbell, if_pos hfull, if_pos htail]

/-- A doorbell of a queue not active, or with a tail outside the ring, only counts in DBERR. -/
theorem State.doorbell_counts (h : (s.pair q).st ≠ .active ∨ ringSlots (s.pair q).sqsz ≤ tail) :
    s.doorbell a q tail = s.setPair q { s.pair q with dberr := min ((s.pair q).dberr + 1) 65535 } := by
  rw [State.doorbell_full hfull htail, State.ringDoorbell, Nat.mod_eq_of_lt htail, if_pos h]
  rfl

/-- A doorbell of an active queue sets its tail. -/
theorem State.doorbell_sets (hst : (s.pair q).st = .active) (hroom : tail < ringSlots (s.pair q).sqsz)
    (hserve : (s.setPair q { s.pair q with tail := tail }).serve q = s.setPair q { s.pair q with tail := tail }) :
    s.doorbell a q tail = s.setPair q { s.pair q with tail := tail } := by
  rw [State.doorbell_full hfull htail, State.ringDoorbell, Nat.mod_eq_of_lt htail, if_neg (by simp [hst, hroom])]
  exact hserve
end

section
variable {s : State} {a : Access} {page tail : Nat} (hrun : s.glb.stage = .run)
include hrun

/-- A doorbell of a PF reaches a queue of VD 0 that the PF owns. -/
theorem exec_doorbellWrite_pf (hf : a.fn < 2) (hq : page < 16384) (hg : s.pfGate a.fn 0 = .pass)
    (hass : (s.pair page).assigned = true) (hvd : (s.pair page).vd = 0)
    (hown : (if s.host.single then 0 else (s.pair page).pf) = a.fn) :
    exec (.doorbellWrite a page tail) s = .next (s.doorbell a page tail) := by
  change execDoorbellWrite a page tail s = _
  rw [execDoorbellWrite, if_neg (by simp [hrun]), if_pos hf, if_neg (by simp [hg, hq]), if_pos ⟨hass, hvd, hown⟩]

/-- A doorbell of a VF reaches the local queue of its VD. -/
theorem exec_doorbellWrite_vf {q : Nat} (hf : 2 ≤ a.fn) (hpage : page < 256) (hg : s.vfGate a 0x10000 = .pass)
    (hq : s.lqPair (s.vf (fnPort a.fn) (fnVf a.fn)).vd page = some q) :
    exec (.doorbellWrite a page tail) s = .next (s.doorbell a q tail) := by
  change execDoorbellWrite a page tail s = _
  rw [execDoorbellWrite, if_neg (by simp [hrun]), if_neg (Nat.not_lt.2 hf), if_neg (Nat.not_le.2 hpage), hg, hq]
end

/-! ### A quiet VD's tick (R337) -/

/-- A queue of VD v with slots to take. -/
def State.PendingFor (s : State) (v q : Nat) : Prop :=
  (s.pair q).assigned = true ∧ (s.pair q).vd = v ∧ (s.pair q).st = .active ∧ (s.pair q).head ≠ (s.pair q).tail

/-- The queues of VD v with slots to take, in the order of their numbers. -/
def State.pendingQueues (s : State) (v : Nat) : List Nat :=
  (s.que.pairs.filter fun e => e.2.assigned && e.2.vd = v && e.2.st = .active && e.2.head ≠ e.2.tail).map Prod.fst

theorem State.mem_pendingQueues {s : State} (h : SMap.wf ({} : QueuePair) s.que.pairs = true) {v q : Nat} :
    q ∈ s.pendingQueues v ↔ s.PendingFor v q := by
  simp only [State.pendingQueues, List.mem_map, List.mem_filter, Prod.exists, exists_and_right, exists_eq_right, SMap.mem_iff h,
    Bool.and_eq_true, decide_eq_true_eq]
  constructor
  · rintro ⟨x, ⟨rfl, -⟩, ⟨⟨hass, hvd⟩, hst⟩, hpend⟩
    exact ⟨hass, hvd, hst, hpend⟩
  · rintro ⟨hass, hvd, hst, hpend⟩
    refine ⟨s.pair q, ⟨rfl, fun hd => ?_⟩, ⟨⟨hass, hvd⟩, hst⟩, hpend⟩
    rw [hd] at hass
    exact Bool.false_ne_true hass

theorem State.pendingQueues_sorted {s : State} (h : SMap.wf ({} : QueuePair) s.que.pairs = true) (v : Nat) :
    (s.pendingQueues v).Pairwise (· < ·) :=
  List.pairwise_map.2 (((SMap.wf_iff _).1 h).1.filter _)

/-- The member of a list of queues that is served next after `last`: the first one after it, else the first. -/
def nextAfter (last : Nat) (l : List Nat) : Option Nat := (l.find? fun q => last < q).or l.head?

/-- In a sorted list, a member after `last` that no other such member precedes comes next. -/
theorem nextAfter_eq_of_after {last q : Nat} {l : List Nat} (hs : l.Pairwise (· < ·)) (hq : q ∈ l) (hlast : last < q)
    (hmin : ∀ r ∈ l, r ≤ last ∨ q ≤ r) : nextAfter last l = some q := by
  obtain ⟨l₁, l₂, rfl⟩ := List.append_of_mem hq
  have hbefore (r : Nat) (hr : r ∈ l₁) : r < q := (List.pairwise_append.1 hs).2.2 r hr q (List.mem_cons_self ..)
  have hnone : l₁.find? (fun q => decide (last < q)) = none := by
    rw [List.find?_eq_none]
    intro r hr
    have := hmin r (List.mem_append_left _ hr)
    have := hbefore r hr
    simp only [decide_eq_true_eq]
    omega
  rw [nextAfter, List.find?_append, hnone, List.find?_cons_of_pos (by simpa using hlast)]
  rfl

/-- Where no member comes after `last`, the least member comes next. -/
theorem nextAfter_eq_of_wrap {last q : Nat} {l : List Nat} (hs : l.Pairwise (· < ·)) (hq : q ∈ l)
    (hmin : ∀ r ∈ l, r ≤ last ∧ q ≤ r) : nextAfter last l = some q := by
  have hnone : l.find? (fun q => decide (last < q)) = none := by
    rw [List.find?_eq_none]
    intro r hr
    simpa using (hmin r hr).1
  rw [nextAfter, hnone, Option.none_or]
  cases l with
  | nil => cases hq
  | cons r l =>
    rcases List.mem_cons.1 hq with rfl | hq
    · rfl
    · have := (List.pairwise_cons.1 hs).1 q hq
      have := (hmin r (List.mem_cons_self ..)).2
      omega

theorem exec_queueEngineTick_eq {v : Nat} {s : State} (hv : v ≠ 0) (hquiet : (s.vd v).quiet = true) :
    exec (.queueEngineTick v) s = .next (match nextAfter (s.vd v).lastTick (s.pendingQueues v) with
      | none => s
      | some q => (s.setVd v { s.vd v with lastTick := q }).takeSlot q) := by
  change execQueueEngineTick v s = _
  rw [execQueueEngineTick, if_neg (by simp [hv, hquiet])]
  rfl

/-! ### A slot refused at acceptance (R272, R275) -/

/-- The command in the slot at the head of a queue. -/
def State.headCmd (s : State) (q : Nat) : Cmd :=
  { seq := s.que.seq, q := q, vd := (s.pair q).vd, slotIdx := (s.pair q).head,
    slot := BitVec.ofNat 512 (readLE s.host.mem ((s.pair q).sqbase + 64 * (s.pair q).head) 64), tacc := s.toll }

/-- The slot at the head of a queue is taken. -/
def State.popSlot (s : State) (q : Nat) : State :=
  let t := s.setPair q { s.pair q with head := ((s.pair q).head + 1) % ringSlots (s.pair q).sqsz }
  { t with que := { t.que with seq := s.que.seq + 1 } }

theorem State.takeSlot_reject {s : State} {q st d : Nat} {pages : Option Nat} (htake : s.canTake q = true)
    (hlive : s.qLive q = true) (hpages : s.sealedPages (s.headCmd q) = (pages, s))
    (hfail : s.acceptFail (s.headCmd q) pages = some (st, d)) :
    s.takeSlot q = (s.popSlot q).reject (s.headCmd q) st d := by
  change s.sealedPages { seq := _, q := _, vd := _, slotIdx := _, slot := _, tacc := _ } = _ at hpages
  change s.acceptFail { seq := _, q := _, vd := _, slotIdx := _, slot := _, tacc := _ } _ = _ at hfail
  rw [State.takeSlot]
  simp only [htake, hlive, Bool.not_true, Bool.false_eq_true, if_false, hpages, hfail]
  rfl

/-- A refused command leaves the slots of its ring, the commands and the objects as they are. -/
theorem State.posted_reject (s : State) (c : Cmd) (st d : Nat) :
    (s.journal { c with rej := true, status := st, detail := d, phase := .done } true).Posted (s.reject c st d) :=
  State.posted_postRecord ..

/-- The journal record of a refused command is done. -/
theorem State.jrec_reject (s : State) (c : Cmd) (st d : Nat) :
    ((s.reject c st d).jrec (c.seq % journalSize)).seq = c.seq ∧
      ((s.reject c st d).jrec (c.seq % journalSize)).done = true := by
  rw [State.jrec, (s.posted_reject c st d).que]
  exact s.jrec_journal { c with rej := true, status := st, detail := d, phase := .done } true

theorem State.reject_popSlot (s : State) (q st d : Nat) :
    let t := (s.popSlot q).reject (s.headCmd q) st d
    t.que.seq = s.que.seq + 1 ∧ (t.pair q).head = ((s.pair q).head + 1) % ringSlots (s.pair q).sqsz ∧
      t.hasCmd s.que.seq = s.hasCmd s.que.seq ∧ (t.jrec (s.que.seq % journalSize)).seq = s.que.seq ∧
      (t.jrec (s.que.seq % journalSize)).done = true ∧ t.que.objs = s.que.objs := by
  intro t
  have hposted := (s.popSlot q).posted_reject (s.headCmd q) st d
  obtain ⟨hseq, hdone⟩ := (s.popSlot q).jrec_reject (s.headCmd q) st d
  have hcmds : t.que.cmds = s.que.cmds := by rw [hposted.que]; rfl
  refine ⟨?_, ?_, State.hasCmd_of_cmds hcmds _, hseq, hdone, ?_⟩
  · rw [hposted.que]; rfl
  · rw [hposted.head q]
    exact congrArg QueuePair.head (s.pair_setPair_same q _)
  · rw [hposted.que]; rfl

/-- Settles O39: the access reaches the pair through the gate and the register's span; what it makes of the pair is the
equation of its own lemma. A tick's candidates are a sorted list, and a refused slot posts its record at once. -/
theorem queueRegisters : Obligations.QueueRegisters := by
  unfold Obligations.QueueRegisters
  refine ⟨?pf, ?vf, ?qctl, ?cqhead, ?tick, ?refused⟩
  case pf =>
    intro a q tail s hrun hf hq hg hfull htail p hass hvd hown
    rw [exec_doorbellWrite_pf hrun hf hq hg hass hvd hown]
    refine ⟨fun h => by rw [State.doorbell_counts hfull htail h], fun hst hroom h => ?_⟩
    refine congrArg Host.Outcome.next (State.doorbell_sets hfull htail hst hroom ?_)
    rcases h with rfl | h
    · exact State.serve_empty (by rw [State.pair_setPair_same])
    · exact State.serve_eq_self (.inr (by simp [State.canTake, h]))
  case vf =>
    intro a lq q tail v s hrun hf hlq hv hg hfull htail hq
    rw [exec_doorbellWrite_vf hrun hf hlq hg (hv ▸ hq)]
    refine ⟨fun h => by rw [State.doorbell_counts hfull htail (.inl h)], fun hst hroom hquiet => ?_⟩
    refine congrArg Host.Outcome.next (State.doorbell_sets hfull htail hst hroom (State.serve_eq_self (.inl ?_)))
    rw [State.ticked, State.pair_setPair_same]
    exact hquiet
  case qctl =>
    intro a lq q v s hf hfull hlq hg hq p n hass hvd h20 h11 hsq hcq hvec
    rw [exec_queQctlWrite_pf hf hfull hlq hq h20 h11 hg]
    refine ⟨fun hon hen hheld => ?_, fun hen hne => ?_, fun hoff _ hsz hcsz hv => ?_⟩
    · rw [State.writeQctl_enable hass hvd h20 h11 hsq hcq hvec hon hen hheld]
      rfl
    · rw [State.writeQctl_fixed hass hvd hen hne]
      rfl
    · rw [State.writeQctl_disable hass hvd h20 h11 hsq hcq hvec hoff hsz hcsz hv]
  case cqhead =>
    intro a lq q v s hf hfull hlq hv hg hq hheld
    rw [exec_cqheadWrite_pf hf hfull hlq hq hv hg, State.writeCqhead_nil hheld hv]
  case tick =>
    intro v s hv hquiet hwf pending after
    have hmem (q : Nat) : q ∈ s.pendingQueues v ↔ pending q := State.mem_pendingQueues hwf
    have hsort := State.pendingQueues_sorted hwf v
    rw [exec_queueEngineTick_eq hv hquiet]
    refine ⟨fun hnone => ?_, fun q hq hnext => ?_⟩
    · rw [List.eq_nil_iff_forall_not_mem.2 fun q hq => hnone q ((hmem q).1 hq)]
      rfl
    · have hfirst : nextAfter (s.vd v).lastTick (s.pendingQueues v) = some q := by
        rcases hnext with h | h
        · exact nextAfter_eq_of_after hsort ((hmem q).2 hq) (h q hq).1 fun r hr => (h r ((hmem r).1 hr)).2
        · exact nextAfter_eq_of_wrap hsort ((hmem q).2 hq) fun r hr => h r ((hmem r).1 hr)
      rw [hfirst]
  case refused =>
    intro q st d pages s htake hlive p c hpages hfail
    rw [State.takeSlot_reject htake hlive hpages hfail]
    exact s.reject_popSlot q st d

end Sys2Proof.Machine
end

section
/-!
PROOFS. Creating a VD (spec/09 R252, spec/11 R296, R297): what the end of a command's effect changes, the tenant pairs that
are free, and the four ends of VD_CREATE.
-/
namespace Sys2Proof.Machine

/-! ### The end of a command's effect (R278) -/

/-- `t` differs from `s` in the commands the engine holds only. -/
def State.OnlyCmds (s t : State) : Prop := t = { s with que := { s.que with cmds := t.que.cmds } }

theorem State.onlyCmds_modCmd (s : State) (q : Nat) (f : Cmd → Cmd) : s.OnlyCmds (s.modCmd q f) := by
  unfold State.modCmd
  split <;> exact rfl

theorem State.onlyCmds_finish (s : State) (q st d : Nat) : s.OnlyCmds (s.finish q st d) := s.onlyCmds_modCmd ..

theorem State.OnlyCmds.trans {s t u : State} (h : s.OnlyCmds t) (h' : t.OnlyCmds u) : s.OnlyCmds u := by
  rw [State.OnlyCmds, h']
  conv_lhs => rw [h]

theorem State.onlyCmds_finishR (s : State) (q st d r0 r1 : Nat) : s.OnlyCmds (s.finishR q st d r0 r1) :=
  (s.onlyCmds_modCmd ..).trans (State.onlyCmds_finish ..)

section
variable {s t : State} (h : s.OnlyCmds t)
include h

theorem State.OnlyCmds.vds : t.vds = s.vds := by rw [h]
theorem State.OnlyCmds.host : t.host = s.host := by rw [h]
theorem State.OnlyCmds.sbk : t.sbk = s.sbk := by rw [h]
theorem State.OnlyCmds.xlt : t.xlt = s.xlt := by rw [h]
theorem State.OnlyCmds.vd (v : Nat) : t.vd v = s.vd v := by rw [State.vd, h.vds, State.vd]
theorem State.OnlyCmds.pair (q : Nat) : t.pair q = s.pair q := by rw [h]; rfl
theorem State.OnlyCmds.vf (p n : Nat) : t.vf p n = s.vf p n := by rw [h]; rfl
end

/-- A command that met no status takes the first it meets. -/
theorem Cmd.meet_first {c : Cmd} (h : c.status = stOK) {st : Nat} (hst : st ≠ stOK) (d : Nat) :
    c.meet st d = { c with status := st, detail := d } := by
  rw [Cmd.meet, if_pos (by rw [h]; exact statusRank_lt_ok hst)]

section
variable {s : State} {q : Nat} (h : s.hasCmd q = true) (hok : (s.cmd q).status = stOK)
include h hok

/-- A command refused after it started ends with the status and the DETAIL. -/
theorem State.refused_finish {st : Nat} (hst : st ≠ stOK) (d : Nat) :
    (s.finish q st d).Ended q st ∧ ((s.finish q st d).cmd q).detail = d := by
  refine ⟨State.ended_finish_of h (.inl hok) d, ?_⟩
  rw [State.finish, State.modCmd_eq h, State.cmd_setCmd_same, Cmd.meet_first hok hst]

/-- A command that succeeds ends with its first result. -/
theorem State.ended_finishR (r0 r1 : Nat) :
    (s.finishR q stOK 0 r0 r1).Ended q stOK ∧ ((s.finishR q stOK 0 r0 r1).cmd q).result0 = r0 := by
  obtain ⟨t, ht⟩ : ∃ t, t = s.setCmd q { s.cmd q with result0 := r0, result1 := r1 } := ⟨_, rfl⟩
  have hcmd : t.cmd q = { s.cmd q with result0 := r0, result1 := r1 } := by rw [ht, State.cmd_setCmd_same]
  have hhas : t.hasCmd q = true := ht ▸ State.hasCmd_setCmd h (State.seq_of_hasCmd h)
  rw [State.finishR, State.modCmd_eq h, ← ht]
  refine ⟨State.ended_finish hhas (by rw [hcmd]; exact hok) 0, ?_⟩
  rw [State.finish, State.modCmd_eq hhas, State.cmd_setCmd_same, Cmd.meet, hcmd, hok, if_neg (lt_irrefl _)]
end

/-! ### The least members of a sorted list -/

/-- Sorted members of a sorted list that every other member exceeds are where it begins. -/
theorem eq_append_of_least {l qs : List Nat} (hl : l.Pairwise (· < ·)) (hqs : qs.Pairwise (· < ·)) (hsub : ∀ q ∈ qs, q ∈ l)
    (hleast : ∀ q ∈ l, q ∉ qs → ∀ r ∈ qs, r < q) : l = qs ++ l.filter (fun q => decide (q ∉ qs)) := by
  have hsort : (qs ++ l.filter (fun q => decide (q ∉ qs))).Pairwise (· < ·) := by
    refine List.pairwise_append.2 ⟨hqs, hl.filter _, fun r hr q hq => ?_⟩
    obtain ⟨hmem, hnot⟩ := List.mem_filter.1 hq
    exact hleast q hmem (by simpa using hnot) r hr
  have hperm : l.Perm (qs ++ l.filter (fun q => decide (q ∉ qs))) := by
    refine (List.perm_ext_iff_of_nodup (hl.imp Nat.ne_of_lt) (hsort.imp Nat.ne_of_lt)).2 fun q => ?_
    rw [List.mem_append, List.mem_filter, decide_eq_true_eq]
    exact ⟨fun h => (em (q ∈ qs)).imp_right fun hn => ⟨h, hn⟩, fun h => h.elim (hsub q) And.left⟩
  exact hperm.eq_of_pairwise' (hl.imp Nat.le_of_lt) (hsort.imp Nat.le_of_lt)

/-! ### Free tenant pairs -/

/-- The tenant pairs that no VD has, in the order of their numbers. -/
def State.freePairs (s : State) : List Nat := ((List.range (16384 - 256)).map (· + 256)).filter fun q => !(s.pair q).assigned

theorem State.mem_freePairs {s : State} {q : Nat} :
    q ∈ s.freePairs ↔ 256 ≤ q ∧ q < 16384 ∧ (s.pair q).assigned = false := by
  simp only [State.freePairs, List.mem_filter, List.mem_map, List.mem_range, Bool.not_eq_true']
  constructor
  · rintro ⟨⟨i, hi, rfl⟩, h⟩
    exact ⟨by omega, by omega, h⟩
  · rintro ⟨hlo, hhi, h⟩
    exact ⟨⟨q - 256, by omega, by omega⟩, h⟩

theorem State.freePairs_sorted (s : State) : s.freePairs.Pairwise (· < ·) := by
  refine List.Pairwise.filter _ (List.pairwise_map.2 (List.pairwise_lt_range.imp ?_))
  intro a b h
  omega

/-- Pairs given to a VD, each as a local queue. -/
def State.assignPairs (s : State) (v : Nat) (l : List (Nat × Nat)) : State :=
  l.foldl (fun s e => s.setPair e.2 { assigned := true, vd := v, lq := e.1 }) s

theorem State.assignPairs_frame (v : Nat) (l : List (Nat × Nat)) (s : State) :
    s.assignPairs v l = { s with que := { s.que with pairs := (s.assignPairs v l).que.pairs } } := by
  induction l generalizing s with
  | nil => rfl
  | cons e l ih => exact ih (s.setPair e.2 { assigned := true, vd := v, lq := e.1 })

theorem State.pair_assignPairs_other {v q : Nat} {l : List (Nat × Nat)} (h : q ∉ l.map Prod.snd) (s : State) :
    (s.assignPairs v l).pair q = s.pair q := by
  induction l generalizing s with
  | nil => rfl
  | cons e l ih =>
    obtain ⟨hne, hl⟩ := not_or.1 (List.mem_cons.not.1 h)
    exact (ih hl _).trans (by rw [State.pair_setPair, if_neg hne])

theorem State.pair_assignPairs_mem {v q i : Nat} {l : List (Nat × Nat)} (hl : (l.map Prod.snd).Nodup) (h : (i, q) ∈ l) (s : State) :
    (s.assignPairs v l).pair q = { assigned := true, vd := v, lq := i } := by
  induction l generalizing s with
  | nil => cases h
  | cons e l ih =>
    obtain ⟨hnot, hl⟩ := List.nodup_cons.1 hl
    rcases List.mem_cons.1 h with rfl | h
    · exact (State.pair_assignPairs_other hnot _).trans (State.pair_setPair_same ..)
    · exact ih hl h _

/-- A number is listed against its place. -/
theorem mem_zip_range {qs : List Nat} {i : Nat} (h : i < qs.length) : (i, qs[i]) ∈ (List.range qs.length).zip qs := by
  have hi : i < ((List.range qs.length).zip qs).length := by simpa using h
  have := List.getElem_mem hi
  rwa [List.getElem_zip, List.getElem_range] at this

theorem map_snd_zip_range (qs : List Nat) : ((List.range qs.length).zip qs).map Prod.snd = qs :=
  List.map_snd_zip (by rw [List.length_range])

theorem zip_range_append (qs r : List Nat) : (List.range qs.length).zip (qs ++ r) = (List.range qs.length).zip qs := by
  have h := List.zip_append (l₁ := List.range qs.length) (r₁ := []) (l₂ := qs) (r₂ := r) (by rw [List.length_range])
  rwa [List.append_nil, List.zip_nil_left, List.append_nil] at h

/-! ### VD_CREATE -/

/-- A new VD on VF n of a port. -/
def State.newVd (s : State) (c : Cmd) (v : Nat) (l : Limits) : Vd :=
  { st := .created, inc := ((s.vd v).inc + 1) % 2 ^ 24, limits := l, quiet := c.fld 0x10 25 1 = 1,
    vf := some (c.fld 0x10 0 1, c.fld 0x10 8 8), jkey := (s.takeFree 256).1 }

/-- The VF is attached to a new VD, which has no pairs yet. -/
def State.attachVd (s : State) (c : Cmd) (v : Nat) (l : Limits) : State :=
  let t := (s.takeFree 256).2.setVd v (s.newVd c v l)
  t.setVf (c.fld 0x10 0 1) (c.fld 0x10 8 8) { t.vf (c.fld 0x10 0 1) (c.fld 0x10 8 8) with vd := v }

/-- A new VD with the lowest free pairs. -/
def State.createVd (s : State) (c : Cmd) (v : Nat) (l : Limits) : State :=
  (s.attachVd c v l).assignPairs v ((List.range (c.fld 0x10 16 9)).zip s.freePairs)

/-- The lowest number in state NONE. -/
def State.freeVd (s : State) : Option Nat := lowestKey (fun v => (s.vd v).st = .none) 127 1

section
variable {c : Cmd} {s s1 : State} {l : Limits} (hread : s.readLimits c.seq (c.fld 0x14 0 32) = (some (.inr l), s1))
include hread

theorem effVdCreate_noNumber (h : s1.freeVd = none) : effVdCreate c s = s1.finish c.seq stAdmission 0x20 := by
  rw [State.freeVd] at h
  simp only [effVdCreate, hread, h]

variable {v : Nat} (hv : s1.freeVd = some v) (hsec : ¬ (s1.sec.level3 = true ∨ s1.sec.unlocking = true))
include hv hsec

theorem effVdCreate_noVf
    (h : s1.vfEnabled (c.fld 0x10 0 1) (c.fld 0x10 8 8) = false ∨ (s1.vf (c.fld 0x10 0 1) (c.fld 0x10 8 8)).vd ≠ 0) :
    effVdCreate c s = s1.finish c.seq stAdmission 0x21 := by
  rw [State.freeVd] at hv
  simp only [effVdCreate, hread, hv, hsec, if_false, Bool.not_eq_true', h, if_true]

variable (hvf : s1.vfEnabled (c.fld 0x10 0 1) (c.fld 0x10 8 8) = true) (hfree : (s1.vf (c.fld 0x10 0 1) (c.fld 0x10 8 8)).vd = 0)
include hvf hfree

theorem effVdCreate_noPairs (h : s1.freePairs.length < c.fld 0x10 16 9) :
    effVdCreate c s = s1.finish c.seq stAdmission 0x22 := by
  rw [State.freeVd] at hv
  rw [State.freePairs] at h
  simp only [effVdCreate, hread, hv, hsec, if_false, hvf, hfree, h, if_true, Bool.not_true, Bool.false_eq_true, ne_eq,
    not_true_eq_false, or_self]

theorem effVdCreate_creates (h : c.fld 0x10 16 9 ≤ s1.freePairs.length) :
    effVdCreate c s = (s1.createVd c v l).finishR c.seq stOK 0 ((s1.createVd c v l).vdHandle v) 0 := by
  rw [State.freeVd] at hv
  rw [State.freePairs] at h
  simp only [effVdCreate, hread, hv, hsec, if_false, hvf, hfree, Nat.not_lt.2 h, Bool.not_true, Bool.false_eq_true, ne_eq,
    not_true_eq_false, or_self]
  rfl
end

/-! ### What a created VD is -/

section
variable (s : State) (c : Cmd) (v : Nat) (l : Limits)

theorem State.vds_createVd : (s.createVd c v l).vds = sput {} v (s.newVd c v l) s.vds := by
  rw [State.createVd, State.assignPairs_frame]
  rfl

theorem State.vd_createVd_same : (s.createVd c v l).vd v = s.newVd c v l := by
  rw [State.vd, State.vds_createVd, sget_sput_same]

theorem State.vd_createVd_ne {u : Nat} (h : u ≠ v) : (s.createVd c v l).vd u = s.vd u := by
  rw [State.vd, State.vds_createVd, sget_sput_ne (h := h), State.vd]

theorem State.vdHandle_createVd : (s.createVd c v l).vdHandle v = v + 256 * (((s.vd v).inc + 1) % 2 ^ 24) := by
  rw [State.vdHandle, State.vd_createVd_same]
  rfl

theorem State.vf_createVd : ((s.createVd c v l).vf (c.fld 0x10 0 1) (c.fld 0x10 8 8)).vd = v := by
  have hports : (s.createVd c v l).host.ports = (s.attachVd c v l).host.ports := by
    rw [State.createVd, State.assignPairs_frame]
  rw [State.vf_of_ports hports, State.attachVd, State.vf_setVf_same]

theorem State.cmds_createVd : (s.createVd c v l).que.cmds = s.que.cmds := by
  rw [State.createVd, State.assignPairs_frame]
  rfl

variable {s c} {qs : List Nat} (hlen : qs.length = c.fld 0x10 16 9) (hsort : qs.Pairwise (· < ·))
  (hfree : ∀ q ∈ qs, q ∈ s.freePairs)
  (hleast : ∀ q ∈ s.freePairs, q ∉ qs → ∀ r ∈ qs, r < q)
include hlen hsort hfree hleast

/-- The lowest free pairs are the ones given out. -/
theorem State.createVd_eq : s.createVd c v l = (s.attachVd c v l).assignPairs v ((List.range qs.length).zip qs) := by
  have h : s.freePairs = qs ++ s.freePairs.filter (fun q => decide (q ∉ qs)) :=
    eq_append_of_least s.freePairs_sorted hsort hfree hleast
  rw [State.createVd, h, ← hlen, zip_range_append]

theorem State.pair_createVd_mem {i : Nat} (h : i < qs.length) :
    (s.createVd c v l).pair qs[i] = { assigned := true, vd := v, lq := i } := by
  rw [State.createVd_eq v l hlen hsort hfree hleast]
  exact State.pair_assignPairs_mem (by rw [map_snd_zip_range]; exact hsort.imp Nat.ne_of_lt) (mem_zip_range h) _

theorem State.pair_createVd_other {q : Nat} (h : q ∉ qs) : (s.createVd c v l).pair q = s.pair q := by
  rw [State.createVd_eq v l hlen hsort hfree hleast]
  exact State.pair_assignPairs_other (by rwa [map_snd_zip_range]) _
end

/-! ### The row VD_CREATE -/

theorem lowestKey_eq_none {p : Nat → Bool} {n k : Nat} (h : ∀ i, k ≤ i → i < k + n → p i = false) : lowestKey p n k = none := by
  induction n generalizing k with
  | zero => rfl
  | succ n ih =>
    rw [lowestKey, h k (Nat.le_refl k) (by omega), if_neg Bool.false_ne_true]
    exact ih fun i hlo hhi => h i (by omega) (by omega)

theorem State.freeVd_eq_none {s : State} (h : ∀ v, 1 ≤ v → v < 128 → (s.vd v).st ≠ .none) : s.freeVd = none :=
  lowestKey_eq_none fun v hlo hhi => decide_eq_false (h v hlo (by omega))

theorem State.freeVd_eq_some {s : State} {v : Nat} (hlo : 1 ≤ v) (hhi : v < 128) (h : (s.vd v).st = .none)
    (hbelow : ∀ u, 1 ≤ u → u < v → (s.vd u).st ≠ .none) : s.freeVd = some v :=
  lowestKey_eq_some hlo (by omega) (decide_eq_true h) fun u hu huv => decide_eq_false (hbelow u hu huv)

/-- VD_CREATE has read a well-formed limit record, and reading it changed only what a read of memory does. -/
structure State.CreateReads (s : State) (seq : Nat) (l : Limits) (s1 : State) : Prop where
  startable : s.Startable seq 0x10
  unstalled : s.stalled seq = false
  read : (s.started seq).readLimits seq ((s.cmd seq).fld 0x14 0 32) = (some (.inr l), s1)
  vds : s1.vds = s.vds
  que : s1.que = (s.started seq).que
  ports : s1.host.ports = s.host.ports
  single : s1.host.single = s.host.single
  sec : s1.sec = s.sec

section
variable {s s1 : State} {seq : Nat} {l : Limits} (h : s.CreateReads seq l s1)
include h

theorem State.CreateReads.exec_eq :
    exec (.vdCreate seq) s = .next (effVdCreate { s.cmd seq with phase := .running } (s.started seq)) := by
  change runXCmd seq 0x10 s effVdCreate = _
  rw [runXCmd, if_neg (by simp [h.unstalled]), h.startable.runCmd_eq]

theorem State.CreateReads.read_cmd : (s.started seq).readLimits ({ s.cmd seq with phase := .running } : Cmd).seq
    (({ s.cmd seq with phase := .running } : Cmd).fld 0x14 0 32) = (some (.inr l), s1) := by
  rw [show ({ s.cmd seq with phase := .running } : Cmd).seq = seq from State.seq_of_hasCmd h.startable.1]
  exact h.read

theorem State.CreateReads.hasCmd : s1.hasCmd seq = true := by
  rw [State.hasCmd_of_cmds (congrArg Que.cmds h.que)]
  exact h.startable.hasCmd_started

theorem State.CreateReads.status : (s1.cmd seq).status = stOK := by
  rw [State.cmd_of_cmds (congrArg Que.cmds h.que)]
  exact h.startable.status_started

theorem State.CreateReads.vd (v : Nat) : s1.vd v = s.vd v := by rw [State.vd, h.vds, State.vd]
theorem State.CreateReads.vf (p n : Nat) : s1.vf p n = s.vf p n := State.vf_of_ports h.ports p n
theorem State.CreateReads.pair (q : Nat) : s1.pair q = s.pair q := by rw [State.pair, h.que]; rfl

theorem State.CreateReads.vfEnabled (p n : Nat) : s1.vfEnabled p n = s.vfEnabled p n := by
  rw [State.vfEnabled, State.vfEnabled, State.port_of_ports h.ports, h.single]

theorem State.CreateReads.mem_freePairs {q : Nat} : q ∈ s1.freePairs ↔ 256 ≤ q ∧ q < 16384 ∧ (s.pair q).assigned = false := by
  rw [State.mem_freePairs, h.pair]

/-- A VD_CREATE that the binder refuses ends REJECTED_ADMISSION and makes no VD. -/
theorem State.CreateReads.refused {d : Nat}
    (heff : effVdCreate { s.cmd seq with phase := .running } (s.started seq) =
      s1.finish ({ s.cmd seq with phase := .running } : Cmd).seq stAdmission d) :
    ∃ s', exec (.vdCreate seq) s = .next s' ∧ s'.Ended seq stAdmission ∧ (s'.cmd seq).detail = d ∧ s'.vds = s.vds := by
  obtain ⟨hended, hdetail⟩ := State.refused_finish h.hasCmd h.status (st := stAdmission) (by decide) d
  refine ⟨s1.finish seq stAdmission d, ?_, hended, hdetail, (s1.onlyCmds_finish ..).vds.trans h.vds⟩
  rw [h.exec_eq, heff]
  exact congrArg (fun q => Host.Outcome.next (s1.finish q stAdmission d)) (State.seq_of_hasCmd h.startable.1)

theorem State.CreateReads.freeVd : s1.freeVd = s.freeVd := by
  rw [State.freeVd, State.freeVd]
  simp only [h.vd]

theorem State.CreateReads.noUnlock (hlevel : s.sec.level3 = false) (hunlock : s.sec.unlocking = false) :
    ¬ (s1.sec.level3 = true ∨ s1.sec.unlocking = true) := by
  simp [h.sec, hlevel, hunlock]

section
variable {v : Nat} (hv : s.freeVd = some v) (hlevel : s.sec.level3 = false) (hunlock : s.sec.unlocking = false)
include hv hlevel hunlock

theorem State.CreateReads.refused_vf
    (hvf : s.vfEnabled ((s.cmd seq).fld 0x10 0 1) ((s.cmd seq).fld 0x10 8 8) = false ∨
      (s.vf ((s.cmd seq).fld 0x10 0 1) ((s.cmd seq).fld 0x10 8 8)).vd ≠ 0) :
    ∃ s', exec (.vdCreate seq) s = .next s' ∧ s'.Ended seq stAdmission ∧ (s'.cmd seq).detail = 0x21 ∧ s'.vds = s.vds := by
  refine h.refused (effVdCreate_noVf h.read_cmd (h.freeVd.trans hv) (h.noUnlock hlevel hunlock) ?_)
  rw [h.vfEnabled, h.vf]
  exact hvf

variable (hvf : s.vfEnabled ((s.cmd seq).fld 0x10 0 1) ((s.cmd seq).fld 0x10 8 8) = true)
  (hdetached : (s.vf ((s.cmd seq).fld 0x10 0 1) ((s.cmd seq).fld 0x10 8 8)).vd = 0)
include hvf hdetached

theorem State.CreateReads.refused_pairs (hfew : s1.freePairs.length < (s.cmd seq).fld 0x10 16 9) :
    ∃ s', exec (.vdCreate seq) s = .next s' ∧ s'.Ended seq stAdmission ∧ (s'.cmd seq).detail = 0x22 ∧ s'.vds = s.vds := by
  refine h.refused (effVdCreate_noPairs h.read_cmd (h.freeVd.trans hv) (h.noUnlock hlevel hunlock) ?_ ?_ hfew)
  · rw [h.vfEnabled]
    exact hvf
  · rw [h.vf]
    exact hdetached

/-- VD_CREATE makes the VD and ends OK with its handle. -/
theorem State.CreateReads.creates (hroom : (s.cmd seq).fld 0x10 16 9 ≤ s1.freePairs.length) :
    ∃ s', exec (.vdCreate seq) s = .next s' ∧ s'.Ended seq stOK ∧
      (s'.cmd seq).result0 = (s1.createVd (s.cmd seq) v l).vdHandle v ∧ (s1.createVd (s.cmd seq) v l).OnlyCmds s' := by
  obtain ⟨t, ht⟩ : ∃ t, t = s1.createVd (s.cmd seq) v l := ⟨_, rfl⟩
  have hcmds : t.que.cmds = s1.que.cmds := by rw [ht, State.cmds_createVd]
  have heff := effVdCreate_creates h.read_cmd (h.freeVd.trans hv) (h.noUnlock hlevel hunlock)
    (by rw [h.vfEnabled]; exact hvf) (by rw [h.vf]; exact hdetached) hroom
  change _ = (s1.createVd (s.cmd seq) v l).finishR (s.cmd seq).seq _ _ ((s1.createVd (s.cmd seq) v l).vdHandle v) _ at heff
  rw [State.seq_of_hasCmd h.startable.1, ← ht] at heff
  rw [h.exec_eq, heff, ← ht]
  obtain ⟨hended, hresult⟩ := State.ended_finishR (by rw [State.hasCmd_of_cmds hcmds, h.hasCmd])
    (by rw [State.cmd_of_cmds hcmds, h.status]) (t.vdHandle v) 0
  exact ⟨_, rfl, hended, hresult, t.onlyCmds_finishR ..⟩
end
end

end Sys2Proof.Machine
end

section
/-!
PROOFS. Binding a VD (spec/11 R298 to R302, R310, R311; spec/06 R179): what the start of a prepare phase changes, and the
two ends of a first BIND of one part.
-/
namespace Sys2Proof.Machine

/-! ### What the start of a prepare phase leaves alone (R311) -/

/-- `t` has the bins of `s`, and each VD its state. -/
structure State.SameBins (s t : State) : Prop where
  bins : t.sbk.bins = s.sbk.bins
  st : ∀ v, (t.vd v).st = (s.vd v).st

theorem State.sameBins_refl (s : State) : s.SameBins s := ⟨rfl, fun _ => rfl⟩

theorem State.SameBins.trans {s t u : State} (h : s.SameBins t) (h' : t.SameBins u) : s.SameBins u :=
  ⟨h'.bins.trans h.bins, fun v => (h'.st v).trans (h.st v)⟩

theorem State.SameBins.bin {s t : State} (h : s.SameBins t) (b : Nat) : t.bin b = s.bin b := by
  rw [State.bin, h.bins, State.bin]

theorem State.sameBins_foldl {α : Type} {f : State → α → State} (h : ∀ (s : State) x, s.SameBins (f s x)) (l : List α)
    (s : State) :
    s.SameBins (l.foldl f s) :=
  List.foldlRecOn (motive := fun t : State => s.SameBins t) l f s.sameBins_refl fun _ ht x _ => ht.trans (h _ x)

theorem State.SameBins.setVd {s t : State} (h : s.SameBins t) {v : Nat} {d : Vd} (hd : d.st = (t.vd v).st) :
    s.SameBins (t.setVd v d) where
  bins := h.bins
  st u := by
    rw [State.vd_setVd]
    split
    next hu => rw [hd, hu, h.st]
    next => exact h.st u

theorem State.sameBins_setShare (s : State) (v n : Nat) : s.SameBins (s.setShare v n) := by
  rw [State.setShare]
  refine State.SameBins.setVd ⟨?_, ?_⟩ ?_
  exacts [rfl, fun _ => rfl, rfl]

theorem State.sameBins_setChange (s : State) (v : Nat) (c : Change) : s.SameBins (s.setChange v c) :=
  s.sameBins_refl.setVd rfl

theorem State.sameBins_openBinMoves (s : State) (v : Nat) (p : Placement) : s.SameBins (s.openBinMoves v p) := by
  refine State.sameBins_foldl (fun t e => ?_) _ s
  split
  · exact ⟨rfl, fun _ => rfl⟩
  · exact t.sameBins_refl

theorem State.sameBins_createCarve (s : State) (v k : Nat) (r : CarveReq) : s.SameBins (s.createCarve v k r) := by
  unfold State.createCarve
  split
  · refine State.SameBins.setVd (d := ?_) ⟨?_, ?_⟩ ?_
    exacts [rfl, fun _ => rfl, rfl]
  · exact s.sameBins_refl

theorem State.sameBins_formatFor (s : State) (v k g : Nat) : s.SameBins (s.formatFor v k g) := by
  unfold State.formatFor
  dsimp only
  split
  · exact ⟨rfl, fun _ => rfl⟩
  · exact s.sameBins_refl

theorem State.sameBins_openChanMoves (s : State) (v k : Nat) (new : List Nat) : s.SameBins (s.openChanMoves v k new) := by
  refine State.sameBins_foldl (fun t e => ?_) _ s
  dsimp only
  split
  · exact ⟨rfl, fun _ => rfl⟩
  · exact t.sameBins_refl

/-! ### Taking bins (R179) -/

/-- FREE bins of a list become INCOMING for a VD. -/
def State.takeFreeBins (s : State) (v : Nat) (l : List Nat) : State :=
  l.foldl (fun s b => if (s.bin b).st = .free then s.setBin b { s.bin b with st := .incoming, owner := v, hotId := 0 } else s) s

/-- The entries of the HOT bins of a list are evicted. -/
def State.evictAll (s : State) (l : List Nat) : State :=
  l.foldl (fun s b => if (s.bin b).st = .hot then s.evict (s.bin b).hotId else s) s

theorem State.takeBins_eq (s : State) (v : Nat) (p : Placement) :
    s.takeBins v p = (s.evictAll p.slots).takeFreeBins v p.slots := rfl

theorem State.vds_evict (s : State) (e : Nat) : (s.evict e).vds = s.vds := by
  rw [State.evict]
  exact foldl_unchanged State.vds (fun s b => s.toClearing b) _ s fun _ _ => rfl

theorem State.vds_takeBins (s : State) (v : Nat) (p : Placement) : (s.takeBins v p).vds = s.vds := by
  rw [State.takeBins_eq, State.takeFreeBins, foldl_unchanged State.vds, State.evictAll, foldl_unchanged State.vds]
  · intro t b
    split
    · exact t.vds_evict _
    · rfl
  · intro t b
    split <;> rfl

theorem State.evictAll_cold {s : State} {l : List Nat} (h : ∀ b ∈ l, (s.bin b).st ≠ .hot) : s.evictAll l = s :=
  List.foldlRecOn (motive := fun t : State => t = s) l _ rfl fun t ht b hb => by
    rw [ht, if_neg (h b hb)]

/-- A bin that is INCOMING for the VD stays so. -/
theorem State.takeFreeBins_keeps {v b : Nat} (l : List Nat) {s : State} (h : (s.bin b).st = .incoming ∧ (s.bin b).owner = v) :
    ((s.takeFreeBins v l).bin b).st = .incoming ∧ ((s.takeFreeBins v l).bin b).owner = v :=
  List.foldlRecOn (motive := fun t : State => (t.bin b).st = .incoming ∧ (t.bin b).owner = v) l _ h fun t ht c _ => by
    split
    · rw [State.bin_setBin]
      split
      · exact ⟨rfl, rfl⟩
      · exact ht
    · exact ht

theorem State.takeFreeBins_takes {v b : Nat} {l : List Nat} (hb : b ∈ l) {s : State} (h : (s.bin b).st = .free) :
    ((s.takeFreeBins v l).bin b).st = .incoming ∧ ((s.takeFreeBins v l).bin b).owner = v := by
  induction l generalizing s with
  | nil => cases hb
  | cons c l ih =>
    rw [State.takeFreeBins, List.foldl_cons]
    by_cases hc : b = c
    · subst hc
      rw [if_pos h]
      exact State.takeFreeBins_keeps l (by rw [State.bin_setBin, if_pos rfl]; exact ⟨rfl, rfl⟩)
    · refine ih ((List.mem_cons.1 hb).resolve_left hc) ?_
      split
      · rw [State.bin_setBin, if_neg hc]
        exact h
      · exact h

/-! ### The prepare phase begins -/

theorem State.change_setChange (s : State) (v : Nat) (c : Change) : (s.setChange v c).change v = some c := by
  rw [State.change, State.setChange, State.vd_setVd_same]
  rfl

/-- The change in progress is preparing; its placement's bins have been taken, and the rest leaves bins and states alone. -/
theorem State.beginChange_frame {s : State} {v : Nat} {c : Change} (h : s.change v = some c) :
    ∃ wait n, (s.beginChange v).change v = some { c with phase := .preparing, formatting := wait } ∧
      ((s.setShare v n).takeBins v c.place).SameBins (s.beginChange v) := by
  rw [State.beginChange, h]
  refine ⟨_, max (s.vd v).seamShare (shareOf c.alt c.place), State.change_setChange .., ?_⟩
  refine State.SameBins.trans ?_ (State.sameBins_setChange ..)
  refine State.SameBins.trans ?_ (State.sameBins_foldl (fun s k => s.sameBins_openChanMoves ..) ..)
  refine State.SameBins.trans ?_ (State.sameBins_foldl (fun s k => State.sameBins_foldl (fun s g => s.sameBins_formatFor ..) ..) ..)
  refine State.SameBins.trans ?_ (State.sameBins_foldl (fun s k => s.sameBins_createCarve ..) ..)
  exact State.sameBins_openBinMoves ..

theorem State.st_beginChange {s : State} {v : Nat} {c : Change} (h : s.change v = some c) (u : Nat) :
    ((s.beginChange v).vd u).st = (s.vd u).st := by
  obtain ⟨_, n, -, hsame⟩ := State.beginChange_frame h
  rw [hsame.st, State.vd, State.vds_takeBins]
  exact (s.sameBins_setShare v n).st u

theorem State.bin_beginChange {s : State} {v b : Nat} {c : Change} (h : s.change v = some c)
    (hcold : ∀ b ∈ c.place.slots, (s.bin b).st ≠ .hot) (hb : b ∈ c.place.slots) (hfree : (s.bin b).st = .free) :
    ((s.beginChange v).bin b).st = .incoming ∧ ((s.beginChange v).bin b).owner = v := by
  obtain ⟨_, n, -, hsame⟩ := State.beginChange_frame h
  rw [hsame.bin, State.takeBins_eq, State.evictAll_cold (s := s.setShare v n) hcold]
  exact State.takeFreeBins_takes hb hfree

/-! ### The verdicts of a BIND (R302) -/

/-- Does a part admit an alternative? -/
def Verdict.admits : Verdict → Bool
  | .ok _ => true
  | .fail _ => false

/-- What the verdicts make of the change in progress: its prepare phase on the first alternative admitted, or its end with
the last alternative's reason. -/
def State.decideBind (s : State) (v nalt : Nat) (ch : Change) (vs : List (Alt × Verdict)) : State :=
  match vs.findIdx? fun e => e.2.admits with
  | some i => (match vs[i]? with
    | some (a, .ok p) => (s.setChange v { ch with altIdx := i, alt := a, place := p }).beginChange v
    | _ => s)
  | none => (match vs.getLast? with
    | some (_, .fail rs) => s.abandonChange v stAdmission (bindDetail rs (nalt - 1) 0)
    | _ => s)

/-- The change of a BIND of one part once its request is read. -/
def State.readBind (s : State) (ch : Change) (r : ShapeReq) (dg : BitVec 384) (vs : List (Alt × Verdict)) : Change :=
  { ch with
    btset := r.btset, part := 0, nparts := r.nparts, rebindMs := r.rebindMs, joinMs := r.joinMs, nalt := r.nalt,
    devs := [s.devNo], digest := dg, alts := vs.map Prod.fst }

theorem State.startBind_eq {s s1 : State} {c : Cmd} {ch : Change} {r : ShapeReq} {rd : SetReader} {dg : BitVec 384}
    (hfirst : c.fld 0x14 0 1 = 0) (hst : (s.vd c.vd).st = .created) (hread : s.readShape c = (some (r, rd, dg), s1))
    (hone : r.nparts = 1) :
    s.startBind c ch =
      s1.decideBind c.vd r.nalt (s1.readBind ch r dg (s1.verdicts c.vd r 0 rd)) (s1.verdicts c.vd r 0 rd) := by
  have hkind : ¬ (c.fld 0x14 0 1 = 1) := by omega
  rw [State.startBind]
  simp only [hkind, hst, hread, hone, decide_true, Bool.false_eq_true, if_false, if_true, Bool.not_true, Nat.lt_irrefl,
    gt_iff_lt, false_and]
  rw [State.readBind, hone]
  rfl

section
variable {s : State} {v nalt : Nat} {ch : Change} {vs : List (Alt × Verdict)}

/-- The first alternative admitted is the one prepared. -/
theorem State.decideBind_ok {i : Nat} {a : Alt} {p : Placement} (hi : vs[i]? = some (a, .ok p))
    (hfirst : ∀ j < i, ∀ e, vs[j]? = some e → e.2.admits = false) :
    s.decideBind v nalt ch vs = (s.setChange v { ch with altIdx := i, alt := a, place := p }).beginChange v := by
  obtain ⟨hlt, hget⟩ := List.getElem?_eq_some_iff.1 hi
  have hfind : vs.findIdx? (fun e => e.2.admits) = some i := by
    refine List.findIdx?_eq_some_iff_getElem.2 ⟨hlt, by rw [hget]; rfl, fun j hj => ?_⟩
    simp [hfirst j hj _ (List.getElem?_eq_getElem (hj.trans hlt))]
  simp only [State.decideBind, hfind, hi]

/-- Where no alternative is admitted, the last one's reason is told. -/
theorem State.decideBind_fail {a : Alt} {e : Nat} (hnone : ∀ x ∈ vs, x.2.admits = false) (hlast : vs.getLast? = some (a, .fail e)) :
    s.decideBind v nalt ch vs = s.abandonChange v stAdmission (bindDetail e (nalt - 1) 0) := by
  have hfind : vs.findIdx? (fun e => e.2.admits) = none := List.findIdx?_eq_none_iff.2 hnone
  simp only [State.decideBind, hfind, hlast]
end

/-- The verdict on alternative i of a request of one part. -/
def State.verdictAt (s : State) (v : Nat) (r : ShapeReq) (rd : SetReader) (i : Nat) : Verdict :=
  s.admitAlt v {} (s.vd v).alt ((r.alts.getD i []).getD 0 {}) 0 r.nparts r.devs false none rd

theorem State.verdicts_getElem? (s : State) (v : Nat) {r : ShapeReq} (rd : SetReader) {i : Nat} (h : i < r.alts.length) :
    (s.verdicts v r 0 rd)[i]? = some ((r.alts.getD i []).getD 0 {}, s.verdictAt v r rd i) := by
  rw [State.verdicts, List.getElem?_map, List.getElem?_eq_getElem h, State.verdictAt, List.getD_eq_getElem _ _ h]
  rfl

theorem State.length_verdicts (s : State) (v : Nat) (r : ShapeReq) (rd : SetReader) :
    (s.verdicts v r 0 rd).length = r.alts.length := List.length_map ..

/-! ### A change that has prepared nothing is abandoned -/

/-- A BIND's change that still waits ends with its command, and the VD stays CREATED. -/
theorem State.abandonChange_waiting {s : State} {v : Nat} {c : Change} (h : s.change v = some c) (hphase : c.phase = .waiting)
    (hseq : c.seq ≠ 0) (hop : c.op = false) (hst : (s.vd v).st = .created) (st d : Nat) :
    s.abandonChange v st d = (s.popChange v).finish c.seq st d := by
  have hcreated : (((s.popChange v).finish c.seq st d).vd v).st = .created := by
    rw [(State.onlyCmds_finish ..).vd, State.popChange, State.vd_setVd_same]
    exact hst
  have hrelease : s.releasePrepared v = s := by
    rw [State.releasePrepared, h]
    exact if_pos (.inl hphase)
  rw [State.abandonChange, h]
  dsimp only
  rw [hrelease, if_pos hseq, hop, if_neg Bool.false_ne_true, State.settleSt]
  exact if_pos (.inr hcreated)

/-! ### The row BIND -/

/-- The change of a BIND just accepted. -/
def State.newBind (s : State) (seq : Nat) : Change := { kind := .bind, seq := seq, accepted := s.toll }

/-- The state in which a first BIND's change has joined the VD's changes. -/
def State.bindJoined (s : State) (seq : Nat) : State :=
  (s.started seq).setVd (s.cmd seq).vd { s.vd (s.cmd seq).vd with changes := [s.newBind seq] }

/-- A first BIND's change joins the VD's changes and starts at once. -/
theorem effBind_first {c : Cmd} {s : State} (hfirst : ¬ c.fld 0x14 0 1 = 1) (hidle : (s.vd c.vd).changes = [])
    (hcreated : (s.vd c.vd).st = .created) (hdrained : (s.vd c.vd).oldPlace = none) :
    effBind c s = (s.setVd c.vd { s.vd c.vd with changes := [{ kind := .bind, seq := c.seq, accepted := s.toll }] }).startBind c
      { kind := .bind, seq := c.seq, accepted := s.toll } := by
  rw [effBind]
  dsimp only
  rw [if_neg hfirst, hidle, if_neg (by simp), List.nil_append, if_neg (by simp [hcreated])]
  obtain ⟨t, ht⟩ : ∃ t, t = s.setVd c.vd { s.vd c.vd with changes := [{ kind := .bind, seq := c.seq, accepted := s.toll }] } :=
    ⟨_, rfl⟩
  have hvd : t.vd c.vd = { s.vd c.vd with changes := [{ kind := .bind, seq := c.seq, accepted := s.toll }] } := by
    rw [ht, State.vd_setVd_same]
  have hchange : t.change c.vd = some { kind := .bind, seq := c.seq, accepted := s.toll } := by
    rw [State.change, hvd]
    rfl
  rw [← ht, hchange]
  exact if_pos ⟨rfl, rfl, rfl, by rw [hvd, hdrained]; rfl⟩

/-- A first BIND of one part has read its request, and reading it changed only what a read of memory does. -/
structure State.BindReads (s : State) (seq : Nat) (r : ShapeReq) (rd : SetReader) (dg : BitVec 384) (s1 : State) : Prop where
  startable : s.Startable seq 0x12
  unstalled : s.stalled seq = false
  first : (s.cmd seq).fld 0x14 0 1 = 0
  created : (s.vd (s.cmd seq).vd).st = .created
  idle : (s.vd (s.cmd seq).vd).changes = []
  drained : (s.vd (s.cmd seq).vd).oldPlace = none
  read : (s.bindJoined seq).readShape { s.cmd seq with phase := .running } = (some (r, rd, dg), s1)
  vds : s1.vds = (s.bindJoined seq).vds
  que : s1.que = (s.bindJoined seq).que
  one : r.nparts = 1
  alts : r.alts.length = r.nalt

section
variable {s s1 : State} {seq : Nat} {r : ShapeReq} {rd : SetReader} {dg : BitVec 384} (h : s.BindReads seq r rd dg s1)
include h

theorem State.BindReads.effBind_eq : effBind { s.cmd seq with phase := .running } (s.started seq) =
    (s.bindJoined seq).startBind { s.cmd seq with phase := .running } (s.newBind seq) := by
  have hfirst : ¬ (({ s.cmd seq with phase := .running } : Cmd).fld 0x14 0 1 = 1) :=
    fun h1 => absurd (h.first.symm.trans h1) (by decide)
  rw [effBind_first (s := s.started seq) hfirst h.idle h.created h.drained]
  dsimp only
  rw [State.seq_of_hasCmd h.startable.1]
  rfl

theorem State.BindReads.exec_eq : exec (.bind seq) s = .next (s1.decideBind (s.cmd seq).vd r.nalt
    (s1.readBind (s.newBind seq) r dg (s1.verdicts (s.cmd seq).vd r 0 rd)) (s1.verdicts (s.cmd seq).vd r 0 rd)) := by
  have hst : ((s.bindJoined seq).vd (s.cmd seq).vd).st = .created := by
    rw [State.bindJoined, State.vd_setVd_same]
    exact h.created
  change runXCmd seq 0x12 s effBind = _
  rw [runXCmd, if_neg (by simp [h.unstalled]), h.startable.runCmd_eq, h.effBind_eq]
  exact congrArg Host.Outcome.next (State.startBind_eq h.first hst h.read h.one)

theorem State.BindReads.vd : s1.vd (s.cmd seq).vd = { s.vd (s.cmd seq).vd with changes := [s.newBind seq] } := by
  rw [State.vd, h.vds]
  exact State.vd_setVd_same ..

theorem State.BindReads.verdictAt_eq (i : Nat) : s1.verdictAt (s.cmd seq).vd r rd i =
    s1.admitAlt (s.cmd seq).vd {} (s.vd (s.cmd seq).vd).alt ((r.alts.getD i []).getD 0 {}) 0 1 r.devs false none rd := by
  rw [State.verdictAt, h.vd, h.one]

theorem State.BindReads.verdict_mem {i : Nat} (hi : i < r.nalt) : (s1.verdicts (s.cmd seq).vd r 0 rd)[i]? =
    some ((r.alts.getD i []).getD 0 {}, s1.verdictAt (s.cmd seq).vd r rd i) :=
  s1.verdicts_getElem? _ rd (by rw [h.alts]; exact hi)

/-- The first alternative that every check admits is prepared (R302, R311). -/
theorem State.BindReads.prepares {i : Nat} {p : Placement} (hi : i < r.nalt) (hok : s1.verdictAt (s.cmd seq).vd r rd i = .ok p)
    (hfirst : ∀ j < i, ∀ q, s1.verdictAt (s.cmd seq).vd r rd j ≠ .ok q) :
    ∃ s' c', exec (.bind seq) s = .next s' ∧ s'.change (s.cmd seq).vd = some c' ∧ c'.phase = .preparing ∧ c'.altIdx = i ∧
      c'.place = p ∧ c'.seq = seq ∧ (s'.vd (s.cmd seq).vd).st = .created ∧
      ((∀ b ∈ p.slots, (s1.bin b).st ≠ .hot) → ∀ b ∈ p.slots, (s1.bin b).st = .free →
        (s'.bin b).st = .incoming ∧ (s'.bin b).owner = (s.cmd seq).vd) := by
  have hvs := h.verdict_mem hi
  rw [hok] at hvs
  have hbefore (j : Nat) (hj : j < i) (e : Alt × Verdict) (he : (s1.verdicts (s.cmd seq).vd r 0 rd)[j]? = some e) :
      e.2.admits = false := by
    rw [h.verdict_mem (hj.trans hi), Option.some_inj] at he
    subst he
    cases hv : s1.verdictAt (s.cmd seq).vd r rd j with
    | ok q => exact absurd hv (hfirst j hj q)
    | fail x => rfl
  obtain ⟨c, hc⟩ : ∃ c : Change, c = { s1.readBind (s.newBind seq) r dg (s1.verdicts (s.cmd seq).vd r 0 rd) with
    altIdx := i, alt := (r.alts.getD i []).getD 0 {}, place := p } := ⟨_, rfl⟩
  have hexec : exec (.bind seq) s = .next ((s1.setChange (s.cmd seq).vd c).beginChange (s.cmd seq).vd) := by
    rw [h.exec_eq, State.decideBind_ok hvs hbefore, hc]
  have hchange := s1.change_setChange (s.cmd seq).vd c
  have hplace : c.place = p := by rw [hc]
  obtain ⟨wait, n, hpreparing, -⟩ := State.beginChange_frame hchange
  refine ⟨_, { c with phase := .preparing, formatting := wait }, hexec, hpreparing, rfl, ?_, hplace, ?_, ?_, ?_⟩
  · rw [hc]
  · rw [hc]
    rfl
  · rw [State.st_beginChange hchange, (s1.sameBins_setChange (s.cmd seq).vd c).st, h.vd]
    exact h.created
  · intro hcold b hb hfree
    exact State.bin_beginChange hchange (by rw [hplace]; exact hcold) (by rw [hplace]; exact hb) hfree

/-- A request that no check of admission lets pass ends with the last alternative's reason (R302). -/
theorem State.BindReads.rejects (hne : r.nalt ≠ 0) {e : Nat}
    (hnone : ∀ i < r.nalt, ∃ x, s1.verdictAt (s.cmd seq).vd r rd i = .fail x)
    (hlast : s1.verdictAt (s.cmd seq).vd r rd (r.nalt - 1) = .fail e) :
    ∃ s', exec (.bind seq) s = .next s' ∧ s'.Ended seq stAdmission ∧ (s'.cmd seq).detail = e + 256 * (r.nalt - 1) ∧
      (s'.vd (s.cmd seq).vd).changes = [] ∧ (s'.vd (s.cmd seq).vd).st = .created := by
  have hlen := (s1.length_verdicts (s.cmd seq).vd r rd).trans h.alts
  have hfail (x : Alt × Verdict) (hx : x ∈ s1.verdicts (s.cmd seq).vd r 0 rd) : x.2.admits = false := by
    obtain ⟨i, hi⟩ := List.mem_iff_getElem?.1 hx
    have hlt : i < r.nalt := hlen ▸ (List.getElem?_eq_some_iff.1 hi).1
    obtain ⟨y, hy⟩ := hnone i hlt
    rw [h.verdict_mem hlt, Option.some_inj, hy] at hi
    rw [← hi]
    rfl
  have hget : (s1.verdicts (s.cmd seq).vd r 0 rd).getLast? = some ((r.alts.getD (r.nalt - 1) []).getD 0 {}, .fail e) := by
    rw [List.getLast?_eq_getElem?, hlen, h.verdict_mem (by omega), hlast]
  have hchange : s1.change (s.cmd seq).vd = some (s.newBind seq) := by
    rw [State.change, h.vd]
    rfl
  have hcreated : (s1.vd (s.cmd seq).vd).st = .created := by
    rw [h.vd]
    exact h.created
  have hcmds : (s1.popChange (s.cmd seq).vd).que.cmds = (s.started seq).que.cmds := congrArg Que.cmds h.que
  have hseq : seq ≠ 0 := by
    intro h0
    have := h.startable.1
    simp [State.hasCmd, h0] at this
  obtain ⟨hended, hdetail⟩ := State.refused_finish (s := s1.popChange (s.cmd seq).vd) (q := seq)
    (by rw [State.hasCmd_of_cmds hcmds, h.startable.hasCmd_started])
    (by rw [State.cmd_of_cmds hcmds, h.startable.status_started]) (st := stAdmission) (by decide) (bindDetail e (r.nalt - 1) 0)
  have hvd := ((s1.popChange (s.cmd seq).vd).onlyCmds_finish seq stAdmission (bindDetail e (r.nalt - 1) 0)).vd (s.cmd seq).vd
  rw [State.popChange, State.vd_setVd_same, h.vd] at hvd
  refine ⟨_, h.exec_eq.trans (congrArg Host.Outcome.next ?_), hended, ?_, ?_, ?_⟩
  · rw [State.decideBind_fail hfail hget]
    exact State.abandonChange_waiting hchange rfl hseq rfl hcreated _ _
  · rw [hdetail, bindDetail]
    omega
  · rw [State.popChange, h.vd, hvd]
    rfl
  · rw [State.popChange, h.vd, hvd]
    exact h.created
end

end Sys2Proof.Machine
end

section
/-!
PROOFS. The teardown of a VD (spec/14 R399, R400; spec/07 R218): its begin, the end of the quiesce phase and the retire
phase; and the obligation on the VDs' begin, binding and end.
-/
namespace Sys2Proof.Machine

/-! ### The begin of a teardown -/

theorem State.vds_roleProgress (s : State) (v : Nat) : (s.roleProgress v).vds = s.vds := by
  unfold State.roleProgress
  split
  · rfl
  · split <;> rfl

/-- A VD without changes has none to stop. -/
theorem State.vds_stopChanges {s : State} {v : Nat} (h : (s.vd v).changes = []) :
    (s.stopChanges v).vds = sput {} v { s.vd v with changes := [], passing := [] } s.vds := by
  rw [State.stopChanges, h]
  exact State.vds_roleProgress ..

theorem State.vds_dropFaults (s : State) (v : Nat) : (s.dropFaults v).vds = s.vds := by
  rw [State.dropFaults, foldl_unchanged State.vds]
  · rfl
  · exact fun t q => (t.onlyCmds_finish ..).vds

theorem State.space_dropFaults (s : State) (v : Nat) :
    (s.dropFaults v).space v = { s.space v with ring := [], waiting := [] } := by
  rw [State.space, State.dropFaults, foldl_unchanged State.xlt]
  · exact State.space_setSpace_same ..
  · exact fun t q => (t.onlyCmds_finish ..).xlt

/-- A VD whose teardown has begun. -/
def Vd.closing (d : Vd) (t : Teardown) : Vd :=
  { d with st := .teardown, sec := { d.sec with session := none, tear := some t }, changes := [], passing := [] }

/-- The begin of a teardown of a VD without changes and without a message in its mailbox. -/
theorem State.beginTeardown_frame {s : State} {v : Nat} (hidle : (s.vd v).changes = []) (hbusy : (s.vd v).sec.mb.busy = false)
    (quiesce seq : Nat) :
    ((s.beginTeardown v quiesce seq).vd v = (s.vd v).closing
      { deadline := s.toll + ms (if quiesce = 0 then 50 else quiesce), seq := seq }) ∧
    (∀ u, u ≠ v → (s.beginTeardown v quiesce seq).vd u = s.vd u) ∧
    ((s.beginTeardown v quiesce seq).space v).ring = [] ∧ ((s.beginTeardown v quiesce seq).space v).waiting = [] := by
  obtain ⟨t, ht⟩ : ∃ t : Teardown, t = { deadline := s.toll + ms (if quiesce = 0 then 50 else quiesce), seq := seq } := ⟨_, rfl⟩
  obtain ⟨d, hd⟩ : ∃ d : Vd, d = { s.vd v with st := .teardown, sec := { (s.vd v).sec with session := none, tear := some t } } :=
    ⟨_, rfl⟩
  have heq : s.beginTeardown v quiesce seq = ((s.setVd v d).stopChanges v).dropFaults v := by
    rw [State.beginTeardown, hbusy, if_neg Bool.false_ne_true, hd, ht]
  have hdv : (s.setVd v d).vd v = d := State.vd_setVd_same ..
  have hvds : (s.beginTeardown v quiesce seq).vds = sput {} v ((s.vd v).closing t) (sput {} v d s.vds) := by
    rw [heq, State.vds_dropFaults, State.vds_stopChanges (by rw [hdv, hd]; exact hidle), hdv, hd]
    rfl
  refine ⟨?_, fun u hu => ?_, ?_⟩
  · rw [State.vd, hvds, sget_sput_same, ht]
  · rw [State.vd, hvds, sget_sput_ne (h := hu), sget_sput_ne (h := hu), State.vd]
  · rw [heq, State.space_dropFaults]
    exact ⟨rfl, rfl⟩

/-- VD_DESTROY of a VD that no teardown has met begins its teardown. -/
theorem exec_vdDestroy_begins {seq v : Nat} {s : State} (h : s.Startable seq 0x11) (hstalled : s.stalled seq = false)
    (hv : s.vdOfHandle ((s.cmd seq).fld 0x10 0 32) = some v) (hid : bitsOf ((s.cmd seq).fld 0x10 0 32) 6 0 = v)
    (htear : (s.vd v).sec.tear = none) :
    exec (.vdDestroy seq) s = .next ((s.started seq).beginTeardown v ((s.cmd seq).fld 0x14 0 16) seq) := by
  have hid' : bitsOf (({ s.cmd seq with phase := .running } : Cmd).fld 0x10 0 32) 6 0 = v := hid
  have htear' : ((s.started seq).vd v).sec.tear = none := htear
  have hv' : ¬ ((s.started seq).vdOfHandle (({ s.cmd seq with phase := .running } : Cmd).fld 0x10 0 32)).isNone = true := by
    rw [show (s.started seq).vdOfHandle (({ s.cmd seq with phase := .running } : Cmd).fld 0x10 0 32) = some v from hv]
    exact Bool.false_ne_true
  change execVdDestroy seq s = _
  rw [execVdDestroy, runXCmd, if_neg (by simp [hstalled]), h.runCmd_eq]
  dsimp only
  rw [hid', htear']
  dsimp only
  rw [if_neg hv']
  rfl

/-! ### The quiesce phase -/

section
variable {v : Nat} {s : State} {t : Teardown} (htear : (s.vd v).sec.tear = some t)
include htear

theorem exec_teardownQuiesceEnd_ends (hphase : t.phase = .quiesce) (h : t.deadline ≤ s.toll ∨ ∀ e ∈ s.que.cmds, e.2.vd ≠ v) :
    exec (.teardownQuiesceEnd v) s = .next (s.setTear v (some { t with phase := .force })) := by
  have hany : t.deadline ≤ s.toll ∨ (!s.que.cmds.any fun e => decide (e.2.vd = v)) = true :=
    h.imp_right fun h => by simpa using h
  change execTeardownQuiesceEnd v s = _
  simp only [execTeardownQuiesceEnd, htear]
  rw [if_pos ⟨hphase, hany⟩]

theorem exec_teardownQuiesceEnd_waits (hlate : s.toll < t.deadline) (h : ∃ e ∈ s.que.cmds, e.2.vd = v) :
    exec (.teardownQuiesceEnd v) s = .next s := by
  have hany : ¬ (t.deadline ≤ s.toll ∨ (!s.que.cmds.any fun e => decide (e.2.vd = v)) = true) := by
    rw [not_or, Bool.not_eq_true', Bool.not_eq_false, List.any_eq_true]
    exact ⟨Nat.not_le.2 hlate, by simpa using h⟩
  change execTeardownQuiesceEnd v s = _
  simp only [execTeardownQuiesceEnd, htear]
  rw [if_neg fun hp => hany hp.2]

/-! ### The retire phase (R218, R400) -/

theorem exec_teardownRetire_eq (hphase : t.phase = .retire) (hb : t.boundary = none) :
    exec (.teardownRetire v) s = .next ((((s.liveKeys v).foldl State.retireKey s).retireLinks v
      ((periodOf s.toll + 2) * tollPeriod)).setTear v (some { t with boundary := some ((periodOf s.toll + 2) * tollPeriod) })) := by
  change execTeardownRetire v s = _
  simp only [execTeardownRetire, htear]
  rw [if_pos ⟨hphase, by rw [hb]; rfl⟩]
end

/-- A key slot that is RETIRING until its zeroisation at b. -/
def KeySlot.retiringAt (k : KeySlot) (b : Nat) : KeySlot := { k with st := .retiring, drained := false, zeroAt := some b }

/-- Every key ID of a list is RETIRING, and no other changes. -/
theorem State.key_retireKeys (l : List Nat) (s : State) (k : Nat) : (l.foldl State.retireKey s).key k =
    if k ∈ l then (s.key k).retiringAt ((periodOf s.toll + 2) * tollPeriod) else s.key k := by
  induction l generalizing s with
  | nil => rfl
  | cons j l ih =>
    have hkey : (s.retireKey j).key k =
        if k = j then (s.key k).retiringAt ((periodOf s.toll + 2) * tollPeriod) else s.key k := by
      rw [State.key, State.retireKey, State.setKey, sget_sput]
      split
      next h => rw [h]; rfl
      next => rfl
    rw [List.foldl_cons, ih, hkey, show (s.retireKey j).toll = s.toll from rfl]
    by_cases hl : k ∈ l
    · rw [if_pos hl, if_pos (List.mem_cons_of_mem _ hl)]
      split <;> rfl
    · simp [hl]

theorem State.hbm_sendSystem (s : State) (d : Nat) (b : FrameBody) : (s.sendSystem d b).hbm = s.hbm := by
  rw [State.sendSystem]
  split
  · rfl
  · cases hport : s.pickPort 0 (s.reaching d) with
    | none => rfl
    | some r =>
      obtain ⟨p, t⟩ := r
      have ht : t.hbm = s.hbm := by
        obtain ⟨q, -, hq⟩ := Option.map_eq_some_iff.1 hport
        exact (congrArg (fun r => r.2.hbm) hq).symm
      exact (t.transmit_frame p _).2.2.trans ht

theorem State.hbm_sendNotice (s : State) (d g : Nat) (x y : Bool) (b : NoticeBody) : (s.sendNotice d g x y b).hbm = s.hbm := by
  rw [State.sendNotice]
  exact State.hbm_sendSystem ..

theorem State.hbm_retireLinks (s : State) (v b : Nat) : (s.retireLinks v b).hbm = s.hbm := by
  rw [State.retireLinks, foldl_unchanged State.hbm]
  intro t k
  exact State.hbm_sendNotice ..

/-- The key IDs that retire are the VD's. -/
theorem State.mem_liveKeys {s : State} (hwf : SMap.wf ({} : KeySlot) s.hbm.keys = true) {v k : Nat} :
    k ∈ s.liveKeys v ↔ k ≠ 0 ∧ (s.key k).vd = v ∧ s.key k ≠ {} ∧
      ((s.key k).st = .active ∨ (s.key k).st = .rolling ∨ ((s.key k).st = .empty ∧ (s.key k).peer.isSome = true)) := by
  simp only [State.liveKeys, List.mem_map, List.mem_filter, Prod.exists, exists_and_right, exists_eq_right, SMap.mem_iff hwf,
    Bool.and_eq_true, Bool.or_eq_true, decide_eq_true_eq, or_assoc]
  constructor
  · rintro ⟨x, ⟨rfl, hne⟩, ⟨hk, hvd⟩, hst⟩
    exact ⟨hk, hvd, hne, hst⟩
  · rintro ⟨hk, hvd, hne, hst⟩
    exact ⟨_, ⟨rfl, hne⟩, ⟨hk, hvd⟩, hst⟩

/-- What the retire phase makes of a key slot. -/
theorem State.key_retire (s : State) (v b k : Nat) (t : Option Teardown) :
    (((((s.liveKeys v).foldl State.retireKey s).retireLinks v b).setTear v t).key k) =
      if k ∈ s.liveKeys v then (s.key k).retiringAt ((periodOf s.toll + 2) * tollPeriod) else s.key k := by
  have hhbm : (((((s.liveKeys v).foldl State.retireKey s).retireLinks v b).setTear v t)).hbm =
      ((s.liveKeys v).foldl State.retireKey s).hbm := State.hbm_retireLinks ..
  rw [State.key, hhbm]
  exact State.key_retireKeys ..

/-- Settles O33: VD_CREATE and BIND are the equations of what follows their reads; the numbers, pairs and alternatives chosen
are the least that pass. A teardown's phases are the equations of its three rows. -/
theorem vdsBeginBindAndEnd : Obligations.VdsBeginBindAndEnd := by
  unfold Obligations.VdsBeginBindAndEnd
  refine ⟨?create, ?bind, ?destroy, ?quiesce, ?retire⟩
  case create =>
    intro seq s s1 l hstart hstalled c port n nq free hread hvds hque hports hsingle hsec
    have h : s.CreateReads seq l s1 := ⟨hstart, hstalled, hread, hvds, hque, hports, hsingle, hsec⟩
    refine ⟨fun hfull => h.refused (effVdCreate_noNumber h.read_cmd (h.freeVd.trans (State.freeVd_eq_none hfull))), ?_⟩
    intro v hlo hhi hst hbelow hlevel hunlock
    have hv := State.freeVd_eq_some hlo hhi hst hbelow
    refine ⟨h.refused_vf hv hlevel hunlock, fun hvf hdetached hfew => ?_, fun hvf hdetached qs hlen hsort hfree hleast => ?_⟩
    · exact h.refused_pairs hv hlevel hunlock hvf hdetached
        (hfew _ (s1.freePairs_sorted.imp Nat.ne_of_lt) fun q hq => h.mem_freePairs.1 hq)
    · have hmem (q : Nat) (hq : q ∈ qs) : q ∈ s1.freePairs := h.mem_freePairs.2 (hfree q hq)
      have hlow (q : Nat) (hq : q ∈ s1.freePairs) (hn : q ∉ qs) (r : Nat) (hr : r ∈ qs) : r < q :=
        hleast q r (h.mem_freePairs.1 hq) hn hr
      have hroom : nq ≤ s1.freePairs.length :=
        hlen ▸ (List.Nodup.subperm (hsort.imp Nat.ne_of_lt) hmem).length_le
      obtain ⟨s', hexec, hended, hresult, hcmds⟩ := h.creates hv hlevel hunlock hvf hdetached hroom
      have hinc : (s1.vd v).inc = (s.vd v).inc := by rw [h.vd]
      have hnew : s'.vd v = s1.newVd c v l := by rw [hcmds.vd, State.vd_createVd_same]
      rw [State.vdHandle_createVd, hinc] at hresult
      refine ⟨s', hexec, hended, hresult, ?_, ?_, ?_, ?_, ?_, ?_, fun i hi => ?_, fun q hq => ?_, fun u hu => ?_⟩
      · rw [hnew]; rfl
      · rw [hnew, ← hinc]; rfl
      · rw [hnew]; rfl
      · rw [hnew]; rfl
      · rw [hnew]; rfl
      · exact (congrArg Vf.vd (hcmds.vf ..)).trans (State.vf_createVd ..)
      · rw [hcmds.pair, State.pair_createVd_mem v l hlen hsort hmem hlow hi]
      · rw [hcmds.pair, State.pair_createVd_other v l hlen hsort hmem hlow hq, h.pair]
      · rw [hcmds.vd, State.vd_createVd_ne _ _ _ _ hu, h.vd]
  case bind =>
    intro seq s s1 r rd dg hstart hstalled c v s0 hfirst hst hidle hdrained hread hvds hque hone halts hne verdict
    have h : s.BindReads seq r rd dg s1 :=
      ⟨hstart, hstalled, hfirst, hst, hidle, hdrained, hread, hvds, hque, hone, halts⟩
    have hverdict (i : Nat) : s1.verdictAt v r rd i = verdict i := h.verdictAt_eq i
    refine ⟨fun i p hi hok hbefore => h.prepares hi ((hverdict i).trans hok) fun j hj q => ?_, fun e hnone hlast => ?_⟩
    · rw [hverdict]
      exact hbefore j hj q
    · exact h.rejects hne (fun i hi => (hnone i hi).imp fun x hx => (hverdict i).trans hx) ((hverdict _).trans hlast)
  case destroy =>
    intro seq s hstart hstalled c hd v hv htear hidle hbusy
    obtain ⟨hvd, hother, hring, hwaiting⟩ := State.beginTeardown_frame (s := s.started seq) (v := v) hidle hbusy
      (c.fld 0x14 0 16) seq
    refine ⟨_, exec_vdDestroy_begins hstart hstalled hv rfl htear, ?_, ?_, ?_, hring, hwaiting, hother⟩
    · rw [hvd]; rfl
    · rw [hvd]; rfl
    · rw [hvd, ms, Nat.mul_comm]; rfl
  case quiesce =>
    intro v s t htear hphase
    refine ⟨fun h => ⟨_, exec_teardownQuiesceEnd_ends htear hphase h, ?_, ?_, rfl, rfl⟩,
      fun hlate h => exec_teardownQuiesceEnd_waits htear hlate h⟩
    · rw [State.setTear, State.vd_setVd_same]
    · rw [State.setTear, State.vd_setVd_same]
  case retire =>
    intro v s t htear hphase hb hwf
    refine ⟨_, exec_teardownRetire_eq htear hphase hb, ?_, fun k hk hvd hst => ?_, fun k hk => ?_⟩
    · rw [State.setTear, State.vd_setVd_same]
      rfl
    · have hne : s.key k ≠ {} := fun hd => by
        rw [hd] at hst
        exact absurd hst (by decide)
      rw [State.key_retire, if_pos ((State.mem_liveKeys hwf).2 ⟨hk, hvd, hne, hst.imp_right .inl⟩)]
      rfl
    · rw [State.key_retire, if_neg]
      intro hmem
      obtain ⟨hk0, hvd, -⟩ := (State.mem_liveKeys hwf).1 hmem
      exact hk.elim hk0 fun hn => hn hvd

end Sys2Proof.Machine
end
